-- ==== Sys2Proof/Word.lean ====
section
/-! DEFINITION. The word and byte types of the part (spec 00 R1-R4, 05 R114). -/
namespace Sys2Proof

/-- A 64-bit general register or memory word (R114). -/
abbrev Word := BitVec 64

/-- One byte, the smallest unit a store writes (R231). -/
abbrev Byte := BitVec 8

end Sys2Proof
end

