-- ==== Sys2Proof/Syntax.lean ====
section
/-! DEFINITION. The instructions and steps of the part: one constructor of `Instr` for each row of
spec/opcode_table.json. A constructor with an encoding is an instruction word (03 R59-R81); one without is a step
of some agent of the package (spec/95_what_each_step_holds.md), which carries as plain data what names it. -/
namespace Sys2Proof

/-- A general register number (R63). -/
abbrev Reg := BitVec 6
/-- An even register pair g(2d), g(2d+1): the upper five bits of the field (R77). -/
abbrev PairReg := BitVec 5
/-- A predicate number (R63). -/
abbrev Pred := BitVec 3
/-- An accumulator tile number (R63). -/
abbrev Tile := BitVec 4

/-- Condition codes of CMP and CMPI (R71). -/
inductive Cond where
  | eq | ne | ltS | leS | gtS | geS | ltN | geN | leN | gtN
  deriving DecidableEq, Repr

/-- Scope codes (R77). -/
inductive Scope where
  | thread | core | quad | die | pkg | sys
  deriving DecidableEq, Repr

/-- Order codes of ATOM and CAS (R70). -/
inductive AtomOrder where
  | rlx | die | pkg | sys
  deriving DecidableEq, Repr

/-- Access widths .b .h .w .d (R78). -/
inductive Width where
  | b | h | w | d
  deriving DecidableEq, Repr

/-- Widths of LD.acq (R77). -/
inductive LdWidth where
  | b | h | w | d | p | bS | hS | wS
  deriving DecidableEq, Repr

/-- Widths of ST.rel (R77). -/
inductive StWidth where
  | b | h | w | d | p
  deriving DecidableEq, Repr

/-- Cache levels of PREF (R77). -/
inductive PrefLevel where
  | l1 | l2 | llc
  deriving DecidableEq, Repr

/-- Lane types of the packed operations and PFMA (R70, R75). -/
inductive Lane3 where
  | f32 | bf16 | f16
  deriving DecidableEq, Repr

/-- Lane types of PDOT (R75). -/
inductive Lane5 where
  | f32 | bf16 | f16 | e4m3 | e5m2
  deriving DecidableEq, Repr

/-- Element types of the MX instructions (R76): codes 4 to 8. -/
inductive MxType where
  | e4m3 | e5m2 | e3m2 | e2m3 | e2m1
  deriving DecidableEq, Repr

/-- Type codes 0 to 13 of CVT (R76). -/
inductive CvtType where
  | f64 | f32 | bf16 | f16 | e4m3 | e5m2 | e3m2 | e2m3 | e2m1 | e8m0 | s | n | i8 | i4
  deriving DecidableEq, Repr

/-- Rounding selector of CVT (R76): the RND CSR, or a mode of its own. -/
inductive RndSel where
  | csr | rne | rtz | rup | rdn | rna
  deriving DecidableEq, Repr

/-- A thread: its security domain and the handle of its context frame (R46, R110). -/
structure Tid where
  sdom : Nat
  handle : Nat
  deriving DecidableEq, Repr

/-- A gang: the security domain of its members and the virtual address of its record (R173). -/
structure GangId where
  sdom : Nat
  record : Nat
  deriving DecidableEq, Repr

/-- Where a queue-entry reservation is held (R339): a core's task queue, a thread's inbox, a die's engine queue. -/
inductive ResPlace where
  | task (core : Nat)
  | inbox (t : Tid)
  | engine (die : Nat)
  deriving DecidableEq, Repr

/-- A request that may be abandoned (R420): the oldest buffered store of a thread, an outstanding fill (past the last one: the access of
the instruction that holds the thread), an engine command. -/
inductive Outstanding where
  | store (t : Tid)
  | fill (t : Tid) (k : Nat)
  | engine (die id : Nat)
  deriving DecidableEq, Repr

/-- A Lazokel packet (R427, R428). -/
structure Packet where
  src : Nat
  dst : Nat
  op : Nat
  sdom : Nat
  seq : Nat
  p : Nat
  payload : List Word
  deriving DecidableEq, Repr

/-- A mailbox command (R448): CMD, LEN, SIGNER, SEQ, the payload words and the 64-byte signature. -/
structure MailCmd where
  cmd : Nat
  len : Nat
  signer : Nat
  seq : Nat
  payload : List Word
  sig : List Byte
  deriving DecidableEq, Repr

/-- A write to the management window (R435). -/
structure MgmtWrite where
  off : Nat
  val : Word
  fromHost : Bool
  deriving DecidableEq, Repr

/-- An inbound Ethernet access (R442): a get of `len` bytes, or a put of `data`. -/
structure Inbound where
  ep : Nat
  key : Word
  addr : Nat
  len : Nat
  data : Option (List Byte)
  deriving DecidableEq, Repr

/-- One constructor for each row of the opcode table. -/
inductive Instr where
  /-- ADD (R131): Adds two registers, in 64 bits or, with .w, in 32 bits sign-extended. -/
  | add (d : Reg) (a : Reg) (b : Reg) (w : Bool)
  /-- SUB (R131): Subtracts g[b] from g[a], in 64 or 32 bits. -/
  | sub (d : Reg) (a : Reg) (b : Reg) (w : Bool)
  /-- MUL (R131): Writes the low bits of the product of two registers. -/
  | mul (d : Reg) (a : Reg) (b : Reg) (w : Bool)
  /-- MULH_S (R131): Writes the high 64 bits of the signed product. -/
  | mulhS (d : Reg) (a : Reg) (b : Reg)
  /-- MULH_N (R131): Writes the high 64 bits of the unsigned product. -/
  | mulhN (d : Reg) (a : Reg) (b : Reg)
  /-- DIVS (R132): Signed division, an empty-bit producer that fills later, with fixed results for division by zero and overflow. -/
  | divs (d : Reg) (a : Reg) (b : Reg) (w : Bool)
  /-- DIVN (R132): Unsigned division as an empty-bit producer. -/
  | divn (d : Reg) (a : Reg) (b : Reg) (w : Bool)
  /-- REMS (R132): Signed remainder as an empty-bit producer. -/
  | rems (d : Reg) (a : Reg) (b : Reg) (w : Bool)
  /-- REMN (R132): Unsigned remainder as an empty-bit producer. -/
  | remn (d : Reg) (a : Reg) (b : Reg) (w : Bool)
  /-- AND (R131): Bitwise AND of two registers. -/
  | and (d : Reg) (a : Reg) (b : Reg)
  /-- OR (R131): Bitwise OR of two registers. -/
  | or (d : Reg) (a : Reg) (b : Reg)
  /-- XOR (R131): Bitwise exclusive-or of two registers. -/
  | xor (d : Reg) (a : Reg) (b : Reg)
  /-- ANDN (R131): AND of g[a] with the complement of g[b]. -/
  | andn (d : Reg) (a : Reg) (b : Reg)
  /-- ORN (R131): OR of g[a] with the complement of g[b]. -/
  | orn (d : Reg) (a : Reg) (b : Reg)
  /-- SHL (R131): Shifts left by g[b] modulo the width. -/
  | shl (d : Reg) (a : Reg) (b : Reg) (w : Bool)
  /-- SHR (R131): Logical right shift by g[b] modulo the width. -/
  | shr (d : Reg) (a : Reg) (b : Reg) (w : Bool)
  /-- ASR (R131): Arithmetic right shift by g[b] modulo the width. -/
  | asr (d : Reg) (a : Reg) (b : Reg) (w : Bool)
  /-- ROL (R131): Rotates left by g[b] modulo the width. -/
  | rol (d : Reg) (a : Reg) (b : Reg) (w : Bool)
  /-- ROR (R131): Rotates right by g[b] modulo the width. -/
  | ror (d : Reg) (a : Reg) (b : Reg) (w : Bool)
  /-- MIN_S (R131): Signed minimum of two registers. -/
  | minS (d : Reg) (a : Reg) (b : Reg)
  /-- MIN_N (R131): Unsigned minimum of two registers. -/
  | minN (d : Reg) (a : Reg) (b : Reg)
  /-- MAX_S (R131): Signed maximum of two registers. -/
  | maxS (d : Reg) (a : Reg) (b : Reg)
  /-- MAX_N (R131): Unsigned maximum of two registers. -/
  | maxN (d : Reg) (a : Reg) (b : Reg)
  /-- CLZ (R131): Counts leading zero bits. -/
  | clz (d : Reg) (a : Reg) (w : Bool)
  /-- POPC (R131): Counts one bits. -/
  | popc (d : Reg) (a : Reg) (w : Bool)
  /-- BREV (R131): Reverses the 64 bits of g[a]. -/
  | brev (d : Reg) (a : Reg)
  /-- LEA_X1 (R131): Writes g[a] + g[b]. -/
  | leaX1 (d : Reg) (a : Reg) (b : Reg)
  /-- LEA_X2 (R131): Writes g[a] + 2 × g[b]. -/
  | leaX2 (d : Reg) (a : Reg) (b : Reg)
  /-- LEA_X4 (R131): Writes g[a] + 4 × g[b]. -/
  | leaX4 (d : Reg) (a : Reg) (b : Reg)
  /-- LEA_X8 (R131): Writes g[a] + 8 × g[b]. -/
  | leaX8 (d : Reg) (a : Reg) (b : Reg)
  /-- MAD (R133): Writes g[a] × g[b] + g[c] truncated to 64 bits. -/
  | mad (d : Reg) (a : Reg) (b : Reg) (c : Reg)
  /-- SEL (R133): Selects g[a] or g[b] by a predicate and sense. -/
  | sel (d : Reg) (a : Reg) (b : Reg) (s : Bool) (p : Pred)
  /-- CMP (R134): Compares two registers under a condition code and writes a predicate. -/
  | cmp (p : Pred) (a : Reg) (b : Reg) (w : Bool) (c : Cond)
  /-- CMPI (R134): Compares g[a] with a sign-extended immediate and writes a predicate. -/
  | cmpi (c : Cond) (p : Pred) (a : Reg) (i : BitVec 14)
  /-- ADDI (R135): Adds a sign-extended immediate. -/
  | addi (d : Reg) (a : Reg) (i : BitVec 14)
  /-- ANDI (R135): ANDs a zero-extended immediate. -/
  | andi (d : Reg) (a : Reg) (i : BitVec 14)
  /-- ORI (R135): ORs a zero-extended immediate. -/
  | ori (d : Reg) (a : Reg) (i : BitVec 14)
  /-- XORI (R135): Exclusive-ors a zero-extended immediate. -/
  | xori (d : Reg) (a : Reg) (i : BitVec 14)
  /-- SHLI (R136): Shifts left by a constant amount. -/
  | shli (d : Reg) (a : Reg) (n : BitVec 6)
  /-- SHRI (R136): Logical right shift by a constant. -/
  | shri (d : Reg) (a : Reg) (n : BitVec 6)
  /-- ASRI (R136): Arithmetic right shift by a constant. -/
  | asri (d : Reg) (a : Reg) (n : BitVec 6)
  /-- RORI (R136): Rotates right by a constant. -/
  | rori (d : Reg) (a : Reg) (n : BitVec 6)
  /-- SHLI_W (R136): 32-bit shift left by a constant, sign-extended. -/
  | shliW (d : Reg) (a : Reg) (n : BitVec 5)
  /-- SHRI_W (R136): 32-bit logical right shift by a constant. -/
  | shriW (d : Reg) (a : Reg) (n : BitVec 5)
  /-- ASRI_W (R136): 32-bit arithmetic right shift by a constant. -/
  | asriW (d : Reg) (a : Reg) (n : BitVec 5)
  /-- RORI_W (R136): 32-bit rotate right by a constant. -/
  | roriW (d : Reg) (a : Reg) (n : BitVec 5)
  /-- MOVI (R137): Writes a sign-extended 20-bit immediate. -/
  | movi (d : Reg) (i : BitVec 20)
  /-- MOVHI (R137): Replaces halfword h of g[d] with a 16-bit immediate. -/
  | movhi (d : Reg) (h : BitVec 2) (i : BitVec 16)
  /-- BFX_S (R138): Extracts a bit field and sign-extends it. -/
  | bfxS (d : Reg) (a : Reg) (l : BitVec 6) (p : BitVec 6)
  /-- BFX_N (R138): Extracts a bit field and zero-extends it. -/
  | bfxN (d : Reg) (a : Reg) (l : BitVec 6) (p : BitVec 6)
  /-- BFI (R138): Inserts the low bits of g[a] into a field of g[d]. -/
  | bfi (d : Reg) (a : Reg) (l : BitVec 6) (p : BitVec 6)
  /-- LEA_PC (R139): Writes PC plus a word displacement. -/
  | leaPc (d : Reg) (i : BitVec 20)
  /-- BR (R141): Branches unconditionally by a 22-bit word displacement. -/
  | br (i : BitVec 22)
  /-- BRP (R141): Branches when a predicate, with sense, holds. -/
  | brp (s : Bool) (p : Pred) (i : BitVec 22)
  /-- JMP (R141): Jumps by a 26-bit word displacement. -/
  | jmp (i : BitVec 26)
  /-- CALL (R142): Pushes PC + 4 on the call stack and jumps by a 26-bit displacement. -/
  | call (i : BitVec 26)
  /-- NOP (R145): Advances the PC only. -/
  | nop
  /-- JMPR (R144): Jumps to the checked address in g[a]. -/
  | jmpr (a : Reg)
  /-- CALLR (R142): Pushes the return address and jumps to g[a]. -/
  | callr (a : Reg)
  /-- RET (R143): Issues the pop of the return address and holds the thread until it returns. -/
  | ret
  /-- EXIT (R359): Makes the thread DONE, sending a return message when g1 bit 63 is set. -/
  | exit
  /-- TRAP (R147): Raises the trap fault with a code. -/
  | trap (c : BitVec 6)
  /-- BRK (R147): Raises the breakpoint fault with a code. -/
  | brk (c : BitVec 6)
  /-- YIELD (R145): Completes as a NOP and yields the slot to a candidate of no lower priority. -/
  | yield
  /-- FADD (R155): Floating add rounded once in RND. -/
  | fadd (d : Reg) (a : Reg) (b : Reg) (t : Bool)
  /-- FSUB (R155): Floating subtract rounded once. -/
  | fsub (d : Reg) (a : Reg) (b : Reg) (t : Bool)
  /-- FMUL (R155): Floating multiply rounded once. -/
  | fmul (d : Reg) (a : Reg) (b : Reg) (t : Bool)
  /-- FDIV (R155): Floating divide as an empty-bit producer. -/
  | fdiv (d : Reg) (a : Reg) (b : Reg) (t : Bool)
  /-- FSQRT (R155): Floating square root as an empty-bit producer. -/
  | fsqrt (d : Reg) (a : Reg) (t : Bool)
  /-- FMIN (R156): Floating minimum with NaN preference rules. -/
  | fmin (d : Reg) (a : Reg) (b : Reg) (t : Bool)
  /-- FMAX (R156): Floating maximum with NaN preference rules. -/
  | fmax (d : Reg) (a : Reg) (b : Reg) (t : Bool)
  /-- FABS (R157): Floating absolute value. -/
  | fabs (d : Reg) (a : Reg) (t : Bool)
  /-- FNEG (R157): Floating negation. -/
  | fneg (d : Reg) (a : Reg) (t : Bool)
  /-- FCPYS (R157): Copies the sign of g[b] onto the magnitude of g[a]. -/
  | fcpys (d : Reg) (a : Reg) (b : Reg) (t : Bool)
  /-- FCLASS (R158): Writes a one-hot class mask of the operand. -/
  | fclass (d : Reg) (a : Reg) (t : Bool)
  /-- FCMP_EQ (R159): Writes a predicate for floating equality. -/
  | fcmpEq (p : Pred) (a : Reg) (b : Reg) (t : Bool)
  /-- FCMP_LT (R159): Writes a predicate for floating less-than. -/
  | fcmpLt (p : Pred) (a : Reg) (b : Reg) (t : Bool)
  /-- FCMP_LE (R159): Writes a predicate for floating less-or-equal. -/
  | fcmpLe (p : Pred) (a : Reg) (b : Reg) (t : Bool)
  /-- FCMP_UN (R159): Writes a predicate true when either operand is NaN. -/
  | fcmpUn (p : Pred) (a : Reg) (b : Reg) (t : Bool)
  /-- FRCP (R160): FP32 reciprocal rounded once, an empty-bit producer. -/
  | frcp (d : Reg) (a : Reg)
  /-- FRSQ (R160): FP32 reciprocal square root rounded once. -/
  | frsq (d : Reg) (a : Reg)
  /-- FEXP2 (R160): FP32 power of two rounded once. -/
  | fexp2 (d : Reg) (a : Reg)
  /-- FLOG2 (R160): FP32 base-2 logarithm rounded once. -/
  | flog2 (d : Reg) (a : Reg)
  /-- FMA (R161): Fused x × y + z rounded once. -/
  | fma (t : Bool) (d : Reg) (a : Reg) (b : Reg) (c : Reg)
  /-- FMS (R161): Fused x × y − z rounded once. -/
  | fms (t : Bool) (d : Reg) (a : Reg) (b : Reg) (c : Reg)
  /-- FNMA (R161): Fused −x × y − z rounded once. -/
  | fnma (t : Bool) (d : Reg) (a : Reg) (b : Reg) (c : Reg)
  /-- FNMS (R161): Fused −x × y + z rounded once. -/
  | fnms (t : Bool) (d : Reg) (a : Reg) (b : Reg) (c : Reg)
  /-- PADD (R162): Lane-wise packed add. -/
  | padd (d : Reg) (a : Reg) (b : Reg) (t : Lane3)
  /-- PSUB (R162): Lane-wise packed subtract. -/
  | psub (d : Reg) (a : Reg) (b : Reg) (t : Lane3)
  /-- PMUL (R162): Lane-wise packed multiply. -/
  | pmul (d : Reg) (a : Reg) (b : Reg) (t : Lane3)
  /-- PMIN (R162): Lane-wise packed minimum. -/
  | pmin (d : Reg) (a : Reg) (b : Reg) (t : Lane3)
  /-- PMAX (R162): Lane-wise packed maximum. -/
  | pmax (d : Reg) (a : Reg) (b : Reg) (t : Lane3)
  /-- PDOT (R163): Exact dot product of lanes plus the FP32 addend in g[d], rounded once. -/
  | pdot (d : Reg) (a : Reg) (b : Reg) (t : Lane5)
  /-- PFMA (R164): Lane-wise fused multiply-add. -/
  | pfma (d : Reg) (a : Reg) (b : Reg) (c : Reg) (t : Lane3)
  /-- CVT (R166): Converts between data formats with a rounding code and .sat. -/
  | cvt (d : Reg) (a : Reg) (s : Bool) (r : RndSel) (t : CvtType) (u : CvtType)
  /-- MXPACK (R170): Packs eight FP32 values into MX elements under a control word. -/
  | mxpack (d : Reg) (a : Reg) (b : Reg) (t : MxType)
  /-- MXUNPACK (R171): Expands eight MX elements into FP32 values. -/
  | mxunpack (d : Reg) (a : Reg) (b : Reg) (t : MxType)
  /-- MXSCALE (R169): Chains the block maximum over a chunk and derives the E8M0 scale. -/
  | mxscale (d : Reg) (a : Reg) (b : Reg) (t : MxType)
  /-- LD_B (R240): Loads a byte zero-extended. -/
  | ldB (d : Reg) (a : Reg) (o : BitVec 14)
  /-- LD_H (R240): Loads a halfword zero-extended. -/
  | ldH (d : Reg) (a : Reg) (o : BitVec 14)
  /-- LD_W (R240): Loads a word zero-extended. -/
  | ldW (d : Reg) (a : Reg) (o : BitVec 14)
  /-- LD_D (R240): Loads a doubleword. -/
  | ldD (d : Reg) (a : Reg) (o : BitVec 14)
  /-- LD_B_S (R240): Loads a byte sign-extended. -/
  | ldBS (d : Reg) (a : Reg) (o : BitVec 14)
  /-- LD_H_S (R240): Loads a halfword sign-extended. -/
  | ldHS (d : Reg) (a : Reg) (o : BitVec 14)
  /-- LD_W_S (R240): Loads a word sign-extended. -/
  | ldWS (d : Reg) (a : Reg) (o : BitVec 14)
  /-- LD_P (R240): Loads 16 bytes into an even register pair. -/
  | ldP (d : PairReg) (a : Reg) (o : BitVec 14)
  /-- ST_B (R241): Stores a byte through the store buffer. -/
  | stB (v : Reg) (a : Reg) (o : BitVec 14)
  /-- ST_H (R241): Stores a halfword. -/
  | stH (v : Reg) (a : Reg) (o : BitVec 14)
  /-- ST_W (R241): Stores a word. -/
  | stW (v : Reg) (a : Reg) (o : BitVec 14)
  /-- ST_D (R241): Stores a doubleword. -/
  | stD (v : Reg) (a : Reg) (o : BitVec 14)
  /-- ST_P (R241): Stores an even register pair as 16 bytes. -/
  | stP (v : PairReg) (a : Reg) (o : BitVec 14)
  /-- LD_ACQ (R240): Acquiring load at a scope, holding later memory instructions until bound. -/
  | ldAcq (d : Reg) (a : Reg) (s : Scope) (wd : LdWidth)
  /-- ST_REL (R241): Releasing store at a scope. -/
  | stRel (v : Reg) (a : Reg) (s : Scope) (wd : StWidth)
  /-- LDFE (R250): Loads a full word at its home and empties it, or is deferred or NACKed. -/
  | ldfe (d : Reg) (a : Reg) (s : Scope)
  /-- LDFE_K (R250): Loads a full word at its home and keeps it full. -/
  | ldfeK (d : Reg) (a : Reg) (s : Scope)
  /-- STFE (R250): Stores to an empty word at its home and fills it, or is NACKed. -/
  | stfe (v : Reg) (a : Reg) (s : Scope)
  /-- STFE_F (R250): Stores to a word at its home and sets it full whatever its bit. -/
  | stfeF (v : Reg) (a : Reg) (s : Scope)
  /-- PREF (R255): Prefetches a line into a named cache level without faulting. -/
  | pref (a : Reg) (l : PrefLevel)
  /-- FENCE (R276): Full fence at a scope. -/
  | fence (s : Scope)
  /-- FENCE_ACQ (R276): Acquire fence at a scope. -/
  | fenceAcq (s : Scope)
  /-- FENCE_REL (R276): Release fence at a scope. -/
  | fenceRel (s : Scope)
  /-- ATOM_ADD (R246): Indivisible add returning the old value. -/
  | atomAdd (d : Reg) (a : Reg) (b : Reg) (wd : Width) (o : AtomOrder)
  /-- ATOM_AND (R246): Indivisible AND returning the old value. -/
  | atomAnd (d : Reg) (a : Reg) (b : Reg) (wd : Width) (o : AtomOrder)
  /-- ATOM_OR (R246): Indivisible OR returning the old value. -/
  | atomOr (d : Reg) (a : Reg) (b : Reg) (wd : Width) (o : AtomOrder)
  /-- ATOM_XOR (R246): Indivisible exclusive-or returning the old value. -/
  | atomXor (d : Reg) (a : Reg) (b : Reg) (wd : Width) (o : AtomOrder)
  /-- ATOM_MIN_S (R246): Indivisible signed minimum. -/
  | atomMinS (d : Reg) (a : Reg) (b : Reg) (wd : Width) (o : AtomOrder)
  /-- ATOM_MIN_N (R246): Indivisible unsigned minimum. -/
  | atomMinN (d : Reg) (a : Reg) (b : Reg) (wd : Width) (o : AtomOrder)
  /-- ATOM_MAX_S (R246): Indivisible signed maximum. -/
  | atomMaxS (d : Reg) (a : Reg) (b : Reg) (wd : Width) (o : AtomOrder)
  /-- ATOM_MAX_N (R246): Indivisible unsigned maximum. -/
  | atomMaxN (d : Reg) (a : Reg) (b : Reg) (wd : Width) (o : AtomOrder)
  /-- ATOM_SWAP (R246): Indivisible swap. -/
  | atomSwap (d : Reg) (a : Reg) (b : Reg) (wd : Width) (o : AtomOrder)
  /-- ATOM_FADD_F32 (R246): Indivisible FP32 add under RNE. -/
  | atomFaddF32 (d : Reg) (a : Reg) (b : Reg) (o : AtomOrder)
  /-- ATOM_FADD_F64 (R246): Indivisible FP64 add under RNE. -/
  | atomFaddF64 (d : Reg) (a : Reg) (b : Reg) (o : AtomOrder)
  /-- ATOM_FMAX_F32 (R246): Indivisible FP32 maximum. -/
  | atomFmaxF32 (d : Reg) (a : Reg) (b : Reg) (o : AtomOrder)
  /-- CAS_W (R246): Indivisible 32-bit compare-and-swap. -/
  | casW (d : Reg) (a : Reg) (b : Reg) (c : Reg) (o : AtomOrder)
  /-- CAS_D (R246): Indivisible 64-bit compare-and-swap. -/
  | casD (d : Reg) (a : Reg) (b : Reg) (c : Reg) (o : AtomOrder)
  /-- GANG_FORM (R196): Makes the thread leader of a new gang through the record and waits until convened. -/
  | gangForm (d : Reg) (a : Reg) (b : Reg)
  /-- GANG_JOIN (R197): Joins the gang of a record, arming on its state word. -/
  | gangJoin (d : Reg) (a : Reg)
  /-- GANG_LEAVE (R200): Collective that dissolves the gang at resolution. -/
  | gangLeave
  /-- GANG_MMA (R199): Collective matrix operation with .sp, .gx and .q options, counted in ARRIVED. -/
  | gangMma (q : Bool) (g : Bool) (s : Bool)
  /-- MXBURST (R205): Sets BURST on the gang's units and starts their ramp. -/
  | mxburst (a : Reg)
  /-- MXWAIT (R206): Completes once the gang has no operation in flight. -/
  | mxwait
  /-- ACC_LD (R208): Reads two tile words into g[d] as an empty-bit producer. -/
  | accLd (d : Reg) (t : Tile) (b : Reg)
  /-- ACC_ST (R208): Writes two tile words from g[s]. -/
  | accSt (v : Reg) (t : Tile) (b : Reg)
  /-- ACC_ZERO (R209): Sets every element of a tile to 0. -/
  | accZero (t : Tile)
  /-- ACC_SCALE (R209): Multiplies every tile element by an FP32 factor. -/
  | accScale (t : Tile) (b : Reg)
  /-- ACC_CVT (R210): Converts and packs n tile elements into g[d]. -/
  | accCvt (d : Reg) (t : Tile) (b : Reg)
  /-- MXCFG (R204): Writes one engine register of the shadow set. -/
  | mxcfg (a : Reg) (b : Reg)
  /-- CPY (R371): Queues a byte copy engine command after acceptance checks. -/
  | cpy (a : Reg) (b : Reg) (s : Scope) (q : Bool) (r : Bool) (f : Bool)
  /-- CPY2D (R371): Queues a strided two-dimensional copy command. -/
  | cpy2d (a : Reg) (b : Reg) (s : Scope) (q : Bool) (r : Bool) (f : Bool)
  /-- DEAL (R371): Queues a command dealing source blocks into parts. -/
  | deal (a : Reg) (b : Reg) (s : Scope) (q : Bool) (r : Bool) (f : Bool)
  /-- RSTR (R302): Queues a live re-striping of a range to a new geometry. -/
  | rstr (a : Reg) (b : Reg) (s : Scope) (q : Bool) (r : Bool) (f : Bool)
  /-- MRED (R372): Queues an element-wise reduction of a source into a destination. -/
  | mred (a : Reg) (b : Reg) (s : Scope) (q : Bool) (r : Bool) (f : Bool)
  /-- ESYNC (R375): Completes, as an acquire, once earlier engine commands are done and visible. -/
  | esync (s : Scope)
  /-- SPAWN (R353): Sends a task request to a core's inbound task queue. -/
  | spawn (d : Reg) (a : Reg) (b : BitVec 4)
  /-- CALLAT (R353): Sends a task request whose thread returns a message at EXIT. -/
  | callat (d : Reg) (a : Reg) (b : BitVec 4)
  /-- SEND (R356): Delivers a tagged message to a thread's inbox. -/
  | send (d : Reg) (a : Reg) (b : Reg)
  /-- RECV (R357): Removes the oldest inbox message, or waits with a time-out. -/
  | recv (d : PairReg) (a : Reg)
  /-- WAIT (R361): Arms a watch on a word and waits while it holds the expected value. -/
  | wait (d : Reg) (a : Reg) (b : PairReg)
  /-- WAKE (R363): Completes the WAIT or SLEEP of a named thread. -/
  | wake (d : Reg) (a : Reg)
  /-- MIGR (R364): Moves the own thread to a target core or die. -/
  | migr (a : Reg)
  /-- SLEEP (R362): Waits for a number of ticks or a WAKE. -/
  | sleep (a : Reg)
  /-- PRIO (R365): Lowers or restores the own base priority. -/
  | prio (a : Reg)
  /-- RESUME (R367): Makes a FAULTED thread READY. -/
  | resume (d : Reg) (a : Reg)
  /-- KILL (R367): Makes a thread DONE, with a return message where due. -/
  | kill (d : Reg) (a : Reg)
  /-- THR (R366): Reads the state word of a named thread. -/
  | thr (d : Reg) (a : Reg)
  /-- FILL_INIT (R383): Arms a fill counter with an expected byte count. -/
  | fillInit (d : Reg) (a : Reg) (b : Reg)
  /-- FILL_ADD (R383): Adds bytes to a fill counter as a release. -/
  | fillAdd (d : Reg) (a : Reg) (b : Reg)
  /-- FILL_WAIT (R384): Waits until a fill counter reaches a phase. -/
  | fillWait (d : Reg) (a : Reg) (b : PairReg)
  /-- SBAR_ARRIVE (R388): Arrives at a Solstice barrier episode as a release. -/
  | sbarArrive (d : Reg) (a : Reg)
  /-- SBAR_WAIT (R389): Waits for a barrier episode to end and writes a predicate. -/
  | sbarWait (p : Pred) (a : Reg) (b : Reg)
  /-- TSCR (R380): Reads the time-stamp counter and core number after draining. -/
  | tscr (d : PairReg)
  /-- XCNT (R392): Reads an expert load counter with the generation. -/
  | xcnt (d : Reg) (a : Reg)
  /-- PCNT (R395): Reads, programs or releases a performance counter, or reads an error counter. -/
  | pcnt (d : Reg) (a : Reg) (b : Reg)
  /-- ROUTE (R314): Chooses a replica of an expert by token key, counting drain and load. -/
  | route (d : PairReg) (a : Reg) (b : Reg)
  /-- PLACEQ (R297): Returns the placement word and attributes of an address. -/
  | placeq (d : PairReg) (a : Reg)
  /-- TLBINV (R299): Starts invalidation of the domain's translations over a range. -/
  | tlbinv (a : Reg) (b : Reg)
  /-- GTSYNC (R300): Starts a reload of one Geometry Table entry into every die. -/
  | gtsync (a : Reg)
  /-- CSRR (R120): Reads a CSR into g[d]. -/
  | csrr (d : Reg) (c : BitVec 12)
  /-- CSRW (R120): Writes the writable bits of a CSR. -/
  | csrw (v : Reg) (c : BitVec 12)
  /-- CSRS (R120): Sets writable bits of a CSR. -/
  | csrs (v : Reg) (c : BitVec 12)
  /-- CSRC (R120): Clears writable bits of a CSR. -/
  | csrc (v : Reg) (c : BitVec 12)
  /-- UPRET (R409): Ends a handler thread, optionally resuming the served thread. -/
  | upret (a : Reg)
  /-- ERET (R409): Ends a handler thread and passes its record on with ESC set. -/
  | eret
  /-- HALT (R416): Puts the package into debug halt. -/
  | halt
  /-- FEAT (R453): Reads VERSION, FEATEN or FEATAVAIL. -/
  | feat (d : Reg) (a : Reg)
  /-- ATTEST (R454): Extends DMEAS or writes a signed report, performed at G0. -/
  | attest (d : Reg) (a : Reg) (b : Reg)
  /-- DBG_RD (R414): Reads device state by debug address. -/
  | dbgRd (d : Reg) (a : Reg)
  /-- DBG_WR (R414): Writes device state by debug address. -/
  | dbgWr (a : Reg) (b : Reg)
  /-- DBG_STEP (R415): Resumes a FAULTED thread with a step mark. -/
  | dbgStep (d : Reg) (a : Reg)
  /-- HNOP (R67): Hint with no effect. -/
  | hnop (x : BitVec 20)
  /-- HCTX (R67): Hint that starts a fetch of a register line. -/
  | hctx (r : Reg) (x : BitVec 14)
  /-- HFETCH (R67): Hint that starts a fetch of an instruction line. -/
  | hfetch (y : BitVec 6) (i : BitVec 14)
  /-- HINT_RESERVED (R67): Hint of a reserved class, executed as HNOP. -/
  | hintReserved (c : BitVec 6) (x : BitVec 20)
  /-- Step HOST_APERTURE_READ (R438): A host read of an aperture is translated and performed or refused. -/
  | hostApertureRead (n : Nat) (off : Nat) (len : Nat)
  /-- Step HOST_APERTURE_WRITE (R438): A host write of an aperture is translated and performed or refused. -/
  | hostApertureWrite (n : Nat) (off : Nat) (bs : List Byte)
  /-- Step ETHERNET_INBOUND_ACCESS (R442): An inbound remote access is checked against the key table and performed. -/
  | ethernetInboundAccess (a : Inbound)
  /-- Step PHASE_TURN (R52): At a phase's turn the March unit evaluates eligibility, picks the oldest thread and issues the group. -/
  | phaseTurn (core : Nat)
  /-- Step REGISTER_FILL (R34): A producer's value arrives at the register's context address, sets it full and ORs any flags. -/
  | registerFill (t : Tid) (k : Nat)
  /-- Step REGISTER_LINE_ARRIVAL (R32): An absent register line arrives and the BLOCKED LINE thread becomes RESIDENT. -/
  | registerLineArrival (t : Tid)
  /-- Step CONTROL_LINE_ARRIVAL (R50): The control line of a newly resident thread arrives and it becomes eligible. -/
  | controlLineArrival (t : Tid)
  /-- Step WALK_END (R290): A translation walk ends in a translation or a fault, releasing the blocked thread. -/
  | walkEnd (t : Tid)
  /-- Step RET_COMPLETION (R143): RET's return-address load returns and RET completes or faults. -/
  | retCompletion (t : Tid)
  /-- Step FERETRY_REISSUE (R32): After 256 cycles a negatively acknowledged thread returns to RESIDENT to re-issue. -/
  | feretryReissue (t : Tid)
  /-- Step STORE_BUFFER_DRAIN (R341): A thread's oldest store-buffer entry is performed at its target. -/
  | storeBufferDrain (t : Tid)
  /-- Step WAIT_DEADLINE (R360): A waiting instruction's deadline expires and it completes. -/
  | waitDeadline (t : Tid)
  /-- Step INSTRUCTION_REPLY (R351): The target's reply to SPAWN, CALLAT, SEND, RESUME, KILL or EXIT completes or NACKs it. -/
  | instructionReply (t : Tid)
  /-- Step ENGINE_ACCEPTANCE_REPLY (R370): The engine queue accepts or NACKs a command and releases its issuer. -/
  | engineAcceptanceReply (t : Tid)
  /-- Step FULL_EMPTY_REPLY (R251): The home replies performed, deferred or NACK to a full/empty instruction. -/
  | fullEmptyReply (t : Tid)
  /-- Step TLBINV_COMPLETION (R299): TLBINV completes once every dropped translation's accesses are visible and frames written back. -/
  | tlbinvCompletion (t : Tid)
  /-- Step GTSYNC_COMPLETION (R300): GTSYNC completes once every geometry cache holds the entry. -/
  | gtsyncCompletion (t : Tid)
  /-- Step MATERIALISATION (R38): The next UNBORN thread or gang of a launch becomes READY once admitted. -/
  | materialisation (l : Nat)
  /-- Step ACTIVATION (R47): A core's activation unit picks a candidate and gives it a slot, on an event or every 1 µs. -/
  | activation (core : Nat)
  /-- Step PRIORITY_AGING (R45): Every 50,000 ticks a READY thread's effective priority rises by one. -/
  | priorityAging (t : Tid)
  /-- Step PREEMPTION (R417): A resident thread is taken from its slot at its boundary, drained and written back. -/
  | preemption (t : Tid)
  /-- Step GANG_RESOLUTION (R199): When all members have arrived and no operation is in flight, the collective resolves. -/
  | gangResolution (g : GangId)
  /-- Step MATRIX_OPERATION_COMPLETION (R203): A unit writes its last tile element, clearing the lock. -/
  | matrixOperationCompletion (core : Nat)
  /-- Step RAMP_UP_END (R187): RAMPUP's filler cycles end and the unit is UP. -/
  | rampUpEnd (core : Nat)
  /-- Step RAMP_DOWN_START (R187): The 256th consecutive idle cycle starts RAMPDOWN. -/
  | rampDownStart (core : Nat)
  /-- Step RAMP_DOWN_END (R187): RAMPDOWN's 64 cycles end and the unit is DOWN. -/
  | rampDownEnd (core : Nat)
  /-- Step GANG_SAVE (R190): After the in-flight operation completes, the gang's tiles and record are saved and members evicted. -/
  | gangSave (g : GangId)
  /-- Step GANG_REACTIVATION (R191): A parked gang takes slots together and its tiles and shadow set are loaded. -/
  | gangReactivation (g : GangId)
  /-- Step GANG_BREAK (R214): After a member's kill and the in-flight operation, the gang is dissolved and waiting members faulted. -/
  | gangBreak (g : GangId)
  /-- Step LAUNCH_DOORBELL (R331): A host doorbell write makes the device read TAIL of the queue. -/
  | launchDoorbell (q : Nat)
  /-- Step LAUNCH_TAIL_NOTICE (R331): The armed watch notices a store to a device queue's TAIL. -/
  | launchTailNotice (q : Nat)
  /-- Step LAUNCH_QUEUE_POLL (R331): Every 100 µs the device reads TAIL and CANCEL of each queue. -/
  | launchQueuePoll (q : Nat)
  /-- Step LAUNCH_TAKE (R333): The device takes a launch record, checks it, opens or rejects it and advances HEAD. -/
  | launchTake (q : Nat)
  /-- Step TASK_CREATION (R355): A core creates a thread from the oldest admissible inbound task-queue entry. -/
  | taskCreation (core : Nat)
  /-- Step RESERVATION_LAPSE (R339): A queue-entry reservation expires after 1,000 ticks and passes on. -/
  | reservationLapse (p : ResPlace)
  /-- Step KILL_MESSAGE_RETRY (R367): Every 256 cycles a held kill message is offered again to a full inbox. -/
  | killMessageRetry (k : Nat)
  /-- Step ENGINE_COMMAND_START (R343): The die's engine starts the next accepted command when one of 16 runs frees. -/
  | engineCommandStart (die : Nat)
  /-- Step ENGINE_COMMAND_COMPLETION (R373): A command finishes, writes its status block and adds its fill. -/
  | engineCommandCompletion (die : Nat) (id : Nat)
  /-- Step RSTR_CHUNK_COMPLETE (R303): A chunk's copy completes, PROG advances and deferral entries move. -/
  | rstrChunkComplete (die : Nat) (r : Nat)
  /-- Step RSTR_ABORT (R305): An uncorrectable error in the copy aborts the transition. -/
  | rstrAbort (die : Nat) (r : Nat)
  /-- Step CARVE_CHANGE_END (R235): A carve growth or shrink completes and COUNT takes TARGET. -/
  | carveChangeEnd (die : Nat)
  /-- Step CARVE_UNIT_ZEROING_END (R233): A carve unit whose owner changed has been dropped and zeroed. -/
  | carveUnitZeroingEnd (die : Nat) (u : Nat)
  /-- Step SEGMENT_ZEROING_END (R234): A scratchpad segment whose owner changed has been zeroed. -/
  | segmentZeroingEnd (core : Nat) (seg : Nat)
  /-- Step EQUINOX_EVALUATION (R319): At its due tick Equinox decays counters, decides actions and starts replication copies. -/
  | equinoxEvaluation (die : Nat)
  /-- Step EQUINOX_COPY_COMPLETION (R321): A replication copy completes or fails and Equinox publishes the new generation. -/
  | equinoxCopyCompletion (die : Nat) (k : Nat) (ok : Bool)
  /-- Step SBAR_ARRIVAL_COUNT (R388): An arrival is counted two cycles after issue and may complete the episode. -/
  | sbarArrivalCount (n : Nat)
  /-- Step SBAR_EPISODE_END_DELIVERY (R391): The end of an episode reaches a core and releases its waiters. -/
  | sbarEpisodeEndDelivery (n : Nat) (core : Nat)
  /-- Step SBAR_DEADLINE (R390): A barrier waiter's deadline either advances or abandons the open episode. -/
  | sbarDeadline (t : Tid)
  /-- Step TSC_TICK (R377): Every copy of the time-stamp counter increments once per tick. -/
  | tscTick
  /-- Step UPCALL_SERVE (R404): A servable upcall record creates a handler thread in its destination pool. -/
  | upcallServe (die : Nat)
  /-- Step UNCORRECTABLE_ERROR (R418): A read that fails correction poisons the words it carries. -/
  | uncorrectableError (die : Nat) (pa : Nat)
  /-- Step CORRECTED_ERROR (R418): A corrected ECC error counts in error counter 0. -/
  | correctedError (die : Nat)
  /-- Step FLIT_CHECK_FAILURE (R419): A failed directory-update flit marks the line sharers lost and starts a recall. -/
  | flitCheckFailure (line : Nat)
  /-- Step SHARERS_LOST_RECALL_END (R419): The recall ends, the line is poisoned and a machine check issued. -/
  | sharersLostRecallEnd (line : Nat)
  /-- Step REQUEST_TIMEOUT (R420): A cross-die or host request unanswered within REQTO or HOSTTO is abandoned. -/
  | requestTimeout (o : Outstanding)
  /-- Step PACKAGE_RESET (R424): Reset starts bring-up with the ROM verifying and measuring firmware. -/
  | packageReset
  /-- Step DISCOVERY (R425): G0 challenges every die against the manifest. -/
  | discovery
  /-- Step LINK_TRAINING (R426): Lazokel links train and C-dies self-test. -/
  | linkTraining
  /-- Step MEMORY_TRAINING (R424): HBM4 and LPDDR6 train and every word is zeroed. -/
  | memoryTraining
  /-- Step CONFIGURATION (R429): The enabled set is fixed and standard geometries and routes recomputed. -/
  | configuration
  /-- Step RELEASE (R424): Every counter copy starts at 0 and cores accept work. -/
  | release
  /-- Step LINK_FAILURE (R434): A link fails after release; traffic re-routes and requests are re-sent. -/
  | linkFailure (l : Nat)
  /-- Step LINK_RETRAIN_END (R434): Retraining ends; a split package halts for good. -/
  | linkRetrainEnd (l : Nat) (ok : Bool)
  /-- Step CORE_RETIREMENT (R433): Retired cores' threads are pre-empted and reassigned and the scratchpad zeroed. -/
  | coreRetirement (cores : List Nat)
  /-- Step MANAGEMENT_WINDOW_WRITE (R435): A write to a management register with no row of its own. -/
  | managementWindowWrite (w : MgmtWrite)
  /-- Step CERT (R450): Mailbox command returning the device certificate chain. -/
  | cert (c : MailCmd)
  /-- Step TAKEOWN (R449): Mailbox command fusing OWNKEY. -/
  | takeown (c : MailCmd)
  /-- Step SETFEAT (R449): Mailbox command setting FEATEN. -/
  | setfeat (c : MailCmd)
  /-- Step MKDOM (R445): Mailbox command creating a security domain and its keys. -/
  | mkdom (c : MailCmd)
  /-- Step RMDOM (R445): Mailbox command destroying a security domain. -/
  | rmdom (c : MailCmd)
  /-- Step SETROOT (R449): Mailbox command writing a domain's ROOTPTR and dropping its TLB entries. -/
  | setroot (c : MailCmd)
  /-- Step SETAPER (R449): Mailbox command writing a host aperture. -/
  | setaper (c : MailCmd)
  /-- Step SETQUEUE (R330): Mailbox command writing a Queue Table entry. -/
  | setqueue (c : MailCmd)
  /-- Step SETEDT (R308): Mailbox command creating or destroying an expert domain. -/
  | setedt (c : MailCmd)
  /-- Step SETFDT (R408): Mailbox command writing a Fault Domain Table entry. -/
  | setfdt (c : MailCmd)
  /-- Step SETEP (R441): Mailbox command binding an Ethernet endpoint. -/
  | setep (c : MailCmd)
  /-- Step SETCARVE_TARGET (R235): Mailbox command writing TARGET to start a carve change. -/
  | setcarveTarget (c : MailCmd)
  /-- Step SETCARVE_CARVEDOM (R233): Mailbox command changing a carve unit's owner. -/
  | setcarveCarvedom (c : MailCmd)
  /-- Step SETSPDOM (R234): Mailbox command changing a scratchpad segment's owner. -/
  | setspdom (c : MailCmd)
  /-- Step SETSOLDOM (R386): Mailbox command changing a Solstice network's owner, abandoning its episode. -/
  | setsoldom (c : MailCmd)
  /-- Step SETGTBASE (R449): Mailbox command writing GTBASE. -/
  | setgtbase (c : MailCmd)
  /-- Step SETCOREOFF (R433): Mailbox command retiring cores. -/
  | setcoreoff (c : MailCmd)
  /-- Step SETMGMT_HALTED (R416): Mailbox command clearing HALTED to leave debug halt. -/
  | setmgmtHalted (c : MailCmd)
  /-- Step SETMGMT_REQTO (R449): Mailbox command writing REQTO. -/
  | setmgmtReqto (c : MailCmd)
  /-- Step SETMGMT_HOSTTO (R449): Mailbox command writing HOSTTO. -/
  | setmgmtHostto (c : MailCmd)
  /-- Step SETMGMT_ERROR_COUNTER (R396): Mailbox command clearing an error counter. -/
  | setmgmtErrorCounter (c : MailCmd)
  /-- Step SETMGMT_HOLD (R406): Mailbox command clearing HOLD of a machine-check record. -/
  | setmgmtHold (c : MailCmd)
  /-- Step MAILBOX_UNKNOWN_COMMAND (R448): A submitted command with an unknown CMD returns status 4. -/
  | mailboxUnknownCommand (c : MailCmd)
  /-- Step ETHERNET_TAIL_NOTICE (R442): An endpoint notices a store to its work ring's TAIL. -/
  | ethernetTailNotice (ep : Nat)
  /-- Step ETHERNET_POLL (R442): Every 100 µs an endpoint reads TAIL. -/
  | ethernetPoll (ep : Nat)
  /-- Step ETHERNET_PUT (R441): An endpoint takes a put work entry. -/
  | ethernetPut (ep : Nat)
  /-- Step ETHERNET_GET (R441): An endpoint takes a get work entry. -/
  | ethernetGet (ep : Nat)
  /-- Step ETHERNET_COMPLETION (R442): A work entry completes and writes its completion word. -/
  | ethernetCompletion (ep : Nat) (status : Nat)
  /-- Step ETHERNET_TRANSPORT_TIMEOUT (R442): A work entry times out in transport with status 35. -/
  | ethernetTransportTimeout (ep : Nat)
  /-- Step RDS (R428): Read-shared request arrives at the home. -/
  | rds (p : Packet)
  /-- Step RDX (R428): Read-exclusive request arrives at the home. -/
  | rdx (p : Packet)
  /-- Step RDU (R428): Uncached read request arrives at the home. -/
  | rdu (p : Packet)
  /-- Step WBL (R428): Line write-back arrives at the home. -/
  | wbl (p : Packet)
  /-- Step WRM (R428): Masked write arrives at the home. -/
  | wrm (p : Packet)
  /-- Step ATM (R428): Atomic or CAS request arrives and is performed at the home. -/
  | atm (p : Packet)
  /-- Step FEO (R428): Full/empty request arrives and is performed, deferred or NACKed at the home. -/
  | feo (p : Packet)
  /-- Step INV (R428): Invalidation arrives at a holder. -/
  | inv (p : Packet)
  /-- Step RCL (R428): Recall arrives at an owner. -/
  | rcl (p : Packet)
  /-- Step CTX (R428): Frame-line write arrives at the holder of the line. -/
  | ctx (p : Packet)
  /-- Step THR_PACKET (R428): Thread operation arrives at the die of the target frame. -/
  | thrPacket (p : Packet)
  /-- Step DMV (R428): Moved deferral entries arrive at the new home. -/
  | dmv (p : Packet)
  /-- Step INVT (R428): TLB or geometry invalidation arrives at a die. -/
  | invt (p : Packet)
  /-- Step HST (R428): Host-tier request arrives at G0. -/
  | hst (p : Packet)
  /-- Step MGT (R428): Management-window access arrives at a die. -/
  | mgt (p : Packet)
  /-- Step DATA (R428): Data reply arrives at the requester. -/
  | data (p : Packet)
  /-- Step ACK (R428): Acknowledgement reply arrives. -/
  | ack (p : Packet)
  /-- Step NACK (R428): Negative acknowledgement reply arrives. -/
  | nack (p : Packet)
  /-- Step DEFER (R428): Deferral reply arrives for a full/empty request. -/
  | defer (p : Packet)
  /-- Step OLD (R428): Old-value reply to an atomic arrives. -/
  | old (p : Packet)
  /-- Step IACK (R428): Invalidation acknowledgement arrives. -/
  | iack (p : Packet)
  /-- Step STAT (R428): Status reply of a thread operation arrives. -/
  | stat (p : Packet)
  /-- Step CACK (R428): Cumulative acknowledgement frees reply-cache entries and credits. -/
  | cack (p : Packet)
  /-- Step LAZOKEL_FLIT_RETRY (R396): A Lazokel flit fails its CRC and is replayed by UCIe, counting in error counter 3 of the receiving die. -/
  | lazokelFlitRetry (die : Nat)
  /-- Step UNASSIGNED_OP_PACKET (R428): A receiver discards a packet whose OP is unassigned or whose NWORDS does not match its OP, counting it in error counter 3 and answering nothing. -/
  | unassignedOpPacket (p : Packet)
  deriving DecidableEq, Repr

end Sys2Proof
end

