-- ==== Sys2Proof/WellFormed.lean ====
section
/-! DEFINITION. Which terms of `Instr` are instructions: the field requirements of 03 R63, R71-R77 and 05 R119 that the
types do not hold, and, for the steps of agents, the ranges of the numbers that name cores (01 R15), dies (R13), queues
(15 R330) and the like. -/
namespace Sys2Proof

/-- Code of a condition (R71). -/
def Cond.code : Cond → Nat
  | .eq => 0 | .ne => 1 | .ltS => 2 | .leS => 3 | .gtS => 4 | .geS => 5 | .ltN => 6 | .geN => 7 | .leN => 8 | .gtN => 9

/-- Code of a CVT type (R76). -/
def CvtType.code : CvtType → Nat
  | .f64 => 0 | .f32 => 1 | .bf16 => 2 | .f16 => 3 | .e4m3 => 4 | .e5m2 => 5 | .e3m2 => 6 | .e2m3 => 7 | .e2m1 => 8
  | .e8m0 => 9 | .s => 10 | .n => 11 | .i8 => 12 | .i4 => 13

/-- CVT's illegal pairs (R76): equal codes; both from 10 to 13; one 9 and the other not 1. -/
def cvtPairOk (t u : CvtType) : Bool :=
  t.code != u.code && !(decide (10 ≤ t.code) && decide (10 ≤ u.code)) &&
  !(t.code == 9 && u.code != 1) && !(u.code == 9 && t.code != 1)

/-- CSR numbers that a read may name (R119). -/
def csrReadable (c : Nat) : Bool := decide (c ≤ 0x00C) || c == 0x010

/-- CSR numbers that a write may name (R119): EMT, FPF, RND, STKP, PRED. -/
def csrWritable (c : Nat) : Bool := c == 0x006 || c == 0x007 || c == 0x008 || c == 0x00A || c == 0x00B

/-- A core number (R15). -/
def isCore (c : Nat) : Bool := decide (c < 2048)
/-- A die number (R13). -/
def isDie (d : Nat) : Bool := decide (d < 8)
/-- A Queue Table entry (R330). -/
def isQueue (q : Nat) : Bool := decide (q < 4096)
/-- An Ethernet port 4g + p (R450). -/
def isPort (e : Nat) : Bool := decide (e < 16)
/-- A thread name: a security domain (R444) and a handle of 47 bits that is not 0 (R110). -/
def Tid.wf (t : Tid) : Bool := decide (t.sdom < 1024) && decide (0 < t.handle) && decide (t.handle < 2 ^ 47)
/-- A gang name: a domain and the virtual address of a record (R173). -/
def GangId.wf (g : GangId) : Bool := decide (g.sdom < 1024) && decide (g.record < 2 ^ 64)
/-- A naturally aligned access of 1 to 128 bytes (R438). -/
def hostAligned (off n : Nat) : Bool := [1, 2, 4, 8, 16, 32, 64, 128].contains n && off % n == 0
/-- A packet whose header fields fit (R427). -/
def Packet.wf (p : Packet) : Bool := decide (p.op < 256) && decide (p.payload.length ≤ 17)
/-- A mailbox command whose CMD is the row's (R449). -/
def MailCmd.isCmd (c : MailCmd) (n : Nat) : Bool := c.cmd == n
/-- The selector word of SETCARVE and SETMGMT (R450). -/
def MailCmd.sel (c : MailCmd) (k : Nat) : Nat := (c.payload.getD k 0).toNat
/-- The command codes of R449. -/
def mailCodes : List Nat :=
  [0x01, 0x02, 0x10, 0x11, 0x12, 0x13, 0x20, 0x21, 0x22, 0x23, 0x24, 0x30, 0x31, 0x32, 0x33, 0x34, 0x35]

/-- Well-formed instructions and steps. -/
def Instr.wellFormed : Instr → Bool
  | .add _ _ _ _ => true
  | .sub _ _ _ _ => true
  | .mul _ _ _ _ => true
  | .mulhS _ _ _ => true
  | .mulhN _ _ _ => true
  | .divs _ _ _ _ => true
  | .divn _ _ _ _ => true
  | .rems _ _ _ _ => true
  | .remn _ _ _ _ => true
  | .and _ _ _ => true
  | .or _ _ _ => true
  | .xor _ _ _ => true
  | .andn _ _ _ => true
  | .orn _ _ _ => true
  | .shl _ _ _ _ => true
  | .shr _ _ _ _ => true
  | .asr _ _ _ _ => true
  | .rol _ _ _ _ => true
  | .ror _ _ _ _ => true
  | .minS _ _ _ => true
  | .minN _ _ _ => true
  | .maxS _ _ _ => true
  | .maxN _ _ _ => true
  | .clz _ _ _ => true
  | .popc _ _ _ => true
  | .brev _ _ => true
  | .leaX1 _ _ _ => true
  | .leaX2 _ _ _ => true
  | .leaX4 _ _ _ => true
  | .leaX8 _ _ _ => true
  | .mad _ _ _ _ => true
  | .sel _ _ _ _ _ => true
  | .cmp _ _ _ _ _ => true
  | .cmpi c _ _ _ => decide (c.code ≤ 7)
  | .addi _ _ _ => true
  | .andi _ _ _ => true
  | .ori _ _ _ => true
  | .xori _ _ _ => true
  | .shli _ _ _ => true
  | .shri _ _ _ => true
  | .asri _ _ _ => true
  | .rori _ _ _ => true
  | .shliW _ _ _ => true
  | .shriW _ _ _ => true
  | .asriW _ _ _ => true
  | .roriW _ _ _ => true
  | .movi _ _ => true
  | .movhi _ _ _ => true
  | .bfxS _ _ l p => decide (p.toNat + l.toNat + 1 ≤ 64)
  | .bfxN _ _ l p => decide (p.toNat + l.toNat + 1 ≤ 64)
  | .bfi _ _ l p => decide (p.toNat + l.toNat + 1 ≤ 64)
  | .leaPc _ _ => true
  | .br _ => true
  | .brp _ _ _ => true
  | .jmp _ => true
  | .call _ => true
  | .nop => true
  | .jmpr _ => true
  | .callr _ => true
  | .ret => true
  | .exit => true
  | .trap _ => true
  | .brk _ => true
  | .yield => true
  | .fadd _ _ _ _ => true
  | .fsub _ _ _ _ => true
  | .fmul _ _ _ _ => true
  | .fdiv _ _ _ _ => true
  | .fsqrt _ _ _ => true
  | .fmin _ _ _ _ => true
  | .fmax _ _ _ _ => true
  | .fabs _ _ _ => true
  | .fneg _ _ _ => true
  | .fcpys _ _ _ _ => true
  | .fclass _ _ _ => true
  | .fcmpEq _ _ _ _ => true
  | .fcmpLt _ _ _ _ => true
  | .fcmpLe _ _ _ _ => true
  | .fcmpUn _ _ _ _ => true
  | .frcp _ _ => true
  | .frsq _ _ => true
  | .fexp2 _ _ => true
  | .flog2 _ _ => true
  | .fma _ _ _ _ _ => true
  | .fms _ _ _ _ _ => true
  | .fnma _ _ _ _ _ => true
  | .fnms _ _ _ _ _ => true
  | .padd _ _ _ _ => true
  | .psub _ _ _ _ => true
  | .pmul _ _ _ _ => true
  | .pmin _ _ _ _ => true
  | .pmax _ _ _ _ => true
  | .pdot _ _ _ _ => true
  | .pfma _ _ _ _ _ => true
  | .cvt _ _ _ _ t u => cvtPairOk t u
  | .mxpack _ a _ _ => a.toNat % 4 == 0
  | .mxunpack d _ _ _ => d.toNat % 4 == 0
  | .mxscale _ a _ _ => a.toNat % 4 == 0
  | .ldB _ _ _ => true
  | .ldH _ _ _ => true
  | .ldW _ _ _ => true
  | .ldD _ _ _ => true
  | .ldBS _ _ _ => true
  | .ldHS _ _ _ => true
  | .ldWS _ _ _ => true
  | .ldP _ _ _ => true
  | .stB _ _ _ => true
  | .stH _ _ _ => true
  | .stW _ _ _ => true
  | .stD _ _ _ => true
  | .stP _ _ _ => true
  | .ldAcq d _ _ wd => !(decide (wd = .p) && d.toNat % 2 == 1)
  | .stRel v _ _ wd => !(decide (wd = .p) && v.toNat % 2 == 1)
  | .ldfe _ _ _ => true
  | .ldfeK _ _ _ => true
  | .stfe _ _ _ => true
  | .stfeF _ _ _ => true
  | .pref _ _ => true
  | .fence _ => true
  | .fenceAcq _ => true
  | .fenceRel _ => true
  | .atomAdd _ _ _ _ _ => true
  | .atomAnd _ _ _ _ _ => true
  | .atomOr _ _ _ _ _ => true
  | .atomXor _ _ _ _ _ => true
  | .atomMinS _ _ _ _ _ => true
  | .atomMinN _ _ _ _ _ => true
  | .atomMaxS _ _ _ _ _ => true
  | .atomMaxN _ _ _ _ _ => true
  | .atomSwap _ _ _ _ _ => true
  | .atomFaddF32 _ _ _ _ => true
  | .atomFaddF64 _ _ _ _ => true
  | .atomFmaxF32 _ _ _ _ => true
  | .casW _ _ _ _ _ => true
  | .casD _ _ _ _ _ => true
  | .gangForm _ _ _ => true
  | .gangJoin _ _ => true
  | .gangLeave => true
  | .gangMma _ _ _ => true
  | .mxburst _ => true
  | .mxwait => true
  | .accLd _ _ _ => true
  | .accSt _ _ _ => true
  | .accZero _ => true
  | .accScale _ _ => true
  | .accCvt _ _ _ => true
  | .mxcfg _ _ => true
  | .cpy _ b _ _ _ f => (f || b == 0)
  | .cpy2d _ b _ _ _ f => (f || b == 0)
  | .deal _ b _ _ _ f => (f || b == 0)
  | .rstr _ b _ _ _ f => (f || b == 0)
  | .mred _ b _ _ _ f => (f || b == 0)
  | .esync _ => true
  | .spawn _ _ _ => true
  | .callat _ _ _ => true
  | .send _ _ _ => true
  | .recv _ _ => true
  | .wait _ _ _ => true
  | .wake _ _ => true
  | .migr _ => true
  | .sleep _ => true
  | .prio _ => true
  | .resume _ _ => true
  | .kill _ _ => true
  | .thr _ _ => true
  | .fillInit _ _ _ => true
  | .fillAdd _ _ _ => true
  | .fillWait _ _ _ => true
  | .sbarArrive _ _ => true
  | .sbarWait _ _ _ => true
  | .tscr _ => true
  | .xcnt _ _ => true
  | .pcnt _ _ _ => true
  | .route _ _ _ => true
  | .placeq _ _ => true
  | .tlbinv _ _ => true
  | .gtsync _ => true
  | .csrr _ c => csrReadable c.toNat
  | .csrw _ c => csrWritable c.toNat
  | .csrs _ c => csrWritable c.toNat
  | .csrc _ c => csrWritable c.toNat
  | .upret _ => true
  | .eret => true
  | .halt => true
  | .feat _ _ => true
  | .attest _ _ _ => true
  | .dbgRd _ _ => true
  | .dbgWr _ _ => true
  | .dbgStep _ _ => true
  | .hnop _ => true
  | .hctx _ _ => true
  | .hfetch _ _ => true
  | .hintReserved c x => decide (3 ≤ c.toNat) && !(c.toNat == 63 && x.toNat == 0xFFFFF)
  | .phaseTurn core => isCore core
  | .registerFill t _ => t.wf
  | .registerLineArrival t => t.wf
  | .controlLineArrival t => t.wf
  | .walkEnd t => t.wf
  | .retCompletion t => t.wf
  | .feretryReissue t => t.wf
  | .storeBufferDrain t => t.wf
  | .waitDeadline t => t.wf
  | .instructionReply t => t.wf
  | .engineAcceptanceReply t => t.wf
  | .fullEmptyReply t => t.wf
  | .tlbinvCompletion t => t.wf
  | .gtsyncCompletion t => t.wf
  | .materialisation _ => true
  | .activation core => isCore core
  | .priorityAging t => t.wf
  | .preemption t => t.wf
  | .gangResolution g => g.wf
  | .matrixOperationCompletion core => isCore core
  | .rampUpEnd core => isCore core
  | .rampDownStart core => isCore core
  | .rampDownEnd core => isCore core
  | .gangSave g => g.wf
  | .gangReactivation g => g.wf
  | .gangBreak g => g.wf
  | .launchDoorbell q => isQueue q
  | .launchTailNotice q => isQueue q
  | .launchQueuePoll q => isQueue q
  | .launchTake q => isQueue q
  | .taskCreation core => isCore core
  | .reservationLapse _ => true
  | .killMessageRetry _ => true
  | .engineCommandStart die => isDie die
  | .engineCommandCompletion die _ => isDie die
  | .rstrChunkComplete die r => isDie die && decide (r < 64)
  | .rstrAbort die r => isDie die && decide (r < 64)
  | .carveChangeEnd die => isDie die
  | .carveUnitZeroingEnd die u => isDie die && decide (u < 128)
  | .segmentZeroingEnd core seg => isCore core && decide (seg < 32)
  | .equinoxEvaluation die => isDie die
  | .equinoxCopyCompletion die _ _ => isDie die
  | .sbarArrivalCount _ => true
  | .sbarEpisodeEndDelivery _ core => isCore core
  | .sbarDeadline t => t.wf
  | .tscTick => true
  | .upcallServe die => isDie die
  | .uncorrectableError die _ => isDie die
  | .correctedError die => isDie die
  | .flitCheckFailure _ => true
  | .sharersLostRecallEnd _ => true
  | .requestTimeout _ => true
  | .packageReset => true
  | .discovery => true
  | .linkTraining => true
  | .memoryTraining => true
  | .configuration => true
  | .release => true
  | .linkFailure l => decide (l < 19)
  | .linkRetrainEnd l _ => decide (l < 19)
  | .coreRetirement _ => true
  | .hostApertureRead n off len => decide (n < 64) && hostAligned off len
  | .hostApertureWrite n off bs => decide (n < 64) && hostAligned off bs.length
  | .managementWindowWrite _ => true
  | .cert c => c.isCmd 0x01
  | .takeown c => c.isCmd 0x02
  | .setfeat c => c.isCmd 0x10
  | .mkdom c => c.isCmd 0x11
  | .rmdom c => c.isCmd 0x12
  | .setroot c => c.isCmd 0x13
  | .setaper c => c.isCmd 0x20
  | .setqueue c => c.isCmd 0x21
  | .setedt c => c.isCmd 0x22
  | .setfdt c => c.isCmd 0x23
  | .setep c => c.isCmd 0x24
  | .setcarveTarget c => c.isCmd 0x30 && c.sel 1 == 0
  | .setcarveCarvedom c => c.isCmd 0x30 && c.sel 1 != 0
  | .setspdom c => c.isCmd 0x31
  | .setsoldom c => c.isCmd 0x32
  | .setgtbase c => c.isCmd 0x33
  | .setcoreoff c => c.isCmd 0x34
  | .setmgmtHalted c => c.isCmd 0x35 && c.sel 0 == 0
  | .setmgmtReqto c => c.isCmd 0x35 && c.sel 0 == 1
  | .setmgmtHostto c => c.isCmd 0x35 && c.sel 0 == 2
  | .setmgmtErrorCounter c => c.isCmd 0x35 && c.sel 0 == 3
  | .setmgmtHold c => c.isCmd 0x35 && decide (4 ≤ c.sel 0)
  | .mailboxUnknownCommand c => !(mailCodes.contains c.cmd)
  | .ethernetTailNotice ep => isPort ep
  | .ethernetPoll ep => isPort ep
  | .ethernetPut ep => isPort ep
  | .ethernetGet ep => isPort ep
  | .ethernetCompletion ep _ => isPort ep
  | .ethernetInboundAccess _ => true
  | .ethernetTransportTimeout ep => isPort ep
  | .rds p => p.op == 0x01 && p.wf
  | .rdx p => p.op == 0x02 && p.wf
  | .rdu p => p.op == 0x03 && p.wf
  | .wbl p => p.op == 0x04 && p.wf
  | .wrm p => p.op == 0x05 && p.wf
  | .atm p => p.op == 0x06 && p.wf
  | .feo p => p.op == 0x07 && p.wf
  | .inv p => p.op == 0x08 && p.wf
  | .rcl p => p.op == 0x09 && p.wf
  | .ctx p => p.op == 0x0A && p.wf
  | .thrPacket p => p.op == 0x0B && p.wf
  | .dmv p => p.op == 0x0C && p.wf
  | .invt p => p.op == 0x0D && p.wf
  | .hst p => p.op == 0x0E && p.wf
  | .mgt p => p.op == 0x0F && p.wf
  | .data p => p.op == 0x81 && p.wf
  | .ack p => p.op == 0x82 && p.wf
  | .nack p => p.op == 0x83 && p.wf
  | .defer p => p.op == 0x84 && p.wf
  | .old p => p.op == 0x85 && p.wf
  | .iack p => p.op == 0x86 && p.wf
  | .stat p => p.op == 0x87 && p.wf
  | .cack p => p.op == 0x8F && p.wf
  | .lazokelFlitRetry die => isDie die
  | .unassignedOpPacket p => p.wf

end Sys2Proof
end

