-- ==== Sys2Proof/Decode.lean ====
section
/-! DEFINITION. Decoding of the 32-bit instruction words (03 R59-R81) and the encoder, both written from the encoding
tables. `decode` is total on any bytes and names why it refuses; a refused word traps as illegal (R66). -/
namespace Sys2Proof

/-- Why bytes are no instruction (R66). -/
inductive DecodeError where
  /-- fewer than four bytes -/
  | short
  /-- the word 0xFFFF_FFFF -/
  | allOnes
  /-- an unassigned or reserved major opcode -/
  | major
  /-- no function, command or other selector of the major matches, or an unused field is not zero -/
  | selector
  /-- a width, type, scope, condition, level or rounding code that is unassigned -/
  | code
  /-- a field requirement stated in a table (R76, R72, R77, R119) -/
  | operands
  deriving DecidableEq, Repr

/-- Bits hi:lo of a word (R1). -/
def fld (n hi lo : Nat) : Nat := n / 2 ^ lo % 2 ^ (hi + 1 - lo)

/-- A one-bit field. -/
def fbit (n k : Nat) : Bool := fld n k k == 1

def Cond.ofCode : Nat → Except DecodeError Cond
  | 0 => .ok .eq | 1 => .ok .ne | 2 => .ok .ltS | 3 => .ok .leS | 4 => .ok .gtS | 5 => .ok .geS | 6 => .ok .ltN
  | 7 => .ok .geN | 8 => .ok .leN | 9 => .ok .gtN | _ => .error .code

def Scope.code : Scope → Nat
  | .thread => 0 | .core => 1 | .quad => 2 | .die => 3 | .pkg => 4 | .sys => 5
def Scope.ofCode : Nat → Except DecodeError Scope
  | 0 => .ok .thread | 1 => .ok .core | 2 => .ok .quad | 3 => .ok .die | 4 => .ok .pkg | 5 => .ok .sys
  | _ => .error .code

def AtomOrder.code : AtomOrder → Nat
  | .rlx => 0 | .die => 1 | .pkg => 2 | .sys => 3
def AtomOrder.ofCode : Nat → Except DecodeError AtomOrder
  | 0 => .ok .rlx | 1 => .ok .die | 2 => .ok .pkg | 3 => .ok .sys | _ => .error .code

def Width.code : Width → Nat
  | .b => 0 | .h => 1 | .w => 2 | .d => 3
def Width.ofCode : Nat → Except DecodeError Width
  | 0 => .ok .b | 1 => .ok .h | 2 => .ok .w | 3 => .ok .d | _ => .error .code

def LdWidth.code : LdWidth → Nat
  | .b => 0 | .h => 1 | .w => 2 | .d => 3 | .p => 4 | .bS => 8 | .hS => 9 | .wS => 10
def LdWidth.ofCode : Nat → Except DecodeError LdWidth
  | 0 => .ok .b | 1 => .ok .h | 2 => .ok .w | 3 => .ok .d | 4 => .ok .p | 8 => .ok .bS | 9 => .ok .hS
  | 10 => .ok .wS | _ => .error .code

def StWidth.code : StWidth → Nat
  | .b => 0 | .h => 1 | .w => 2 | .d => 3 | .p => 4
def StWidth.ofCode : Nat → Except DecodeError StWidth
  | 0 => .ok .b | 1 => .ok .h | 2 => .ok .w | 3 => .ok .d | 4 => .ok .p | _ => .error .code

def PrefLevel.code : PrefLevel → Nat
  | .l1 => 0 | .l2 => 1 | .llc => 2
def PrefLevel.ofCode : Nat → Except DecodeError PrefLevel
  | 0 => .ok .l1 | 1 => .ok .l2 | 2 => .ok .llc | _ => .error .code

def Lane3.code : Lane3 → Nat
  | .f32 => 0 | .bf16 => 1 | .f16 => 2
def Lane3.ofCode : Nat → Except DecodeError Lane3
  | 0 => .ok .f32 | 1 => .ok .bf16 | 2 => .ok .f16 | _ => .error .code

def Lane5.code : Lane5 → Nat
  | .f32 => 0 | .bf16 => 1 | .f16 => 2 | .e4m3 => 3 | .e5m2 => 4
def Lane5.ofCode : Nat → Except DecodeError Lane5
  | 0 => .ok .f32 | 1 => .ok .bf16 | 2 => .ok .f16 | 3 => .ok .e4m3 | 4 => .ok .e5m2 | _ => .error .code

def MxType.code : MxType → Nat
  | .e4m3 => 4 | .e5m2 => 5 | .e3m2 => 6 | .e2m3 => 7 | .e2m1 => 8
def MxType.ofCode : Nat → Except DecodeError MxType
  | 4 => .ok .e4m3 | 5 => .ok .e5m2 | 6 => .ok .e3m2 | 7 => .ok .e2m3 | 8 => .ok .e2m1 | _ => .error .code

def CvtType.ofCode : Nat → Except DecodeError CvtType
  | 0 => .ok .f64 | 1 => .ok .f32 | 2 => .ok .bf16 | 3 => .ok .f16 | 4 => .ok .e4m3 | 5 => .ok .e5m2 | 6 => .ok .e3m2
  | 7 => .ok .e2m3 | 8 => .ok .e2m1 | 9 => .ok .e8m0 | 10 => .ok .s | 11 => .ok .n | 12 => .ok .i8 | 13 => .ok .i4
  | _ => .error .code

def RndSel.code : RndSel → Nat
  | .csr => 0 | .rne => 1 | .rtz => 2 | .rup => 3 | .rdn => 4 | .rna => 5
def RndSel.ofCode : Nat → Except DecodeError RndSel
  | 0 => .ok .csr | 1 => .ok .rne | 2 => .ok .rtz | 3 => .ok .rup | 4 => .ok .rdn | 5 => .ok .rna | _ => .error .code

/-- Words of major 0x01. -/
def decodeMajor01 (n : Nat) : Except DecodeError Instr :=
  if fld n 6 0 = 0 then .ok (.add (.ofNat _ (fld n 25 20)) (.ofNat _ (fld n 19 14)) (.ofNat _ (fld n 13 8)) (fbit n 7))
  else if fld n 6 0 = 1 then .ok (.sub (.ofNat _ (fld n 25 20)) (.ofNat _ (fld n 19 14)) (.ofNat _ (fld n 13 8)) (fbit n 7))
  else if fld n 6 0 = 2 then .ok (.mul (.ofNat _ (fld n 25 20)) (.ofNat _ (fld n 19 14)) (.ofNat _ (fld n 13 8)) (fbit n 7))
  else if fld n 7 0 = 3 then .ok (.mulhS (.ofNat _ (fld n 25 20)) (.ofNat _ (fld n 19 14)) (.ofNat _ (fld n 13 8)))
  else if fld n 7 0 = 4 then .ok (.mulhN (.ofNat _ (fld n 25 20)) (.ofNat _ (fld n 19 14)) (.ofNat _ (fld n 13 8)))
  else if fld n 6 0 = 5 then .ok (.divs (.ofNat _ (fld n 25 20)) (.ofNat _ (fld n 19 14)) (.ofNat _ (fld n 13 8)) (fbit n 7))
  else if fld n 6 0 = 6 then .ok (.divn (.ofNat _ (fld n 25 20)) (.ofNat _ (fld n 19 14)) (.ofNat _ (fld n 13 8)) (fbit n 7))
  else if fld n 6 0 = 7 then .ok (.rems (.ofNat _ (fld n 25 20)) (.ofNat _ (fld n 19 14)) (.ofNat _ (fld n 13 8)) (fbit n 7))
  else if fld n 6 0 = 8 then .ok (.remn (.ofNat _ (fld n 25 20)) (.ofNat _ (fld n 19 14)) (.ofNat _ (fld n 13 8)) (fbit n 7))
  else if fld n 7 0 = 9 then .ok (.and (.ofNat _ (fld n 25 20)) (.ofNat _ (fld n 19 14)) (.ofNat _ (fld n 13 8)))
  else if fld n 7 0 = 0xa then .ok (.or (.ofNat _ (fld n 25 20)) (.ofNat _ (fld n 19 14)) (.ofNat _ (fld n 13 8)))
  else if fld n 7 0 = 0xb then .ok (.xor (.ofNat _ (fld n 25 20)) (.ofNat _ (fld n 19 14)) (.ofNat _ (fld n 13 8)))
  else if fld n 7 0 = 0xc then .ok (.andn (.ofNat _ (fld n 25 20)) (.ofNat _ (fld n 19 14)) (.ofNat _ (fld n 13 8)))
  else if fld n 7 0 = 0xd then .ok (.orn (.ofNat _ (fld n 25 20)) (.ofNat _ (fld n 19 14)) (.ofNat _ (fld n 13 8)))
  else if fld n 6 0 = 0x10 then .ok (.shl (.ofNat _ (fld n 25 20)) (.ofNat _ (fld n 19 14)) (.ofNat _ (fld n 13 8)) (fbit n 7))
  else if fld n 6 0 = 0x11 then .ok (.shr (.ofNat _ (fld n 25 20)) (.ofNat _ (fld n 19 14)) (.ofNat _ (fld n 13 8)) (fbit n 7))
  else if fld n 6 0 = 0x12 then .ok (.asr (.ofNat _ (fld n 25 20)) (.ofNat _ (fld n 19 14)) (.ofNat _ (fld n 13 8)) (fbit n 7))
  else if fld n 6 0 = 0x13 then .ok (.rol (.ofNat _ (fld n 25 20)) (.ofNat _ (fld n 19 14)) (.ofNat _ (fld n 13 8)) (fbit n 7))
  else if fld n 6 0 = 0x14 then .ok (.ror (.ofNat _ (fld n 25 20)) (.ofNat _ (fld n 19 14)) (.ofNat _ (fld n 13 8)) (fbit n 7))
  else if fld n 7 0 = 0x18 then .ok (.minS (.ofNat _ (fld n 25 20)) (.ofNat _ (fld n 19 14)) (.ofNat _ (fld n 13 8)))
  else if fld n 7 0 = 0x19 then .ok (.minN (.ofNat _ (fld n 25 20)) (.ofNat _ (fld n 19 14)) (.ofNat _ (fld n 13 8)))
  else if fld n 7 0 = 0x1a then .ok (.maxS (.ofNat _ (fld n 25 20)) (.ofNat _ (fld n 19 14)) (.ofNat _ (fld n 13 8)))
  else if fld n 7 0 = 0x1b then .ok (.maxN (.ofNat _ (fld n 25 20)) (.ofNat _ (fld n 19 14)) (.ofNat _ (fld n 13 8)))
  else if fld n 6 0 = 0x20 ∧ fld n 13 8 = 0 then .ok (.clz (.ofNat _ (fld n 25 20)) (.ofNat _ (fld n 19 14)) (fbit n 7))
  else if fld n 6 0 = 0x21 ∧ fld n 13 8 = 0 then .ok (.popc (.ofNat _ (fld n 25 20)) (.ofNat _ (fld n 19 14)) (fbit n 7))
  else if fld n 13 0 = 0x22 then .ok (.brev (.ofNat _ (fld n 25 20)) (.ofNat _ (fld n 19 14)))
  else if fld n 7 0 = 0x28 then .ok (.leaX1 (.ofNat _ (fld n 25 20)) (.ofNat _ (fld n 19 14)) (.ofNat _ (fld n 13 8)))
  else if fld n 7 0 = 0x29 then .ok (.leaX2 (.ofNat _ (fld n 25 20)) (.ofNat _ (fld n 19 14)) (.ofNat _ (fld n 13 8)))
  else if fld n 7 0 = 0x2a then .ok (.leaX4 (.ofNat _ (fld n 25 20)) (.ofNat _ (fld n 19 14)) (.ofNat _ (fld n 13 8)))
  else if fld n 7 0 = 0x2b then .ok (.leaX8 (.ofNat _ (fld n 25 20)) (.ofNat _ (fld n 19 14)) (.ofNat _ (fld n 13 8)))
  else .error .selector

/-- Words of major 0x02. -/
def decodeMajor02 (n : Nat) : Except DecodeError Instr :=
  if fld n 1 0 = 0 then .ok (.mad (.ofNat _ (fld n 25 20)) (.ofNat _ (fld n 19 14)) (.ofNat _ (fld n 13 8)) (.ofNat _ (fld n 7 2)))
  else if fld n 1 0 = 1 ∧ fld n 6 5 = 0 then .ok (.sel (.ofNat _ (fld n 25 20)) (.ofNat _ (fld n 19 14)) (.ofNat _ (fld n 13 8)) (fbit n 7) (.ofNat _ (fld n 4 2)))
  else .error .selector

/-- Words of major 0x03. -/
def decodeMajor03 (n : Nat) : Except DecodeError Instr :=
  if fld n 6 4 = 0 ∧ fld n 25 23 = 0 then do let c ← Cond.ofCode (fld n 3 0); return .cmp (.ofNat _ (fld n 22 20)) (.ofNat _ (fld n 19 14)) (.ofNat _ (fld n 13 8)) (fbit n 7) c
  else .error .selector

/-- Words of major 0x04. -/
def decodeMajor04 (n : Nat) : Except DecodeError Instr :=
  .ok (.addi (.ofNat _ (fld n 25 20)) (.ofNat _ (fld n 19 14)) (.ofNat _ (fld n 13 0)))

/-- Words of major 0x05. -/
def decodeMajor05 (n : Nat) : Except DecodeError Instr :=
  .ok (.andi (.ofNat _ (fld n 25 20)) (.ofNat _ (fld n 19 14)) (.ofNat _ (fld n 13 0)))

/-- Words of major 0x06. -/
def decodeMajor06 (n : Nat) : Except DecodeError Instr :=
  .ok (.ori (.ofNat _ (fld n 25 20)) (.ofNat _ (fld n 19 14)) (.ofNat _ (fld n 13 0)))

/-- Words of major 0x07. -/
def decodeMajor07 (n : Nat) : Except DecodeError Instr :=
  .ok (.xori (.ofNat _ (fld n 25 20)) (.ofNat _ (fld n 19 14)) (.ofNat _ (fld n 13 0)))

/-- Words of major 0x08. -/
def decodeMajor08 (n : Nat) : Except DecodeError Instr :=
  if fld n 13 6 = 0 then .ok (.shli (.ofNat _ (fld n 25 20)) (.ofNat _ (fld n 19 14)) (.ofNat _ (fld n 5 0)))
  else if fld n 13 6 = 0x20 then .ok (.shri (.ofNat _ (fld n 25 20)) (.ofNat _ (fld n 19 14)) (.ofNat _ (fld n 5 0)))
  else if fld n 13 6 = 0x40 then .ok (.asri (.ofNat _ (fld n 25 20)) (.ofNat _ (fld n 19 14)) (.ofNat _ (fld n 5 0)))
  else if fld n 13 6 = 0x60 then .ok (.rori (.ofNat _ (fld n 25 20)) (.ofNat _ (fld n 19 14)) (.ofNat _ (fld n 5 0)))
  else if fld n 13 5 = 0x100 then .ok (.shliW (.ofNat _ (fld n 25 20)) (.ofNat _ (fld n 19 14)) (.ofNat _ (fld n 4 0)))
  else if fld n 13 5 = 0x140 then .ok (.shriW (.ofNat _ (fld n 25 20)) (.ofNat _ (fld n 19 14)) (.ofNat _ (fld n 4 0)))
  else if fld n 13 5 = 0x180 then .ok (.asriW (.ofNat _ (fld n 25 20)) (.ofNat _ (fld n 19 14)) (.ofNat _ (fld n 4 0)))
  else if fld n 13 5 = 0x1c0 then .ok (.roriW (.ofNat _ (fld n 25 20)) (.ofNat _ (fld n 19 14)) (.ofNat _ (fld n 4 0)))
  else .error .selector

/-- Words of major 0x09. -/
def decodeMajor09 (n : Nat) : Except DecodeError Instr :=
  do let c ← Cond.ofCode (fld n 25 23); return .cmpi c (.ofNat _ (fld n 22 20)) (.ofNat _ (fld n 19 14)) (.ofNat _ (fld n 13 0))

/-- Words of major 0x0A. -/
def decodeMajor0A (n : Nat) : Except DecodeError Instr :=
  .ok (.movi (.ofNat _ (fld n 25 20)) (.ofNat _ (fld n 19 0)))

/-- Words of major 0x0B. -/
def decodeMajor0B (n : Nat) : Except DecodeError Instr :=
  if fld n 17 16 = 0 then .ok (.movhi (.ofNat _ (fld n 25 20)) (.ofNat _ (fld n 19 18)) (.ofNat _ (fld n 15 0)))
  else .error .selector

/-- Words of major 0x0C. -/
def decodeMajor0C (n : Nat) : Except DecodeError Instr :=
  if fld n 13 12 = 2 then .ok (.bfxS (.ofNat _ (fld n 25 20)) (.ofNat _ (fld n 19 14)) (.ofNat _ (fld n 11 6)) (.ofNat _ (fld n 5 0)))
  else if fld n 13 12 = 0 then .ok (.bfxN (.ofNat _ (fld n 25 20)) (.ofNat _ (fld n 19 14)) (.ofNat _ (fld n 11 6)) (.ofNat _ (fld n 5 0)))
  else .error .selector

/-- Words of major 0x0D. -/
def decodeMajor0D (n : Nat) : Except DecodeError Instr :=
  if fld n 13 12 = 0 then .ok (.bfi (.ofNat _ (fld n 25 20)) (.ofNat _ (fld n 19 14)) (.ofNat _ (fld n 11 6)) (.ofNat _ (fld n 5 0)))
  else .error .selector

/-- Words of major 0x0E. -/
def decodeMajor0E (n : Nat) : Except DecodeError Instr :=
  .ok (.leaPc (.ofNat _ (fld n 25 20)) (.ofNat _ (fld n 19 0)))

/-- Words of major 0x10. -/
def decodeMajor10 (n : Nat) : Except DecodeError Instr :=
  if fld n 25 22 = 0 then .ok (.br (.ofNat _ (fld n 21 0)))
  else .error .selector

/-- Words of major 0x11. -/
def decodeMajor11 (n : Nat) : Except DecodeError Instr :=
  .ok (.brp (fbit n 25) (.ofNat _ (fld n 24 22)) (.ofNat _ (fld n 21 0)))

/-- Words of major 0x12. -/
def decodeMajor12 (n : Nat) : Except DecodeError Instr :=
  .ok (.jmp (.ofNat _ (fld n 25 0)))

/-- Words of major 0x13. -/
def decodeMajor13 (n : Nat) : Except DecodeError Instr :=
  .ok (.call (.ofNat _ (fld n 25 0)))

/-- Words of major 0x14. -/
def decodeMajor14 (n : Nat) : Except DecodeError Instr :=
  if fld n 25 0 = 0 then .ok .nop
  else if fld n 13 0 = 1 ∧ fld n 25 20 = 0 then .ok (.jmpr (.ofNat _ (fld n 19 14)))
  else if fld n 13 0 = 2 ∧ fld n 25 20 = 0 then .ok (.callr (.ofNat _ (fld n 19 14)))
  else if fld n 25 0 = 3 then .ok .ret
  else if fld n 25 0 = 4 then .ok .exit
  else if fld n 7 0 = 5 ∧ fld n 25 14 = 0 then .ok (.trap (.ofNat _ (fld n 13 8)))
  else if fld n 7 0 = 6 ∧ fld n 25 14 = 0 then .ok (.brk (.ofNat _ (fld n 13 8)))
  else if fld n 25 0 = 7 then .ok .yield
  else .error .selector

/-- Words of major 0x15. -/
def decodeMajor15 (n : Nat) : Except DecodeError Instr :=
  if fld n 6 0 = 0 then .ok (.fadd (.ofNat _ (fld n 25 20)) (.ofNat _ (fld n 19 14)) (.ofNat _ (fld n 13 8)) (fbit n 7))
  else if fld n 6 0 = 1 then .ok (.fsub (.ofNat _ (fld n 25 20)) (.ofNat _ (fld n 19 14)) (.ofNat _ (fld n 13 8)) (fbit n 7))
  else if fld n 6 0 = 2 then .ok (.fmul (.ofNat _ (fld n 25 20)) (.ofNat _ (fld n 19 14)) (.ofNat _ (fld n 13 8)) (fbit n 7))
  else if fld n 6 0 = 3 then .ok (.fdiv (.ofNat _ (fld n 25 20)) (.ofNat _ (fld n 19 14)) (.ofNat _ (fld n 13 8)) (fbit n 7))
  else if fld n 6 0 = 4 ∧ fld n 13 8 = 0 then .ok (.fsqrt (.ofNat _ (fld n 25 20)) (.ofNat _ (fld n 19 14)) (fbit n 7))
  else if fld n 6 0 = 5 then .ok (.fmin (.ofNat _ (fld n 25 20)) (.ofNat _ (fld n 19 14)) (.ofNat _ (fld n 13 8)) (fbit n 7))
  else if fld n 6 0 = 6 then .ok (.fmax (.ofNat _ (fld n 25 20)) (.ofNat _ (fld n 19 14)) (.ofNat _ (fld n 13 8)) (fbit n 7))
  else if fld n 6 0 = 7 ∧ fld n 13 8 = 0 then .ok (.fabs (.ofNat _ (fld n 25 20)) (.ofNat _ (fld n 19 14)) (fbit n 7))
  else if fld n 6 0 = 8 ∧ fld n 13 8 = 0 then .ok (.fneg (.ofNat _ (fld n 25 20)) (.ofNat _ (fld n 19 14)) (fbit n 7))
  else if fld n 6 0 = 9 then .ok (.fcpys (.ofNat _ (fld n 25 20)) (.ofNat _ (fld n 19 14)) (.ofNat _ (fld n 13 8)) (fbit n 7))
  else if fld n 6 0 = 0xa ∧ fld n 13 8 = 0 then .ok (.fclass (.ofNat _ (fld n 25 20)) (.ofNat _ (fld n 19 14)) (fbit n 7))
  else if fld n 6 0 = 0x10 ∧ fld n 25 23 = 0 then .ok (.fcmpEq (.ofNat _ (fld n 22 20)) (.ofNat _ (fld n 19 14)) (.ofNat _ (fld n 13 8)) (fbit n 7))
  else if fld n 6 0 = 0x11 ∧ fld n 25 23 = 0 then .ok (.fcmpLt (.ofNat _ (fld n 22 20)) (.ofNat _ (fld n 19 14)) (.ofNat _ (fld n 13 8)) (fbit n 7))
  else if fld n 6 0 = 0x12 ∧ fld n 25 23 = 0 then .ok (.fcmpLe (.ofNat _ (fld n 22 20)) (.ofNat _ (fld n 19 14)) (.ofNat _ (fld n 13 8)) (fbit n 7))
  else if fld n 6 0 = 0x13 ∧ fld n 25 23 = 0 then .ok (.fcmpUn (.ofNat _ (fld n 22 20)) (.ofNat _ (fld n 19 14)) (.ofNat _ (fld n 13 8)) (fbit n 7))
  else if fld n 13 0 = 0x98 then .ok (.frcp (.ofNat _ (fld n 25 20)) (.ofNat _ (fld n 19 14)))
  else if fld n 13 0 = 0x99 then .ok (.frsq (.ofNat _ (fld n 25 20)) (.ofNat _ (fld n 19 14)))
  else if fld n 13 0 = 0x9a then .ok (.fexp2 (.ofNat _ (fld n 25 20)) (.ofNat _ (fld n 19 14)))
  else if fld n 13 0 = 0x9b then .ok (.flog2 (.ofNat _ (fld n 25 20)) (.ofNat _ (fld n 19 14)))
  else .error .selector

/-- Words of major 0x16 and 0x17. -/
def decodeMajor16 (n : Nat) : Except DecodeError Instr :=
  if fld n 1 0 = 0 then .ok (.fma (fbit n 26) (.ofNat _ (fld n 25 20)) (.ofNat _ (fld n 19 14)) (.ofNat _ (fld n 13 8)) (.ofNat _ (fld n 7 2)))
  else if fld n 1 0 = 1 then .ok (.fms (fbit n 26) (.ofNat _ (fld n 25 20)) (.ofNat _ (fld n 19 14)) (.ofNat _ (fld n 13 8)) (.ofNat _ (fld n 7 2)))
  else if fld n 1 0 = 2 then .ok (.fnma (fbit n 26) (.ofNat _ (fld n 25 20)) (.ofNat _ (fld n 19 14)) (.ofNat _ (fld n 13 8)) (.ofNat _ (fld n 7 2)))
  else if fld n 1 0 = 3 then .ok (.fnms (fbit n 26) (.ofNat _ (fld n 25 20)) (.ofNat _ (fld n 19 14)) (.ofNat _ (fld n 13 8)) (.ofNat _ (fld n 7 2)))
  else .error .selector

/-- Words of major 0x18. -/
def decodeMajor18 (n : Nat) : Except DecodeError Instr :=
  if fld n 4 0 = 0 then do let t ← Lane3.ofCode (fld n 7 5); return .padd (.ofNat _ (fld n 25 20)) (.ofNat _ (fld n 19 14)) (.ofNat _ (fld n 13 8)) t
  else if fld n 4 0 = 1 then do let t ← Lane3.ofCode (fld n 7 5); return .psub (.ofNat _ (fld n 25 20)) (.ofNat _ (fld n 19 14)) (.ofNat _ (fld n 13 8)) t
  else if fld n 4 0 = 2 then do let t ← Lane3.ofCode (fld n 7 5); return .pmul (.ofNat _ (fld n 25 20)) (.ofNat _ (fld n 19 14)) (.ofNat _ (fld n 13 8)) t
  else if fld n 4 0 = 3 then do let t ← Lane3.ofCode (fld n 7 5); return .pmin (.ofNat _ (fld n 25 20)) (.ofNat _ (fld n 19 14)) (.ofNat _ (fld n 13 8)) t
  else if fld n 4 0 = 4 then do let t ← Lane3.ofCode (fld n 7 5); return .pmax (.ofNat _ (fld n 25 20)) (.ofNat _ (fld n 19 14)) (.ofNat _ (fld n 13 8)) t
  else if fld n 4 0 = 8 then do let t ← Lane5.ofCode (fld n 7 5); return .pdot (.ofNat _ (fld n 25 20)) (.ofNat _ (fld n 19 14)) (.ofNat _ (fld n 13 8)) t
  else .error .selector

/-- Words of major 0x19. -/
def decodeMajor19 (n : Nat) : Except DecodeError Instr :=
  do let t ← Lane3.ofCode (fld n 1 0); return .pfma (.ofNat _ (fld n 25 20)) (.ofNat _ (fld n 19 14)) (.ofNat _ (fld n 13 8)) (.ofNat _ (fld n 7 2)) t

/-- Words of major 0x1A. -/
def decodeMajor1A (n : Nat) : Except DecodeError Instr :=
  if fld n 13 12 = 0 then do let r ← RndSel.ofCode (fld n 10 8); let t ← CvtType.ofCode (fld n 7 4); let u ← CvtType.ofCode (fld n 3 0); return .cvt (.ofNat _ (fld n 25 20)) (.ofNat _ (fld n 19 14)) (fbit n 11) r t u
  else .error .selector

/-- Words of major 0x1B. -/
def decodeMajor1B (n : Nat) : Except DecodeError Instr :=
  if fld n 3 0 = 0 then do let t ← MxType.ofCode (fld n 7 4); return .mxpack (.ofNat _ (fld n 25 20)) (.ofNat _ (fld n 19 14)) (.ofNat _ (fld n 13 8)) t
  else if fld n 3 0 = 1 then do let t ← MxType.ofCode (fld n 7 4); return .mxunpack (.ofNat _ (fld n 25 20)) (.ofNat _ (fld n 19 14)) (.ofNat _ (fld n 13 8)) t
  else if fld n 3 0 = 2 then do let t ← MxType.ofCode (fld n 7 4); return .mxscale (.ofNat _ (fld n 25 20)) (.ofNat _ (fld n 19 14)) (.ofNat _ (fld n 13 8)) t
  else .error .selector

/-- Words of major 0x1C. -/
def decodeMajor1C (n : Nat) : Except DecodeError Instr :=
  .ok (.ldB (.ofNat _ (fld n 25 20)) (.ofNat _ (fld n 19 14)) (.ofNat _ (fld n 13 0)))

/-- Words of major 0x1D. -/
def decodeMajor1D (n : Nat) : Except DecodeError Instr :=
  .ok (.ldH (.ofNat _ (fld n 25 20)) (.ofNat _ (fld n 19 14)) (.ofNat _ (fld n 13 0)))

/-- Words of major 0x1E. -/
def decodeMajor1E (n : Nat) : Except DecodeError Instr :=
  .ok (.ldW (.ofNat _ (fld n 25 20)) (.ofNat _ (fld n 19 14)) (.ofNat _ (fld n 13 0)))

/-- Words of major 0x1F. -/
def decodeMajor1F (n : Nat) : Except DecodeError Instr :=
  .ok (.ldD (.ofNat _ (fld n 25 20)) (.ofNat _ (fld n 19 14)) (.ofNat _ (fld n 13 0)))

/-- Words of major 0x20. -/
def decodeMajor20 (n : Nat) : Except DecodeError Instr :=
  .ok (.ldBS (.ofNat _ (fld n 25 20)) (.ofNat _ (fld n 19 14)) (.ofNat _ (fld n 13 0)))

/-- Words of major 0x21. -/
def decodeMajor21 (n : Nat) : Except DecodeError Instr :=
  .ok (.ldHS (.ofNat _ (fld n 25 20)) (.ofNat _ (fld n 19 14)) (.ofNat _ (fld n 13 0)))

/-- Words of major 0x22. -/
def decodeMajor22 (n : Nat) : Except DecodeError Instr :=
  .ok (.ldWS (.ofNat _ (fld n 25 20)) (.ofNat _ (fld n 19 14)) (.ofNat _ (fld n 13 0)))

/-- Words of major 0x23. -/
def decodeMajor23 (n : Nat) : Except DecodeError Instr :=
  if fld n 20 20 = 0 then .ok (.ldP (.ofNat _ (fld n 25 21)) (.ofNat _ (fld n 19 14)) (.ofNat _ (fld n 13 0)))
  else .error .selector

/-- Words of major 0x24. -/
def decodeMajor24 (n : Nat) : Except DecodeError Instr :=
  .ok (.stB (.ofNat _ (fld n 25 20)) (.ofNat _ (fld n 19 14)) (.ofNat _ (fld n 13 0)))

/-- Words of major 0x25. -/
def decodeMajor25 (n : Nat) : Except DecodeError Instr :=
  .ok (.stH (.ofNat _ (fld n 25 20)) (.ofNat _ (fld n 19 14)) (.ofNat _ (fld n 13 0)))

/-- Words of major 0x26. -/
def decodeMajor26 (n : Nat) : Except DecodeError Instr :=
  .ok (.stW (.ofNat _ (fld n 25 20)) (.ofNat _ (fld n 19 14)) (.ofNat _ (fld n 13 0)))

/-- Words of major 0x27. -/
def decodeMajor27 (n : Nat) : Except DecodeError Instr :=
  .ok (.stD (.ofNat _ (fld n 25 20)) (.ofNat _ (fld n 19 14)) (.ofNat _ (fld n 13 0)))

/-- Words of major 0x28. -/
def decodeMajor28 (n : Nat) : Except DecodeError Instr :=
  if fld n 20 20 = 0 then .ok (.stP (.ofNat _ (fld n 25 21)) (.ofNat _ (fld n 19 14)) (.ofNat _ (fld n 13 0)))
  else .error .selector

/-- Words of major 0x29. -/
def decodeMajor29 (n : Nat) : Except DecodeError Instr :=
  if fld n 7 4 = 0 ∧ fld n 13 11 = 0 then do let s ← Scope.ofCode (fld n 10 8); let wd ← LdWidth.ofCode (fld n 3 0); return .ldAcq (.ofNat _ (fld n 25 20)) (.ofNat _ (fld n 19 14)) s wd
  else if fld n 7 4 = 1 ∧ fld n 13 11 = 0 then do let s ← Scope.ofCode (fld n 10 8); let wd ← StWidth.ofCode (fld n 3 0); return .stRel (.ofNat _ (fld n 25 20)) (.ofNat _ (fld n 19 14)) s wd
  else if fld n 7 0 = 0x23 ∧ fld n 13 11 = 0 then do let s ← Scope.ofCode (fld n 10 8); return .ldfe (.ofNat _ (fld n 25 20)) (.ofNat _ (fld n 19 14)) s
  else if fld n 7 0 = 0x33 ∧ fld n 13 11 = 0 then do let s ← Scope.ofCode (fld n 10 8); return .ldfeK (.ofNat _ (fld n 25 20)) (.ofNat _ (fld n 19 14)) s
  else if fld n 7 0 = 0x43 ∧ fld n 13 11 = 0 then do let s ← Scope.ofCode (fld n 10 8); return .stfe (.ofNat _ (fld n 25 20)) (.ofNat _ (fld n 19 14)) s
  else if fld n 7 0 = 0x53 ∧ fld n 13 11 = 0 then do let s ← Scope.ofCode (fld n 10 8); return .stfeF (.ofNat _ (fld n 25 20)) (.ofNat _ (fld n 19 14)) s
  else if fld n 10 0 = 0x60 ∧ fld n 13 13 = 0 ∧ fld n 25 20 = 0 then do let l ← PrefLevel.ofCode (fld n 12 11); return .pref (.ofNat _ (fld n 19 14)) l
  else if fld n 7 0 = 0x70 ∧ fld n 25 11 = 0 then do let s ← Scope.ofCode (fld n 10 8); return .fence s
  else if fld n 7 0 = 0x70 ∧ fld n 25 11 = 1 then do let s ← Scope.ofCode (fld n 10 8); return .fenceAcq s
  else if fld n 7 0 = 0x70 ∧ fld n 25 11 = 2 then do let s ← Scope.ofCode (fld n 10 8); return .fenceRel s
  else .error .selector

/-- Words of major 0x2A. -/
def decodeMajor2A (n : Nat) : Except DecodeError Instr :=
  if fld n 7 4 = 0 then do let wd ← Width.ofCode (fld n 3 2); let o ← AtomOrder.ofCode (fld n 1 0); return .atomAdd (.ofNat _ (fld n 25 20)) (.ofNat _ (fld n 19 14)) (.ofNat _ (fld n 13 8)) wd o
  else if fld n 7 4 = 1 then do let wd ← Width.ofCode (fld n 3 2); let o ← AtomOrder.ofCode (fld n 1 0); return .atomAnd (.ofNat _ (fld n 25 20)) (.ofNat _ (fld n 19 14)) (.ofNat _ (fld n 13 8)) wd o
  else if fld n 7 4 = 2 then do let wd ← Width.ofCode (fld n 3 2); let o ← AtomOrder.ofCode (fld n 1 0); return .atomOr (.ofNat _ (fld n 25 20)) (.ofNat _ (fld n 19 14)) (.ofNat _ (fld n 13 8)) wd o
  else if fld n 7 4 = 3 then do let wd ← Width.ofCode (fld n 3 2); let o ← AtomOrder.ofCode (fld n 1 0); return .atomXor (.ofNat _ (fld n 25 20)) (.ofNat _ (fld n 19 14)) (.ofNat _ (fld n 13 8)) wd o
  else if fld n 7 4 = 4 then do let wd ← Width.ofCode (fld n 3 2); let o ← AtomOrder.ofCode (fld n 1 0); return .atomMinS (.ofNat _ (fld n 25 20)) (.ofNat _ (fld n 19 14)) (.ofNat _ (fld n 13 8)) wd o
  else if fld n 7 4 = 5 then do let wd ← Width.ofCode (fld n 3 2); let o ← AtomOrder.ofCode (fld n 1 0); return .atomMinN (.ofNat _ (fld n 25 20)) (.ofNat _ (fld n 19 14)) (.ofNat _ (fld n 13 8)) wd o
  else if fld n 7 4 = 6 then do let wd ← Width.ofCode (fld n 3 2); let o ← AtomOrder.ofCode (fld n 1 0); return .atomMaxS (.ofNat _ (fld n 25 20)) (.ofNat _ (fld n 19 14)) (.ofNat _ (fld n 13 8)) wd o
  else if fld n 7 4 = 7 then do let wd ← Width.ofCode (fld n 3 2); let o ← AtomOrder.ofCode (fld n 1 0); return .atomMaxN (.ofNat _ (fld n 25 20)) (.ofNat _ (fld n 19 14)) (.ofNat _ (fld n 13 8)) wd o
  else if fld n 7 4 = 8 then do let wd ← Width.ofCode (fld n 3 2); let o ← AtomOrder.ofCode (fld n 1 0); return .atomSwap (.ofNat _ (fld n 25 20)) (.ofNat _ (fld n 19 14)) (.ofNat _ (fld n 13 8)) wd o
  else if fld n 7 2 = 0x26 then do let o ← AtomOrder.ofCode (fld n 1 0); return .atomFaddF32 (.ofNat _ (fld n 25 20)) (.ofNat _ (fld n 19 14)) (.ofNat _ (fld n 13 8)) o
  else if fld n 7 2 = 0x2b then do let o ← AtomOrder.ofCode (fld n 1 0); return .atomFaddF64 (.ofNat _ (fld n 25 20)) (.ofNat _ (fld n 19 14)) (.ofNat _ (fld n 13 8)) o
  else if fld n 7 2 = 0x2e then do let o ← AtomOrder.ofCode (fld n 1 0); return .atomFmaxF32 (.ofNat _ (fld n 25 20)) (.ofNat _ (fld n 19 14)) (.ofNat _ (fld n 13 8)) o
  else .error .selector

/-- Words of major 0x2B. -/
def decodeMajor2B (n : Nat) : Except DecodeError Instr :=
  do let o ← AtomOrder.ofCode (fld n 1 0); return .casW (.ofNat _ (fld n 25 20)) (.ofNat _ (fld n 19 14)) (.ofNat _ (fld n 13 8)) (.ofNat _ (fld n 7 2)) o

/-- Words of major 0x2C. -/
def decodeMajor2C (n : Nat) : Except DecodeError Instr :=
  do let o ← AtomOrder.ofCode (fld n 1 0); return .casD (.ofNat _ (fld n 25 20)) (.ofNat _ (fld n 19 14)) (.ofNat _ (fld n 13 8)) (.ofNat _ (fld n 7 2)) o

/-- Words of major 0x2D. -/
def decodeMajor2D (n : Nat) : Except DecodeError Instr :=
  if fld n 7 0 = 0 then .ok (.gangForm (.ofNat _ (fld n 25 20)) (.ofNat _ (fld n 19 14)) (.ofNat _ (fld n 13 8)))
  else if fld n 13 0 = 1 then .ok (.gangJoin (.ofNat _ (fld n 25 20)) (.ofNat _ (fld n 19 14)))
  else if fld n 25 0 = 2 then .ok .gangLeave
  else if fld n 25 3 = 1 then .ok (.gangMma (fbit n 2) (fbit n 1) (fbit n 0))
  else if fld n 13 0 = 0x10 ∧ fld n 25 20 = 0 then .ok (.mxburst (.ofNat _ (fld n 19 14)))
  else if fld n 25 0 = 0x11 then .ok .mxwait
  else if fld n 7 0 = 0x18 ∧ fld n 19 18 = 0 then .ok (.accLd (.ofNat _ (fld n 25 20)) (.ofNat _ (fld n 17 14)) (.ofNat _ (fld n 13 8)))
  else if fld n 7 0 = 0x19 ∧ fld n 19 18 = 0 then .ok (.accSt (.ofNat _ (fld n 25 20)) (.ofNat _ (fld n 17 14)) (.ofNat _ (fld n 13 8)))
  else if fld n 13 0 = 0x1a ∧ fld n 25 18 = 0 then .ok (.accZero (.ofNat _ (fld n 17 14)))
  else if fld n 7 0 = 0x1b ∧ fld n 25 18 = 0 then .ok (.accScale (.ofNat _ (fld n 17 14)) (.ofNat _ (fld n 13 8)))
  else if fld n 7 0 = 0x1c ∧ fld n 19 18 = 0 then .ok (.accCvt (.ofNat _ (fld n 25 20)) (.ofNat _ (fld n 17 14)) (.ofNat _ (fld n 13 8)))
  else .error .selector

/-- Words of major 0x2E. -/
def decodeMajor2E (n : Nat) : Except DecodeError Instr :=
  if fld n 13 0 = 0 then .ok (.mxcfg (.ofNat _ (fld n 25 20)) (.ofNat _ (fld n 19 14)))
  else .error .selector

/-- Words of major 0x2F. -/
def decodeMajor2F (n : Nat) : Except DecodeError Instr :=
  if fld n 4 0 = 0 ∧ fld n 13 11 = 0 then do let s ← Scope.ofCode (fld n 10 8); return .cpy (.ofNat _ (fld n 25 20)) (.ofNat _ (fld n 19 14)) s (fbit n 7) (fbit n 6) (fbit n 5)
  else if fld n 4 0 = 0 ∧ fld n 13 11 = 1 then do let s ← Scope.ofCode (fld n 10 8); return .cpy2d (.ofNat _ (fld n 25 20)) (.ofNat _ (fld n 19 14)) s (fbit n 7) (fbit n 6) (fbit n 5)
  else if fld n 4 0 = 0 ∧ fld n 13 11 = 2 then do let s ← Scope.ofCode (fld n 10 8); return .deal (.ofNat _ (fld n 25 20)) (.ofNat _ (fld n 19 14)) s (fbit n 7) (fbit n 6) (fbit n 5)
  else if fld n 4 0 = 0 ∧ fld n 13 11 = 3 then do let s ← Scope.ofCode (fld n 10 8); return .rstr (.ofNat _ (fld n 25 20)) (.ofNat _ (fld n 19 14)) s (fbit n 7) (fbit n 6) (fbit n 5)
  else if fld n 4 0 = 0 ∧ fld n 13 11 = 4 then do let s ← Scope.ofCode (fld n 10 8); return .mred (.ofNat _ (fld n 25 20)) (.ofNat _ (fld n 19 14)) s (fbit n 7) (fbit n 6) (fbit n 5)
  else if fld n 7 0 = 0 ∧ fld n 25 11 = 5 then do let s ← Scope.ofCode (fld n 10 8); return .esync s
  else .error .selector

/-- Words of major 0x30. -/
def decodeMajor30 (n : Nat) : Except DecodeError Instr :=
  if fld n 9 0 = 0 then .ok (.spawn (.ofNat _ (fld n 25 20)) (.ofNat _ (fld n 19 14)) (.ofNat _ (fld n 13 10)))
  else if fld n 9 0 = 1 then .ok (.callat (.ofNat _ (fld n 25 20)) (.ofNat _ (fld n 19 14)) (.ofNat _ (fld n 13 10)))
  else if fld n 7 0 = 2 then .ok (.send (.ofNat _ (fld n 25 20)) (.ofNat _ (fld n 19 14)) (.ofNat _ (fld n 13 8)))
  else if fld n 13 0 = 3 ∧ fld n 20 20 = 0 then .ok (.recv (.ofNat _ (fld n 25 21)) (.ofNat _ (fld n 19 14)))
  else if fld n 8 0 = 4 then .ok (.wait (.ofNat _ (fld n 25 20)) (.ofNat _ (fld n 19 14)) (.ofNat _ (fld n 13 9)))
  else if fld n 13 0 = 5 then .ok (.wake (.ofNat _ (fld n 25 20)) (.ofNat _ (fld n 19 14)))
  else if fld n 13 0 = 6 ∧ fld n 25 20 = 0 then .ok (.migr (.ofNat _ (fld n 19 14)))
  else if fld n 13 0 = 7 ∧ fld n 25 20 = 0 then .ok (.sleep (.ofNat _ (fld n 19 14)))
  else if fld n 13 0 = 8 ∧ fld n 25 20 = 0 then .ok (.prio (.ofNat _ (fld n 19 14)))
  else if fld n 13 0 = 9 then .ok (.resume (.ofNat _ (fld n 25 20)) (.ofNat _ (fld n 19 14)))
  else if fld n 13 0 = 0xa then .ok (.kill (.ofNat _ (fld n 25 20)) (.ofNat _ (fld n 19 14)))
  else if fld n 13 0 = 0xb then .ok (.thr (.ofNat _ (fld n 25 20)) (.ofNat _ (fld n 19 14)))
  else .error .selector

/-- Words of major 0x31. -/
def decodeMajor31 (n : Nat) : Except DecodeError Instr :=
  if fld n 7 0 = 0 then .ok (.fillInit (.ofNat _ (fld n 25 20)) (.ofNat _ (fld n 19 14)) (.ofNat _ (fld n 13 8)))
  else if fld n 7 0 = 1 then .ok (.fillAdd (.ofNat _ (fld n 25 20)) (.ofNat _ (fld n 19 14)) (.ofNat _ (fld n 13 8)))
  else if fld n 8 0 = 2 then .ok (.fillWait (.ofNat _ (fld n 25 20)) (.ofNat _ (fld n 19 14)) (.ofNat _ (fld n 13 9)))
  else if fld n 13 0 = 8 then .ok (.sbarArrive (.ofNat _ (fld n 25 20)) (.ofNat _ (fld n 19 14)))
  else if fld n 7 0 = 9 ∧ fld n 25 23 = 0 then .ok (.sbarWait (.ofNat _ (fld n 22 20)) (.ofNat _ (fld n 19 14)) (.ofNat _ (fld n 13 8)))
  else if fld n 20 0 = 0x10 then .ok (.tscr (.ofNat _ (fld n 25 21)))
  else if fld n 13 0 = 0x11 then .ok (.xcnt (.ofNat _ (fld n 25 20)) (.ofNat _ (fld n 19 14)))
  else if fld n 7 0 = 0x12 then .ok (.pcnt (.ofNat _ (fld n 25 20)) (.ofNat _ (fld n 19 14)) (.ofNat _ (fld n 13 8)))
  else .error .selector

/-- Words of major 0x32. -/
def decodeMajor32 (n : Nat) : Except DecodeError Instr :=
  if fld n 7 0 = 0 ∧ fld n 20 20 = 0 then .ok (.route (.ofNat _ (fld n 25 21)) (.ofNat _ (fld n 19 14)) (.ofNat _ (fld n 13 8)))
  else if fld n 13 0 = 1 ∧ fld n 20 20 = 0 then .ok (.placeq (.ofNat _ (fld n 25 21)) (.ofNat _ (fld n 19 14)))
  else if fld n 7 0 = 2 ∧ fld n 25 20 = 0 then .ok (.tlbinv (.ofNat _ (fld n 19 14)) (.ofNat _ (fld n 13 8)))
  else if fld n 13 0 = 3 ∧ fld n 25 20 = 0 then .ok (.gtsync (.ofNat _ (fld n 19 14)))
  else .error .selector

/-- Words of major 0x33. -/
def decodeMajor33 (n : Nat) : Except DecodeError Instr :=
  if fld n 7 0 = 0 then .ok (.csrr (.ofNat _ (fld n 25 20)) (.ofNat _ (fld n 19 8)))
  else if fld n 7 0 = 1 then .ok (.csrw (.ofNat _ (fld n 25 20)) (.ofNat _ (fld n 19 8)))
  else if fld n 7 0 = 2 then .ok (.csrs (.ofNat _ (fld n 25 20)) (.ofNat _ (fld n 19 8)))
  else if fld n 7 0 = 3 then .ok (.csrc (.ofNat _ (fld n 25 20)) (.ofNat _ (fld n 19 8)))
  else .error .selector

/-- Words of major 0x34. -/
def decodeMajor34 (n : Nat) : Except DecodeError Instr :=
  if fld n 13 0 = 0 ∧ fld n 25 20 = 0 then .ok (.upret (.ofNat _ (fld n 19 14)))
  else if fld n 25 0 = 1 then .ok .eret
  else if fld n 25 0 = 2 then .ok .halt
  else if fld n 13 0 = 3 then .ok (.feat (.ofNat _ (fld n 25 20)) (.ofNat _ (fld n 19 14)))
  else if fld n 7 0 = 4 then .ok (.attest (.ofNat _ (fld n 25 20)) (.ofNat _ (fld n 19 14)) (.ofNat _ (fld n 13 8)))
  else if fld n 13 0 = 8 then .ok (.dbgRd (.ofNat _ (fld n 25 20)) (.ofNat _ (fld n 19 14)))
  else if fld n 7 0 = 9 ∧ fld n 25 20 = 0 then .ok (.dbgWr (.ofNat _ (fld n 19 14)) (.ofNat _ (fld n 13 8)))
  else if fld n 13 0 = 0xa then .ok (.dbgStep (.ofNat _ (fld n 25 20)) (.ofNat _ (fld n 19 14)))
  else .error .selector

/-- Words of major 0x3F. -/
def decodeMajor3F (n : Nat) : Except DecodeError Instr :=
  if fld n 25 20 = 0 then .ok (.hnop (.ofNat _ (fld n 19 0)))
  else if fld n 25 20 = 1 then .ok (.hctx (.ofNat _ (fld n 19 14)) (.ofNat _ (fld n 13 0)))
  else if fld n 25 20 = 2 then .ok (.hfetch (.ofNat _ (fld n 19 14)) (.ofNat _ (fld n 13 0)))
  else .ok (.hintReserved (.ofNat _ (fld n 25 20)) (.ofNat _ (fld n 19 0)))

/-- The word n, by its major opcode (R65). -/
def decodeRaw (n : Nat) : Except DecodeError Instr :=
  match fld n 31 26 with
  | 0x01 => decodeMajor01 n
  | 0x02 => decodeMajor02 n
  | 0x03 => decodeMajor03 n
  | 0x04 => decodeMajor04 n
  | 0x05 => decodeMajor05 n
  | 0x06 => decodeMajor06 n
  | 0x07 => decodeMajor07 n
  | 0x08 => decodeMajor08 n
  | 0x09 => decodeMajor09 n
  | 0x0A => decodeMajor0A n
  | 0x0B => decodeMajor0B n
  | 0x0C => decodeMajor0C n
  | 0x0D => decodeMajor0D n
  | 0x0E => decodeMajor0E n
  | 0x10 => decodeMajor10 n
  | 0x11 => decodeMajor11 n
  | 0x12 => decodeMajor12 n
  | 0x13 => decodeMajor13 n
  | 0x14 => decodeMajor14 n
  | 0x15 => decodeMajor15 n
  | 0x16 => decodeMajor16 n
  | 0x17 => decodeMajor16 n
  | 0x18 => decodeMajor18 n
  | 0x19 => decodeMajor19 n
  | 0x1A => decodeMajor1A n
  | 0x1B => decodeMajor1B n
  | 0x1C => decodeMajor1C n
  | 0x1D => decodeMajor1D n
  | 0x1E => decodeMajor1E n
  | 0x1F => decodeMajor1F n
  | 0x20 => decodeMajor20 n
  | 0x21 => decodeMajor21 n
  | 0x22 => decodeMajor22 n
  | 0x23 => decodeMajor23 n
  | 0x24 => decodeMajor24 n
  | 0x25 => decodeMajor25 n
  | 0x26 => decodeMajor26 n
  | 0x27 => decodeMajor27 n
  | 0x28 => decodeMajor28 n
  | 0x29 => decodeMajor29 n
  | 0x2A => decodeMajor2A n
  | 0x2B => decodeMajor2B n
  | 0x2C => decodeMajor2C n
  | 0x2D => decodeMajor2D n
  | 0x2E => decodeMajor2E n
  | 0x2F => decodeMajor2F n
  | 0x30 => decodeMajor30 n
  | 0x31 => decodeMajor31 n
  | 0x32 => decodeMajor32 n
  | 0x33 => decodeMajor33 n
  | 0x34 => decodeMajor34 n
  | 0x3F => decodeMajor3F n
  | _ => .error .major

/-- The instruction a 32-bit word names, or why it names none (R66, R68 order 3). -/
def decodeWord (n : Nat) : Except DecodeError Instr :=
  if n = 0xFFFFFFFF then .error .allOnes
  else match decodeRaw n with
    | .error e => .error e
    | .ok i => if i.wellFormed then .ok i else .error .operands

/-- The little-endian value of bytes (R2). -/
def leNat : List Byte → Nat
  | [] => 0
  | b :: bs => b.toNat + 256 * leNat bs

/-- n bytes of a value, little-endian (R2). -/
def leBytes : Nat → Nat → List Byte
  | 0, _ => []
  | k + 1, v => BitVec.ofNat 8 v :: leBytes k (v / 256)

/-- Decode the first word of a list of bytes, with the rest of the list (R59). -/
def decode (bs : List Byte) : Except DecodeError (Instr × List Byte) :=
  if bs.length < 4 then .error .short
  else match decodeWord (leNat (bs.take 4)) with
    | .error e => .error e
    | .ok i => .ok (i, bs.drop 4)

/-- The number of a word of an instruction; a step of another agent has no word. -/
def encodeNat : Instr → Option Nat
  | .add d a b w => some (0x04000000 + d.toNat * 1048576 + a.toNat * 16384 + b.toNat * 256 + w.toNat * 128)
  | .sub d a b w => some (0x04000001 + d.toNat * 1048576 + a.toNat * 16384 + b.toNat * 256 + w.toNat * 128)
  | .mul d a b w => some (0x04000002 + d.toNat * 1048576 + a.toNat * 16384 + b.toNat * 256 + w.toNat * 128)
  | .mulhS d a b => some (0x04000003 + d.toNat * 1048576 + a.toNat * 16384 + b.toNat * 256)
  | .mulhN d a b => some (0x04000004 + d.toNat * 1048576 + a.toNat * 16384 + b.toNat * 256)
  | .divs d a b w => some (0x04000005 + d.toNat * 1048576 + a.toNat * 16384 + b.toNat * 256 + w.toNat * 128)
  | .divn d a b w => some (0x04000006 + d.toNat * 1048576 + a.toNat * 16384 + b.toNat * 256 + w.toNat * 128)
  | .rems d a b w => some (0x04000007 + d.toNat * 1048576 + a.toNat * 16384 + b.toNat * 256 + w.toNat * 128)
  | .remn d a b w => some (0x04000008 + d.toNat * 1048576 + a.toNat * 16384 + b.toNat * 256 + w.toNat * 128)
  | .and d a b => some (0x04000009 + d.toNat * 1048576 + a.toNat * 16384 + b.toNat * 256)
  | .or d a b => some (0x0400000A + d.toNat * 1048576 + a.toNat * 16384 + b.toNat * 256)
  | .xor d a b => some (0x0400000B + d.toNat * 1048576 + a.toNat * 16384 + b.toNat * 256)
  | .andn d a b => some (0x0400000C + d.toNat * 1048576 + a.toNat * 16384 + b.toNat * 256)
  | .orn d a b => some (0x0400000D + d.toNat * 1048576 + a.toNat * 16384 + b.toNat * 256)
  | .shl d a b w => some (0x04000010 + d.toNat * 1048576 + a.toNat * 16384 + b.toNat * 256 + w.toNat * 128)
  | .shr d a b w => some (0x04000011 + d.toNat * 1048576 + a.toNat * 16384 + b.toNat * 256 + w.toNat * 128)
  | .asr d a b w => some (0x04000012 + d.toNat * 1048576 + a.toNat * 16384 + b.toNat * 256 + w.toNat * 128)
  | .rol d a b w => some (0x04000013 + d.toNat * 1048576 + a.toNat * 16384 + b.toNat * 256 + w.toNat * 128)
  | .ror d a b w => some (0x04000014 + d.toNat * 1048576 + a.toNat * 16384 + b.toNat * 256 + w.toNat * 128)
  | .minS d a b => some (0x04000018 + d.toNat * 1048576 + a.toNat * 16384 + b.toNat * 256)
  | .minN d a b => some (0x04000019 + d.toNat * 1048576 + a.toNat * 16384 + b.toNat * 256)
  | .maxS d a b => some (0x0400001A + d.toNat * 1048576 + a.toNat * 16384 + b.toNat * 256)
  | .maxN d a b => some (0x0400001B + d.toNat * 1048576 + a.toNat * 16384 + b.toNat * 256)
  | .clz d a w => some (0x04000020 + d.toNat * 1048576 + a.toNat * 16384 + w.toNat * 128)
  | .popc d a w => some (0x04000021 + d.toNat * 1048576 + a.toNat * 16384 + w.toNat * 128)
  | .brev d a => some (0x04000022 + d.toNat * 1048576 + a.toNat * 16384)
  | .leaX1 d a b => some (0x04000028 + d.toNat * 1048576 + a.toNat * 16384 + b.toNat * 256)
  | .leaX2 d a b => some (0x04000029 + d.toNat * 1048576 + a.toNat * 16384 + b.toNat * 256)
  | .leaX4 d a b => some (0x0400002A + d.toNat * 1048576 + a.toNat * 16384 + b.toNat * 256)
  | .leaX8 d a b => some (0x0400002B + d.toNat * 1048576 + a.toNat * 16384 + b.toNat * 256)
  | .mad d a b c => some (0x08000000 + d.toNat * 1048576 + a.toNat * 16384 + b.toNat * 256 + c.toNat * 4)
  | .sel d a b s p => some (0x08000001 + d.toNat * 1048576 + a.toNat * 16384 + b.toNat * 256 + s.toNat * 128 + p.toNat * 4)
  | .cmp p a b w c => some (0x0C000000 + p.toNat * 1048576 + a.toNat * 16384 + b.toNat * 256 + w.toNat * 128 + c.code)
  | .cmpi c p a i => some (0x24000000 + c.code * 8388608 + p.toNat * 1048576 + a.toNat * 16384 + i.toNat)
  | .addi d a i => some (0x10000000 + d.toNat * 1048576 + a.toNat * 16384 + i.toNat)
  | .andi d a i => some (0x14000000 + d.toNat * 1048576 + a.toNat * 16384 + i.toNat)
  | .ori d a i => some (0x18000000 + d.toNat * 1048576 + a.toNat * 16384 + i.toNat)
  | .xori d a i => some (0x1C000000 + d.toNat * 1048576 + a.toNat * 16384 + i.toNat)
  | .shli d a n => some (0x20000000 + d.toNat * 1048576 + a.toNat * 16384 + n.toNat)
  | .shri d a n => some (0x20000800 + d.toNat * 1048576 + a.toNat * 16384 + n.toNat)
  | .asri d a n => some (0x20001000 + d.toNat * 1048576 + a.toNat * 16384 + n.toNat)
  | .rori d a n => some (0x20001800 + d.toNat * 1048576 + a.toNat * 16384 + n.toNat)
  | .shliW d a n => some (0x20002000 + d.toNat * 1048576 + a.toNat * 16384 + n.toNat)
  | .shriW d a n => some (0x20002800 + d.toNat * 1048576 + a.toNat * 16384 + n.toNat)
  | .asriW d a n => some (0x20003000 + d.toNat * 1048576 + a.toNat * 16384 + n.toNat)
  | .roriW d a n => some (0x20003800 + d.toNat * 1048576 + a.toNat * 16384 + n.toNat)
  | .movi d i => some (0x28000000 + d.toNat * 1048576 + i.toNat)
  | .movhi d h i => some (0x2C000000 + d.toNat * 1048576 + h.toNat * 262144 + i.toNat)
  | .bfxS d a l p => some (0x30002000 + d.toNat * 1048576 + a.toNat * 16384 + l.toNat * 64 + p.toNat)
  | .bfxN d a l p => some (0x30000000 + d.toNat * 1048576 + a.toNat * 16384 + l.toNat * 64 + p.toNat)
  | .bfi d a l p => some (0x34000000 + d.toNat * 1048576 + a.toNat * 16384 + l.toNat * 64 + p.toNat)
  | .leaPc d i => some (0x38000000 + d.toNat * 1048576 + i.toNat)
  | .br i => some (0x40000000 + i.toNat)
  | .brp s p i => some (0x44000000 + s.toNat * 33554432 + p.toNat * 4194304 + i.toNat)
  | .jmp i => some (0x48000000 + i.toNat)
  | .call i => some (0x4C000000 + i.toNat)
  | .nop => some (0x50000000)
  | .jmpr a => some (0x50000001 + a.toNat * 16384)
  | .callr a => some (0x50000002 + a.toNat * 16384)
  | .ret => some (0x50000003)
  | .exit => some (0x50000004)
  | .trap c => some (0x50000005 + c.toNat * 256)
  | .brk c => some (0x50000006 + c.toNat * 256)
  | .yield => some (0x50000007)
  | .fadd d a b t => some (0x54000000 + d.toNat * 1048576 + a.toNat * 16384 + b.toNat * 256 + t.toNat * 128)
  | .fsub d a b t => some (0x54000001 + d.toNat * 1048576 + a.toNat * 16384 + b.toNat * 256 + t.toNat * 128)
  | .fmul d a b t => some (0x54000002 + d.toNat * 1048576 + a.toNat * 16384 + b.toNat * 256 + t.toNat * 128)
  | .fdiv d a b t => some (0x54000003 + d.toNat * 1048576 + a.toNat * 16384 + b.toNat * 256 + t.toNat * 128)
  | .fsqrt d a t => some (0x54000004 + d.toNat * 1048576 + a.toNat * 16384 + t.toNat * 128)
  | .fmin d a b t => some (0x54000005 + d.toNat * 1048576 + a.toNat * 16384 + b.toNat * 256 + t.toNat * 128)
  | .fmax d a b t => some (0x54000006 + d.toNat * 1048576 + a.toNat * 16384 + b.toNat * 256 + t.toNat * 128)
  | .fabs d a t => some (0x54000007 + d.toNat * 1048576 + a.toNat * 16384 + t.toNat * 128)
  | .fneg d a t => some (0x54000008 + d.toNat * 1048576 + a.toNat * 16384 + t.toNat * 128)
  | .fcpys d a b t => some (0x54000009 + d.toNat * 1048576 + a.toNat * 16384 + b.toNat * 256 + t.toNat * 128)
  | .fclass d a t => some (0x5400000A + d.toNat * 1048576 + a.toNat * 16384 + t.toNat * 128)
  | .fcmpEq p a b t => some (0x54000010 + p.toNat * 1048576 + a.toNat * 16384 + b.toNat * 256 + t.toNat * 128)
  | .fcmpLt p a b t => some (0x54000011 + p.toNat * 1048576 + a.toNat * 16384 + b.toNat * 256 + t.toNat * 128)
  | .fcmpLe p a b t => some (0x54000012 + p.toNat * 1048576 + a.toNat * 16384 + b.toNat * 256 + t.toNat * 128)
  | .fcmpUn p a b t => some (0x54000013 + p.toNat * 1048576 + a.toNat * 16384 + b.toNat * 256 + t.toNat * 128)
  | .frcp d a => some (0x54000098 + d.toNat * 1048576 + a.toNat * 16384)
  | .frsq d a => some (0x54000099 + d.toNat * 1048576 + a.toNat * 16384)
  | .fexp2 d a => some (0x5400009A + d.toNat * 1048576 + a.toNat * 16384)
  | .flog2 d a => some (0x5400009B + d.toNat * 1048576 + a.toNat * 16384)
  | .fma t d a b c => some (0x58000000 + t.toNat * 67108864 + d.toNat * 1048576 + a.toNat * 16384 + b.toNat * 256 + c.toNat * 4)
  | .fms t d a b c => some (0x58000001 + t.toNat * 67108864 + d.toNat * 1048576 + a.toNat * 16384 + b.toNat * 256 + c.toNat * 4)
  | .fnma t d a b c => some (0x58000002 + t.toNat * 67108864 + d.toNat * 1048576 + a.toNat * 16384 + b.toNat * 256 + c.toNat * 4)
  | .fnms t d a b c => some (0x58000003 + t.toNat * 67108864 + d.toNat * 1048576 + a.toNat * 16384 + b.toNat * 256 + c.toNat * 4)
  | .padd d a b t => some (0x60000000 + d.toNat * 1048576 + a.toNat * 16384 + b.toNat * 256 + t.code * 32)
  | .psub d a b t => some (0x60000001 + d.toNat * 1048576 + a.toNat * 16384 + b.toNat * 256 + t.code * 32)
  | .pmul d a b t => some (0x60000002 + d.toNat * 1048576 + a.toNat * 16384 + b.toNat * 256 + t.code * 32)
  | .pmin d a b t => some (0x60000003 + d.toNat * 1048576 + a.toNat * 16384 + b.toNat * 256 + t.code * 32)
  | .pmax d a b t => some (0x60000004 + d.toNat * 1048576 + a.toNat * 16384 + b.toNat * 256 + t.code * 32)
  | .pdot d a b t => some (0x60000008 + d.toNat * 1048576 + a.toNat * 16384 + b.toNat * 256 + t.code * 32)
  | .pfma d a b c t => some (0x64000000 + d.toNat * 1048576 + a.toNat * 16384 + b.toNat * 256 + c.toNat * 4 + t.code)
  | .cvt d a s r t u => some (0x68000000 + d.toNat * 1048576 + a.toNat * 16384 + s.toNat * 2048 + r.code * 256 + t.code * 16 + u.code)
  | .mxpack d a b t => some (0x6C000000 + d.toNat * 1048576 + a.toNat * 16384 + b.toNat * 256 + t.code * 16)
  | .mxunpack d a b t => some (0x6C000001 + d.toNat * 1048576 + a.toNat * 16384 + b.toNat * 256 + t.code * 16)
  | .mxscale d a b t => some (0x6C000002 + d.toNat * 1048576 + a.toNat * 16384 + b.toNat * 256 + t.code * 16)
  | .ldB d a o => some (0x70000000 + d.toNat * 1048576 + a.toNat * 16384 + o.toNat)
  | .ldH d a o => some (0x74000000 + d.toNat * 1048576 + a.toNat * 16384 + o.toNat)
  | .ldW d a o => some (0x78000000 + d.toNat * 1048576 + a.toNat * 16384 + o.toNat)
  | .ldD d a o => some (0x7C000000 + d.toNat * 1048576 + a.toNat * 16384 + o.toNat)
  | .ldBS d a o => some (0x80000000 + d.toNat * 1048576 + a.toNat * 16384 + o.toNat)
  | .ldHS d a o => some (0x84000000 + d.toNat * 1048576 + a.toNat * 16384 + o.toNat)
  | .ldWS d a o => some (0x88000000 + d.toNat * 1048576 + a.toNat * 16384 + o.toNat)
  | .ldP d a o => some (0x8C000000 + d.toNat * 2097152 + a.toNat * 16384 + o.toNat)
  | .stB v a o => some (0x90000000 + v.toNat * 1048576 + a.toNat * 16384 + o.toNat)
  | .stH v a o => some (0x94000000 + v.toNat * 1048576 + a.toNat * 16384 + o.toNat)
  | .stW v a o => some (0x98000000 + v.toNat * 1048576 + a.toNat * 16384 + o.toNat)
  | .stD v a o => some (0x9C000000 + v.toNat * 1048576 + a.toNat * 16384 + o.toNat)
  | .stP v a o => some (0xA0000000 + v.toNat * 2097152 + a.toNat * 16384 + o.toNat)
  | .ldAcq d a s wd => some (0xA4000000 + d.toNat * 1048576 + a.toNat * 16384 + s.code * 256 + wd.code)
  | .stRel v a s wd => some (0xA4000010 + v.toNat * 1048576 + a.toNat * 16384 + s.code * 256 + wd.code)
  | .ldfe d a s => some (0xA4000023 + d.toNat * 1048576 + a.toNat * 16384 + s.code * 256)
  | .ldfeK d a s => some (0xA4000033 + d.toNat * 1048576 + a.toNat * 16384 + s.code * 256)
  | .stfe v a s => some (0xA4000043 + v.toNat * 1048576 + a.toNat * 16384 + s.code * 256)
  | .stfeF v a s => some (0xA4000053 + v.toNat * 1048576 + a.toNat * 16384 + s.code * 256)
  | .pref a l => some (0xA4000060 + a.toNat * 16384 + l.code * 2048)
  | .fence s => some (0xA4000070 + s.code * 256)
  | .fenceAcq s => some (0xA4000870 + s.code * 256)
  | .fenceRel s => some (0xA4001070 + s.code * 256)
  | .atomAdd d a b wd o => some (0xA8000000 + d.toNat * 1048576 + a.toNat * 16384 + b.toNat * 256 + wd.code * 4 + o.code)
  | .atomAnd d a b wd o => some (0xA8000010 + d.toNat * 1048576 + a.toNat * 16384 + b.toNat * 256 + wd.code * 4 + o.code)
  | .atomOr d a b wd o => some (0xA8000020 + d.toNat * 1048576 + a.toNat * 16384 + b.toNat * 256 + wd.code * 4 + o.code)
  | .atomXor d a b wd o => some (0xA8000030 + d.toNat * 1048576 + a.toNat * 16384 + b.toNat * 256 + wd.code * 4 + o.code)
  | .atomMinS d a b wd o => some (0xA8000040 + d.toNat * 1048576 + a.toNat * 16384 + b.toNat * 256 + wd.code * 4 + o.code)
  | .atomMinN d a b wd o => some (0xA8000050 + d.toNat * 1048576 + a.toNat * 16384 + b.toNat * 256 + wd.code * 4 + o.code)
  | .atomMaxS d a b wd o => some (0xA8000060 + d.toNat * 1048576 + a.toNat * 16384 + b.toNat * 256 + wd.code * 4 + o.code)
  | .atomMaxN d a b wd o => some (0xA8000070 + d.toNat * 1048576 + a.toNat * 16384 + b.toNat * 256 + wd.code * 4 + o.code)
  | .atomSwap d a b wd o => some (0xA8000080 + d.toNat * 1048576 + a.toNat * 16384 + b.toNat * 256 + wd.code * 4 + o.code)
  | .atomFaddF32 d a b o => some (0xA8000098 + d.toNat * 1048576 + a.toNat * 16384 + b.toNat * 256 + o.code)
  | .atomFaddF64 d a b o => some (0xA80000AC + d.toNat * 1048576 + a.toNat * 16384 + b.toNat * 256 + o.code)
  | .atomFmaxF32 d a b o => some (0xA80000B8 + d.toNat * 1048576 + a.toNat * 16384 + b.toNat * 256 + o.code)
  | .casW d a b c o => some (0xAC000000 + d.toNat * 1048576 + a.toNat * 16384 + b.toNat * 256 + c.toNat * 4 + o.code)
  | .casD d a b c o => some (0xB0000000 + d.toNat * 1048576 + a.toNat * 16384 + b.toNat * 256 + c.toNat * 4 + o.code)
  | .gangForm d a b => some (0xB4000000 + d.toNat * 1048576 + a.toNat * 16384 + b.toNat * 256)
  | .gangJoin d a => some (0xB4000001 + d.toNat * 1048576 + a.toNat * 16384)
  | .gangLeave => some (0xB4000002)
  | .gangMma q g s => some (0xB4000008 + q.toNat * 4 + g.toNat * 2 + s.toNat)
  | .mxburst a => some (0xB4000010 + a.toNat * 16384)
  | .mxwait => some (0xB4000011)
  | .accLd d t b => some (0xB4000018 + d.toNat * 1048576 + t.toNat * 16384 + b.toNat * 256)
  | .accSt v t b => some (0xB4000019 + v.toNat * 1048576 + t.toNat * 16384 + b.toNat * 256)
  | .accZero t => some (0xB400001A + t.toNat * 16384)
  | .accScale t b => some (0xB400001B + t.toNat * 16384 + b.toNat * 256)
  | .accCvt d t b => some (0xB400001C + d.toNat * 1048576 + t.toNat * 16384 + b.toNat * 256)
  | .mxcfg a b => some (0xB8000000 + a.toNat * 1048576 + b.toNat * 16384)
  | .cpy a b s q r f => some (0xBC000000 + a.toNat * 1048576 + b.toNat * 16384 + s.code * 256 + q.toNat * 128 + r.toNat * 64 + f.toNat * 32)
  | .cpy2d a b s q r f => some (0xBC000800 + a.toNat * 1048576 + b.toNat * 16384 + s.code * 256 + q.toNat * 128 + r.toNat * 64 + f.toNat * 32)
  | .deal a b s q r f => some (0xBC001000 + a.toNat * 1048576 + b.toNat * 16384 + s.code * 256 + q.toNat * 128 + r.toNat * 64 + f.toNat * 32)
  | .rstr a b s q r f => some (0xBC001800 + a.toNat * 1048576 + b.toNat * 16384 + s.code * 256 + q.toNat * 128 + r.toNat * 64 + f.toNat * 32)
  | .mred a b s q r f => some (0xBC002000 + a.toNat * 1048576 + b.toNat * 16384 + s.code * 256 + q.toNat * 128 + r.toNat * 64 + f.toNat * 32)
  | .esync s => some (0xBC002800 + s.code * 256)
  | .spawn d a b => some (0xC0000000 + d.toNat * 1048576 + a.toNat * 16384 + b.toNat * 1024)
  | .callat d a b => some (0xC0000001 + d.toNat * 1048576 + a.toNat * 16384 + b.toNat * 1024)
  | .send d a b => some (0xC0000002 + d.toNat * 1048576 + a.toNat * 16384 + b.toNat * 256)
  | .recv d a => some (0xC0000003 + d.toNat * 2097152 + a.toNat * 16384)
  | .wait d a b => some (0xC0000004 + d.toNat * 1048576 + a.toNat * 16384 + b.toNat * 512)
  | .wake d a => some (0xC0000005 + d.toNat * 1048576 + a.toNat * 16384)
  | .migr a => some (0xC0000006 + a.toNat * 16384)
  | .sleep a => some (0xC0000007 + a.toNat * 16384)
  | .prio a => some (0xC0000008 + a.toNat * 16384)
  | .resume d a => some (0xC0000009 + d.toNat * 1048576 + a.toNat * 16384)
  | .kill d a => some (0xC000000A + d.toNat * 1048576 + a.toNat * 16384)
  | .thr d a => some (0xC000000B + d.toNat * 1048576 + a.toNat * 16384)
  | .fillInit d a b => some (0xC4000000 + d.toNat * 1048576 + a.toNat * 16384 + b.toNat * 256)
  | .fillAdd d a b => some (0xC4000001 + d.toNat * 1048576 + a.toNat * 16384 + b.toNat * 256)
  | .fillWait d a b => some (0xC4000002 + d.toNat * 1048576 + a.toNat * 16384 + b.toNat * 512)
  | .sbarArrive d a => some (0xC4000008 + d.toNat * 1048576 + a.toNat * 16384)
  | .sbarWait p a b => some (0xC4000009 + p.toNat * 1048576 + a.toNat * 16384 + b.toNat * 256)
  | .tscr d => some (0xC4000010 + d.toNat * 2097152)
  | .xcnt d a => some (0xC4000011 + d.toNat * 1048576 + a.toNat * 16384)
  | .pcnt d a b => some (0xC4000012 + d.toNat * 1048576 + a.toNat * 16384 + b.toNat * 256)
  | .route d a b => some (0xC8000000 + d.toNat * 2097152 + a.toNat * 16384 + b.toNat * 256)
  | .placeq d a => some (0xC8000001 + d.toNat * 2097152 + a.toNat * 16384)
  | .tlbinv a b => some (0xC8000002 + a.toNat * 16384 + b.toNat * 256)
  | .gtsync a => some (0xC8000003 + a.toNat * 16384)
  | .csrr d c => some (0xCC000000 + d.toNat * 1048576 + c.toNat * 256)
  | .csrw v c => some (0xCC000001 + v.toNat * 1048576 + c.toNat * 256)
  | .csrs v c => some (0xCC000002 + v.toNat * 1048576 + c.toNat * 256)
  | .csrc v c => some (0xCC000003 + v.toNat * 1048576 + c.toNat * 256)
  | .upret a => some (0xD0000000 + a.toNat * 16384)
  | .eret => some (0xD0000001)
  | .halt => some (0xD0000002)
  | .feat d a => some (0xD0000003 + d.toNat * 1048576 + a.toNat * 16384)
  | .attest d a b => some (0xD0000004 + d.toNat * 1048576 + a.toNat * 16384 + b.toNat * 256)
  | .dbgRd d a => some (0xD0000008 + d.toNat * 1048576 + a.toNat * 16384)
  | .dbgWr a b => some (0xD0000009 + a.toNat * 16384 + b.toNat * 256)
  | .dbgStep d a => some (0xD000000A + d.toNat * 1048576 + a.toNat * 16384)
  | .hnop x => some (0xFC000000 + x.toNat)
  | .hctx r x => some (0xFC100000 + r.toNat * 16384 + x.toNat)
  | .hfetch y i => some (0xFC200000 + y.toNat * 16384 + i.toNat)
  | .hintReserved c x => some (0xFC000000 + c.toNat * 1048576 + x.toNat)
  | .phaseTurn _ => none
  | .registerFill _ _ => none
  | .registerLineArrival _ => none
  | .controlLineArrival _ => none
  | .walkEnd _ => none
  | .retCompletion _ => none
  | .feretryReissue _ => none
  | .storeBufferDrain _ => none
  | .waitDeadline _ => none
  | .instructionReply _ => none
  | .engineAcceptanceReply _ => none
  | .fullEmptyReply _ => none
  | .tlbinvCompletion _ => none
  | .gtsyncCompletion _ => none
  | .materialisation _ => none
  | .activation _ => none
  | .priorityAging _ => none
  | .preemption _ => none
  | .gangResolution _ => none
  | .matrixOperationCompletion _ => none
  | .rampUpEnd _ => none
  | .rampDownStart _ => none
  | .rampDownEnd _ => none
  | .gangSave _ => none
  | .gangReactivation _ => none
  | .gangBreak _ => none
  | .launchDoorbell _ => none
  | .launchTailNotice _ => none
  | .launchQueuePoll _ => none
  | .launchTake _ => none
  | .taskCreation _ => none
  | .reservationLapse _ => none
  | .killMessageRetry _ => none
  | .engineCommandStart _ => none
  | .engineCommandCompletion _ _ => none
  | .rstrChunkComplete _ _ => none
  | .rstrAbort _ _ => none
  | .carveChangeEnd _ => none
  | .carveUnitZeroingEnd _ _ => none
  | .segmentZeroingEnd _ _ => none
  | .equinoxEvaluation _ => none
  | .equinoxCopyCompletion _ _ _ => none
  | .sbarArrivalCount _ => none
  | .sbarEpisodeEndDelivery _ _ => none
  | .sbarDeadline _ => none
  | .tscTick => none
  | .upcallServe _ => none
  | .uncorrectableError _ _ => none
  | .correctedError _ => none
  | .flitCheckFailure _ => none
  | .sharersLostRecallEnd _ => none
  | .requestTimeout _ => none
  | .packageReset => none
  | .discovery => none
  | .linkTraining => none
  | .memoryTraining => none
  | .configuration => none
  | .release => none
  | .linkFailure _ => none
  | .linkRetrainEnd _ _ => none
  | .coreRetirement _ => none
  | .hostApertureRead _ _ _ => none
  | .hostApertureWrite _ _ _ => none
  | .managementWindowWrite _ => none
  | .cert _ => none
  | .takeown _ => none
  | .setfeat _ => none
  | .mkdom _ => none
  | .rmdom _ => none
  | .setroot _ => none
  | .setaper _ => none
  | .setqueue _ => none
  | .setedt _ => none
  | .setfdt _ => none
  | .setep _ => none
  | .setcarveTarget _ => none
  | .setcarveCarvedom _ => none
  | .setspdom _ => none
  | .setsoldom _ => none
  | .setgtbase _ => none
  | .setcoreoff _ => none
  | .setmgmtHalted _ => none
  | .setmgmtReqto _ => none
  | .setmgmtHostto _ => none
  | .setmgmtErrorCounter _ => none
  | .setmgmtHold _ => none
  | .mailboxUnknownCommand _ => none
  | .ethernetTailNotice _ => none
  | .ethernetPoll _ => none
  | .ethernetPut _ => none
  | .ethernetGet _ => none
  | .ethernetCompletion _ _ => none
  | .ethernetInboundAccess _ => none
  | .ethernetTransportTimeout _ => none
  | .rds _ => none
  | .rdx _ => none
  | .rdu _ => none
  | .wbl _ => none
  | .wrm _ => none
  | .atm _ => none
  | .feo _ => none
  | .inv _ => none
  | .rcl _ => none
  | .ctx _ => none
  | .thrPacket _ => none
  | .dmv _ => none
  | .invt _ => none
  | .hst _ => none
  | .mgt _ => none
  | .data _ => none
  | .ack _ => none
  | .nack _ => none
  | .defer _ => none
  | .old _ => none
  | .iack _ => none
  | .stat _ => none
  | .cack _ => none
  | .lazokelFlitRetry _ => none
  | .unassignedOpPacket _ => none

/-- The word of an instruction (R61-R81), as its four bytes in memory. -/
def encode (i : Instr) : Option (List Byte) := (encodeNat i).map (leBytes 4)

/-- The host's question: the instruction the decoder reads from a word whose bits are w, in bytes as stored (R59). -/
def decodeTableWord (_nbits w : Nat) : Option Instr :=
  match decode (leBytes 4 w) with
  | .ok (i, _) => some i
  | .error _ => none

end Sys2Proof
end

