-- ==== Sys2Proof/Config.lean ====
section
/-! DEFINITION. What an implementation of the part fixes and the manual does not give (00 R8): the free choices of the
order of device steps, the keys and random numbers of 20 R445-R455, and the numbers of the stepping (20 R453, R456).
An `opaque` constant has no value in Lean: a claim that mentions one holds whatever it is. -/
namespace Sys2Proof.Config

/-- Which of the enabled device steps happens next, for the n-th choice (log 4: a free value). -/
opaque schedule : Nat → Nat

/-- The key pair of the n-th domain created, two SM4 keys of 16 bytes: random (R445; log 7). -/
opaque domainKey (n : Nat) : BitVec 256

/-- The SM2 public key, x then y, whose SM3 digest is given: the manual places only the digest (R444, R448; log 7). -/
opaque keyOfDigest (d : BitVec 256) : BitVec 512

/-- The SM2 public key and the signature that the die at a position returns to the challenge (19 R425; log 15). -/
opaque dieKey (pos : Nat) : BitVec 512
opaque dieSig (pos nonce : Nat) : BitVec 512
/-- The nonce of that challenge, for the n-th choice (R425; log 15). -/
opaque nonce (pos n : Nat) : BitVec 256

/-- An SM2 signature by the device identity key, as a number of 64 bytes: it holds a random number (R448, R455; log 7). -/
opaque sm2Sign (msg : List Byte) : BitVec 512

/-- The device's public key, x then y (R455; log 7). -/
opaque deviceKey : BitVec 512

/-- The DER certificates of the device's chain (R450; log 7). -/
opaque certificates : List (List Byte)

/-- STEPPING of VERSION (R453; log 7). -/
opaque stepping : BitVec 16

/-- Events of a cycle that depend on caches and banks (17 R394 codes 0x0A and 0x0B), for the n-th choice (log 6). -/
opaque cacheEvents : Nat → Nat → Nat

/-- Which of the values that an operand word has had a racing read takes (08 R183), by the n-th choice, the word and the read. -/
opaque raced (n word read : Nat) : Nat

/-- A value the manual does not state, for the n-th choice at a point named by its log number. -/
opaque free (log n : Nat) : Nat

/-- The SM3 digest of the firmware image (20 R451; log 15). -/
opaque firmwareDigest : BitVec 256

/-- The physical byte that a packet's P names at a home (19 R427, R428: the header names no geometry; log 16). -/
opaque packetPlace (die p : Nat) : Nat

/-- The features the stepping implements (R456): bits 0 to 8 (log 8: DESIGN CHOICE). -/
def featAvail : Word := 0x1FF

end Sys2Proof.Config
end

