-- ==== Sys2Proof/Machine/Bits.lean ====
section
/-! DEFINITION. Bit fields, sign extension and byte order (00 R1-R4, R9). -/
namespace Sys2Proof.Machine

/-- Bits hi:lo of a number (R1). -/
def bits (n hi lo : Nat) : Nat := n / 2 ^ lo % 2 ^ (hi + 1 - lo)
/-- Bit k of a number. -/
def bit (n k : Nat) : Bool := n / 2 ^ k % 2 == 1
/-- Bits hi:lo of a word, as a number. -/
def wbits (w : Word) (hi lo : Nat) : Nat := bits w.toNat hi lo
/-- A number from a Boolean. -/
def b2n (b : Bool) : Nat := if b then 1 else 0
/-- trunc64 (R9). -/
def w64 (n : Nat) : Word := BitVec.ofNat 64 n
/-- trunc64 of an integer (R9). -/
def i64 (n : Int) : Word := BitVec.ofInt 64 n
/-- sext64 of a field of w bits (R9). -/
def sext {w : Nat} (x : BitVec w) : Word := x.signExtend 64
/-- The signed value of the low w bits of n (R4). -/
def sval (n w : Nat) : Int := let m := n % 2 ^ w; if 2 ^ (w - 1) ≤ m then (m : Int) - 2 ^ w else m
/-- sext64(x[31:0]): the result of a .w form (R69). -/
def sx32 (x : Word) : Word := (x.setWidth 32).signExtend 64
/-- Replace bits lo+len-1 : lo of n by v. -/
def setBits (n lo len v : Nat) : Nat := n - bits n (lo + len - 1) lo * 2 ^ lo + (v % 2 ^ len) * 2 ^ lo
/-- Bytes of a number, little-endian (R2). -/
def toBytes : Nat → Nat → List Byte
  | 0, _ => []
  | k + 1, v => BitVec.ofNat 8 v :: toBytes k (v / 256)
/-- The number bytes hold, little-endian (R2). -/
def ofBytes : List Byte → Nat
  | [] => 0
  | b :: bs => b.toNat + 256 * ofBytes bs
/-- A word's eight bytes (R2). -/
def wordBytes (w : Word) : List Byte := toBytes 8 w.toNat
/-- Group bytes into words (R2); a short last group is zero-padded. -/
def wordsOf (bs : List Byte) : Nat → List Word
  | 0 => []
  | k + 1 => w64 (ofBytes (bs.take 8)) :: wordsOf (bs.drop 8) k
/-- The numbers a, a+1, ..., a+n-1. -/
def upto (a : Nat) : Nat → List Nat
  | 0 => []
  | n + 1 => a :: upto (a + 1) n
/-- The positions of the set bits of a mask below n, ascending: list(mask) of R294. -/
def setBitsOf (m n : Nat) : List Nat := (upto 0 n).filter (bit m)
/-- The last multiple of m at or below n. -/
def alignDown (n m : Nat) : Nat := n - n % m
/-- Round up to a multiple of m. -/
def alignUp (n m : Nat) : Nat := (n + (m - 1)) / m * m

end Sys2Proof.Machine
end

