-- ==== Sys2Proof/Machine/Crypto.lean ====
section
/-! DEFINITION. The named standards of 20 R446 and R448 (log 7: PRESUMED, from the published standards): SM3 (GB/T 32905), SM4 (GB/T
32907) in XTS mode (IEEE 1619), and the verification of an SM2 signature (GB/T 32918.2). Words and blocks are big-endian there. -/
namespace Sys2Proof.Machine

/-- The number of bytes, the first the most significant. -/
def beNum (bs : List Byte) : Nat := bs.foldl (fun n b => 256 * n + b.toNat) 0
/-- n bytes of a number, the most significant first. -/
def beBytes (n v : Nat) : List Byte := (toBytes n v).reverse
/-- A 32-bit word rotated left. -/
def rotl32 (x : BitVec 32) (n : Nat) : BitVec 32 := x.rotateLeft n
/-- The bytes of a list in groups of n. -/
def groups (n : Nat) : Nat → List Byte → List (List Byte)
  | 0, _ => []
  | k + 1, l => if l.isEmpty then [] else l.take n :: groups n k (l.drop n)

/-! SM3. -/

def sm3P0 (x : BitVec 32) : BitVec 32 := x ^^^ rotl32 x 9 ^^^ rotl32 x 17
def sm3P1 (x : BitVec 32) : BitVec 32 := x ^^^ rotl32 x 15 ^^^ rotl32 x 23

/-- The padded message. -/
def sm3Pad (m : List Byte) : List Byte :=
  m ++ (0x80 : Byte) :: List.replicate ((119 - m.length % 64) % 64) 0 ++ beBytes 8 (8 * m.length)

/-- Message expansion: the words so far, the newest first, and k more. -/
def sm3Expand : Nat → List (BitVec 32) → List (BitVec 32)
  | 0, w => w
  | k + 1, w =>
    let at' := fun n => w.getD (n - 1) 0
    sm3Expand k ((sm3P1 (at' 16 ^^^ at' 9 ^^^ rotl32 (at' 3) 15) ^^^ rotl32 (at' 13) 7 ^^^ at' 6) :: w)

/-- Round j on the registers A to H. -/
def sm3Round (v : List (BitVec 32)) (j : Nat) (w w4 : BitVec 32) : List (BitVec 32) :=
  match v with
  | [a, b, c, d, e, f, g, h] =>
    let t : BitVec 32 := if j < 16 then 0x79CC4519 else 0x7A879D8A
    let ss1 := rotl32 (rotl32 a 12 + e + rotl32 t (j % 32)) 7
    let ff := if j < 16 then a ^^^ b ^^^ c else (a &&& b) ||| (a &&& c) ||| (b &&& c)
    let gg := if j < 16 then e ^^^ f ^^^ g else (e &&& f) ||| (~~~e &&& g)
    let tt1 := ff + d + (ss1 ^^^ rotl32 a 12) + (w ^^^ w4)
    let tt2 := gg + h + ss1 + w
    [tt1, a, rotl32 b 9, c, sm3P0 tt2, e, rotl32 f 19, g]
  | _ => v

/-- The compression of one 64-byte block. -/
def sm3Block (v : List (BitVec 32)) (b : List Byte) : List (BitVec 32) :=
  let w := (sm3Expand 52 ((groups 4 16 b).map (fun x => BitVec.ofNat 32 (beNum x))).reverse).reverse
  let r := (upto 0 64).foldl (fun r j => sm3Round r j (w.getD j 0) (w.getD (j + 4) 0)) v
  (v.zip r).map (fun x => x.1 ^^^ x.2)

/-- The SM3 digest, as a number whose byte k is byte k of the digest. -/
def sm3 (m : List Byte) : BitVec 256 :=
  let iv : List (BitVec 32) := [0x7380166F, 0x4914B2B9, 0x172442D7, 0xDA8A0600, 0xA96F30BC, 0x163138AA, 0xE38DEE4D, 0xB0FB0E4E]
  let p := sm3Pad m
  let v := (groups 64 p.length p).foldl sm3Block iv
  BitVec.ofNat 256 (ofBytes (v.flatMap (fun x => beBytes 4 x.toNat)))

/-! SM4. -/

/-- The S-box, entry 0 the most significant byte. -/
def sm4Box : Nat :=
  0xD690E9FECCE13DB716B614C228FB2C052B679A762ABE04C3AA441326498606999C4250F491EF987A33540B43EDCFAC62E4B31CA9C908E89580DF94FA758F3FA64707A7FCF37317BA83593C19E6854FA8686B81B27164DA8BF8EB0F4B70569D351E240E5E6358D1A225227C3B01217887D40046579FD327524C3602E7A0C4C89EEABF8AD240C738B5A3F7F2CEF96115A1E0AE5DA49B341A55AD933230F58CB1E31DF6E22E8266CA60C02923AB0D534E6FD5DB3745DEFD8E2F03FF6A726D6C5B518D1BAF92BBDDBC7F11D95C411F105AD80AC13188A5CD7BBD2D74D012B8E5B4B08969974A0C96777E65B9F109C56EC68418F07DEC3ADC4D2079EE5F3ED7CB3948

/-- The S-box on each byte of a word. -/
def sm4Tau (x : BitVec 32) : BitVec 32 :=
  BitVec.ofNat 32 (beNum ((beBytes 4 x.toNat).map (fun b => BitVec.ofNat 8 (sm4Box / 256 ^ (255 - b.toNat)))))

/-- The round transformation, and that of the key schedule. -/
def sm4T (x : BitVec 32) : BitVec 32 :=
  let b := sm4Tau x
  b ^^^ rotl32 b 2 ^^^ rotl32 b 10 ^^^ rotl32 b 18 ^^^ rotl32 b 24
def sm4K (x : BitVec 32) : BitVec 32 :=
  let b := sm4Tau x
  b ^^^ rotl32 b 13 ^^^ rotl32 b 23

/-- Four words of 16 bytes, and back. -/
def sm4Words (b : List Byte) : List (BitVec 32) := (groups 4 4 b).map (fun x => BitVec.ofNat 32 (beNum x))

/-- One round on four words, with a round key. -/
def sm4Step (t : BitVec 32 → BitVec 32) (v : List (BitVec 32)) (k : BitVec 32) : List (BitVec 32) :=
  match v with
  | [a, b, c, d] => [b, c, d, a ^^^ t (b ^^^ c ^^^ d ^^^ k)]
  | _ => v

/-- The 32 round keys of a key of 16 bytes. -/
def sm4Keys (key : List Byte) : List (BitVec 32) :=
  let fk : List (BitVec 32) := [0xA3B1BAC6, 0x56AA3350, 0x677D9197, 0xB27022DC]
  let ck := fun i => BitVec.ofNat 32 (beNum ((upto 0 4).map (fun j => BitVec.ofNat 8 (7 * (4 * i + j)))))
  ((upto 0 32).foldl (fun (x : List (BitVec 32) × List (BitVec 32)) i =>
    let v := sm4Step sm4K x.1 (ck i)
    (v, x.2 ++ [v.getD 3 0])) (((sm4Words key).zip fk).map (fun x => x.1 ^^^ x.2), [])).2

/-- A block of 16 bytes through the rounds with the keys in an order: encryption, and in the reverse order decryption. -/
def sm4Rounds (keys : List (BitVec 32)) (b : List Byte) : List Byte :=
  (keys.foldl (sm4Step sm4T) (sm4Words b)).reverse.flatMap (fun x => beBytes 4 x.toNat)

def sm4Enc (key b : List Byte) : List Byte := sm4Rounds (sm4Keys key) b
def sm4Dec (key b : List Byte) : List Byte := sm4Rounds (sm4Keys key).reverse b

/-! XTS (IEEE 1619). -/

/-- A tweak block times alpha, as a little-endian number. -/
def xtsDouble (n : Nat) : Nat := if 2 ^ 127 ≤ n then (2 * n % 2 ^ 128) ^^^ 0x87 else 2 * n

/-- Block j of a data unit, encrypted or decrypted under a pair of keys. -/
def xtsBlock (enc : Bool) (keys : BitVec 256) (tweak j : Nat) (b : List Byte) : List Byte :=
  let k := toBytes 32 keys.toNat
  let t := toBytes 16 ((upto 0 j).foldl (fun n _ => xtsDouble n) (ofBytes (sm4Enc (k.drop 16) (toBytes 16 tweak))))
  let x := fun (l : List Byte) => (l.zip t).map (fun y => y.1 ^^^ y.2)
  x ((if enc then sm4Enc else sm4Dec) (k.take 16) (x b))

/-! SM2. -/

def sm2p : Nat := 0xFFFFFFFEFFFFFFFFFFFFFFFFFFFFFFFFFFFFFFFF00000000FFFFFFFFFFFFFFFF
def sm2a : Nat := sm2p - 3
def sm2b : Nat := 0x28E9FA9E9D9F5E344D5A9E4BCF6509A7F39789F515AB8F92DDBCBD414D940E93
def sm2n : Nat := 0xFFFFFFFEFFFFFFFFFFFFFFFFFFFFFFFF7203DF6B21C6052B53BBF40939D54123
def sm2gx : Nat := 0x32C4AE2C1F1981195F9904466A39C9948FE30BBFF2660BE1715A4589334C74C7
def sm2gy : Nat := 0xBC3736A2F4F6779C59BDCEE36B692153D0A9877CC62A474002DF32E52139F0A0

/-- A power modulo the field's prime, over the low k bits of the exponent. -/
def sm2Pow (x e : Nat) : Nat → Nat
  | 0 => 1
  | k + 1 => let y := sm2Pow x (e / 2) k; if e % 2 = 1 then y * y % sm2p * x % sm2p else y * y % sm2p

/-- A difference modulo the prime. -/
def sm2Sub (x y : Nat) : Nat := (x + sm2p - y % sm2p) % sm2p

/-- The sum of two points of the curve; none is the point at infinity. -/
def sm2Add (u v : Option (Nat × Nat)) : Option (Nat × Nat) :=
  match u, v with
  | none, _ => v
  | _, none => u
  | some (x1, y1), some (x2, y2) =>
    if x1 = x2 ∧ (y1 + y2) % sm2p = 0 then none
    else
      let top := if x1 = x2 then (3 * x1 * x1 + sm2a) % sm2p else sm2Sub y2 y1
      let bottom := if x1 = x2 then 2 * y1 % sm2p else sm2Sub x2 x1
      let l := top * sm2Pow bottom (sm2p - 2) 256 % sm2p
      let x := sm2Sub (sm2Sub (l * l % sm2p) x1) x2
      some (x, sm2Sub (l * sm2Sub x1 x % sm2p) y1)

/-- A multiple of a point, over the low k bits of the factor. -/
def sm2Mul (e : Nat) (u : Option (Nat × Nat)) : Nat → Option (Nat × Nat)
  | 0 => none
  | k + 1 => let y := sm2Mul (e / 2) u k; let d := sm2Add y y; if e % 2 = 1 then sm2Add d u else d

/-- Z of a public key, with the default user identity. -/
def sm2Z (x y : Nat) : List Byte :=
  let id : List Byte := [0x31, 0x32, 0x33, 0x34, 0x35, 0x36, 0x37, 0x38, 0x31, 0x32, 0x33, 0x34, 0x35, 0x36, 0x37, 0x38]
  toBytes 32 (sm3 (beBytes 2 128 ++ id ++ ([sm2a, sm2b, sm2gx, sm2gy, x, y].flatMap (beBytes 32)))).toNat

/-- Whether a signature (r, s) of 64 bytes verifies over a message under a public key (x, y) of 64 bytes. -/
def sm2Check (key msg sig : List Byte) : Bool :=
  let x := beNum (key.take 32)
  let y := beNum (key.drop 32)
  let r := beNum (sig.take 32)
  let s := beNum (sig.drop 32)
  let t := (r + s) % sm2n
  let e := beNum (toBytes 32 (sm3 (sm2Z x y ++ msg)).toNat)
  decide (1 ≤ r) && decide (r < sm2n) && decide (1 ≤ s) && decide (s < sm2n) && t != 0 &&
  decide (x < sm2p) && decide (y < sm2p) && y * y % sm2p == (x * x * x + sm2a * x + sm2b) % sm2p &&
  (match sm2Add (sm2Mul s (some (sm2gx, sm2gy)) 256) (sm2Mul t (some (x, y)) 256) with
   | some (x1, _) => (e + x1) % sm2n == r
   | none => false)

/-- Whether a signature verifies over the SM3 digest of a message under the key whose digest is given (R448). -/
def sm2Verify (d : BitVec 256) (msg sig : List Byte) : Bool :=
  let k := toBytes 64 (Config.keyOfDigest d).toNat
  sm3 k == d && sm2Check k (toBytes 32 (sm3 msg).toNat) sig

end Sys2Proof.Machine
end

