-- ==== Sys2Proof/Machine/Sparse.lean ====
section
/-! DEFINITION. Sparse tables: a list of (key, value) pairs in one canonical form, keys strictly rising and no entry equal
to the table's default. Memory bytes (10 R230), register banks and tables of the package are held so. -/
namespace Sys2Proof.Machine

/-- The value at key k, `d` when k is not listed. -/
def Sparse.get {α : Type} (d : α) : List (Nat × α) → Nat → α
  | [], _ => d
  | (j, v) :: l, k => if j = k then v else Sparse.get d l k

/-- Put v at key k of a rising list. -/
def Sparse.put {α : Type} : List (Nat × α) → Nat → α → List (Nat × α)
  | [], k, v => [(k, v)]
  | (j, w) :: l, k, v =>
    if k < j then (k, v) :: (j, w) :: l
    else if j = k then (k, v) :: l
    else (j, w) :: Sparse.put l k v

/-- Remove key k of a list, wherever it stands. -/
def Sparse.drop {α : Type} : List (Nat × α) → Nat → List (Nat × α)
  | [], _ => []
  | (j, w) :: l, k => if j = k then Sparse.drop l k else (j, w) :: Sparse.drop l k

/-- Set key k to v, removing the entry when v is the default. -/
def Sparse.set {α : Type} [DecidableEq α] (d : α) (l : List (Nat × α)) (k : Nat) (v : α) : List (Nat × α) :=
  if v = d then Sparse.drop l k else Sparse.put l k v

/-- Canonical form: keys strictly rising, no entry equal to the default. -/
def Sparse.canon {α : Type} [DecidableEq α] (d : α) : List (Nat × α) → Bool
  | [] => true
  | [(_, v)] => decide (v ≠ d)
  | (j, v) :: (k, w) :: l => decide (j < k) && decide (v ≠ d) && Sparse.canon d ((k, w) :: l)

/-- Sorted sets of numbers: insert. -/
def SSet.add : List Nat → Nat → List Nat
  | [], k => [k]
  | j :: l, k => if k < j then k :: j :: l else if j = k then j :: l else j :: SSet.add l k

/-- Sorted sets of numbers: remove, wherever it stands. -/
def SSet.del : List Nat → Nat → List Nat
  | [], _ => []
  | j :: l, k => if j = k then SSet.del l k else j :: SSet.del l k

/-- Sorted sets of numbers: insert or remove. -/
def SSet.put (l : List Nat) (k : Nat) (b : Bool) : List Nat := if b then SSet.add l k else SSet.del l k

/-- Replace the k-th item of a list by what f makes of it. -/
def modifyNth {α : Type} (f : α → α) : Nat → List α → List α
  | _, [] => []
  | 0, a :: l => f a :: l
  | k + 1, a :: l => a :: modifyNth f k l

/-- Remove the k-th item of a list. -/
def removeNth {α : Type} : Nat → List α → List α
  | _, [] => []
  | 0, _ :: l => l
  | k + 1, a :: l => a :: removeNth k l

/-- The first item of a list with the least key. -/
def leastBy {α : Type} (key : α → Nat) : List α → Option α
  | [] => none
  | a :: l => match leastBy key l with
    | none => some a
    | some b => if key b < key a then some b else some a

/-- The first item of a list with the greatest key. -/
def greatestBy {α : Type} (key : α → Nat) : List α → Option α
  | [] => none
  | a :: l => match greatestBy key l with
    | none => some a
    | some b => if key a < key b then some b else some a

end Sys2Proof.Machine
end

