-- ==== Sys2Proof/Machine/State.lean ====
section
/-! DEFINITION. The state of the part as plain data (INVENTORY.md '## State' lists every field with its rule), the
reasons a step can stop, and the state after reset. -/
namespace Sys2Proof.Machine

/-- Cause codes (18 R400). -/
inductive Cause where
  | illegal | registerRange | emptyRegister | badTarget | misalignedStack | trap | breakpoint | controlLineWrite
  | nonCanonical | windowAccess | misaligned | pageNotPresent | pageInvalid | geometry | permission | placementRange
  | syncClass | privilege | tableOperand | routeOperand | replicaTable | threadOperand | taskOperand | messageOperand
  | migrateOperand | prioOperand | engineOperand | counterOperand | debugOperand | gangAbsent | gangState | gangRecord
  | gangPlacement | gangFull | gangShape | engineSelector | accumulatorIndex | accumulatorBusy | matrixForm
  | matrixConfiguration | gangBound | gangDissolved | poisonedData | requestTimeOut | machineCheck | step | pageRequest
  | regionFault
  deriving DecidableEq, Repr

/-- Code of a cause (R400). -/
def Cause.code : Cause → Nat
  | .illegal => 0x01 | .registerRange => 0x02 | .emptyRegister => 0x03 | .badTarget => 0x04 | .misalignedStack => 0x05
  | .trap => 0x06 | .breakpoint => 0x07 | .controlLineWrite => 0x08 | .nonCanonical => 0x09 | .windowAccess => 0x0A
  | .misaligned => 0x0B | .pageNotPresent => 0x0C | .pageInvalid => 0x0D | .geometry => 0x0E | .permission => 0x0F
  | .placementRange => 0x10 | .syncClass => 0x11 | .privilege => 0x12 | .tableOperand => 0x13 | .routeOperand => 0x14
  | .replicaTable => 0x15 | .threadOperand => 0x16 | .taskOperand => 0x17 | .messageOperand => 0x18
  | .migrateOperand => 0x19 | .prioOperand => 0x1A | .engineOperand => 0x1B | .counterOperand => 0x1C
  | .debugOperand => 0x1D | .gangAbsent => 0x20 | .gangState => 0x21 | .gangRecord => 0x22 | .gangPlacement => 0x23
  | .gangFull => 0x24 | .gangShape => 0x25 | .engineSelector => 0x26 | .accumulatorIndex => 0x27
  | .accumulatorBusy => 0x28 | .matrixForm => 0x29 | .matrixConfiguration => 0x2A | .gangBound => 0x2B
  | .gangDissolved => 0x2C | .poisonedData => 0x30 | .requestTimeOut => 0x31 | .machineCheck => 0x32 | .step => 0x34
  | .pageRequest => 0x35 | .regionFault => 0x38

/-- Reasons of BLOCKED (02 R31). -/
inductive BlockReason where
  | empty | line | lock | feretry
  deriving DecidableEq, Repr

/-- Kinds of WAITING (R31). -/
inductive WaitKind where
  | wait | recv | fill | sbar | gang
  deriving DecidableEq, Repr

/-- States of a live thread (R31). UNBORN threads are those a launch has not materialised; DONE threads are gone. -/
inductive TState where
  | ready | resident | blocked (r : BlockReason) | waiting (k : WaitKind) | faulted
  deriving DecidableEq, Repr

/-- KIND of a fault record (18 R401). -/
inductive AccKind where
  | none | load | store | atomic | fullEmpty | engine | walk | fill
  deriving DecidableEq, Repr

/-- A message of an inbox (05 R112). -/
structure Msg where
  payload : Word
  src : Nat
  tag : Nat
  deriving DecidableEq, Repr

/-- A fault record with what routes it (18 R401, R405): the region and home domain of the faulted thread, the pool that
served the handler passing it on, and for a machine check the domain tag of the line. -/
structure Rec where
  cause : Cause
  async : Bool
  fetch : Bool
  ctx : Bool
  esc : Bool
  kind : AccKind
  detail : Nat
  tid : Option Tid
  core : Nat
  pc : Word
  word : Nat
  addr : Word
  tick : Nat
  region : Nat
  home : Nat
  pool : Option (Nat × Nat)
  mcDom : Option Nat
  deriving DecidableEq, Repr

/-- A request across a link (18 R420): its kind and address, whether it goes to the host tier, the tick at which it left, and the units
(01 R14) between which it travels. -/
structure Req where
  kind : AccKind
  addr : Word
  host : Bool
  since : Nat
  src : Nat := 0
  home : Nat := 0
  deriving DecidableEq, Repr

/-- How the bytes of a load become register values (11 R240): zero-extended, sign-extended from n bytes, or a pair from r. -/
inductive LoadConv where
  | zero (d : Nat)
  | sign (d n : Nat)
  | pair (r : Nat)
  deriving DecidableEq, Repr

/-- A load whose value is not bound yet (12 R259): its address and size, where its placement lay at issue, its leaf (none for a
scratchpad), its conversion, its kind, and the 8-byte half of a host-tier pair that was performed first (11 R242). -/
structure LoadSrc where
  va : Nat
  pa : Nat
  n : Nat
  leaf : Option Word
  conv : LoadConv
  kind : AccKind
  half : Option (Nat × List Byte)
  deriving DecidableEq, Repr

/-- What a fill brings (02 R34, 05 R118, 18 R418): register values with the flags of a floating-point producer, the request
across a link that it answers (18 R420), or the class A fault that the access ended in; for a memory access (`mem`) whether it
acquires (11 R244), for a load not bound yet where its value comes from, and the position in the store buffer from which on
stores drain only after it (ST.rel, FENCE.rel; 11 R243), and the number of buffered stores that a load follows in program order. -/
structure Fill where
  regs : List (Nat × Word)
  flags : BitVec 5
  float : Bool
  req : Option Req
  bad : Option (Cause × AccKind × Word)
  mem : Bool := false
  acq : Bool := false
  src : Option LoadSrc := none
  bar : Option Nat := none
  pos : Nat := 0
  deriving DecidableEq, Repr

/-- An entry of a thread's store buffer (15 R341): the bytes, where its placement lies, its virtual address, the tick since
which nothing keeps it from leaving, when its request leaves (18 R420), and the scopes of the releases it comes after (11 R243). -/
structure StoreEnt where
  va : Nat
  pa : Nat
  bytes : List Byte
  leaf : Option Word
  since : Nat := 0
  rel : List Scope := []
  deriving DecidableEq, Repr

/-- A store that has left its thread's store buffer and not reached its global point (12 R273): the threads of its die see it (R266), and
no other agent. Its thread, the core it drained on, and its entry. -/
structure Early where
  tid : Tid
  core : Nat
  ent : StoreEnt
  deriving DecidableEq, Repr

/-- What waits for a credit of a home (15 R345): a thread's atomic or full/empty access, a packet, or a counter update of the device. -/
inductive Waiter where
  | thread (i : Tid)
  | packet (seq : Nat)
  | device
  deriving DecidableEq, Repr

/-- A translation walk that holds a thread (11 R239). -/
structure WalkReq where
  va : Nat
  kind : AccKind
  write : Bool
  fetch : Bool
  deriving DecidableEq, Repr

/-- One TLB entry (13 R298): the domain, the page's first byte and size, and the leaf read. -/
structure TlbEnt where
  sdom : Nat
  base : Nat
  size : Nat
  leaf : Word
  deriving DecidableEq, Repr

/-- A task-queue entry (15 R338, 16 R353), with the requester and the home domain of its region. -/
structure TaskEnt where
  pc : Word
  args : List Word
  region : Nat
  home : Nat
  sdom : Nat
  lines : Nat
  handle : Nat
  caller : Word
  from' : Tid
  parked : Bool
  deriving DecidableEq, Repr

/-- The commands of major 0x2F that the queue holds (16 R349). -/
inductive EngKind where
  | cpy | cpy2d | deal | rstr | mred
  deriving DecidableEq, Repr

/-- An accepted engine command (15 R343, 16 R369): its issuer, its descriptor's words and its modifiers; for
RSTR its record and the CODE it will end with (R373). Of its pieces, by number (16 R371, 12 R279): what those read and not written
hold, those written, those discarded; and the errors met (R373). -/
structure EngCmd where
  id : Nat
  kind : EngKind
  tid : Tid
  home : Nat
  region : Nat
  core : Nat
  src : Nat
  dst : Nat
  len : Nat
  p1 : Nat
  p2 : Nat
  p3 : Nat
  status : Nat
  scope : Scope
  acq : Bool
  rel : Bool
  fill : Option Nat
  started : Bool
  record : Option Nat
  result : Nat
  /-- the tick of its start (18 R420) -/
  since : Nat := 0
  /-- the expert whose replication it is: an entry of Equinox (15 R343) -/
  eq : Option Nat := none
  reads : List (Nat × List Byte) := []
  wrote : List Nat := []
  lost : List Nat := []
  /-- CODE, 16 to 20, and FADDR of the lowest error so far -/
  bad : Option (Nat × Nat) := none
  /-- the first control-line word discarded: CODE 21 -/
  late : Option Nat := none
  /-- the source words that a read of a piece brought whole, for the pieces still to be read (12 R279, 10 R225) -/
  seen : List (Nat × List Byte) := []
  /-- the pieces whose request across a link has left and is not answered, with its tick (18 R420) -/
  asked : List (Nat × Nat) := []
  deriving DecidableEq, Repr

/-- A write of a completed engine command that is not visible yet (12 R279, no release flag that covers it): the command's thread, its
addresses, its bytes, and the geometry dies of its word (12 R263; none: the host). -/
structure Landing where
  tid : Tid
  va : Nat
  pa : Nat
  mirror : Option Nat
  bytes : List Byte
  dies : Option Nat
  deriving DecidableEq, Repr

/-- An issued instruction that holds its thread until a reply or its own completion (02 R32). -/
inductive Pend where
  /-- RET's load (06 R143) -/
  | ret (x : LoadSrc)
  /-- a full/empty access on a sync page (11 R251): 0 LDFE, 1 LDFE.k, 2 STFE, 3 STFE.f; register, address, leaf, value -/
  | fe (kind reg va : Nat) (leaf : Word) (val : Word)
  /-- SPAWN and CALLAT (16 R353) -/
  | spawn (core : Nat) (e : TaskEnt)
  /-- SEND (R356): target, tag, payload, status register -/
  | send (h : Tid) (tag : Nat) (val : Word) (reg : Nat)
  /-- RESUME (R367) -/
  | resume (h : Tid) (reg : Nat)
  /-- KILL (R367) -/
  | kill (h : Tid) (reg : Nat)
  /-- an ATOM or CAS whose request waits for a credit or a route (15 R345): its destination -/
  | atomic (reg : Nat)
  /-- KILL whose return message is held (R367) -/
  | killHeld (reg : Nat)
  /-- EXIT with a return message (R359): target and payload are read when it completes -/
  | exit
  /-- an engine command awaiting acceptance (R370) -/
  | engine (c : EngCmd)
  /-- TLBINV (13 R299): the extents invalidated, as first byte and size -/
  | tlbinv (ranges : List (Nat × Nat))
  /-- GTSYNC (13 R300): index and the entry loaded -/
  | gtsync (idx : Nat) (e : Word)
  deriving DecidableEq, Repr

/-- What a WAITING thread waits for (16 R360, 17 R384, R389; 09 R196). -/
inductive WaitCond where
  /-- WAIT (R361): a word, its placement, the expected value, the destination -/
  | watch (pa : Nat) (val : Word) (reg : Nat)
  /-- SLEEP (R362) -/
  | sleep
  /-- RECV (R357): the pair -/
  | recv (pair : Nat)
  /-- FILL.WAIT (17 R384): the counter's placement, the phase, the destination -/
  | fill (pa : Nat) (val : Word) (reg : Nat)
  /-- SBAR.WAIT (17 R389): network, the episode waited for, the predicate, the time-out -/
  | sbar (net ep : Nat) (p : Pred) (timeout : Nat)
  /-- GANG.FORM or GANG.JOIN of a forming gang (09 R196, R197): the destination and the member index -/
  | gang (g : GangId) (reg k : Nat)
  /-- GANG.JOIN on a record whose GSTATE is 0 (R197): where its word 0x008 lies, the leaf, the destination -/
  | gangTest (g : GangId) (pa : Nat) (leaf : Option Word) (reg : Nat)
  /-- a collective (R199) -/
  | coll (g : GangId)
  deriving DecidableEq, Repr

/-- A thread: its context frame (05 R111, R112) and what the device keeps beside it (02 R46). -/
structure Thread where
  id : Tid
  home : Nat
  core : Nat
  st : TState
  slot : Option (Nat × Nat)
  pc : Word
  pred : BitVec 8
  lines : Nat
  g : Vector Word 64
  fe : Word
  emt : Word
  fpf : BitVec 5
  rnd : BitVec 3
  stkp : Word
  prio : Nat
  priol : Bool
  hnd : Bool
  upv : Nat
  fcause : Nat
  region : Nat
  waitarg : Word
  deadline : Word
  incnt : Nat
  inhead : Nat
  msgs : Vector Msg 4
  age : Nat
  aged : Nat
  readySince : Nat
  slotSince : Nat
  waitSince : Nat
  /-- the tick at which a READY thread reached an effective priority, since its base priority last changed (02 R47) -/
  reach : Nat × Nat := (0, 0)
  /-- the candidate for which it leaves its slot at its next boundary (02 R48) -/
  claim : Option Tid := none
  /-- the core cycle in which it last issued (02 R53) -/
  issuedAt : Nat := 0
  ctl : Bool
  linesIn : List Nat
  placed : Option (List Nat)
  snap : List Word
  stores : List StoreEnt
  fills : List Fill
  walk : Option WalkReq
  retryAt : Nat
  killed : Bool
  asyncs : List Rec
  stepped : Bool
  preempt : Bool
  launch : Option (Nat × Nat)
  gang : Option GangId
  pend : Option Pend
  /-- the request across a link of the instruction that holds the thread (18 R420) -/
  req : Option Req := none
  iword : Nat
  cond : Option WaitCond
  pool : Option (Nat × Nat × Nat)
  served : Option Rec
  /-- the scopes of the releases that its next stores come after (11 R243) -/
  fenced : List Scope := []
  /-- words of stores before their global point that its loads have returned (12 R273, R279) -/
  saw : List Nat := []
  deriving DecidableEq, Repr

/-- A reservation list (15 R339): the handles, oldest first, and for each entry reserved the tick at which that reservation began;
the k-th is the k-th handle's. -/
structure Reserve where
  list : List Tid
  since : List Nat
  deriving DecidableEq, Repr

/-- A performance counter (17 R393); `new` while the cycle lasts in which it was programmed, whose events it does not count (R395). -/
structure Perf where
  owner : Nat
  event : Nat
  en : Bool
  val : Word
  new : Bool
  deriving DecidableEq, Repr

/-- A performance counter after reset (R393). -/
def Perf.init : Perf := { owner := 0xFFFF, event := 0, en := false, val := 0, new := false }

/-- Ramp states of a matrix unit (08 R187). -/
inductive Ramp where
  | down | rampUp | up | rampDown
  deriving DecidableEq, Repr

/-- A matrix unit (08 R172, R182 to R188): its ramp state, the cycles left of a ramp and those of them due to the stagger of
01 R30, BURST, consecutive idle cycles, the gang that holds it, the elements of its tiles that are not 0 (key tile * 1024 +
row * 32 + column), the locks, the cycles left of its part of the operation in flight with its step cycles, and the index
latch. -/
structure MatUnit where
  ramp : Ramp
  left : Nat
  stag : Nat
  began : Nat
  burst : Nat
  idle : Nat
  gang : Option GangId
  tiles : List (Nat × Nat)
  lock : Nat
  run : Option Nat
  steps : Nat
  latch : List Nat
  deriving DecidableEq, Repr

/-- A matrix unit after reset (R187): DOWN, BURST 0, every tile 0. -/
def MatUnit.init : MatUnit :=
  { ramp := .down, left := 0, stag := 0, began := 0, burst := 0, idle := 0, gang := none, tiles := [], lock := 0
    run := none, steps := 0, latch := [] }

/-- A walk-cache entry (13 R298): the table pointer or leaf that a walk of a domain read at a level, the span of addresses it
serves, and where it was read. -/
structure WalkEnt where
  sdom : Nat
  lvl : Nat
  base : Nat
  size : Nat
  entry : Word
  pa : Nat
  deriving DecidableEq, Repr

/-- A translation walked for the instruction in progress of a thread, not used yet (11 R239, 13 R307): the address, whether it is for a
write, the leaf with the place of its entry, and what the walk read. -/
structure Fresh where
  tid : Tid
  va : Nat
  write : Bool
  leaf : Word
  entryPa : Nat
  path : List WalkEnt
  deriving DecidableEq, Repr

/-- One core (01 R17). -/
structure Core where
  cycle : Nat
  unit : MatUnit
  tlb : List TlbEnt
  /-- what walks of instructions in progress have found (11 R239) -/
  fresh : List Fresh
  spdom : List (Nat × Nat)
  zeroing : List Nat
  dbg : List (Nat × Word)
  steps : List Tid
  perf : List (Nat × Perf)
  /-- the events of the cycle in progress that a counter counts: domain (none: every one), code, number (17 R394) -/
  events : List (Option Nat × Nat × Nat)
  taskq : List TaskEnt
  taskRes : Reserve
  faultTimes : List (Nat × Nat)
  pageReqs : List (Nat × Nat)
  lastTask : Option Nat
  /-- the cycle and source core of the last arrival at the task queue (15 R338, R346) -/
  arrived : Option (Nat × Nat)
  deriving DecidableEq, Repr

/-- A Restripe Table record (13 R302): STATE 1 copying, 2 finishing, 3 aborting; while it finishes, the old leaf of each chunk, to whose
placement writes are still made (R304). -/
structure Restripe where
  vbase : Nat
  nchunk : Nat
  sdom : Nat
  st : Nat
  newgidx : Nat
  newframe : Nat
  prog : Nat
  start : Nat
  cmd : Nat
  old : List Word := []
  deriving DecidableEq, Repr

/-- An Equinox evaluation that waits for its copies (14 R319): the domain entry with its DVA and SDOM, the descriptor's first 128 bytes as
it read them, G, the replications still to be copied (expert, die, pool slot), those copied, and the experts that retire their
highest slot. -/
structure EqRun where
  dom : Nat
  dva : Nat
  sdom : Nat
  desc : Nat
  gen : Nat
  todo : List (Nat × Nat × Nat)
  done : List (Nat × Nat × Nat)
  retire : List Nat
  deriving DecidableEq, Repr

/-- One die: C-die and S-die (01 R13). -/
structure Die where
  gcache : List (Nat × Word)
  errs : List (Nat × Word)
  upq : List Rec
  target : Nat
  count : Nat
  busy : Bool
  refused : Bool
  carvedom : List (Nat × Nat)
  unitZeroing : List Nat
  restripe : List (Nat × Restripe)
  engq : List EngCmd
  engRes : Reserve
  landing : List Landing
  eqRun : Option EqRun
  walks : List WalkEnt
  /-- the tick and source core of the last arrival at the engine command queue (15 R346) -/
  arrived : Option (Nat × Nat)
  deriving DecidableEq, Repr

/-- A Security Domain Table entry with the domain's keys and DMEAS (20 R444, R445, R454). -/
structure Domain where
  rootptr : Word
  v : Bool
  hostap : Bool
  cmdseq : Nat
  tkey : BitVec 256
  key : Nat
  dmeas : BitVec 256
  deriving DecidableEq, Repr

/-- A matrix operation in flight (08 R179): the fn of its GANG.MMA, the scratchpad bytes of its sources at its start, the
values that aligned words of those scratchpads have taken since, in order (R183), and whether its units step. -/
structure MatOp where
  fn : Nat
  snap : List Host.Cell
  seen : List (Nat × List Byte)
  /-- every unit of the gang has been UP since the operation was armed: each steps from now on (R187) -/
  going : Bool := false
  deriving DecidableEq, Repr

/-- What the device keeps of a gang beside its record (08 R173 to R179, R191, R478): shape and members by index; GSTATE 1 or 2;
HOME, FRAMEB, OPS; the members counted in ARRIVED with the fn of their collective; the shadow and active engine registers;
the operation in flight; RES; whether no reactivation has followed the convening; the R478 mark; the leaves of the record's
and the frames' pages as recorded, by 16 KiB, or the scratchpad place of the record; requests to be saved and broken; the
tick since which it waits for slots, with the tick at which it reached an effective priority (02 R47), and the candidate for
which it leaves (02 R48). -/
structure Gang where
  id : GangId
  quad : Bool
  m : Nat
  members : List (Nat × Tid)
  gstate : Nat
  home : Nat
  frameb : Nat
  ops : Nat
  arrived : List (Nat × Nat)
  shadow : List Word
  active : List Word
  op : Option MatOp
  resident : Bool
  first : Bool
  marked : Bool
  places : List (Option Word)
  pad : Option Nat
  saving : Bool
  breaking : Bool
  since : Nat
  reach : Nat × Nat := (0, 0)
  claim : Option Tid := none
  deriving DecidableEq, Repr

/-- A Queue Table entry (15 R330), with the TAIL noticed (R331) and the cancels recorded (R336). -/
structure QueueEnt where
  lqd : Nat
  root : Nat
  v : Bool
  device : Bool
  sdom : Nat
  noticed : Nat
  cancels : List Nat
  deriving DecidableEq, Repr

/-- An open launch (15 R334): its queue, record index, record and LQD, the cores (for a quad gang, the quads) of its die mask at the
take, the next UNBORN thread, the live threads, whether it was cancelled, and the tick of its take. -/
structure Launch where
  id : Nat
  queue : Nat
  index : Nat
  pc : Word
  count : Nat
  lines : Nat
  cores : List Nat
  pack : Bool
  gshape : Nat
  gm : Nat
  region : Nat
  home : Nat
  args : Word
  frames : Nat
  grecb : Nat
  gframeb : Nat
  doneaddr : Nat
  lqd : Nat
  next : Nat
  live : Nat
  cancelled : Bool
  taken : Nat
  deriving DecidableEq, Repr

/-- A kill message the device holds (16 R367): target, killed thread's handle, and the KILL that waits for it. -/
structure KillMsg where
  target : Tid
  src : Nat
  issuer : Option Tid
  deriving DecidableEq, Repr

/-- A Fault Domain Table entry (18 R408). -/
structure Fdt where
  fdom : Nat
  sdom : Nat
  v : Bool
  brkdbg : Bool
  dbgen : Bool
  mcregion : Nat
  dbgregion : Nat
  deriving DecidableEq, Repr

/-- An Expert Domain Table entry (14 R308) with its Equinox queue entry (15 R344): the next due tick, and the run of evaluations
held back by a drain (R319). -/
structure Edt where
  dva : Word
  sdom : Nat
  owner : Nat
  v : Bool
  due : Nat
  /-- the INTERVAL after which the first evaluation is due was not readable yet: `due` is the tick of creation (10 R233, 18 R419) -/
  late : Bool
  stalls : Nat
  deriving DecidableEq, Repr

/-- A core's endpoint on a Solstice network (17 R387, R388): for the open episode and the next, the arrivals issued, those
counted, and COUNT. -/
structure EndPt where
  issued0 : Nat
  counted0 : Nat
  count0 : Nat
  issued1 : Nat
  counted1 : Nat
  count1 : Nat
  deriving DecidableEq, Repr

/-- A Solstice network (17 R385 to R387): its owner, EPI, the abandonment history (bit k: episode EPI - 1 - k), and its
endpoints by core. -/
structure SolNet where
  dom : Nat
  epi : Nat
  hist : Nat
  ends : List (Nat × EndPt)
  deriving DecidableEq, Repr

/-- An Ethernet work entry taken and not completed (19 R441, R442): its index, its eight words, and the domain and EPD it was
taken under. -/
structure EthWork where
  index : Nat
  words : List Word
  sdom : Nat
  epd : Nat
  deriving DecidableEq, Repr

/-- An Ethernet endpoint (19 R441, R442). -/
structure Endpoint where
  sdom : Nat
  v : Bool
  epd : Word
  noticed : Nat
  work : List EthWork
  deriving DecidableEq, Repr

/-- What bring-up finds (19 R424 to R429): whether the firmware image verifies, its SVN, the fused floor and its digest; which
keys and signatures answer the challenge (S-dies 0-7, C-dies 8-15, G1-G3 16-18: the manifest fused into G0, and the keys fused into the
dies); links with a module trained (0-5 the row links, 6-9 the column links, 10-17 the gateway links, 18 the host link of 01 R14); C-dies
and cores that pass self-test; stacks and G-dies whose memory trains. -/
structure Silicon where
  imageOk : Bool
  svn : Nat
  floor : Nat
  meas : BitVec 256
  manifest : List (BitVec 256)
  dieKeys : List (BitVec 512)
  links : Nat
  cdies : Nat
  cores : Nat
  hbm : Nat
  gdies : Nat
  deriving DecidableEq, Repr

/-- A directory entry of a home (19 R428): the sharers and the owner by source number, and the request held until the holders
named have acknowledged. -/
structure DirEnt where
  sharers : List Nat
  owner : Option Nat
  waits : List Nat
  req : Option Packet
  deriving DecidableEq, Repr

/-- A record of the machine-check log (18 R416): six words, SDOM, FDOM and HOLD, with the root whose tree it holds and its home domain. -/
structure McRec where
  words : List Word
  sdom : Nat
  fdom : Nat
  hold : Bool
  root : Nat
  home : Nat
  deriving DecidableEq, Repr

/-- A write of the device that waits for its place (13 R303, 10 R235): bytes, an addition to a field of n bytes, or the clearing of
bit k of a field of n bytes. -/
inductive DevAct where
  | put (bs : List Byte)
  /-- the status word of a launch (15 R333), counted where it cannot be stored -/
  | status (bs : List Byte)
  /-- a line of a context frame or gang record: no permission is checked (13 R290) -/
  | frame (bs : List Byte)
  | add (n : Nat) (d : Int)
  /-- an update of a region's counter (02 R43): across a link it takes an entry of the reply cache (15 R345) -/
  | count (n : Nat) (d : Int)
  | clear (n k : Nat)
  deriving DecidableEq, Repr

/-- A held write of the device: the die and the domain that translate it, its address, and what it does. -/
structure DevOp where
  die : Nat
  sdom : Nat
  va : Nat
  act : DevAct
  deriving DecidableEq, Repr

/-- A deferral entry of a home slice (11 R251): the word, the thread (none once it is
DONE), its register and whether it is LDFE.k. -/
structure Deferral where
  die : Nat
  slice : Nat
  pa : Nat
  va : Nat
  tid : Option Tid
  reg : Nat
  keep : Bool
  deriving DecidableEq, Repr

/-- The bring-up stage reached (19 R424): the stage that runs next, the two ways a package is held, or running. -/
inductive Stage where
  | boot | discovery | links | memory | configuration | release | running | held (status : Nat)
  deriving DecidableEq, Repr

/-- The state of the part. -/
structure State where
  /-- the package's stage of bring-up (R424) -/
  stage : Stage
  /-- the time-stamp counter (17 R377) -/
  tick : Nat
  /-- live threads (02 R46) -/
  threads : List Thread
  cores : List (Nat × Core)
  dies : List (Nat × Die)
  domains : List (Nat × Domain)
  /-- bytes of every memory (01 R21), by unit and local offset -/
  mem : List Host.Cell
  /-- words whose full/empty bit is 0 (11 R249) -/
  feEmpty : List Nat
  /-- poisoned words (18 R418) -/
  poison : List Nat
  /-- the key under which each 128-byte line is stored (20 R446); 0 for a line no domain has written -/
  lineKey : List (Nat × Nat)
  endies : Nat
  engdies : Nat
  enstacks : Nat
  /-- enabled cores, package-wide mask (19 R436 ENCORES) -/
  encores : Nat
  /-- cores retired whose CORE_RETIREMENT step is still to come (19 R433) -/
  retiring : List Nat
  featen : Word
  halted : Bool
  reqto : Nat
  hostto : Nat
  mclogcnt : Nat
  mclog : List (Nat × McRec)
  gtbase : Word
  fdt : List (Nat × Fdt)
  queues : List (Nat × QueueEnt)
  launches : List Launch
  /-- the queue at which the pass over the launch queues goes on (15 R333) -/
  takeTurn : Nat
  gangs : List Gang
  deferrals : List Deferral
  /-- drained stores before their global point, oldest first (12 R273) -/
  early : List Early
  /-- what waits for a credit of a home, by pair, in its order of issue (15 R345) -/
  credq : List (Nat × Waiter)
  /-- records that wait for an entry of a die's upcall queue, oldest first (18 R403) -/
  lateRecs : List (Nat × Rec)
  /-- WAITs whose word a write within the step in progress has changed, with the word it left (16 R361) -/
  ended : List (Tid × Word)
  /-- requests across a link that threads made before they were DONE, with the record of their time-out (18 R402, R420) -/
  orphans : List (Rec × Req)
  /-- writes of the device held until the chunk or unit that serves them is ready, oldest first (13 R303, 10 R235) -/
  devq : List DevOp
  /-- a launch record has been taken since reset (20 R449 SETFEAT) -/
  tookLaunch : Bool
  killMsgs : List KillMsg
  /-- finished threads whose last frame write is held while its page is absent (22 R471) -/
  held : List Thread
  /-- resident budget units reserved for a thread: home domain, region, thread (02 R49) -/
  resReserved : List (Nat × Nat × Tid)
  edt : List (Nat × Edt)
  /-- host apertures, words 0 to 2 (19 R438) -/
  apertures : List (Nat × List Word)
  hostErr : Nat
  /-- the bytes last given to the outside by a host read (19 R438) or an inbound get (19 R442) -/
  hostData : List Byte
  endpoints : List (Nat × Endpoint)
  /-- Solstice networks: die * 64 + row, + 16 + column, + 32 for the die combine; 8 * 64 + 32 the package combine -/
  solstice : List (Nat × SolNet)
  /-- arrivals issued and not yet counted (17 R388): network, core, episode -/
  arrivals : List (Nat × Nat × Nat)
  /-- episode ends not yet delivered (17 R391): network, core, episode, abandoned -/
  ends : List (Nat × Nat × Nat × Bool)
  /-- the mailbox's command area as the host last filled it (20 R448) -/
  command : List Byte
  /-- a mailbox command is being served (20 R448) -/
  serving : Bool
  /-- the mailbox response (20 R448) -/
  response : List Byte
  ownkey : BitVec 256
  ownseq : Nat
  silicon : Silicon
  /-- the dies whose answer to the challenge verified, by position (19 R425) -/
  trusted : Nat
  /-- links failed, and links that retrain (19 R426, R434) -/
  linkDown : List Nat
  retraining : List Nat
  /-- the enabled units no longer form one set joined to G0 (19 R434): HALTED cannot be cleared -/
  fatal : Bool
  /-- lines whose sharers were lost and whose recall runs (18 R419) -/
  sharersLost : List Nat
  /-- packets in flight (19 R427), the directory by die and line (R428), performed sequence numbers by pair (15 R345), and the
  reply cache (15 R345) -/
  net : List Packet
  directory : List (Nat × DirEnt)
  performed : List (Nat × List Nat)
  replies : List Packet
  /-- the next SEQ of a pair (SRC, home) (19 R427) -/
  seqs : List (Nat × Nat)
  nextLaunch : Nat
  nextCmd : Nat
  nextKey : Nat
  /-- the rest of the issue group being executed (02 R52, R53), and the word it fetched -/
  issue : List Tid
  fetched : Option Nat
  /-- the thread that executes -/
  cur : Option Tid
  /-- what the outside does next (00 R8; log 4) -/
  inputs : List Instr
  /-- the input just made waits for its place, and is made again -/
  waitsIn : Bool
  /-- the inbound access that waits has been admitted (19 R442) -/
  admitted : Bool
  draws : Nat
  deriving DecidableEq, Repr

/-- A core no instruction or step has touched: the reset values of R234, R393, R412. -/
def Core.init : Core :=
  { cycle := 0, unit := MatUnit.init, tlb := [], fresh := [], spdom := [], zeroing := [], dbg := [], steps := [], perf := [], events := [], taskq := [],
    taskRes := { list := [], since := [] }, faultTimes := [], pageReqs := [], lastTask := none, arrived := none }

/-- A die after reset: empty caches and queues, registers 0 (R234, R396, R436). -/
def Die.init : Die :=
  { gcache := [], errs := [], upq := [], target := 0, count := 0, busy := false, refused := false, carvedom := [],
    unitZeroing := [], restripe := [], engq := [], engRes := { list := [], since := [] }, landing := []
    eqRun := none, walks := [], arrived := none }

/-- A Security Domain Table entry after reset (R444): V 0, every field 0. -/
def Domain.init : Domain :=
  { rootptr := 0, v := false, hostap := false, cmdseq := 0, tkey := 0, key := 0, dmeas := 0 }

/-- A Queue Table entry after reset (R330): V 0. -/
def QueueEnt.init : QueueEnt :=
  { lqd := 0, root := 0, v := false, device := false, sdom := 0, noticed := 0, cancels := [] }

/-- An FDT entry after reset (R408): V 0. -/
def Fdt.init : Fdt := { fdom := 0, sdom := 0, v := false, brkdbg := false, dbgen := false, mcregion := 0, dbgregion := 0 }

/-- An EDT entry after reset (14 R308): V 0. -/
def Edt.init : Edt := { dva := 0, sdom := 0, owner := 0, v := false, due := 0, late := false, stalls := 0 }
/-- An endpoint with no arrivals (17 R387). -/
def EndPt.init : EndPt := { issued0 := 0, counted0 := 0, count0 := 0, issued1 := 0, counted1 := 0, count1 := 0 }
/-- A network after reset (17 R386, R387): unowned, EPI 0. -/
def SolNet.init : SolNet := { dom := 0xFFFF, epi := 0, hist := 0, ends := [] }
/-- An unbound Ethernet endpoint (19 R441). -/
def Endpoint.init : Endpoint := { sdom := 0, v := false, epd := 0, noticed := 0, work := [] }
/-- A directory entry of a line no cache holds (19 R428). -/
def DirEnt.init : DirEnt := { sharers := [], owner := none, waits := [], req := none }

/-- A package with every unit present, trusted and working, and a verified image (log 15: DESIGN CHOICE). -/
def Silicon.nominal : Silicon :=
  { imageOk := true, svn := 0, floor := 0, meas := Config.firmwareDigest, manifest := (upto 0 19).map (fun k => sm3 (toBytes 64 (Config.dieKey k).toNat))
    dieKeys := (upto 0 19).map Config.dieKey, links := 2 ^ 19 - 1
    cdies := 0xFF, cores := 2 ^ 2048 - 1, hbm := 0xFFFF, gdies := 0xF }

/-- Why the machine stops with a fault. Every fault of the part itself is a next state (18 R402). -/
inductive Fault where
  /-- raised by a word executed where no thread issues (no state of the part shows it): safe, the machine stops -/
  | noIssuingThread
  deriving DecidableEq, Repr

/-- Why the model refuses. -/
inductive Refusal where
  /-- raised by Dispatch for a constructor that has no meaning yet: safe, the machine stops -/
  | notModelled (mnemonic : String)
  deriving DecidableEq, Repr

/-- The machine right after reset, before the ROM of bring-up runs (19 R424): no thread, no domain, every table empty,
registers 0 (19 R436), FEATEN as FEATAVAIL (20 R456), REQTO and HOSTTO at their defaults (18 R416). -/
def State.reset : State :=
  { stage := .boot, tick := 0, threads := [], cores := [], dies := [], domains := [], mem := [], feEmpty := []
    poison := [], lineKey := [], endies := 0, engdies := 0, enstacks := 0, encores := 0, retiring := [], featen := Config.featAvail
    halted := false, reqto := 20000, hostto := 1000000, mclogcnt := 0, mclog := [], gtbase := 0, fdt := []
    queues := [], launches := [], takeTurn := 0, gangs := [], deferrals := [], early := [], credq := [], lateRecs := [], ended := [], orphans := [], devq := [], tookLaunch := false, killMsgs := [], held := [], resReserved := []
    edt := [], apertures := [], hostErr := 0, hostData := [], endpoints := [], solstice := [], arrivals := [], ends := [], command := [], serving := false, response := []
    ownkey := 0, ownseq := 0, silicon := Silicon.nominal, trusted := 0, linkDown := [], retraining := [], fatal := false, sharersLost := []
    net := [], directory := [], performed := [], replies := [], seqs := []
    nextLaunch := 0, nextCmd := 0, nextKey := 1, issue := [], fetched := none, cur := none, inputs := [], waitsIn := false, admitted := false, draws := 0 }

end Sys2Proof.Machine
end

