-- ==== Sys2Proof/Machine/Mem.lean ====
section
/-! DEFINITION. Memory: the units that hold bytes (01 R21, 10 R218), reading and writing bytes in a domain (20 R446),
full/empty bits (11 R249) and poison marks (18 R418). A physical address is unit * 2^52 + local offset: HBM stack s is
unit s, LPDDR of G-die g is unit 16 + g, the carve of S-die d is unit 20 + d, the host is unit 28, and the scratchpad of
core c is unit 32 + c. -/
namespace Sys2Proof.Machine

/-- The physical address of a byte of a unit. -/
def physAddr (unit off : Nat) : Nat := unit * 2 ^ 52 + off
/-- The unit of a physical address. -/
def physUnit (pa : Nat) : Nat := pa / 2 ^ 52
/-- The offset within the unit. -/
def physOff (pa : Nat) : Nat := pa % 2 ^ 52
/-- Carve unit of S-die d. -/
def carveUnit (d : Nat) : Nat := 20 + d
/-- Host memory. -/
def hostUnit : Nat := 28
/-- Scratchpad of core c. -/
def padUnit (c : Nat) : Nat := 32 + c

/-- What an unlisted byte reads as: 0, the value stage 4 of bring-up writes (19 R424), of a zeroed carve unit (10 R233)
and scratchpad (R234); for the host tier DESIGN CHOICE (log 3). -/
def emptyByte : Byte := 0

def State.core (s : State) (c : Nat) : Core := Sparse.get Core.init s.cores c
def State.die (s : State) (d : Nat) : Die := Sparse.get Die.init s.dies d
def State.domain (s : State) (n : Nat) : Domain := Sparse.get Domain.init s.domains n
def State.setCore (s : State) (c : Nat) (x : Core) : State := { s with cores := Sparse.set Core.init s.cores c x }
def State.setDie (s : State) (d : Nat) (x : Die) : State := { s with dies := Sparse.set Die.init s.dies d x }
def State.setDomain (s : State) (n : Nat) (x : Domain) : State :=
  { s with domains := Sparse.set Domain.init s.domains n x }

/-- The byte stored at a physical address. -/
def State.rawByte (s : State) (pa : Nat) : Byte := Sparse.get emptyByte s.mem pa
/-- Store one byte, keeping the canonical form of memory. -/
def State.pokeByte (s : State) (pa : Nat) (b : Byte) : State := { s with mem := Sparse.set emptyByte s.mem pa b }
/-- Store bytes from pa on, with no other effect. -/
def State.pokeBytes (s : State) : Nat → List Byte → State
  | _, [] => s
  | pa, b :: bs => (s.pokeByte pa b).pokeBytes (pa + 1) bs

/-- The key under which domain d reads and writes (R445); 0 for a domain that does not exist. -/
def State.domKey (s : State) (d : Nat) : Nat := (s.domain d).key
/-- Whether a unit holds plaintext whatever the domain: carve and scratchpad (R446). -/
def plainUnit (u : Nat) : Bool := decide (20 ≤ u ∧ u < 28) || decide (32 ≤ u)
/-- The key under which domain d stores a line of a unit: 0, no encryption, on the host tier under HOSTAP (R446). -/
def State.unitKey (s : State) (d u : Nat) : Nat := if u == hostUnit && (s.domain d).hostap then 0 else s.domKey d
/-- The key of the line holding pa. -/
def State.keyOfLine (s : State) (pa : Nat) : Nat := Sparse.get 0 s.lineKey (pa / 128)
/-- Whether the line holding pa reads in domain d as it was written (R446, R447). -/
def State.sameKey (s : State) (d pa : Nat) : Bool :=
  plainUnit (physUnit pa) || s.keyOfLine pa == s.unitKey d (physUnit pa)

/-- The tweak of the line holding pa (R446): local offset, unit within its tier, and TIER of R292; on the host tier the unit is 0
(log 7). -/
def lineTweak (pa : Nat) : Nat :=
  let u := physUnit pa
  physOff pa / 128 % 2 ^ 56 + (if u < 16 then u else if u < 20 then u - 16 else 0) * 2 ^ 56 +
    (if u < 16 then 0 else if u < 20 then 2 else 3) * 2 ^ 60

/-- A 16-byte block of the line holding pa, as stored under key `w`, read under key `r` (R446): SM4-XTS under each, key 0 being none. -/
def recrypt (w r pa : Nat) (block : List Byte) : List Byte :=
  let c := if w = 0 then block else xtsBlock true (Config.domainKey w) (lineTweak pa) (pa % 128 / 16) block
  if r = 0 then c else xtsBlock false (Config.domainKey r) (lineTweak pa) (pa % 128 / 16) c

/-- The byte at pa as domain d reads it (R445, R446). -/
def State.byteAs (s : State) (d pa : Nat) : Byte :=
  if s.sameKey d pa then s.rawByte pa
  else (recrypt (s.keyOfLine pa) (s.unitKey d (physUnit pa)) pa ((upto (alignDown pa 16) 16).map s.rawByte)).getD (pa % 16) 0

/-- n bytes from pa as domain d reads them. -/
def State.readAs (s : State) (d pa n : Nat) : List Byte := (upto pa n).map (s.byteAs d)
/-- The little-endian number of n bytes (R2). -/
def State.numAs (s : State) (d pa n : Nat) : Nat := ofBytes (s.readAs d pa n)

/-- Bring the line holding pa under domain d's key, each byte keeping the value d reads (R446: a partial write is merged
into its line before encryption). -/
def State.rekey (s : State) (d pa : Nat) : State :=
  if s.sameKey d pa then s
  else
    let b := alignDown pa 128
    { s.pokeBytes b (s.readAs d b 128) with lineKey := Sparse.set 0 s.lineKey (pa / 128) (s.unitKey d (physUnit pa)) }

/-- Write bytes that lie within one 128-byte line in domain d. A whole line needs no merge. -/
def State.writeLine (s : State) (d pa : Nat) (bs : List Byte) : State :=
  let s1 :=
    if s.sameKey d pa then s
    else if bs.length = 128 then { s with lineKey := Sparse.set 0 s.lineKey (pa / 128) (s.unitKey d (physUnit pa)) }
    else s.rekey d pa
  s1.pokeBytes pa bs

/-- The words of 8 bytes that n bytes from pa cover whole, as addresses. -/
def wholeWords (pa n : Nat) : List Nat :=
  let a := alignUp pa 8
  (upto 0 ((pa + n - a) / 8)).map (fun k => a + 8 * k)

/-- The words of 8 bytes that n bytes from pa touch. -/
def touchedWords (pa n : Nat) : List Nat :=
  let a := alignDown pa 8
  (upto 0 ((pa + n + 7 - a) / 8)).map (fun k => a + 8 * k)

/-- Clear the poison marks of words written whole (R418). -/
def State.unpoison (s : State) (pa n : Nat) : State :=
  { s with poison := (wholeWords pa n).foldl SSet.del s.poison }

/-- Write bytes in domain d, line by line; writing a whole poisoned word clears its mark (R230, R418). -/
def State.writeAs (s : State) (d pa : Nat) (bs : List Byte) : State :=
  let n := 128 - pa % 128
  let s1 := s.unpoison pa bs.length
  if bs.length ≤ n then s1.writeLine d pa bs
  else (upto 0 (bs.length / 128 + 2)).foldl
    (fun s k =>
      let lo := if k = 0 then 0 else n + 128 * (k - 1)
      let hi := n + 128 * k
      let part := (bs.drop lo).take (hi - lo)
      if part.isEmpty then s else s.writeLine d (pa + lo) part) s1

/-- The first poisoned word among those n bytes from pa touch (R418). -/
def State.poisonedIn (s : State) (pa n : Nat) : Option Nat := (touchedWords pa n).find? (s.poison.contains ·)
/-- Mark a word poisoned (R418). -/
def State.markPoison (s : State) (pa : Nat) : State := { s with poison := SSet.add s.poison (alignDown pa 8) }
/-- Whether the word holding pa is full (R249). -/
def State.isFull (s : State) (pa : Nat) : Bool := !s.feEmpty.contains (alignDown pa 8)
/-- Set the full/empty bit of the word holding pa. -/
def State.setFull (s : State) (pa : Nat) (b : Bool) : State :=
  { s with feEmpty := SSet.put s.feEmpty (alignDown pa 8) (!b) }

/-- Memory is in canonical form: addresses strictly rising, no entry equal to what an unlisted address reads as. -/
abbrev Memory.wf (m : List Host.Cell) : Prop := Sparse.canon emptyByte m = true

end Sys2Proof.Machine
end

