-- ==== Sys2Proof/Machine/Routes.lean ====
section
/-! DEFINITION. Lazokel links and routes (01 R14; 19 R431, R434). Units: S-dies 0 to 7, G0 to G3 as 8 to 11, the host die 12. -/
namespace Sys2Proof.Machine

/-- The ends of link l (R14). -/
def linkEnds (l : Nat) : Nat × Nat :=
  [(0, 1), (1, 2), (2, 3), (4, 5), (5, 6), (6, 7), (0, 4), (1, 5), (2, 6), (3, 7),
   (8, 0), (8, 4), (9, 3), (9, 7), (10, 1), (10, 2), (11, 5), (11, 6), (8, 12)].getD l (12, 12)

/-- The links between dies of the package. -/
def dieLinks : List Nat := upto 0 18
/-- All links, with the host link. -/
def allLinks : List Nat := upto 0 19

/-- An enabled unit (19 R436); the host die always is. -/
def State.enabledUnit (s : State) (u : Nat) : Bool :=
  if u < 8 then bit s.endies u else if u < 12 then bit s.engdies (u - 8) else u == 12

/-- Whether a link works: it has not failed, it does not retrain, and both its ends are enabled (R431, R434). -/
def State.linkWorks (s : State) (l : Nat) : Bool :=
  !s.linkDown.contains l && s.enabledUnit (linkEnds l).1 && s.enabledUnit (linkEnds l).2

/-- The link that joins two units. -/
def linkOf (a b : Nat) : Option Nat := allLinks.find? (fun l => linkEnds l == (a, b) || linkEnds l == (b, a))
/-- Whether a working link joins two units. -/
def State.adjacent (s : State) (a b : Nat) : Bool := (linkOf a b).any s.linkWorks

/-- The units of a list, and those that one working link joins to it. -/
def State.grow (s : State) (l : List Nat) : List Nat :=
  (upto 0 13).filter (fun u => l.contains u || l.any (fun v => s.adjacent u v))

/-- The units that working links join to dst by at most n hops. -/
def State.within (s : State) (dst : Nat) : Nat → List Nat
  | 0 => [dst]
  | n + 1 => s.grow (s.within dst n)

/-- The hops of a shortest path over working links (R431); none where no path joins the units. -/
def State.hops (s : State) (a b : Nat) : Option Nat := (upto 0 13).find? (fun n => (s.within b n).contains a)

/-- The shortest path over n working links, ties going to the lowest-numbered next die at each hop (R431). -/
def State.shortest (s : State) (b : Nat) : Nat → Nat → List Nat
  | 0, _ => []
  | n + 1, a => match (upto 0 13).find? (fun v => s.adjacent a v && (s.within b n).contains v) with
    | some v => v :: s.shortest b n v
    | none => []

/-- R14's path between S-dies: the column link first, then along the row (log 97: DEDUCED). -/
def stdPath (a b : Nat) : List Nat :=
  let c := b / 4 * 4 + a % 4
  (if c = a then [] else [c]) ++
    (if a % 4 ≤ b % 4 then (upto 1 (b % 4 - a % 4)).map (c + ·) else (upto 1 (a % 4 - b % 4)).map (c - ·))

/-- Whether every link of a path from a unit works. -/
def State.pathWorks (s : State) : Nat → List Nat → Bool
  | _, [] => true
  | a, b :: l => s.adjacent a b && s.pathWorks b l

/-- R431: the units that a request from one unit to another passes, its destination last; none where no working path joins them. -/
def State.route (s : State) (a b : Nat) : Option (List Nat) :=
  if a < 8 ∧ b < 8 ∧ s.pathWorks a (stdPath a b) = true then some (stdPath a b)
  else (s.hops a b).map (fun n => s.shortest b n a)

/-- Whether a request of one unit can reach another now (R431, R434). -/
def State.linked (s : State) (a b : Nat) : Bool := a == b || s.linkDown.isEmpty || (s.route a b).isSome

/-- Whether a path from a unit uses a link. -/
def crosses (l : Nat) : Nat → List Nat → Bool
  | _, [] => false
  | a, b :: p => linkOf a b == some l || crosses l b p

end Sys2Proof.Machine
end

