-- ==== Sys2Proof/Machine/Trans.lean ====
section
/-! DEFINITION. From a virtual address to a byte: canonical addresses and windows (10 R216-R222), geometries (13 R292-R295),
the walk (R285-R291), placements in transition (R302, R303), carve ownership (10 R232, R233) and TLBs (R298). -/
namespace Sys2Proof.Machine

/-- What stops an instruction before it has any effect (00 R9): a fault with its ADDR, KIND and DETAIL (18 R401). -/
structure Flt where
  cause : Cause
  addr : Word
  kind : AccKind
  detail : Nat
  fetch : Bool
  deriving DecidableEq, Repr

/-- Why an instruction does not complete at this turn. -/
inductive Stop where
  /-- it faults (R402) -/
  | fault (f : Flt)
  /-- an eligibility condition holds the thread BLOCKED EMPTY (02 R32) -/
  | block
  /-- it needs a translation walk (11 R239) -/
  | walk (w : WalkReq)
  /-- it needs an absent register line (R32) -/
  | line
  /-- it needs a locked tile (R32) -/
  | lock
  /-- its request waits for a credit or a route of its home (15 R345, 19 R431): the request, its destination, source and home -/
  | credit (r : Option Req) (reg src home : Nat)
  deriving DecidableEq, Repr

/-- A fault with no access detail. -/
def Flt.plain (c : Cause) (a : Word) : Flt := { cause := c, addr := a, kind := .none, detail := 0, fetch := false }
/-- Stop with a fault that has no access detail. -/
def failWith {α : Type} (c : Cause) (a : Word) : Except Stop α := .error (.fault (.plain c a))
/-- Stop with a fault of an access. -/
def failAcc {α : Type} (c : Cause) (va : Int) (k : AccKind) (detail : Nat) : Except Stop α :=
  .error (.fault { cause := c, addr := i64 va, kind := k, detail := detail, fetch := false })

/-- The die of a core (01 R15). -/
def dieOf (core : Nat) : Nat := core / 256
/-- The core at quad position q of the quad of a core (01 R16). -/
def quadCore (core q : Nat) : Nat :=
  let row := core / 16 % 16
  let col := core % 16
  dieOf core * 256 + (alignDown row 2 + q / 2 % 2) * 16 + (alignDown col 2 + q % 2)
/-- The position of a core in its quad (01 R16). -/
def quadPos (core : Nat) : Nat := core / 16 % 2 * 2 + core % 2
/-- The package quad number of a core (01 R16). -/
def quadOf (core : Nat) : Nat := dieOf core * 64 + core / 16 % 16 / 2 * 8 + core % 16 / 2
/-- Whether a core is enabled (19 R436). -/
def State.coreOn (s : State) (c : Nat) : Bool := decide (c < 2048) && bit s.encores c
/-- Whether a stack is enabled (19 R436). -/
def State.dieOn (s : State) (d : Nat) : Bool := decide (d < 8) && bit s.endies d

/-- A canonical 57-bit address (10 R216). -/
def canonical (v : Nat) : Bool :=
  decide (v < 2 ^ 56) || (decide (0xFF00000000000000 ≤ v) && decide (v < 2 ^ 64))
/-- Whether an address lies in the window area (R216). -/
def inWindow (v : Nat) : Bool := decide (0xFFFFFFFFFF000000 ≤ v) && decide (v < 2 ^ 64)

/-- What an address of the window area names (R218). -/
inductive Window where
  | pad (core off : Nat)
  | acc (off : Nat)
  | nothing
  deriving DecidableEq, Repr

/-- The window of an address, on a core (R218 to R220). -/
def windowOf (s : State) (core v : Nat) : Window :=
  if 0xFFFFFFFFFFFC0000 ≤ v then .pad core (v - 0xFFFFFFFFFFFC0000)
  else if 0xFFFFFFFFFFE00000 ≤ v ∧ v < 0xFFFFFFFFFFF00000 then
    let c := quadCore core ((v - 0xFFFFFFFFFFE00000) / 2 ^ 18)
    if s.coreOn c then .pad c ((v - 0xFFFFFFFFFFE00000) % 2 ^ 18) else .nothing
  else if 0xFFFFFFFFFFF00000 ≤ v ∧ v < 0xFFFFFFFFFFF10000 then .acc (v - 0xFFFFFFFFFFF00000)
  else .nothing

/-- The owner of scratchpad segment g of a core (R234). -/
def State.spdom (s : State) (core seg : Nat) : Nat := Sparse.get 0xFFFF (s.core core).spdom seg
/-- The owner of a carve unit (R234). -/
def State.carvedom (s : State) (d u : Nat) : Nat := Sparse.get 0xFFFF (s.die d).carvedom u

/-! Geometry entries (R292). -/

def Geo.v (e : Word) : Bool := bit e.toNat 0
def Geo.tier (e : Word) : Nat := wbits e 2 1
def Geo.ilv (e : Word) : Nat := wbits e 5 3
def Geo.dies (e : Word) : Nat := wbits e 15 8
def Geo.stacks (e : Word) : Nat := wbits e 31 16
def Geo.seed (e : Word) : Nat := wbits e 47 32

/-- The dies of a stack mask (R293). -/
def diesOfStacks (m : Nat) : Nat := ((upto 0 8).filter (fun d => bit m (2 * d) || bit m (2 * d + 1))).foldl (fun a d => a + 2 ^ d) 0

/-- A valid geometry cache entry (R293). -/
def State.geoValid (s : State) (e : Word) : Bool :=
  Geo.v e && decide (Geo.ilv e ≤ 6) && wbits e 7 6 == 0 && wbits e 63 48 == 0 &&
  (Geo.dies e &&& s.endies == Geo.dies e) &&
  (match Geo.tier e with
   | 0 => Geo.stacks e != 0 && Geo.dies e == diesOfStacks (Geo.stacks e) && (Geo.stacks e &&& s.enstacks == Geo.stacks e)
   | 2 => Geo.dies e != 0 && Geo.stacks e % 16 != 0 && Geo.stacks e / 16 == 0 &&
          (Geo.stacks e % 16 &&& s.engdies == Geo.stacks e % 16)
   | _ => Geo.dies e != 0 && Geo.stacks e == 0)

/-- Geometry cache entry of a die (R292). -/
def State.geo (s : State) (die gidx : Nat) : Word := Sparse.get 0 (s.die die).gcache gidx

/-- Where a placement lies (R294): the home die, the stack or G-die, the local offset and the physical address. -/
structure Spot where
  die : Nat
  unit : Nat
  local' : Nat
  pa : Nat
  inRange : Bool
  deriving DecidableEq, Repr

/-- The k-th set bit of a mask, counting modulo the number of set bits: list(mask)[c mod #list] (R294). -/
def nthOf (m n c : Nat) : Nat := let l := setBitsOf m n; l.getD (c % l.length) 0

/-- The carve units of a die that accesses may reach now (R232, R235): while a shrink runs, those below TARGET. -/
def State.carveLimit (s : State) (d : Nat) : Nat :=
  let x := s.die d
  if x.busy then min x.count x.target else x.count

/-- R294: decode placement address p under geometry entry e. -/
def State.spot (s : State) (e : Word) (p : Nat) : Spot :=
  let i := 256 * 2 ^ Geo.ilv e
  let c := p / i
  let o := p % i
  match Geo.tier e with
  | 0 =>
    let n := (setBitsOf (Geo.stacks e) 16).length
    let st := nthOf (Geo.stacks e) 16 c
    let lo := c / n * i + o
    { die := st / 2, unit := st, local' := lo, pa := physAddr st lo, inRange := decide (lo < 48 * 2 ^ 30) }
  | 1 =>
    let n := (setBitsOf (Geo.dies e) 8).length
    let d := nthOf (Geo.dies e) 8 c
    let lo := c / n * i + o
    { die := d, unit := 0, local' := lo, pa := physAddr (carveUnit d) lo,
      inRange := decide (lo < s.carveLimit d * 2 ^ 21) }
  | 2 =>
    let n := (setBitsOf (Geo.stacks e % 16) 4).length
    let g := nthOf (Geo.stacks e % 16) 4 c
    let lo := c / n * i + o
    { die := nthOf (Geo.dies e) 8 c, unit := g, local' := lo, pa := physAddr (16 + g) lo,
      inRange := decide (lo < 512 * 2 ^ 30) }
  | _ => { die := nthOf (Geo.dies e) 8 c, unit := 0, local' := p, pa := physAddr hostUnit p, inRange := decide (p < 2 ^ 48) }

/-- Whether the carve owner admits domain d (R233); true outside carve. -/
def State.carveAdmits (s : State) (d : Nat) (x : Spot) : Bool :=
  if 20 ≤ physUnit x.pa ∧ physUnit x.pa < 28 then s.carvedom (physUnit x.pa - 20) (x.local' / 2 ^ 21) == d else true

/-- Whether accesses to a spot wait: its carve unit grows or is being zeroed (R233, R235), or its line is being recalled
(18 R419). -/
def State.carveWaits (s : State) (x : Spot) : Bool :=
  s.sharersLost.contains (x.pa / 128) ||
  (if 20 ≤ physUnit x.pa ∧ physUnit x.pa < 28 then
    let k := s.die (physUnit x.pa - 20)
    let u := x.local' / 2 ^ 21
    k.unitZeroing.contains u || (k.busy && decide (k.count ≤ u) && decide (u < k.target))
  else false)

/-- The home slice of placement address p (R228). -/
def homeSlice (p : Nat) : Nat := (upto 0 8).foldl (fun a k => a ^^^ (p / 128 / 2 ^ (6 * k) % 64)) 0

/-! Leaves and table pointers (R286 to R288). -/

def Leaf.v (e : Word) : Bool := bit e.toNat 0
def Leaf.isLeaf (e : Word) : Bool := bit e.toNat 1
def Leaf.r (e : Word) : Bool := bit e.toNat 2
def Leaf.w (e : Word) : Bool := bit e.toNat 3
def Leaf.x (e : Word) : Bool := bit e.toNat 4
def Leaf.a (e : Word) : Bool := bit e.toNat 5
def Leaf.d (e : Word) : Bool := bit e.toNat 6
def Leaf.sync (e : Word) : Bool := bit e.toNat 7
def Leaf.trans (e : Word) : Bool := bit e.toNat 8
/-- 0 WB, 1 NL1, 2 UC, 3 CTX (R223). -/
def Leaf.cls (e : Word) : Nat := wbits e 10 9
/-- 0 NEAR, 1 FAR, 2 HOST (R287). -/
def Leaf.apl (e : Word) : Nat := wbits e 12 11
def Leaf.size (e : Word) : Nat := wbits e 14 13
def Leaf.gidx (e : Word) : Nat := wbits e 25 16
def Leaf.frame (e : Word) : Nat := wbits e 63 26
/-- Page size in bytes (R287). -/
def Leaf.bytes (e : Word) : Nat := match Leaf.size e with | 0 => 2 ^ 14 | 1 => 2 ^ 21 | _ => 2 ^ 30
/-- Placement address of the byte at va (R287). -/
def Leaf.place (e : Word) (va : Nat) : Nat := Leaf.frame e * 2 ^ 14 + va % Leaf.bytes e

/-- An entry with V = 1 that is invalid at a level (R288, R456 bit 8). -/
def State.badEntry (s : State) (die lvl : Nat) (e : Word) : Bool :=
  let tier := Geo.tier (s.geo die (Leaf.gidx e))
  if Leaf.isLeaf e then
    bit e.toNat 15 || decide (lvl ≤ 2) ||
    (lvl == 3 && Leaf.size e != 2) || (lvl == 4 && decide (2 ≤ Leaf.size e)) ||
    Leaf.apl e == 3 || Leaf.size e == 3 || (Leaf.w e && !Leaf.r e) ||
    (Leaf.size e == 1 && Leaf.frame e % 128 != 0) || (Leaf.size e == 2 && Leaf.frame e % 65536 != 0) ||
    (Leaf.cls e == 3 && tier == 3) || (Leaf.sync e && !bit s.featen.toNat 8)
  else decide (4 ≤ lvl) || wbits e 15 2 != 0 || tier == 3

/-- The index a level reads (R285). -/
def walkIndex (lvl va : Nat) : Nat :=
  match lvl with
  | 1 => bits va 56 47
  | 2 => bits va 46 36
  | 3 => bits va 35 25
  | _ => bits va 24 14

/-- The placement word (R297): P, GIDX, TRANS, V. -/
def placeWord (p gidx : Nat) (trans : Bool) : Word := w64 (p % 2 ^ 52 + gidx % 1024 * 2 ^ 52 + b2n trans * 2 ^ 62 + 2 ^ 63)

/-- The virtual address of the word at physical address w, given that va lies at pa (R2). -/
def vaOfWord (va pa w : Nat) : Nat := alignDown va 8 + (w - alignDown pa 8)

/-- What a walk finds: the leaf, where its entry lies, the level, and the entries it read (R298). -/
structure Walked where
  leaf : Word
  entryPa : Nat
  lvl : Nat
  path : List WalkEnt
  deriving DecidableEq, Repr

/-- The bytes of address space that an entry read at a level serves (R285, R289). -/
def entrySpan (lvl : Nat) (e : Word) : Nat :=
  if Leaf.isLeaf e then Leaf.bytes e else match lvl with | 1 => 2 ^ 47 | 2 => 2 ^ 36 | 3 => 2 ^ 25 | _ => 2 ^ 14

/-- The walk-cache entry of an entry read at a level (R298). -/
def walkEntOf (sdom va lvl pa : Nat) (e : Word) : WalkEnt :=
  { sdom := sdom, lvl := lvl, base := alignDown va (entrySpan lvl e), size := entrySpan lvl e, entry := e, pa := pa }

/-- A walk that has read one entry more before the rest. -/
def Walked.after (x : Walked) (e : WalkEnt) : Walked := { x with path := e :: x.path }

/-- R290: read levels from table pointer e down. -/
def State.walkFrom (s : State) (die sdom va : Nat) (k : AccKind) : List Nat → Word → Except Flt Walked
  | [], _ => .error { cause := .pageInvalid, addr := w64 va, kind := k, detail := 4, fetch := false }
  | lvl :: rest, e =>
    let sp := s.spot (s.geo die (Leaf.gidx e)) (Leaf.frame e * 2 ^ 14 + 8 * walkIndex lvl va)
    if !(sp.inRange && s.carveAdmits sdom sp) then
      .error { cause := .placementRange, addr := w64 va, kind := k, detail := lvl, fetch := false }
    else if (s.poisonedIn sp.pa 8).isSome then
      .error { cause := .poisonedData, addr := placeWord (Leaf.frame e * 2 ^ 14 + 8 * walkIndex lvl va) (Leaf.gidx e) false,
               kind := .walk, detail := lvl, fetch := false }
    else
      let n := w64 (s.numAs sdom sp.pa 8)
      if !Leaf.v n then .error { cause := .pageNotPresent, addr := w64 va, kind := k, detail := lvl, fetch := false }
      else if s.badEntry die lvl n then
        .error { cause := .pageInvalid, addr := w64 va, kind := k, detail := lvl, fetch := false }
      else if !s.geoValid (s.geo die (Leaf.gidx n)) then
        .error { cause := .geometry, addr := w64 va, kind := k, detail := lvl, fetch := false }
      else if Leaf.isLeaf n then .ok { leaf := n, entryPa := sp.pa, lvl := lvl, path := [walkEntOf sdom va lvl sp.pa n] }
      else (s.walkFrom die sdom va k rest n).map (·.after (walkEntOf sdom va lvl sp.pa n))

/-- R290: the fault of a domain's translation root, which every walk checks. -/
def State.rootFault (s : State) (die sdom va : Nat) (k : AccKind) : Option Flt :=
  let e := (s.domain sdom).rootptr
  if !Leaf.v e then some { cause := .pageNotPresent, addr := w64 va, kind := k, detail := 5, fetch := false }
  else if Leaf.isLeaf e || s.badEntry die 0 e then
    some { cause := .pageInvalid, addr := w64 va, kind := k, detail := 5, fetch := false }
  else if !s.geoValid (s.geo die (Leaf.gidx e)) then
    some { cause := .geometry, addr := w64 va, kind := k, detail := 5, fetch := false }
  else none

/-- R290: the walk of a domain's address, before permissions. -/
def State.walkTable (s : State) (die sdom va : Nat) (k : AccKind) : Except Flt Walked :=
  match s.rootFault die sdom va k with
  | some f => .error f
  | none => s.walkFrom die sdom va k [1, 2, 3, 4] (s.domain sdom).rootptr

/-- What the walk below a table pointer reads, level by level (R285): the level, where the entry lies, and the entry. -/
def State.pathBelow (s : State) (die sdom va : Nat) : List Nat → Word → List (Nat × Spot × Word)
  | [], _ => []
  | lvl :: rest, e =>
    let sp := s.spot (s.geo die (Leaf.gidx e)) (Leaf.frame e * 2 ^ 14 + 8 * walkIndex lvl va)
    let n := w64 (s.numAs sdom sp.pa 8)
    (lvl, sp, n) :: (if sp.inRange && Leaf.v n && !Leaf.isLeaf n && !s.badEntry die lvl n then s.pathBelow die sdom va rest n else [])

/-- What a walk reads. -/
def State.walkPath (s : State) (die sdom va : Nat) : List (Nat × Spot × Word) :=
  s.pathBelow die sdom va [1, 2, 3, 4] (s.domain sdom).rootptr

/-- Whether a walk waits: a table page lies in a carve unit that grows or is being zeroed (10 R233, R235), or in a line under recall
(18 R419). -/
def State.walkWaits (s : State) (die sdom va : Nat) : Bool := (s.walkPath die sdom va).any (fun x => s.carveWaits x.2.1)

/-- A die's walk cache keeps what a walk read (R298), which is no entry with V = 0 and none that is invalid (R288). An entry read
before stays beside a differing one: either may serve until TLBINV (R289). -/
def State.walkKeep (s : State) (die : Nat) (l : List WalkEnt) : State :=
  let x := s.die die
  s.setDie die { x with walks := l ++ x.walks.filter (fun e => !l.contains e) }

/-- The walk-cache entries of a die that serve an address (R298). -/
def State.walkCached (s : State) (die sdom va : Nat) : List WalkEnt :=
  (s.die die).walks.filter (fun e => e.sdom == sdom && decide (e.base ≤ va) && decide (va < e.base + e.size))

/-- A walk that goes on from a walk-cache entry (R298). -/
def State.walkAfter (s : State) (die va : Nat) (k : AccKind) (e : WalkEnt) : Except Flt Walked :=
  if !s.geoValid (s.geo die (Leaf.gidx e.entry)) then
    .error { cause := .geometry, addr := w64 va, kind := k, detail := e.lvl, fetch := false }
  else if Leaf.isLeaf e.entry then .ok { leaf := e.entry, entryPa := e.pa, lvl := e.lvl, path := [e] }
  else (s.walkFrom die e.sdom va k (upto (e.lvl + 1) (4 - e.lvl)) e.entry).map (·.after e)

/-- Whether a line at pa may be written for a domain: in carve space, only below COUNT and in a unit of that domain (10 R232,
R233). -/
def State.placeAdmits (s : State) (sdom pa : Nat) : Bool :=
  if 20 ≤ physUnit pa ∧ physUnit pa < 28 then
    decide (physOff pa < s.carveLimit (physUnit pa - 20) * 2 ^ 21) && s.carvedom (physUnit pa - 20) (physOff pa / 2 ^ 21) == sdom
  else true

/-- The A and D bits that a use of a leaf has to set (R291). -/
def marksOf (e : Word) (write : Bool) : Nat := (if Leaf.a e then 0 else 0x20) + (if write && !Leaf.d e then 0x40 else 0)

/-- Whether a leaf from a walk cache may be used where its A or D is to be set: the stored entry is present, and for D, after which the
leaf is loaded again (R291), the same but for A and D. -/
def State.reusable (s : State) (sdom : Nat) (x : Walked) (write : Bool) : Bool :=
  let n := w64 (s.numAs sdom x.entryPa 8)
  marksOf x.leaf write == 0 ||
  (s.placeAdmits sdom x.entryPa && (s.poisonedIn x.entryPa 8).isNone && Leaf.v n &&
    (decide (marksOf x.leaf write < 0x40) || (n ||| 0x60) == (x.leaf ||| 0x60)))

/-- A walk of the die (R290, R298): from the translation root, or from one of the cached entries that serve the address; which is a
free value (log 12). -/
def State.walkOnce (s : State) (die sdom va : Nat) (k : AccKind) : Except Flt Walked :=
  match s.rootFault die sdom va k with
  | some f => .error f
  | none =>
    let l := s.walkCached die sdom va
    match l[Config.free 12 s.draws % (l.length + 1)]? with
    | none => s.walkTable die sdom va k
    | some e => s.walkAfter die va k e

/-- A walk for an access (R290, R291): a cached leaf whose A or D cannot be set as it stands is walked anew. -/
def State.walk (s : State) (die sdom va : Nat) (k : AccKind) (write : Bool) : Except Flt Walked :=
  match s.walkOnce die sdom va k with
  | .error f => .error f
  | .ok x => if s.reusable sdom x write then .ok x else s.walkTable die sdom va k

/-- R291: set bits in a leaf entry by a FAR ATOM.OR. -/
def State.orEntry (s : State) (sdom pa m : Nat) : State := s.writeAs sdom pa (toBytes 8 (s.numAs sdom pa 8 ||| m))

/-- R291: A, and for a write D, set in the leaf a walk read; an entry whose V is 0 is never written (R288). -/
def State.markLeaf (s : State) (sdom : Nat) (x : Walked) (write : Bool) : State :=
  if marksOf x.leaf write = 0 ∨ Leaf.v (w64 (s.numAs sdom x.entryPa 8)) = false then s
  else s.orEntry sdom x.entryPa (marksOf x.leaf write)

/-- The leaf with the bits R291 sets. -/
def markedLeaf (e : Word) (write : Bool) : Word := e ||| 0x20 ||| (if write then 0x40 else 0)

/-- The TLB entry of a leaf (R289, R298). -/
def tlbEntOf (sdom va : Nat) (e : Word) : TlbEnt :=
  { sdom := sdom, base := alignDown va (Leaf.bytes e), size := Leaf.bytes e, leaf := e }

/-- Whether a TLB entry maps an address of a domain. -/
def TlbEnt.maps (e : TlbEnt) (sdom va : Nat) : Bool := e.sdom == sdom && decide (e.base ≤ va) && decide (va < e.base + e.size)

/-- The translation that a fresh walk gives (R291). -/
def Fresh.ent (f : Fresh) : TlbEnt := tlbEntOf f.tid.sdom f.va (markedLeaf f.leaf f.write)

/-- The translation of an address on a core: one walked for the instruction in progress (11 R239), or the TLB's (R298). -/
def State.tlbFind (s : State) (core sdom va : Nat) : Option TlbEnt :=
  match (s.core core).fresh.find? (fun f => s.cur == some f.tid && f.ent.maps sdom va) with
  | some f => some f.ent
  | none => (s.core core).tlb.find? (fun e => e.maps sdom va)

/-- Put an entry into a core's TLB. One read before stays beside a differing one (R289); of two that differ in A and D alone the
newer stays. -/
def State.tlbAdd (s : State) (core : Nat) (e : TlbEnt) : State :=
  let c := s.core core
  s.setCore core { c with tlb := e :: c.tlb.filter (fun x =>
    !(x.sdom == e.sdom && x.base == e.base && x.size == e.size && x.leaf ||| 0x60 == e.leaf ||| 0x60)) }

/-- Forget what was walked for the instruction in progress of a thread (R307). -/
def State.dropFresh (s : State) (core : Nat) (i : Tid) : State :=
  let c := s.core core
  if c.fresh.any (fun f => f.tid == i) then s.setCore core { c with fresh := c.fresh.filter (fun f => f.tid != i) } else s

/-- A walked translation is used: its entries enter the walk cache, A and D are set, and it enters the TLB (R291, R298). -/
def State.useFresh (s : State) (core : Nat) (f : Fresh) : State :=
  ((s.walkKeep (dieOf core) f.path).markLeaf f.tid.sdom { leaf := f.leaf, entryPa := f.entryPa, lvl := 0, path := [] } f.write).tlbAdd core f.ent

/-- An instruction that does not fault has used what was walked for it (R307). -/
def State.commitFresh (s : State) (core : Nat) (i : Tid) (l : List Fresh) : State :=
  match l with
  | [] => s
  | _ => l.foldr (fun f s => s.useFresh core f) (s.dropFresh core i)

/-- Permissions of R290 for an access kind. -/
def permits (e : Word) (k : AccKind) (write fetch : Bool) : Bool :=
  if fetch then Leaf.x e
  else match k with
    | .atomic => Leaf.r e && Leaf.w e
    | _ => if write then Leaf.w e else Leaf.r e

/-- The Restripe record that covers an address in transition, with its chunk (R302). -/
def State.restripeOf (s : State) (sdom va : Nat) : Option Restripe :=
  (s.dies.flatMap (fun d => d.2.restripe.map (·.2))).find?
    (fun r => r.st != 0 && r.sdom == sdom && decide (r.vbase ≤ va) && decide (va < r.vbase + r.nchunk * 2 ^ 14))

/-- The new placement of an address under a record (R302). -/
def Restripe.newPlace (r : Restripe) (va : Nat) : Nat := r.newframe * 2 ^ 14 + (va - r.vbase)

/-- The dies of a scope, as a mask, for an access issued on a die (12 R262). -/
def scopeDies (q : Scope) (die : Nat) : Nat := match q with | .pkg | .sys => 255 | _ => 2 ^ die
/-- Whether a scope covers a word, given its geometry dies (12 R263, R264); none: the host. -/
def covers (q : Scope) (die : Nat) : Option Nat → Bool
  | none => q == .sys
  | some m => (m ||| scopeDies q die) == scopeDies q die

/-- The geometry dies of a word under a leaf (12 R263), as a mask: of a page in transition those of both placements; none for the
host. -/
def State.leafDies (s : State) (die sdom va : Nat) (leaf : Word) : Option Nat :=
  let e := s.geo die (Leaf.gidx leaf)
  if Geo.tier e = 3 then none
  else some (Geo.dies e ||| (match (if Leaf.trans leaf then s.restripeOf sdom va else none) with
    | some r => Geo.dies (s.geo die r.newgidx)
    | none => 0))

/-- Where an access is performed: the spot, and for a write the other placement that is written with it (R303). -/
structure Loc where
  spot : Spot
  mirror : Option Nat
  leaf : Word
  p : Nat
  gidx : Nat
  deriving DecidableEq, Repr

/-- A spot that a write of a domain may reach, as the other placement of a word (10 R232, R233). -/
def State.mirrorOk (s : State) (sdom : Nat) (x : Spot) : Option Nat := if x.inRange && s.carveAdmits sdom x then some x.pa else none

/-- The old placement of an address whose re-striping finishes (R304 step 3). -/
def State.finishing (s : State) (die sdom va : Nat) : Option Nat :=
  match s.restripeOf sdom va with
  | some r =>
    if r.st = 2 then (r.old[(va - r.vbase) / 2 ^ 14]?).bind (fun e => s.mirrorOk sdom (s.spot (s.geo die (Leaf.gidx e)) (Leaf.place e va)))
    else none
  | none => none

/-- R287, R294, R303: where the byte at va lies under a leaf, for a load or a write. -/
def State.locOf (s : State) (die sdom va : Nat) (e : Word) (write : Bool) : Except Unit Loc :=
  let oldP := Leaf.place e va
  let old := s.spot (s.geo die (Leaf.gidx e)) oldP
  let dflt : Loc := { spot := old, mirror := none, leaf := e, p := oldP, gidx := Leaf.gidx e }
  if Leaf.trans e then
    match s.restripeOf sdom va with
    | none => .ok dflt
    | some r =>
      let k := (va - r.vbase) / 2 ^ 14
      let newP := r.newPlace va
      let new := s.spot (s.geo die r.newgidx) newP
      if r.st = 3 then .ok dflt
      else if k < r.prog then
        .ok { spot := new, mirror := if write then s.mirrorOk sdom old else none, leaf := e, p := newP, gidx := r.newgidx }
      else if k = r.prog ∧ write then .error ()
      else .ok dflt
  else .ok (if write then { dflt with mirror := s.finishing die sdom va } else dflt)

/-- One access of a thread or of a device agent: its address before wrapping, its size, kind, and whether it writes. -/
structure Access where
  ea : Int
  n : Nat
  kind : AccKind
  write : Bool
  deriving DecidableEq, Repr

/-- Check 1 of R217: every named byte is canonical. -/
def check1 (a : Access) : Bool :=
  decide (0 ≤ a.ea) && canonical a.ea.toNat && canonical (a.ea.toNat + a.n - 1)

/-- Check 2 of R217: the bytes lie outside the window area, or within one window that serves the access. -/
def check2 (s : State) (core : Nat) (a : Access) : Bool :=
  let v := a.ea.toNat
  let v' := v + a.n - 1
  if inWindow v || inWindow v' then
    (decide (0xFFFFFFFFFFFC0000 ≤ v) || (decide (0xFFFFFFFFFFE00000 ≤ v) && decide (v' < 0xFFFFFFFFFFF00000))) &&
      decide (a.kind ≠ .fullEmpty) &&
      (upto (v / 2 ^ 18) (v' / 2 ^ 18 + 1 - v / 2 ^ 18)).all (fun q => match windowOf s core (2 ^ 18 * q) with
        | .pad _ _ => true
        | _ => false)
  else true

/-- Where an access by a core in a domain is served, after R217 and R239: a scratchpad byte, or a placement. -/
inductive Target where
  | pad (core off : Nat)
  | mem (l : Loc)
  deriving DecidableEq, Repr

/-- The segments that the named bytes of a window access touch: the core that owns each, and its number (R221). -/
def padSegments (s : State) (core : Nat) (a : Access) : List (Nat × Nat) :=
  (upto (a.ea.toNat / 8192) ((a.ea.toNat + a.n - 1) / 8192 + 1 - a.ea.toNat / 8192)).filterMap
    (fun x => match windowOf s core (8192 * x) with
      | .pad c off => some (c, off / 8192)
      | _ => none)

/-- Check 3 of R217 for a window, `g` being the first byte's place: every segment touched is owned by the domain under the
map of the core that owns it (R221); a segment being zeroed waits (R234). -/
def State.padAccess (s : State) (sdom core : Nat) (a : Access) (g : Target) : Except Stop Target :=
  if (padSegments s core a).any (fun x => (s.core x.1).zeroing.contains x.2) then .error .block
  else if (padSegments s core a).all (fun x => s.spdom x.1 x.2 == sdom) then .ok g
  else failAcc .windowAccess a.ea a.kind 0

/-- Check 3 of R217 for a translated address with the leaf at hand: permission, placement, carve (R290, R232, R233). -/
def State.memAccess (s : State) (die sdom : Nat) (a : Access) (e : Word) : Except Stop Target :=
  if !permits e a.kind a.write false then failAcc .permission a.ea a.kind 0
  else match s.locOf die sdom a.ea.toNat e a.write with
    | .error _ => .error .block
    | .ok l =>
      if s.carveWaits l.spot then .error .block
      else if !(l.spot.inRange && s.carveAdmits sdom l.spot) then failAcc .placementRange a.ea a.kind 0
      else .ok (.mem l)

/-- R239: the checks of an access by a thread of a domain on a core, `al` being the alignment it needs. -/
def State.access (s : State) (core sdom : Nat) (al : Nat) (a : Access) : Except Stop Target :=
  if !check1 a then failAcc .nonCanonical a.ea a.kind 0
  else if !check2 s core a then failAcc .windowAccess a.ea a.kind 0
  else if a.ea.toNat % al ≠ 0 then failAcc .misaligned a.ea a.kind 0
  else
    let va := a.ea.toNat
    if inWindow va then
      match windowOf s core va with
      | .pad c off => s.padAccess sdom core a (.pad c off)
      | _ => failAcc .windowAccess a.ea a.kind 0
    else match s.tlbFind core sdom va with
      | none => .error (.walk { va := va, kind := a.kind, write := a.write, fetch := false })
      | some t =>
        if permits t.leaf a.kind a.write false && marksOf t.leaf a.write != 0 then
          .error (.walk { va := va, kind := a.kind, write := a.write, fetch := false })
        else s.memAccess (dieOf core) sdom a t.leaf

/-- Physical address of a target. -/
def Target.pa : Target → Nat
  | .pad c off => physAddr (padUnit c) off
  | .mem l => l.spot.pa

/-- The leaf of a target; none for a window. -/
def Target.leaf? : Target → Option Word
  | .pad _ _ => none
  | .mem l => some l.leaf

/-- A translation the device makes on its own behalf (R290, KIND 6), before permissions. Window addresses name nothing for the
device. -/
def State.devLoc (s : State) (die sdom va : Nat) (write : Bool) : Except Flt Loc :=
  if !canonical va then .error { cause := .nonCanonical, addr := w64 va, kind := .walk, detail := 0, fetch := false }
  else if inWindow va then .error { cause := .windowAccess, addr := w64 va, kind := .walk, detail := 0, fetch := false }
  else match s.walkTable die sdom va .walk with
    | .error f => .error f
    | .ok x => match s.locOf die sdom va x.leaf write with
      | .error _ => .error { cause := .placementRange, addr := w64 va, kind := .walk, detail := 0, fetch := false }
      | .ok l =>
        if l.spot.inRange && s.carveAdmits sdom l.spot then .ok l
        else .error { cause := .placementRange, addr := w64 va, kind := .walk, detail := 0, fetch := false }

/-- Whether a device access waits: for a table page or its place under 10 R233 and R235, and a write for the chunk in copy
(R303). -/
def State.devWaits (s : State) (die sdom va : Nat) (write : Bool) : Bool :=
  canonical va && !inWindow va && (s.walkWaits die sdom va ||
    (match s.walkTable die sdom va .walk with
     | .error _ => false
     | .ok x => match s.locOf die sdom va x.leaf write with
       | .error _ => true
       | .ok l => s.carveWaits l.spot))

/-- R291 for a device access: set A, and D for a write, in the leaf it used. -/
def State.touch (s : State) (die sdom va : Nat) (write : Bool) : State :=
  match s.walkTable die sdom va .walk with
  | .ok x => s.markLeaf sdom x write
  | .error _ => s

/-- A device read of n bytes at a place, with the fault it meets (R418). -/
def State.devBytes (s : State) (sdom va n : Nat) (l : Loc) : Except Flt Nat :=
  match s.poisonedIn l.spot.pa n with
  | some p => .error { cause := .poisonedData, addr := w64 (vaOfWord va l.spot.pa p), kind := .walk, detail := 0, fetch := false }
  | none => .ok (s.numAs sdom l.spot.pa n)

/-- A device read that checks no permission: of frames and gang records (R290). -/
def State.devGet (s : State) (die sdom va n : Nat) : Except Flt Nat :=
  match s.devLoc die sdom va false with
  | .error f => .error f
  | .ok l => s.devBytes sdom va n l

/-- A device read of n bytes at a virtual address (R290): it needs R. -/
def State.devRead (s : State) (die sdom va n : Nat) : Except Flt Nat :=
  match s.devLoc die sdom va false with
  | .error f => .error f
  | .ok l =>
    if Leaf.r l.leaf then s.devBytes sdom va n l
    else .error { cause := .permission, addr := w64 va, kind := .walk, detail := 0, fetch := false }

/-- A device write of bytes at a virtual address that does not wait (R230, R291): it needs W, unless `free` says that it checks no
permission. -/
def State.devPut (s : State) (die sdom va : Nat) (bs : List Byte) (free : Bool) : Except Flt State :=
  match s.devLoc die sdom va true with
  | .error f => .error f
  | .ok l =>
    if Leaf.w l.leaf || free then
      let s1 := (s.touch die sdom va true).writeAs sdom l.spot.pa bs
      .ok (match l.mirror with | some m => s1.writeAs sdom m bs | none => s1)
    else .error { cause := .permission, addr := w64 va, kind := .walk, detail := 0, fetch := false }

/-! Entries of the reply caches (15 R345). -/

/-- A pair (SRC, home) (19 R427). -/
def pairKey (src dst : Nat) : Nat := src * 16 + dst

/-- Requests that take an entry of the reply cache (15 R345; 19 R428): ATM, FEO, and an atomic on the host tier. -/
def takesEntry (p : Packet) : Bool := p.op == 0x06 || p.op == 0x07 || (p.op == 0x0E && (p.payload.getD 0 0).toNat == 3)

/-- The entries that a home's reply cache holds for a source, with those of requests that the home holds for its sharers (R328, R345). -/
def State.entriesOf (s : State) (src home : Nat) : Nat :=
  (s.replies.filter (fun r => r.src == home && r.dst == src)).length +
  (s.directory.filter (fun d => match d.2.req with
    | some p => p.src == src && p.dst == home && takesEntry p
    | none => false)).length

/-- Whether a source may send a request that takes an entry to a home: it holds a credit (R345), and a route joins them (19 R431). -/
def State.hasCredit (s : State) (src home : Nat) : Bool :=
  src == home || (decide (s.entriesOf src home < 128) && s.linked src home)

/-- Whether a request that takes an entry may leave now: a credit is free, and no other waits for one of its pair before it (R345). -/
def State.creditFor (s : State) (src home : Nat) (w : Waiter) : Bool :=
  src == home || (s.hasCredit src home && (match s.credq.find? (fun x => x.1 == pairKey src home) with
    | none => true
    | some x => x.2 == w))

/-- A request joins those that wait for a credit of its pair (R345). -/
def State.awaitCredit (s : State) (src home : Nat) (w : Waiter) : State :=
  if w ≠ .device ∧ s.credq.contains (pairKey src home, w) = true then s else { s with credq := s.credq ++ [(pairKey src home, w)] }

/-- A thread waits for no credit any more. -/
def State.dropCredit (s : State) (i : Tid) : State :=
  { s with credq := s.credq.filter (fun x => x.2 != .thread i) }

/-- The window of performed sequence numbers of a pair after one more (R345, 19 R427): numbers count modulo 2^32, and those half the
range back are forgotten; one ahead stays, where an earlier request has waited for its line's holders. -/
def performedWith (l : List Nat) (n : Nat) : List Nat :=
  SSet.add (l.filter (fun m => decide ((n + 2 ^ 32 - m) % 2 ^ 32 < 2 ^ 31) || decide ((m + 2 ^ 32 - n) % 2 ^ 32 < 2 ^ 30))) n

/-- A request of a source that its home has performed across a link takes an entry, with the reply saved, until the source's cumulative
acknowledgement, which now leaves, covers its sequence number (R345, 11 R248). -/
def State.takeEntry (s : State) (w : Waiter) (src home sdom p old : Nat) : State :=
  if src = home then s
  else
    let k := pairKey src home
    let n := Sparse.get 0 s.seqs k
    { s with
      credq := s.credq.erase (k, w)
      seqs := Sparse.set 0 s.seqs k ((n + 1) % 2 ^ 32)
      performed := Sparse.set [] s.performed k (performedWith (Sparse.get [] s.performed k) n)
      replies := s.replies ++ [{ src := home, dst := src, op := 0x85, sdom := sdom, seq := n, p := p, payload := [w64 old] }]
      net := s.net ++ [{ src := src, dst := home, op := 0x8F, sdom := sdom, seq := n, p := p, payload := [] }] }

/-- The number a field of n bytes takes (02 R43, 15 R335, 18 R404). -/
def DevAct.next (a : DevAct) (v : Nat) : List Byte :=
  match a with
  | .put bs | .status bs | .frame bs => bs
  | .add n d | .count n d => toBytes n (((v : Int) + d) % (2 ^ (8 * n) : Nat)).toNat
  | .clear n k => toBytes n (if bit v k then v - 2 ^ k else v)

/-- The home die of a device write: the die itself where it cannot be translated. -/
def State.devHome (s : State) (o : DevOp) : Nat :=
  match s.devLoc o.die o.sdom o.va true with
  | .ok l => l.spot.die
  | .error _ => o.die

/-- Whether a counter update of the device waits for a credit (15 R345). -/
def State.devCredit (s : State) (o : DevOp) : Bool :=
  match o.act with | .count _ _ => !s.creditFor o.die (s.devHome o) .device | _ => false

/-- Whether a write of the device is held: while its place waits (R303, 10 R235), or a counter update for a credit (15 R345). -/
def State.devHeld (s : State) (o : DevOp) : Bool := s.devWaits o.die o.sdom o.va true || s.devCredit o

/-- Perform a write of the device now. -/
def State.devPerform (s : State) (o : DevOp) : Except Flt State :=
  match o.act with
  | .put bs | .status bs => s.devPut o.die o.sdom o.va bs false
  | .frame bs => s.devPut o.die o.sdom o.va bs true
  | .count n _ => match s.devRead o.die o.sdom o.va n with
    | .error f => .error f
    | .ok v => match s.devPut o.die o.sdom o.va (o.act.next v) false with
      | .error f => .error f
      | .ok s1 => .ok (s1.takeEntry .device o.die (s.devHome o) o.sdom o.va v)
  | .add n _ | .clear n _ => match s.devRead o.die o.sdom o.va n with
    | .error f => .error f
    | .ok v => s.devPut o.die o.sdom o.va (o.act.next v) false

/-- A write of the device: performed, or held. -/
def State.devDo (s : State) (o : DevOp) : Except Flt State :=
  if s.devHeld o then
    .ok (let s1 := { s with devq := s.devq ++ [o] }
         if s.devCredit o then s1.awaitCredit o.die (s.devHome o) .device else s1)
  else s.devPerform o

/-- A device write of bytes at a virtual address. -/
def State.devWrite (s : State) (die sdom va : Nat) (bs : List Byte) : Except Flt State :=
  s.devDo { die := die, sdom := sdom, va := va, act := .put bs }

end Sys2Proof.Machine
end

