-- ==== Sys2Proof/Machine/Frames.lean ====
section
/-! DEFINITION. Context frames (05 R110 to R113): the bytes of a thread's control line, register lines and handler line,
the lines a live thread holds by address (R121), and reading and writing them (R122, R123). -/
namespace Sys2Proof.Machine

/-- The frame address of a handle (R110). -/
def frameAddr (h : Nat) : Nat := if bit h 46 then h * 1024 + 0xFE00000000000000 else h * 1024
/-- The handle of a frame address (R110). -/
def handleOf (va : Nat) : Nat := bits va 56 10

/-- STATE of R112. -/
def TState.code : TState → Nat
  | .ready => 1 | .resident => 2 | .blocked _ => 3 | .waiting _ => 4 | .faulted => 5
/-- SUB of R112. -/
def TState.sub : TState → Nat
  | .blocked .empty => 0 | .blocked .line => 1 | .blocked .lock => 2 | .blocked .feretry => 3
  | .waiting .wait => 0 | .waiting .recv => 1 | .waiting .fill => 2 | .waiting .sbar => 3 | .waiting .gang => 4
  | _ => 0

/-- KIND codes of R401. -/
def AccKind.code : AccKind → Nat
  | .none => 0 | .load => 1 | .store => 2 | .atomic => 3 | .fullEmpty => 4 | .engine => 5 | .walk => 6 | .fill => 7

/-- The register count (R112 REGS). -/
def Thread.count (t : Thread) : Nat := 16 * t.lines
/-- Whether the thread holds a slot. -/
def Thread.holdsSlot (t : Thread) : Bool := t.slot.isSome

/-- Word 0x08 of the control line (R112), with the given STATE and SUB. -/
def Thread.statusWord (t : Thread) (st sub : Nat) : Nat :=
  t.pred.toNat ||| 1
  ||| ((t.lines - 1) % 4) * 2 ^ 8 ||| t.incnt % 8 * 2 ^ 10 ||| t.inhead % 4 * 2 ^ 13
  ||| st * 2 ^ 16 ||| sub * 2 ^ 19
  ||| (match t.slot with | some (p, _) => p % 16 * 2 ^ 24 + 2 ^ 28 | none => 0)
  ||| t.fpf.toNat * 2 ^ 32 ||| t.rnd.toNat * 2 ^ 40 ||| t.prio % 64 * 2 ^ 48
  ||| b2n t.priol * 2 ^ 54 ||| b2n t.hnd * 2 ^ 55 ||| t.fcause % 256 * 2 ^ 56

/-- The control line as 16 words (R112). -/
def Thread.controlWords (t : Thread) (st sub : Nat) : List Word :=
  [t.pc, w64 (t.statusWord st sub), t.fe, t.emt, w64 t.region, t.stkp, t.waitarg, t.deadline] ++
  (t.msgs.toList.flatMap (fun m => [m.payload, w64 (m.src % 2 ^ 47 + m.tag % 2 ^ 16 * 2 ^ 48)]))

/-- Line i of the frame as 16 words (R111): 0 the control line, 1 to 4 the register lines, 5 the handler line. -/
def Thread.lineWords (t : Thread) (i : Nat) : List Word :=
  match i with
  | 0 => t.controlWords t.st.code t.st.sub
  | 5 => w64 (if t.hnd then t.upv else 0) :: List.replicate 15 0
  | _ => (upto (16 * (i - 1)) 16).map (fun n => if n = 0 then 0 else t.g[n]?.getD 0)

/-- The bytes of a line. -/
def Thread.lineBytes (t : Thread) (i : Nat) : List Byte := (t.lineWords i).flatMap wordBytes

/-- The lines a live thread's frame has (R111). -/
def Thread.lineList (t : Thread) : List Nat := 0 :: upto 1 t.lines ++ (if t.hnd then [5] else [])

/-- Whether two extents, as first byte and size, share a byte. -/
def meets (a b : Nat × Nat) : Bool := decide (a.1 < b.1 + b.2) && decide (b.1 < a.1 + a.2)
/-- Whether an extent meets one of a list. -/
def meetsAny (l : List (Nat × Nat)) (a : Nat × Nat) : Bool := l.any (meets a)

/-- The extent of a thread's context frame (05 R110). -/
def Thread.frameExtent (t : Thread) : Nat × Nat := (frameAddr t.id.handle, 1024)

/-- Whether a thread's frame lies in extents of a domain. -/
def Thread.frameIn (t : Thread) (sdom : Nat) (l : List (Nat × Nat)) : Bool := t.id.sdom == sdom && meetsAny l t.frameExtent

/-- A thread that waits for its own TLBINV stays in place during it (R299). -/
def Thread.invalidating (t : Thread) : Bool := match t.pend with | some (.tlbinv _) => true | _ => false

/-- Whether a context cache holds line i of a thread's frame (05 R122, R124). -/
def Thread.cached (t : Thread) (i : Nat) : Bool := t.holdsSlot && (if i = 0 then t.ctl else decide (4 < i) || t.linesIn.contains i)

/-- Whether an invalidation of a thread's frame lines runs (R125): a TLBINV of another thread, or one that a re-striping makes
(13 R302, R304, R305). -/
def State.frameInvalidated (s : State) (t : Thread) : Bool :=
  s.threads.any (fun u => u.id.sdom == t.id.sdom && u.id != t.id &&
    (match u.pend with | some (.tlbinv l) => t.frameIn t.id.sdom l | _ => false)) ||
  s.dies.any (fun d => d.2.restripe.any (fun r => (decide (2 ≤ r.2.st) || (r.2.st == 1 && r.2.prog == 0)) &&
    t.frameIn r.2.sdom [(r.2.vbase, 16384 * r.2.nchunk)]))

/-- The thread and line whose recorded placement holds a physical address (R121, R125). -/
def State.lineAt (s : State) (pa : Nat) : Option (Thread × Nat) :=
  let b := alignDown pa 128
  s.threads.findSome? (fun t => match t.placed with
    | none => none
    | some l => (t.lineList.find? (fun i => l.getD i 0 == b)).map (fun i => (t, i)))

/-- Byte k of a list of words. -/
def byteOfWords (ws : List Word) (k : Nat) : Byte := BitVec.ofNat 8 ((ws.getD (k / 8) 0).toNat / 256 ^ (k % 8))

/-- The byte at pa: of the live thread whose context line it is (R123), or of memory. -/
def State.byteAt (s : State) (d pa : Nat) : Byte :=
  match s.lineAt pa with
  | some (t, i) => byteOfWords (t.lineWords i) (pa % 128)
  | none => s.byteAs d pa

/-- n bytes of memory, context lines included. -/
def State.bytesAt (s : State) (d pa n : Nat) : List Byte :=
  match s.lineAt pa with
  | some (t, i) => ((t.lineBytes i).drop (pa % 128)).take n
  | none => s.readAs d pa n
/-- The number those bytes hold. -/
def State.numAt (s : State) (d pa n : Nat) : Nat := ofBytes (s.bytesAt d pa n)

/-- Read gn (R114). -/
def Thread.rd (t : Thread) (n : Nat) : Word := if n = 0 then 0 else t.g[n]?.getD 0
/-- Whether gn is full; g0 always is (R114). -/
def Thread.full (t : Thread) (n : Nat) : Bool := n == 0 || t.fe.getLsbD n
/-- Write gn and set it full; a write to g0 or beyond the count is discarded (R114, R116). -/
def Thread.wr (t : Thread) (n : Nat) (v : Word) : Thread :=
  if n = 0 ∨ t.count ≤ n then t
  else { t with g := t.g.setIfInBounds n v, fe := t.fe ||| w64 (2 ^ n) }
/-- Empty gn at the issue of a producer (R116); a destination g0 clears nothing. -/
def Thread.clr (t : Thread) (n : Nat) : Thread :=
  if n = 0 ∨ t.count ≤ n then t else { t with fe := t.fe &&& ~~~w64 (2 ^ n) }
/-- Read predicate p (R115). -/
def Thread.rp (t : Thread) (p : Pred) : Bool := p == 0 || t.pred.getLsbD p.toNat
/-- Write predicate p; p0 stays true (R115). -/
def Thread.wp (t : Thread) (p : Pred) (b : Bool) : Thread :=
  if p = 0 then t
  else { t with pred := if b then t.pred ||| BitVec.ofNat 8 (2 ^ p.toNat) else t.pred &&& ~~~BitVec.ofNat 8 (2 ^ p.toNat) }

/-- FE bits that exist: bit 0 reads 1 and those beyond the count 0 (R112). -/
def Thread.feMask (t : Thread) : Word := w64 (2 ^ t.count - 1)
/-- Set RND, unless the value is 0, 6 or 7 (R119, R123). -/
def Thread.setRnd (t : Thread) (v : Nat) : Thread :=
  if 1 ≤ v % 8 ∧ v % 8 ≤ 5 then { t with rnd := BitVec.ofNat 3 v } else t

/-- What a handler's store leaves in the fields marked "handler" of the control line (R112, R123), given the new words of
the line; the PC may be any. -/
def Thread.handlerStore (t : Thread) (ws : List Word) : Thread :=
  let status := (ws.getD 1 0).toNat
  let t1 := { t with
    pc := ws.getD 0 0
    pred := BitVec.ofNat 8 (status ||| 1)
    fpf := BitVec.ofNat 5 (status / 2 ^ 32)
    fe := (ws.getD 2 0 &&& t.feMask) ||| 1
    emt := ws.getD 3 0 &&& ~~~1
    stkp := ws.getD 5 0 }
  t1.setRnd (status / 2 ^ 40)

/-- Replace bytes from position k of a list of bytes. -/
def overlay (old : List Byte) (k : Nat) (bs : List Byte) : List Byte := old.take k ++ bs ++ old.drop (k + bs.length)

/-- A store of bytes into register line i of a thread at offset k (R123): each register touched takes its bytes and becomes
full. -/
def Thread.storeRegs (t : Thread) (i k : Nat) (bs : List Byte) : Thread :=
  let new := wordsOf (overlay (t.lineBytes i) k bs) 16
  ((upto 0 16).filter (fun w => decide (8 * w + 8 > k) && decide (8 * w < k + bs.length))).foldl
    (fun t w => t.wr (16 * (i - 1) + w) (new.getD w 0)) t

/-- Replace a thread of the list by its new value. -/
def State.put (s : State) (t : Thread) : State :=
  { s with threads := s.threads.map (fun u => if u.id = t.id then t else u) }
/-- The live thread a name names. -/
def State.find (s : State) (i : Tid) : Option Thread := s.threads.find? (fun t => t.id == i)

/-- The translation of a frame line, when it still leads to the placement recorded with the line: its page takes D (13 R291), and
a line whose chunk has moved is written to the old placement too (13 R303). -/
def State.lineLoc (s : State) (t : Thread) (i pa : Nat) : Option Loc :=
  match s.devLoc (dieOf t.core) t.id.sdom (frameAddr t.id.handle + 128 * i) true with
  | .ok x => if x.spot.pa = pa then some x else none
  | .error _ => none

/-- Write bytes where the place admits the domain; a refused write is not performed (10 R233). -/
def State.writeOwned (s : State) (sdom pa : Nat) (bs : List Byte) : State :=
  if s.placeAdmits sdom pa then s.writeAs sdom pa bs else s

/-- Whether the write of a frame line is held: its placement waits, or its chunk is in copy (13 R303). -/
def State.lineHeld (s : State) (t : Thread) (i pa : Nat) : Bool :=
  let va := frameAddr t.id.handle + 128 * i
  s.devWaits (dieOf t.core) t.id.sdom va true &&
  (match s.devLoc (dieOf t.core) t.id.sdom va false with
   | .ok x => x.spot.pa == pa
   | .error _ => false)

/-- Write one line of a frame in its thread's domain. -/
def State.writeFrameLine (s : State) (t : Thread) (i pa : Nat) (ws : List Word) : State :=
  let bs := ws.flatMap wordBytes
  let va := frameAddr t.id.handle + 128 * i
  if s.lineHeld t i pa then { s with devq := s.devq ++ [{ die := dieOf t.core, sdom := t.id.sdom, va := va, act := .frame bs }] }
  else match s.lineLoc t i pa with
  | some x =>
    let s1 := (s.touch (dieOf t.core) t.id.sdom va true).writeOwned t.id.sdom pa bs
    (match x.mirror with
     | some m => s1.writeOwned t.id.sdom m bs
     | none => s1)
  | none => s.writeOwned t.id.sdom pa bs

/-- Write every line of a frame to memory under its recorded placement (R125), with the given STATE in the control line. A line that
no context cache holds (`kept`) keeps the poison marks it has in memory (18 R418). -/
def State.writeBack (s : State) (t : Thread) (st sub : Nat) (kept : Nat → Bool := t.cached) : State :=
  match t.placed with
  | none => s
  | some l => t.lineList.foldl (fun s i =>
      let s1 := s.writeFrameLine t i (l.getD i 0) (if i = 0 then t.controlWords st sub else t.lineWords i)
      if kept i then s1 else { s1 with poison := s.poison }) s

/-- The words of the six lines of a frame (R111). -/
def Thread.frameWords (t : Thread) : List Word := (upto 0 6).flatMap t.lineWords

/-- Word k of a dropped frame when it is loaded again (R125, 22 R471): what memory holds, unless the device has written the
word since the frame was dropped (`Thread.noted`). A word never written back is the device's. -/
def Thread.mergeWord (t : Thread) (mem : List Word) (k : Nat) : Word :=
  let cur := t.frameWords.getD k 0
  if t.snap[k]? = some cur then mem.getD k 0 else cur

/-- The device has written words k of a thread's frame: while the frame is dropped they are held, whatever they hold (22 R471). -/
def Thread.noted (t : Thread) (ks : List Nat) : Thread :=
  if t.snap.isEmpty then t else { t with snap := ks.foldl (fun l k => l.set k (~~~t.frameWords.getD k 0)) t.snap }

/-- The thread after its dropped frame is loaded again, given the frame's words in memory (R112, R125). -/
def Thread.reload (t : Thread) (mem : List Word) : Thread :=
  let c := fun k => t.mergeWord mem k
  let st := (c 1).toNat
  let msg := fun k => { payload := c (8 + 2 * k), src := wbits (c (9 + 2 * k)) 46 0, tag := wbits (c (9 + 2 * k)) 63 48 : Msg }
  { t with
    pc := c 0
    pred := BitVec.ofNat 8 (st ||| 1)
    incnt := bits st 12 10
    inhead := bits st 14 13
    fpf := BitVec.ofNat 5 (st / 2 ^ 32)
    rnd := BitVec.ofNat 3 (st / 2 ^ 40)
    fe := (c 2 &&& t.feMask) ||| 1
    emt := c 3
    stkp := c 5
    waitarg := c 6
    deadline := c 7
    msgs := #v[msg 0, msg 1, msg 2, msg 3]
    g := Vector.ofFn (fun i : Fin 64 => if i.val < t.count then c (16 + i.val) else 0)
    snap := [] }

/-- The placements of a frame's six lines (R125): the frame lies within one page of class CTX (R224), and each of the lines `ls`
that it has is in range and its domain's (10 R232, R233). -/
def State.framePlaces (s : State) (die : Nat) (i : Tid) (ls : List Nat := []) : Except Flt (List Nat) :=
  let f := frameAddr i.handle
  match s.devLoc die i.sdom f false with
  | .error e => .error e
  | .ok l =>
    let at' := fun k => s.spot (s.geo die l.gidx) (l.p + 128 * k)
    if Leaf.cls l.leaf ≠ 3 then
      .error { cause := .pageNotPresent, addr := w64 f, kind := .walk, detail := 0, fetch := false }
    else if !(ls.all (fun k => (at' k).inRange && s.carveAdmits i.sdom (at' k))) then
      .error { cause := .placementRange, addr := w64 f, kind := .walk, detail := 0, fetch := false }
    else .ok ((upto 0 6).map (fun k => (at' k).pa))

/-- Whether the fetch of a frame waits: for its tables or one of its lines (10 R233, R235; 18 R419), or for a held write of one of its
lines (13 R303). -/
def State.frameWaits (s : State) (die : Nat) (i : Tid) : Bool :=
  let f := frameAddr i.handle
  s.devWaits die i.sdom f false || s.devq.any (fun o => o.sdom == i.sdom && o.va / 1024 == f / 1024) ||
  (match s.devLoc die i.sdom f false with
   | .error _ => false
   | .ok l => (upto 0 6).any (fun k => s.carveWaits (s.spot (s.geo die l.gidx) (l.p + 128 * k))))

/-- The words of a dropped frame that the device has written carry no poison mark once they are in it (18 R418). -/
def State.unpoisonNoted (s : State) (t : Thread) (l : List Nat) : State :=
  if s.poison.isEmpty then s
  else ((upto 0 96).filter (fun k => t.lineList.contains (k / 16) && t.snap[k]? != some (t.frameWords.getD k 0))).foldl
    (fun s k => s.unpoison (l.getD (k / 16) 0 + 8 * (k % 16)) 8) s

/-- Load a frame's lines under the placements l (R125). -/
def State.loadFrame (s0 : State) (t : Thread) (l : List Nat) : State :=
  let s := s0.unpoisonNoted t l
  let mem := (upto 0 6).flatMap (fun i => wordsOf (s.readAs t.id.sdom (l.getD i 0) 128) 16)
  (s.touch (dieOf t.core) t.id.sdom (frameAddr t.id.handle) false).put { t.reload mem with placed := some l }

/-- A finished thread whose frame write was held, once the page is present (22 R471). -/
def State.finishHeld (s : State) (t : Thread) : State :=
  if s.frameWaits (dieOf t.core) t.id then s
  else match s.framePlaces (dieOf t.core) t.id t.lineList with
  | .error _ => s
  | .ok l =>
    let mem := (upto 0 6).flatMap (fun i => wordsOf (s.readAs t.id.sdom (l.getD i 0) 128) 16)
    { (s.unpoisonNoted t l).writeBack { t.reload mem with placed := some l } 0 0 with held := s.held.erase t }

/-- A new frame is written whole: its lines carry no poison mark (18 R418). -/
def State.freshFrame (s : State) (ls : List Nat) (l : List Nat) : State :=
  if s.poison.isEmpty then s else ls.foldl (fun s i => s.unpoison (l.getD i 0) 128) s

/-- Perform the held writes of finished threads with a name, oldest first (22 R471). -/
def State.settleHeld (s : State) (i : Tid) : State := (s.held.filter (fun u => u.id == i)).foldl State.finishHeld s

/-- A frame that TLBINV dropped is loaded again under its page's translation (R125), after the held writes to it of finished threads
(22 R471); a frame already held stays. -/
def State.ensureFrame (s : State) (t : Thread) : Except Flt State :=
  match t.placed with
  | some _ => .ok s
  | none => match s.framePlaces (dieOf t.core) t.id t.lineList with
    | .error e => .error e
    | .ok l => .ok ((s.settleHeld t.id).loadFrame t l)

/-- Write back and drop a frame's lines (R125): the words written are remembered. -/
def State.dropFrame (s : State) (t : Thread) : State :=
  match t.placed with
  | none => s
  | some _ => (s.writeBack t t.st.code t.st.sub).put { t with placed := none, snap := t.frameWords }

/-- R125: the lines of a frame whose invalidation runs are dropped before they are fetched again. -/
def State.dropStale (s : State) (t : Thread) : State := if s.frameInvalidated t then s.dropFrame t else s

/-! What a thread sees of a word, and the end of a wait on it. -/

/-- Whether a store before its global point is one that a thread sees: of its die, in its domain (12 R266, R273). -/
def Early.seenBy (e : Early) (t : Thread) : Bool := dieOf e.core == dieOf t.core && e.tid.sdom == t.id.sdom

/-- Whether a buffered store writes the byte at pa. -/
def StoreEnt.holds (e : StoreEnt) (pa : Nat) : Bool := decide (e.pa ≤ pa) && decide (pa < e.pa + e.bytes.length)

/-- The byte at pa as the threads of a thread's die see it: the latest store of them, or memory (12 R266). -/
def State.dieByte (s : State) (t : Thread) (pa : Nat) : Byte :=
  match s.early.reverse.find? (fun e => e.seenBy t && e.ent.holds pa) with
  | some e => e.ent.bytes.getD (pa - e.ent.pa) 0
  | none => s.byteAs t.id.sdom pa

/-- The byte at pa as a thread sees it: its own latest buffered store, or what its die sees (11 R240). -/
def State.viewByte (s : State) (t : Thread) (pa : Nat) : Byte :=
  match t.stores.reverse.find? (fun e => e.holds pa) with
  | some e => e.bytes.getD (pa - e.pa) 0
  | none => s.dieByte t pa

/-- The aligned word at pa as a load of the thread returns it (12 R261): its own latest buffered store to it, or the word that memory
or a context line holds. -/
def State.viewWord (s : State) (t : Thread) (pa : Nat) : Word :=
  w64 (if (s.lineAt pa).isSome then s.numAt t.id.sdom pa 8 else ofBytes ((upto pa 8).map (s.viewByte t)))

/-- R361: a write within a step has changed words: WAITs that it ends, with the word each finds, whatever the step writes there later. -/
def State.noteWaits (s : State) : State :=
  let l := s.threads.filterMap (fun u => match u.st, u.cond with
    | .waiting _, some (.watch pa val _) =>
      if s.viewWord u pa ≠ val ∧ s.ended.all (fun x => x.1 != u.id) = true then some (u.id, s.viewWord u pa) else none
    | _, _ => none)
  if l.isEmpty then s else { s with ended := s.ended ++ l }

end Sys2Proof.Machine
end

