-- ==== Sys2Proof/Machine/Regions.lean ====
section
/-! DEFINITION. Region control blocks (02 R40 to R45): reading a chain, effective values, validity, charges, suspension. -/
namespace Sys2Proof.Machine

/-- A region control block as read (R40). -/
structure Rcb where
  parent : Nat
  prio : Nat
  depth : Nat
  susp : Bool
  fdom : Nat
  sdom : Nat
  resBudget : Nat
  resUsed : Nat
  ctxBudget : Nat
  ctxUsed : Nat
  memBudget : Nat
  eqBudget : Nat
  eqUsed : Nat
  upcall : Nat
  hpool : Nat
  hcount : Nat
  hbusy : Nat
  clean : Bool
  deriving DecidableEq, Repr

/-- The RCB a 128-byte number holds (R40). -/
def Rcb.of (n : Nat) : Rcb :=
  let w := fun k => n / 2 ^ (64 * k) % 2 ^ 64
  { parent := w 0, prio := bits (w 1) 7 0, depth := bits (w 1) 10 8, susp := bit (w 1) 16
    fdom := bits (w 1) 47 32, sdom := bits (w 1) 63 48
    resBudget := bits (w 2) 31 0, resUsed := bits (w 2) 63 32, ctxBudget := w 3, ctxUsed := w 4, memBudget := w 5
    eqBudget := bits (w 7) 15 0, eqUsed := bits (w 7) 31 16, upcall := w 8, hpool := w 9
    hcount := bits (w 10) 6 0, hbusy := w 11
    clean := bits (w 1) 15 11 == 0 && bits (w 1) 31 17 == 0 && bits (w 7) 63 32 == 0 && bits (w 10) 63 7 == 0 &&
      w 12 == 0 && w 13 == 0 && w 14 == 0 && w 15 == 0 }

/-- R42 without the parent: PRIO, HPOOL_COUNT, SDOM (20 R444) and reserved fields; a root's DEPTH and inherit values. -/
def Rcb.valid (r : Rcb) : Bool :=
  !(decide (1024 ≤ r.sdom) && decide (r.sdom ≤ 65534)) && !(decide (64 ≤ r.prio) && decide (r.prio ≤ 254)) && !(decide (65 ≤ r.hcount)) && r.clean &&
  (r.parent != 0 ||
    (r.depth == 0 && r.prio != 0xFF && r.fdom != 0xFFFF && r.sdom != 0xFFFF && r.resBudget != 0xFFFFFFFF &&
     r.ctxBudget != 2 ^ 64 - 1 && r.memBudget != 2 ^ 64 - 1 && r.eqBudget != 0xFFFF && r.upcall != 0 && r.hpool != 0 &&
     r.hcount != 0))

/-- Read one RCB in its home domain (R40, R42). -/
def State.rcb (s : State) (die home va : Nat) : Option Rcb :=
  if va % 128 ≠ 0 then none
  else match s.devRead die home va 128 with
    | .ok n => some (Rcb.of n)
    | .error _ => none

/-- The chain of RCBs from a region to its root (R42), at most eight PARENT steps; or the address of the RCB found
invalid. -/
def State.chainFrom (s : State) (die home : Nat) : Nat → Nat → Except Nat (List (Nat × Rcb))
  | 0, va => .error va
  | k + 1, va =>
    match s.rcb die home va with
    | none => .error va
    | some r =>
      if !r.valid then .error va
      else if r.parent = 0 then .ok [(va, r)]
      else match s.chainFrom die home k r.parent with
        | .error b => .error b
        | .ok l => match l.head? with
          | some (_, p) => if r.depth = p.depth + 1 then .ok ((va, r) :: l) else .error va
          | none => .error va

/-- The chain of a region (R42). -/
def State.chain (s : State) (die home va : Nat) : Except Nat (List (Nat × Rcb)) := s.chainFrom die home 9 va

/-- The first value on the path that is not the inherit value (R41). -/
def effective (f : Rcb → Nat) (inherit' : Nat) : List (Nat × Rcb) → Nat
  | [] => inherit'
  | (_, r) :: l => if f r = inherit' then effective f inherit' l else f r

def effPrio (l : List (Nat × Rcb)) : Nat := effective Rcb.prio 0xFF l
def effFdom (l : List (Nat × Rcb)) : Nat := effective Rcb.fdom 0xFFFF l
def effSdom (l : List (Nat × Rcb)) : Nat := effective Rcb.sdom 0xFFFF l
def effUpcall (l : List (Nat × Rcb)) : Nat := effective Rcb.upcall 0 l
def effHcount (l : List (Nat × Rcb)) : Nat := effective Rcb.hcount 0 l

/-- The RCB of the path that sets HPOOL, whose busy bits are shared (R41). -/
def poolOwner : List (Nat × Rcb) → Option (Nat × Rcb)
  | [] => none
  | (a, r) :: l => if r.hpool = 0 then poolOwner l else some (a, r)

/-- What a charge counts (R43). -/
inductive Charge where
  | ctx | res | eq
  deriving DecidableEq, Repr

/-- Whether every node of the path admits n more (R43): each node's count against its effective budget. -/
def admits (c : Charge) (n : Nat) : List (Nat × Rcb) → Bool
  | [] => true
  | (a, r) :: l =>
    (match c with
     | .ctx => decide (r.ctxUsed + n ≤ effective Rcb.ctxBudget (2 ^ 64 - 1) ((a, r) :: l))
     | .res => decide (r.resUsed + n ≤ effective Rcb.resBudget 0xFFFFFFFF ((a, r) :: l))
     | .eq => decide (r.eqUsed + n ≤ effective Rcb.eqBudget 0xFFFF ((a, r) :: l))) && admits c n l

/-- The address of the first node that does not admit one more RES charge (R49). -/
def resBlocker : List (Nat × Rcb) → Option Nat
  | [] => none
  | (a, r) :: l =>
    if r.resUsed + 1 ≤ effective Rcb.resBudget 0xFFFFFFFF ((a, r) :: l) then resBlocker l else some a

/-- Whether a region on the path is suspended (R44). -/
def suspendedPath (l : List (Nat × Rcb)) : Bool := l.any (fun x => x.2.susp)

/-- Add d to the counted field of one RCB in memory: a FAR atomic at its home (R43), held with its chunk (13 R303). Each such write is
compared with what WAITs expect (16 R361, R376). -/
def State.addCount (s : State) (die home va : Nat) (c : Charge) (d : Int) : State :=
  let (off, n) := match c with | .ctx => (0x20, 8) | .res => (0x14, 4) | .eq => (0x3A, 2)
  match s.devDo { die := die, sdom := home, va := va + off, act := .count n d } with
  | .ok s' => s'.noteWaits
  | .error _ => s

/-- Charge or release at every node of a path (R43). -/
def State.charge (s : State) (die home : Nat) (c : Charge) (d : Int) (path : List Nat) : State :=
  path.foldl (fun s a => s.addCount die home a c d) s

/-- The RCB addresses from a region to its root, as far as they can be read (R43, R42). -/
def State.pathFrom (s : State) (die home : Nat) : Nat → Nat → List Nat
  | 0, _ => []
  | k + 1, va => match s.rcb die home va with
    | none => []
    | some r => if r.parent = 0 then [va] else va :: s.pathFrom die home k r.parent

/-- The nodes a charge of a region reaches. -/
def State.path (s : State) (die home va : Nat) : List Nat := s.pathFrom die home 9 va

/-- Whether a decision that charges a path waits: a count of it is held, or its place waits (13 R303, 10 R233). -/
def State.pathWaits (s : State) (die home : Nat) (path : List Nat) : Bool :=
  path.any (fun a => s.devWaits die home a true || s.devq.any (fun o => o.sdom == home && o.va / 128 == a / 128))

/-- Whether reading a chain waits: for an RCB in a carve unit that grows or is being zeroed (10 R233, R235), or in a line under recall. -/
def State.chainWaits (s : State) (die home : Nat) : Nat → Nat → Bool
  | 0, _ => false
  | k + 1, va =>
    s.devWaits die home va false ||
    (match s.rcb die home va with
     | none => false
     | some r => r.parent != 0 && s.chainWaits die home k r.parent)

/-- The pages of a path that a decision has read take A (13 R291). -/
def State.touchPath (s : State) (die home : Nat) (path : List Nat) : State :=
  path.foldl (fun s a => s.touch die home a false) s

/-- Whether the tree of a root of a home domain is held by a log entry's HOLD bit (18 R406). -/
def State.rootHeld (s : State) (home root : Nat) : Bool := s.mclog.any (fun e => e.2.hold && e.2.root == root && e.2.home == home)

/-- The RCBs of a chain have been read for a decision: their pages take A (13 R291). -/
def State.chainRead (s : State) (die home va : Nat) : State := s.touchPath die home (s.path die home va)

/-- A region is held: its chain is invalid (R42), suspended (R44), or its root is held (R406). -/
def State.held? (s : State) (die home va : Nat) : Bool :=
  match s.chain die home va with
  | .error _ => !s.chainWaits die home 9 va
  | .ok l => suspendedPath l || (match l.getLast? with | some (a, _) => s.rootHeld home a | none => false)

/-- Effective priority of a thread (R45): its base priority, plus its aging while READY. -/
def Thread.effPrio (t : Thread) : Nat := if t.st = .ready then min 63 (t.prio + t.aged) else t.prio

end Sys2Proof.Machine
end

