-- ==== Sys2Proof/Machine/Base.lean ====
section
/-! DEFINITION. Counting events (17 R394, R396), fault records, upcall queues and the machine-check log (18 R401 to R405, R416),
releasing a slot (02 R43), and the end of a wait (16 R360). -/
namespace Sys2Proof.Machine

/-- The tick as a word (17 R377). -/
def State.tsc (s : State) : Word := w64 s.tick

/-- Add 1 to error counter k of a die; it saturates (17 R396). -/
def State.countErr (s : State) (d k : Nat) : State :=
  let x := s.die d
  s.setDie d { x with errs := Sparse.set 0 x.errs k (if Sparse.get 0 x.errs k = w64 (2 ^ 64 - 1) then w64 (2 ^ 64 - 1) else Sparse.get 0 x.errs k + 1) }

/-- Whether an enabled counter counts events of a code attributed to a domain, or to every domain (17 R394). -/
def Perf.counts (x : Perf) (dom : Option Nat) (code : Nat) : Bool :=
  x.en && x.event == code && (match dom with | some d => x.owner == d | none => true)

/-- R394: n events of a code on a core in the cycle in progress, attributed to a domain, or to every domain. -/
def State.tally (s : State) (core : Nat) (dom : Option Nat) (code n : Nat) : State :=
  let c := s.core core
  if c.perf.any (fun x => x.2.counts dom code) then s.setCore core { c with events := (dom, code, n) :: c.events } else s

/-- R394: the end of a cycle: each counter adds the cycle's events, but for one programmed in it (R395). -/
def State.countCycle (s : State) (core : Nat) : State :=
  let c := s.core core
  if c.events.isEmpty && !c.perf.any (fun x => x.2.new) then s
  else s.setCore core { c with
    events := []
    perf := c.perf.map (fun x => (x.1, { x.2 with
      new := false
      val := if x.2.new then x.2.val
        else x.2.val + w64 ((c.events.filter (fun e => x.2.counts e.1 e.2.1)).foldl (fun n e => n + e.2.2) 0) })) }

/-- The record of a fault of a thread (R401). -/
def State.recOf (s : State) (t : Thread) (f : Flt) (async ctx : Bool) (word : Nat) : Rec :=
  { cause := f.cause, async := async, fetch := f.fetch, ctx := ctx, esc := false, kind := f.kind, detail := f.detail
    tid := some t.id, core := t.core, pc := t.pc, word := word, addr := f.addr, tick := s.tick, region := t.region
    home := t.home, pool := none, mcDom := none }

/-- Whether a die's upcall queue is full (R403). -/
def State.upqFull (s : State) (d : Nat) : Bool := decide (16384 ≤ (s.die d).upq.length)

/-- Enter a record into a die's upcall queue (R402, R403); where the queue is full it waits for an entry (log 102). -/
def State.pushRec (s : State) (d : Nat) (r : Rec) : State :=
  if s.upqFull d then { s with lateRecs := s.lateRecs ++ [(d, r)] }
  else
    let x := s.die d
    s.setDie d { x with upq := x.upq ++ [r] }

/-- The records that waited enter their queues, in their order, as far as there are entries (R403). -/
def State.flushRecs (s : State) : State :=
  if s.lateRecs.isEmpty then s else s.lateRecs.foldl (fun s x => s.pushRec x.1 x.2) { s with lateRecs := [] }

/-- Release the slot a thread holds, with its RES_USED charge (R43, R402, R417); its lines leave the context cache, what was walked for
an instruction of it that has not issued is forgotten (13 R307), and it waits for no credit. -/
def State.releaseSlot (s0 : State) (t : Thread) : State × Thread :=
  let t1 := { t with slot := none, ctl := false, linesIn := [], age := 0, claim := none }
  let s := (s0.dropFresh t.core t.id).dropCredit t.id
  if t.holdsSlot then
    (s.charge (dieOf t.core) t.home .res (-1) (s.path (dieOf t.core) t.home t.region), t1)
  else (s, t1)

/-- The move of R32 when a wait ends: RESIDENT with a slot, READY without one. -/
def State.endWaitMove (s : State) (t : Thread) : State :=
  if t.holdsSlot then s.put { t with st := .resident }
  else s.put { t with st := .ready, readySince := s.tick, aged := 0 }

/-- R360: the device completes a waiting instruction: results, PC + 4, WAITARG 0, DEADLINE all ones, and the move of R32. -/
def State.completeWait (s : State) (t : Thread) (regs : List (Nat × Word)) : State :=
  let t1 := (regs.foldl (fun t x => t.wr x.1 x.2) t).noted ([0, 6, 7] ++ regs.map (fun x => 16 + x.1))
  s.endWaitMove { t1 with pc := t1.pc + 4, waitarg := 0, deadline := w64 (2 ^ 64 - 1), cond := none }

/-- The six words of a record (R401). -/
def Rec.words (r : Rec) : List Word :=
  let handle := match r.tid with | some i => i.handle | none => 0
  [w64 (r.cause.code + b2n r.async * 2 ^ 8 + b2n r.fetch * 2 ^ 9 + b2n r.ctx * 2 ^ 10 + b2n r.esc * 2 ^ 11
      + r.kind.code * 2 ^ 13 + r.detail % 256 * 2 ^ 16),
   w64 (handle % 2 ^ 47 + r.core % 2048 * 2 ^ 48), r.pc, w64 (r.word % 2 ^ 32), r.addr, w64 r.tick]

/-- The valid FDT entry of a fault domain (R408). -/
def State.fdtOf (s : State) (fdom : Nat) : Option Fdt := (s.fdt.find? (fun x => x.2.v && x.2.fdom == fdom)).map (·.2)

/-- Write a record of the machine-check log (R416), held for a root's tree when `root` is not 0 (R406). -/
def State.logRec (s : State) (r : Rec) (sdom fdom root : Nat) : State :=
  { s with
    mclog := Sparse.put s.mclog (s.mclogcnt % 64)
      { words := r.words, sdom := sdom, fdom := fdom, hold := root != 0, root := root, home := r.home }
    mclogcnt := (s.mclogcnt + 1) % 2 ^ 64 }

/-- The core of a notice, which has no thread: one of its die's, a free value (log 14). -/
def State.noticeCore (s : State) (die : Nat) : Nat :=
  let l := (upto (256 * die) 256).filter (fun c => decide (c < 2048) && bit s.encores c)
  l.getD (Config.free 14 s.draws % l.length) (256 * die)

/-- R405, R416: a machine check for a line of a domain: a notice for the MCREGION of each fault domain of that domain, and one
log record. -/
def State.machineCheck (s : State) (die sdom : Nat) (placement : Word) : State :=
  let r : Rec := { cause := .machineCheck, async := true, fetch := false, ctx := false, esc := false, kind := .none
                   detail := 0, tid := none, core := s.noticeCore die, pc := 0, word := 0, addr := placement, tick := s.tick
                   region := 0, home := sdom, pool := none, mcDom := some sdom }
  let l := (s.fdt.map (·.2)).filter (fun f => f.v && f.sdom == sdom && f.mcregion != 0)
  let s1 := l.foldl (fun s f => s.pushRec die { r with region := f.mcregion, home := f.sdom }) s
  s1.logRec r sdom (match l with | f :: _ => f.fdom | [] => 0xFFFF) 0

/-- R402: the record of a class A fault of a thread that is DONE goes to the log and to its fault domain's MCREGION. -/
def State.logDone (s : State) (r : Rec) : State :=
  let fd := match s.chain (dieOf r.core) r.home r.region with
    | .ok l => s.fdtOf (effFdom l)
    | .error _ => none
  match fd with
  | none => s.logRec r r.home 0xFFFF 0
  | some f =>
    let s1 := s.logRec r f.sdom f.fdom 0
    if f.mcregion = 0 then s1 else s1.pushRec (dieOf r.core) { r with region := f.mcregion, home := f.sdom, mcDom := some f.sdom }

end Sys2Proof.Machine
end

