-- ==== Sys2Proof/Machine/Gangs.lean ====
section
/-! DEFINITION. Gangs (08 R172 to R178, R190 to R192, R478; 09 R196 to R200): the gang record in memory, the units a gang holds,
joining, convening, dissolving. -/
namespace Sys2Proof.Machine

/-- The core at position 0 of a package quad (01 R16). -/
def quadBase (q : Nat) : Nat := q / 64 * 256 + q % 64 / 8 * 32 + q % 8 * 2

/-- The cores of a gang by quad position (R172). -/
def Gang.cores (g : Gang) : List Nat :=
  if g.quad then [quadBase g.home, quadBase g.home + 1, quadBase g.home + 16, quadBase g.home + 17] else [g.home]

/-- The die of a gang. -/
def Gang.die (g : Gang) : Nat := if g.quad then g.home / 64 else dieOf g.home

/-- The leader, member 0 (R196). -/
def Gang.leader (g : Gang) : Option Tid := (g.members.find? (fun x => x.1 == 0)).map (·.2)

/-- The member index of a thread. -/
def Gang.indexOf (g : Gang) (i : Tid) : Option Nat := (g.members.find? (fun x => x.2 == i)).map (·.1)

/-- Word k of the gang record (R173). -/
def Gang.recWord (g : Gang) (k : Nat) : Word :=
  match k with
  | 0 => w64 (match g.leader with | some i => i.handle | none => 0)
  | 1 => w64 (b2n g.quad + g.m * 2 ^ 8 + g.members.length * 2 ^ 16 + g.gstate * 2 ^ 24 + g.home * 2 ^ 32)
  | 2 => w64 g.frameb
  | 3 => w64 g.ops
  | 4 => w64 (g.arrived.length + b2n g.resident * 2 ^ 8)
  | _ =>
    if 16 ≤ k ∧ k < 27 then g.shadow.getD (k - 16) 0
    else if 128 ≤ k then match g.members.find? (fun x => x.1 == k - 128) with | some (_, i) => w64 i.handle | none => 0
    else 0

/-- Reset values of the engine registers (R176). -/
def resetShadow (quad : Bool) : List Word :=
  let n : Word := if quad then 64 else 32
  [0, 0, 0, n, n, 0, 0x22, 0, 0, 0, 0]

/-- Where a write under a recorded leaf is performed now (R478): none when its placement is not servable. -/
def State.servable (s : State) (die sdom va : Nat) (leaf : Word) : Option (Nat × Option Nat) :=
  let ok := fun (x : Spot) => x.inRange && s.carveAdmits sdom x && s.geoValid (s.geo die (Leaf.gidx leaf))
  match s.locOf die sdom va leaf true with
  | .ok l => if ok l.spot then some (l.spot.pa, l.mirror) else none
  | .error _ =>
    let x := s.spot (s.geo die (Leaf.gidx leaf)) (Leaf.place leaf va)
    if ok x then some (x.pa, none) else none

/-- The virtual address of byte `off` of piece k of what a gang keeps in memory: piece 0 the record, then the frames by 16 KiB. -/
def Gang.pieceVa (g : Gang) (k off : Nat) : Nat := if k = 0 then g.id.record + off else g.frameb + (k - 1) * 2 ^ 14 + off

/-- The placement word of a piece as recorded (R297), for a machine check. -/
def Gang.pieceWord (g : Gang) (k : Nat) : Word :=
  match g.places.getD k none with
  | some e => placeWord (Leaf.place e (g.pieceVa k 0)) (Leaf.gidx e) (Leaf.trans e)
  | none => 0

/-- The scratchpad segment of a physical place: its core and number (10 R221). -/
def padSegment (pa : Nat) : Nat × Nat := (physUnit pa - 32, physOff pa / 8192)

/-- Write bytes within one line of a piece under its recorded placement (R190, R478); the flag says the write was dropped, as one to a
scratchpad segment that another domain owns by now is (10 R221). -/
def State.gangWrite (s : State) (g : Gang) (k off : Nat) (bs : List Byte) : State × Bool :=
  match (if k = 0 then g.pad else none) with
  | some pa =>
    let x := padSegment (pa + off)
    if s.spdom x.1 x.2 = g.id.sdom then (s.writeAs g.id.sdom (pa + off) bs, false) else (s, true)
  | none => match g.places.getD k none with
    | none => (s, true)
    | some e => match s.servable g.die g.id.sdom (g.pieceVa k off) e with
      | none => (s, true)
      | some (pa, m) =>
        let s1 := s.writeAs g.id.sdom pa bs
        (match m with | some b => s1.writeAs g.id.sdom b bs | none => s1, false)

/-- Write several lines of a piece; the flag says that one was dropped. -/
def State.gangWrites (s : State) (g : Gang) (k : Nat) (l : List (Nat × List Byte)) : State × Bool :=
  l.foldl (fun x p => let (s1, b) := x.1.gangWrite g k p.1 p.2; (s1, x.2 || b)) (s, false)

/-- Write some words of the record (R173). -/
def State.recPut (s : State) (g : Gang) (ks : List Nat) : State :=
  (s.gangWrites g 0 (ks.map (fun k => (8 * k, wordBytes (g.recWord k))))).1

/-- The lines of the whole record, as the device writes it (R174), or all zero (R200). -/
def Gang.recLines (g : Gang) (zero : Bool) : List (Nat × List Byte) :=
  (upto 0 16).map (fun l => (128 * l,
    (upto (16 * l) 16).flatMap (fun k => wordBytes (if zero then 0 else g.recWord k))))

/-- R478: a dropped write raises a machine check with its placement word and writes one log record; the rule does not say how many
for a save or dissolution that drops several lines: here one of each for a 16 KiB piece, with the placement word of the piece's first
byte (log 79: DESIGN CHOICE). -/
def State.gangDropped (s : State) (g : Gang) (k : Nat) (b : Bool) : State :=
  if b then s.machineCheck g.die g.id.sdom (g.pieceWord k) else s

def State.gang (s : State) (i : GangId) : Option Gang := s.gangs.find? (fun g => g.id == i)
def State.setGang (s : State) (g : Gang) : State :=
  { s with gangs := s.gangs.map (fun x => if x.id = g.id then g else x) }

/-- Change the matrix unit of a core. -/
def State.modUnit (s : State) (core : Nat) (f : MatUnit → MatUnit) : State :=
  let c := s.core core
  s.setCore core { c with unit := f c.unit }

/-- Free the units of a gang (R188): BURST 0, the ramp state kept, tiles and latch discarded. -/
def State.freeUnits (s : State) (g : Gang) : State :=
  g.cores.foldl (fun s c => s.modUnit c (fun u =>
    if u.gang = some g.id then { u with gang := none, burst := 0, tiles := [], lock := 0, run := none, steps := 0, latch := [] } else u)) s

/-- Whether the units of a gang are free (R172). -/
def State.unitsFree (s : State) (g : Gang) : Bool := g.cores.all (fun c => (s.core c).unit.gang.isNone)

/-- A gang takes its units, tiles 0 (R185). -/
def State.takeUnits (s : State) (g : Gang) : State :=
  g.cores.foldl (fun s c => s.modUnit c (fun u => { u with gang := some g.id, tiles := [], lock := 0, run := none, steps := 0, latch := [] })) s

/-- Whether a write of a piece of a gang waits: its chunk is in copy (13 R303), or its place waits (10 R233, R234; 18 R419). -/
def State.pieceWaits (s : State) (g : Gang) (k : Nat) : Bool :=
  match (if k = 0 then g.pad else none) with
  | some pa => (s.core (padSegment pa).1).zeroing.contains (padSegment pa).2
  | none => match g.places.getD k none with
  | none => false
  | some e => match s.locOf g.die g.id.sdom (g.pieceVa k 0) e true with
    | .error _ => true
    | .ok l => (upto 0 64).any (fun i => s.carveWaits (s.spot (s.geo g.die l.gidx) (l.p + 256 * i)))

/-- Whether a save or dissolution of a gang waits for a piece that it writes. -/
def State.gangWaits (s : State) (g : Gang) (pieces : Nat) : Bool :=
  (upto 0 pieces).any (s.pieceWaits g)

/-- The pages of the record and frames take A and D before the device writes through their translations (13 R291). -/
def State.touchPieces (s : State) (g : Gang) : State :=
  (upto 0 (1 + 4 * g.cores.length)).foldl (fun s k => s.touch g.die g.id.sdom (g.pieceVa k 0) true) s

/-- The leaves of the record and frame pages now (R191, R198): none for one that cannot be translated. A page whose chunk is in copy or
whose carve unit grows has its leaf as any other: writes to it wait (13 R303, 10 R235). -/
def State.gangPlaces (s : State) (g : Gang) : List (Option Word) :=
  (upto 0 (1 + 4 * g.cores.length)).map (fun k =>
    let va := g.pieceVa k 0
    if !canonical va || inWindow va then none
    else match s.walkTable g.die g.id.sdom va .walk with
      | .ok x => some x.leaf
      | .error _ => none)

/-- The members of a gang that are live. -/
def State.gangThreads (s : State) (g : Gang) : List Thread := g.members.filterMap (fun x => s.find x.2)

/-- Whether every member stands on its required core with a slot (R55, R198). -/
def State.gangSlots (s : State) (g : Gang) : Bool :=
  g.members.all (fun x => match s.find x.2 with
    | some t => t.holdsSlot && t.core == g.cores.getD (if g.quad then x.1 % 4 else 0) 0
    | none => false)

/-- A convened gang that holds no slots leaves them all (R198): its members become READY. -/
def State.releaseMember (s : State) (t : Thread) : State :=
  if t.holdsSlot then
    let (s1, t1) := (s.tally t.core (some t.id.sdom) 0x09 1).releaseSlot t
    s1.put (match t.st with
      | .waiting _ | .faulted => t1
      | _ => { t1 with st := .ready, readySince := s.tick, aged := 0 })
  else s

/-- R198: the gang becomes resident at once, or waits for slots as a whole. -/
def State.seatGang (s : State) (g : Gang) : State :=
  if s.gangSlots g && s.unitsFree g then
    let g1 := { g with resident := true }
    (((s.takeUnits g1).setGang g1).touchPieces g1).recPut g1 [4]
  else
    ((s.gangThreads g).foldl (fun s t => s.releaseMember t) s).setGang { g with since := s.tick }

/-- R198: the members' GANG.FORM and GANG.JOIN complete. -/
def State.completeForming (s : State) (g : Gang) : State :=
  (s.gangThreads g).foldl (fun s t =>
    match t.st, t.cond with
    | .waiting .gang, some (.gang _ reg k) => s.completeWait { t with gang := some g.id } [(reg, w64 k)]
    | _, _ => s.put { t with gang := some g.id }) s

/-- R198: a gang is convened; its placements are recorded, that of the record as the instruction that convenes it translated it
(R478). -/
def State.convene (s : State) (g : Gang) : State :=
  let g1 := { g with gstate := 2, ops := 0, arrived := [], shadow := resetShadow g.quad, active := resetShadow g.quad
                     first := true, since := s.tick, places := g.places.getD 0 none :: (s.gangPlaces g).drop 1 }
  let s1 := ((s.setGang g1).recPut g1 ([1, 3, 4] ++ upto 16 11)).completeForming g1
  s1.seatGang g1

/-- The smallest free member index for a position (R197). -/
def Gang.freeIndex (g : Gang) (pos : Nat) : Option Nat :=
  (upto 0 g.m).find? (fun k => !g.members.any (fun x => x.1 == k) && (!g.quad || k % 4 == pos))

/-- Put a member into a gang by index. -/
def Gang.add (g : Gang) (k : Nat) (i : Tid) : Gang := { g with members := Sparse.put g.members k i }

/-- A fault of a gang instruction (18 R400). -/
def gangFlt {α : Type} (c : Cause) (a : Nat) : Except Flt α := .error (.plain c (w64 a))

/-- R197: a joiner takes a member index, and writes the record as it translated it (R478); the join that completes the gang convenes
it. -/
def State.joinGang (s : State) (t : Thread) (g : Gang) (pa : Nat) (leaf : Option Word) (k reg : Nat) : State :=
  let g1 := { g.add k t.id with places := [leaf], pad := if leaf.isNone then some (pa - 8) else none }
  let s1 := ((s.put { t with cond := some (.gang g.id reg k) }).setGang g1).recPut g1 [1, 128 + k]
  if g1.members.length = g1.m then s1.convene g1 else s1

/-- Where the atomic of a join test finds word 0x008 of the record: it waits while the record's chunk is in copy (13 R303) or its place
waits, and faults where the place is no longer the domain's (10 R221, R233). -/
def State.joinPlace (s : State) (t : Thread) (id : GangId) (pa : Nat) (leaf : Option Word) : Except Stop Nat :=
  let fail := fun c => failAcc c id.record .atomic 0
  match leaf with
  | none =>
    let x := padSegment pa
    if (s.core x.1).zeroing.contains x.2 then .error .block
    else if s.spdom x.1 x.2 = id.sdom then .ok pa else fail .windowAccess
  | some e => match s.locOf (dieOf t.core) id.sdom (id.record + 8) e true with
    | .error _ => .error .block
    | .ok l =>
      if s.carveWaits l.spot then .error .block
      else if l.spot.inRange && s.carveAdmits id.sdom l.spot then .ok l.spot.pa else fail .placementRange

/-- A waiting joiner's test meets a poisoned word: its instruction ends with its destination empty, and the fault follows (18 R418). -/
def State.joinPoisoned (s : State) (t : Thread) (reg w : Nat) : State :=
  s.completeWait { t.clr reg with fills := t.fills ++ [{ regs := [(reg, 0)], flags := 0, float := false, req := none
                                                         bad := some (.poisonedData, .atomic, w64 w) }] } []

/-- R197: the test of a GANG.JOIN by a WAITING thread: it stays, takes an index, or faults. A gang that breaks takes no member: the
test is made again when the record has been written as zero (R214). The table has no row for GSTATE 3, nor for a GSTATE 1 that
software wrote where no gang forms: here gang-full and gang-record (log 80: DESIGN CHOICE). -/
def State.joinTest (s : State) (t : Thread) (id : GangId) (pa0 : Nat) (leaf : Option Word) (reg : Nat) : Except Flt State :=
  match s.joinPlace t id pa0 leaf with
  | .error (.fault f) => .error f
  | .error _ => .ok s
  | .ok pa =>
  let n := s.numAs t.id.sdom pa 8
  if (match s.gang id with | some g => g.breaking | none => false) then .ok s
  else match s.poisonedIn (pa - 8) 16 with
  | some w => .ok (s.joinPoisoned t reg (vaOfWord id.record (pa - 8) w))
  | none => match bits n 25 24 with
  | 0 => .ok s
  | 1 =>
    let leader := s.find { sdom := t.id.sdom, handle := bits (s.numAs t.id.sdom (pa - 8) 8) 46 0 }
    let waits : Bool := match leader with | some u => u.st == .waiting .gang && u.waitarg == w64 id.record | none => false
    match (if waits then s.gang id else none) with
    | none => gangFlt .gangRecord id.record
    | some g =>
      if !(g.gstate == 1) then gangFlt .gangRecord id.record
      else if (if g.quad then quadOf t.core else t.core) ≠ g.home then gangFlt .gangPlacement id.record
      else match g.freeIndex (quadPos t.core) with
        | none => gangFlt .gangFull id.record
        | some k => .ok (s.joinGang t g pa leaf k reg)
  | _ => gangFlt .gangFull id.record

/-- A WAITING joiner's test ends in a fault (R402): it holds no buffered store, so nothing drains. -/
def State.parkJoiner (s : State) (t : Thread) (f : Flt) : State :=
  let (s1, t1) := s.releaseSlot t
  (s1.put { t1 with st := .faulted, fcause := f.cause.code, cond := none, waitarg := 0, deadline := w64 (2 ^ 64 - 1) }).pushRec
    (dieOf t.core) (s.recOf t f false false t.iword)

/-- The items of a list in an order that a number names: every order has one. -/
def inOrder {α : Type} : Nat → Nat → List α → List α
  | 0, _, l => l
  | _, _, [] => []
  | _, _, [a] => [a]
  | k + 1, n, l => match l[n % l.length]? with
    | none => l
    | some a => a :: inOrder k (n / l.length) (removeNth (n % l.length) l)

/-- Whether a thread is armed on a record (R197). -/
def Thread.armed (t : Thread) : Bool :=
  t.st == .waiting .gang && (match t.cond with | some (.gangTest _ _ _ _) => true | _ => false)

/-- R197: the joiners armed on a record are tested again when word 0x008 has changed from 0; their tests reach the home in any order,
a free value. -/
def State.checkJoiners (s : State) : State :=
  let l := s.threads.filter Thread.armed
  (inOrder l.length (Config.free 81 s.draws) l).foldl (fun s u =>
    match s.find u.id with
    | none => s
    | some t => match t.st, t.cond with
      | .waiting .gang, some (.gangTest g pa leaf reg) => match s.joinTest t g pa leaf reg with
        | .ok s1 => s1
        | .error f => s.parkJoiner t f
      | _, _ => s) s

/-- R200: a gang dissolves, its members' buffered stores performed before: units freed, record zero, the members ordinary threads. -/
def State.dissolve (s : State) (g : Gang) : State :=
  let (s1, b) := (s.freeUnits g).gangWrites g 0 (g.recLines true)
  let s2 := s1.gangDropped g 0 b
  { s2 with
    gangs := s2.gangs.filter (fun x => x.id ≠ g.id)
    threads := s2.threads.map (fun t => if t.gang = some g.id then { t with gang := none } else t) }

/-- Ask for a resident gang to be saved after the operation in flight (R190). -/
def State.gangSaveReq (s : State) (g : Option GangId) : State :=
  match g with
  | none => s
  | some i => { s with gangs := s.gangs.map (fun x => if x.id = i then { x with saving := x.resident } else x) }

/-- R212: a member of a convened gang is parked: it is not counted in ARRIVED, and the gang is saved. -/
def State.gangParked (s : State) (t : Thread) : State :=
  match t.gang with
  | none => s
  | some i => State.gangSaveReq { s with gangs := s.gangs.map (fun x =>
      if x.id = i then { x with arrived := x.arrived.filter (fun a => some a.1 ≠ x.indexOf t.id) } else x) } (some i)

/-- R214: a member of a forming or convened gang is killed: the gang breaks. -/
def State.gangBreakReq (s : State) (t : Thread) : State :=
  { s with gangs := s.gangs.map (fun x => if (x.indexOf t.id).isSome then { x with breaking := true } else x) }

end Sys2Proof.Machine
end

