-- ==== Sys2Proof/Machine/Ops.lean ====
section
/-! DEFINITION. What instructions and steps share: raising a record and parking a thread (18 R400 to R402), boundaries (R411),
slots and charges (02 R43), the end of a wait (16 R360), the end of a thread (02 R35, 16 R359), performing writes
(15 R341, 16 R361). -/
namespace Sys2Proof.Machine

/-- take() of R357: the oldest message into a pair. -/
def Thread.takeMsg (t : Thread) : Thread × Word × Word :=
  let m := t.msgs.toList.getD (t.inhead % 4) { payload := 0, src := 0, tag := 0 }
  ({ t with inhead := (t.inhead + 1) % 4, incnt := t.incnt - 1 }, m.payload, w64 (m.tag % 2 ^ 16 * 2 ^ 48 + m.src))

/-- deadline(t) of R357: the time-stamp counter counts modulo 2^64 (17 R377). -/
def State.deadlineOf (s : State) (t : Word) : Word :=
  if 2 ^ 64 - 1 ≤ s.tick % 2 ^ 64 + t.toNat then w64 (2 ^ 64 - 1) else w64 (s.tick % 2 ^ 64 + t.toNat)

/-- The deadline of a waiting thread has passed (16 R360): it lies in the counter's round in which the wait began. -/
def State.deadlinePassed (s : State) (t : Thread) : Bool :=
  t.deadline != w64 (2 ^ 64 - 1) && decide (t.waitSince / 2 ^ 64 * 2 ^ 64 + t.deadline.toNat ≤ s.tick)

/-- A FILL.WAIT ends when PHASE, bit 63 of the counter word, is the phase wanted (17 R384). -/
def fillDone (word val : Word) : Bool := word.getLsbD 63 == val.getLsbD 0

/-- Whether a store writes the whole aligned word w. -/
def StoreEnt.whole (e : StoreEnt) (w : Nat) : Bool := decide (e.pa ≤ w) && decide (w + 8 ≤ e.pa + e.bytes.length)

/-- The address of the first poisoned word of an access that no store the thread sees covers whole (R418). -/
def State.viewPoison (s : State) (t : Thread) (va pa n : Nat) : Option Nat :=
  ((touchedWords pa n).find? (fun w => s.poison.contains w && !t.stores.any (·.whole w) &&
    !s.early.any (fun e => e.seenBy t && e.ent.whole w))).map (vaOfWord va pa)

/-! Binding the values of loads (12 R259). -/

/-- The registers that a load's bytes become (11 R240). -/
def LoadConv.regs (c : LoadConv) (bs : List Byte) : List (Nat × Word) :=
  match c with
  | .zero d => [(d, w64 (ofBytes bs))]
  | .sign d n => [(d, i64 (sval (ofBytes bs) (8 * n)))]
  | .pair r => [(r, w64 (ofBytes (bs.take 8))), (r + 1, w64 (ofBytes (bs.drop 8)))]

/-- Where the bytes of a load lie now: a page in transition is served where its record says (13 R303). -/
def State.srcPa (s : State) (t : Thread) (x : LoadSrc) : Nat :=
  match x.leaf with
  | none => x.pa
  | some e =>
    if Leaf.trans e then
      match s.locOf (dieOf t.core) t.id.sdom x.va e false with
      | .ok l => l.spot.pa
      | .error _ => x.pa
    else x.pa

/-- The n bytes at pa as a load of a thread returns them: of a live thread's context line (05 R123), or memory past its own buffered
stores. -/
def State.loadAt (s : State) (t : Thread) (pa n : Nat) : List Byte :=
  match s.lineAt pa with
  | some (u, i) => ((u.lineBytes i).drop (pa % 128)).take n
  | none => (upto pa n).map (s.viewByte t)

/-- The bytes of a load when its value is bound; of a pair on the host tier one half may have been performed before (11 R242). -/
def State.srcBytes (s : State) (t : Thread) (x : LoadSrc) : List Byte :=
  let pa := s.srcPa t x
  match x.half with
  | none => s.loadAt t pa x.n
  | some (0, bs) => bs ++ s.loadAt t (pa + 8) 8
  | some (_, bs) => s.loadAt t pa 8 ++ bs

/-- The first poisoned word that a load meets (18 R418): of memory past its own buffered stores, or of a context line that no context cache
holds. -/
def State.loadPoison (s : State) (t : Thread) (va pa n : Nat) : Option Nat :=
  match s.lineAt pa with
  | none => s.viewPoison t va pa n
  | some (u, i) =>
    if u.holdsSlot && (if i = 0 then u.ctl else decide (4 < i) || u.linesIn.contains i) then none
    else (s.poisonedIn pa n).map (vaOfWord va pa)

/-- A context-address load finds the page of a dropped frame absent when its value is due (05 R124, 18 R422). -/
def State.frameGone (s : State) (t : Thread) (x : LoadSrc) : Bool :=
  match x.leaf, s.find { sdom := t.id.sdom, handle := handleOf x.va } with
  | some e, some u => Leaf.cls e == 3 && u.placed.isNone &&
      (match s.walkTable (dieOf t.core) t.id.sdom x.va .load with
       | .error f => f.cause == .pageNotPresent
       | .ok _ => false)
  | _, _ => false

/-- Bind the value of a load (12 R259, R266): the stores that follow it in program order are not forwarded. A poisoned word leaves the
destination empty and ends in a class A fault (18 R418), as does the absent page of a frame (R422). -/
def State.bindFill (s : State) (t : Thread) (f : Fill) : Fill :=
  match f.src with
  | none => f
  | some x =>
    let u := { t with stores := t.stores.take f.pos }
    let pa := s.srcPa t x
    if s.frameGone t x then { f with src := none, bad := some (.pageNotPresent, x.kind, w64 x.va) }
    else match s.loadPoison u x.va pa x.n with
    | some w => { f with src := none, bad := some (.poisonedData, x.kind, w64 w) }
    | none => { f with src := none, regs := x.conv.regs (s.srcBytes u x) }

/-- The words of stores before their global point that a thread has read, once some of its loads are bound (12 R273). -/
def State.sawWith (s : State) (t : Thread) (l : List Fill) : List Nat :=
  if s.early.isEmpty then t.saw
  else (t.saw ++ l.flatMap (fun f => match f.src with | some x => touchedWords (s.srcPa t x) x.n | none => [])).eraseDups.filter
    (fun w => s.early.any (fun e => e.ent.pa == w))

/-- The thread with the values of its first k outstanding fills bound: loads enter the die order in program order (12 R266). -/
def State.bindUpTo (s : State) (t : Thread) (k : Nat) : Thread :=
  { t with fills := (t.fills.take k).map (s.bindFill t) ++ t.fills.drop k, saw := s.sawWith t (t.fills.take k) }

/-- The thread with the values of all its loads bound: a later access of it is performed now (12 R266). -/
def State.bindLoads (s : State) (t : Thread) : Thread := s.bindUpTo t t.fills.length

/-- The thread with the values bound of the loads that precede its oldest buffered store (12 R266). -/
def State.bindBefore (s : State) (t : Thread) : Thread :=
  { t with fills := t.fills.map (fun f => if f.pos = 0 then s.bindFill t f else f), saw := s.sawWith t (t.fills.filter (fun f => f.pos == 0)) }

/-- R361, R384: every waiting WAIT whose word, as the waiter's load returns it, differs from the expected value, or did within the step,
and every FILL.WAIT whose phase has changed, completes; R197: armed joins are tested. -/
def State.checkWatches (s0 : State) : State :=
  let s := s0.checkJoiners
  s.threads.foldl (fun s u =>
    match u.st, u.cond with
    | .waiting _, some (.watch pa val reg) =>
      match s.ended.find? (fun x => x.1 == u.id) with
      | some x => State.completeWait { s with ended := s.ended.filter (fun y => y.1 != u.id) } u [(reg, x.2)]
      | none =>
        let x := s.viewWord u pa
        if x ≠ val then s.completeWait u [(reg, x)] else s
    | .waiting _, some (.fill pa val reg) =>
      let x := s.viewWord u pa
      if fillDone x val then s.completeWait u [(reg, x)] else s
    | _, _ => s) s

/-- The aligned words that bytes at pa touch, with their bytes now (08 R183). -/
def State.wordsNow (s : State) (pa n : Nat) : List (Nat × List Byte) :=
  (touchedWords pa n).map (fun w => (w, (upto w 8).map s.rawByte))

/-- A write to a scratchpad whose words an operation in flight may read: the operation may yield the value it left (08 R183). -/
def State.noteOperand (s : State) (pa n : Nat) : State :=
  if physUnit pa < 32 then s
  else { s with gangs := s.gangs.map (fun g => match g.op with
    | some op => if g.cores.any (fun c => padUnit c == physUnit pa) then
        { g with op := some { op with seen := op.seen ++ s.wordsNow pa n } } else g
    | none => g) }

/-- A register line takes bytes (R123); a register written whole carries no poison mark any more, wherever its line is (18 R418). -/
def State.writeRegs (s : State) (u : Thread) (i pa : Nat) (bs : List Byte) : State :=
  (s.unpoison pa bs.length).put (u.storeRegs i (pa % 128) bs)

/-- Write bytes in a domain where they lie: into a live thread's registers when they are a context line (R123), into
memory otherwise (R230). A control line or handler line takes nothing. -/
def State.writeRaw (s : State) (d pa : Nat) (bs : List Byte) : State :=
  match s.lineAt pa with
  | some (u, i) => if i = 0 ∨ i = 5 then s else s.writeRegs u i pa bs
  | none => (s.writeAs d pa bs).noteOperand pa bs.length

/-- Perform a write at its place and at the other placement of a word in transition (R303), then end the waits it
satisfies (R361). -/
def State.perform (s : State) (d pa : Nat) (mirror : Option Nat) (bs : List Byte) : State :=
  let s1 := s.writeRaw d pa bs
  let s2 := match mirror with | some m => s1.writeAs d m bs | none => s1
  s2.checkWatches

/-! Writes of engine commands that are not visible yet (12 R279). -/

/-- A late write becomes visible. -/
def State.land (s : State) (x : Landing) : State := s.perform x.tid.sdom x.pa x.mirror x.bytes

/-- Whether a late write touches one of the aligned words of n bytes at pa. -/
def Landing.touches (x : Landing) (pa n : Nat) : Bool := meets (alignDown pa 8, pa + n - alignDown pa 8) (alignDown x.pa 8, 8)

/-- The late writes that a test picks become visible. -/
def State.landWhere (s : State) (p : Landing → Bool) : State :=
  let l := s.dies.flatMap (fun d => d.2.landing.filter p)
  if l.isEmpty then s
  else l.foldl State.land { s with dies := s.dies.map (fun d => (d.1, { d.2 with landing := d.2.landing.filter (fun x => !p x) })) }

/-- A thread's write of a word follows those of its completed commands to it (R279). -/
def State.landOwn (s : State) (i : Tid) (pa n : Nat) : State := s.landWhere (fun x => x.tid == i && x.touches pa n)

/-- Commands and late writes of a thread that is DONE keep its domain, and no longer its name (15 R343). -/
def State.orphanCmds (s : State) (i : Tid) : State :=
  { s with dies := s.dies.map (fun d => (d.1, { d.2 with
      engq := d.2.engq.map (fun c => if c.tid = i then { c with tid := { i with handle := 0 } } else c)
      landing := d.2.landing.map (fun x => if x.tid = i then { x with tid := { i with handle := 0 } } else x) })) }

/-- Whether the line holding a place is under recall (18 R419). -/
def State.recalling (s : State) (pa : Nat) : Bool := s.sharersLost.contains (pa / 128)

/-- Where a buffered store is performed now: the placement that serves its word (R303), with the old one until its re-striping ends
(R304); none while its chunk is being copied, or its line is under recall (18 R419). -/
def State.storePlace (s : State) (core : Nat) (d : Nat) (e : StoreEnt) : Option (Nat × Option Nat) :=
  match e.leaf with
  | none => if s.recalling e.pa then none else some (e.pa, none)
  | some l =>
    if Leaf.trans l then
      match s.locOf (dieOf core) d e.va l true with
      | .ok x => if s.recalling x.spot.pa then none else some (x.spot.pa, x.mirror)
      | .error _ => none
    else if s.recalling e.pa then none
    else some (e.pa, s.finishing (dieOf core) d e.va)

/-! Stores before their global point (12 R273). -/

/-- A store reaches its global point: it is performed for every agent, unless its place waits. -/
def State.landEarly (s : State) (x : Early) : State :=
  match s.storePlace x.core x.tid.sdom x.ent with
  | none => s
  | some (pa, m) => State.perform { s with early := s.early.erase x } x.tid.sdom pa m x.ent.bytes

/-- The geometry dies of such a store's word (12 R263). -/
def State.earlyDies (s : State) (x : Early) : Option Nat :=
  match x.ent.leaf with
  | some l => s.leafDies (dieOf x.core) x.tid.sdom x.ent.va l
  | none => some (2 ^ dieOf x.core)

/-- A store of a die that a scope covers has not reached its global point (12 R264, R265). -/
def State.earlyIn (s : State) (die : Nat) (q : Scope) : Bool :=
  q != .thread && s.early.any (fun x => dieOf x.core == die && covers q die (s.earlyDies x))

/-- Whether what the oldest buffered store of a thread comes after has reached its global point, as far as the release covers it
(11 R243, 12 R272). -/
def State.relDone (s : State) (t : Thread) : Bool :=
  match t.stores with
  | [] => true
  | e :: _ => e.rel.all (fun q => !s.earlyIn (dieOf t.core) q)

/-- The oldest buffered store of a thread may leave from now on (18 R420). -/
def Thread.leaves (t : Thread) (tick : Nat) : Thread :=
  { t with stores := match t.stores with | [] => [] | e :: l => { e with since := tick } :: l }

/-- The stores that a test picks reach their global point; a store that waited for one of them may leave from now on. -/
def State.landEarlyWhere (s : State) (p : Early → Bool) : State :=
  let l := s.early.filter p
  if l.isEmpty then s
  else
    let s1 := l.foldl State.landEarly s
    { s1 with threads := s1.threads.map (fun t => if !s.relDone t && s1.relDone t then t.leaves s.tick else t) }

/-- The stores of a die to the aligned words of n bytes at pa reach their global point. -/
def State.landWords (s : State) (die pa n : Nat) : State :=
  s.landEarlyWhere (fun x => dieOf x.core == die && meets (alignDown pa 8, pa + n - alignDown pa 8) (alignDown x.ent.pa 8, 8))

/-- The stores of a die reach their global point. -/
def State.landDie (s : State) (die : Nat) : State := s.landEarlyWhere (fun x => dieOf x.core == die)

/-! Requests across a link (18 R420). -/

/-- Whether a placement's home lies across a link from a core: on another die, or at the host. -/
def remote (core : Nat) (x : Spot) : Bool := x.die != dieOf core || physUnit x.pa == hostUnit

/-- The request that an access from a core to a spot makes, from a tick. -/
def reqTo (core : Nat) (k : AccKind) (va : Nat) (x : Spot) (since : Nat) : Option Req :=
  if remote core x then
    let host := physUnit x.pa == hostUnit
    some { kind := k, addr := w64 va, host := host, since := since, src := dieOf core, home := if host then 12 else x.die }
  else none

/-- The ticks within which a request is answered. -/
def State.bound (s : State) (host : Bool) : Nat := if host then s.hostto else s.reqto
/-- A request may be abandoned; past its bound, or while no route joins its units (19 R431, R439), it gets no reply. -/
def State.reqDue (s : State) (r : Req) : Bool := decide (r.since + s.bound r.host ≤ s.tick)
def State.reqLost (s : State) (r : Req) : Bool := decide (r.since + s.bound r.host < s.tick) || !s.linked r.src r.home

/-- The oldest store waits for an earlier load (ST.rel, FENCE.rel; 11 R243). -/
def Thread.barred (t : Thread) : Bool := t.fills.any (fun f => f.bar == some 0)

/-- The k-th outstanding fill of a thread is done with; a store that waited for it may leave from now on (18 R420). -/
def Thread.dropFill (t : Thread) (k tick : Nat) : Thread :=
  let u := { t with fills := removeNth k t.fills }
  if t.barred && !u.barred then u.leaves tick else u

/-- The request across a link of the oldest buffered store of a thread, once it may leave. -/
def State.storeReq (s : State) (t : Thread) : Option Req :=
  match t.stores with
  | [] => none
  | e :: _ => if t.barred || !s.relDone t then none else match e.leaf with
    | none => none
    | some l => match s.locOf (dieOf t.core) t.id.sdom e.va l true with
      | .ok x => reqTo t.core .store e.va x.spot e.since
      | .error _ => none

/-- Whether the oldest buffered store of a thread gets no reply now. -/
def State.storeLost (s : State) (t : Thread) : Bool := (s.storeReq t).any s.reqLost

/-- A pair store to the host tier, whose 8-byte halves are performed one after the other (11 R242). -/
def StoreEnt.hostPair (e : StoreEnt) : Bool := e.bytes.length == 16 && physUnit e.pa == hostUnit

/-- The half of a pair store from byte k. -/
def StoreEnt.half (e : StoreEnt) (k : Nat) : StoreEnt :=
  { e with va := e.va + k, pa := e.pa + k, bytes := (e.bytes.drop k).take 8 }

/-- The oldest entry leaves the store buffer: the next is the oldest from now on, and stands one place nearer to what it waits for. -/
def Thread.popStore (t : Thread) (tick : Nat) : Thread :=
  { t with
    stores := (match t.stores.tail with | [] => [] | e :: l => { e with since := tick } :: l)
    fills := t.fills.map (fun f => { f with bar := f.bar.map (· - 1), pos := f.pos - 1 }) }

/-- The late engine writes of a thread to the words of its oldest buffered store become visible (12 R279). -/
def State.landStore (s : State) (t : Thread) : State :=
  match t.stores with
  | [] => s
  | e :: _ => match s.storePlace t.core t.id.sdom e with
    | none => s
    | some (pa, _) => s.landOwn t.id pa e.bytes.length

/-- Whether a store of a thread that leaves its buffer may be seen by its die before its global point (12 R266, R273): a whole word of
the HBM, LPDDR, carve or host tier that is in no transition and no context line. -/
def State.maybeEarly (s : State) (t : Thread) (e : StoreEnt) (m : Option Nat) : Bool :=
  e.bytes.length == 8 && e.leaf.any (fun l => !Leaf.trans l) && m.isNone && decide (physUnit e.pa ≤ hostUnit) &&
  s.sameKey t.id.sdom e.pa && (s.lineAt e.pa).isNone

/-- The oldest entry leaves the store buffer: it enters the die order, and is performed for every agent, at once or, by a free value,
at a later global point (12 R266, R273). An earlier store of the die to its word is performed before. -/
def State.drainWith (s0 : State) (t0 : Thread) (later : Bool) : State :=
  let s1 := s0.landStore t0
  let s := match t0.stores with | e :: _ => s1.landWords (dieOf t0.core) e.pa e.bytes.length | [] => s1
  let t := s.bindBefore ((s.find t0.id).getD t0)
  match t.stores with
  | [] => s
  | e :: l =>
    if t.barred || !s.relDone t || s.storeLost t then s
    else match s.storePlace t.core t.id.sdom e with
    | none => s
    | some (pa, m) =>
      if e.hostPair then
        let k := 8 * (Config.free 82 s.draws % 2)
        (s.put { t with stores := e.half (8 - k) :: l }).perform t.id.sdom (pa + k) (m.map (· + k)) (e.half k).bytes
      else if later && s.maybeEarly t e m then
        let s2 := s.put (t.popStore s.tick)
        State.checkWatches { s2 with early := s2.early ++ [{ tid := t.id, core := t.core, ent := e }] }
      else (s.put (t.popStore s.tick)).perform t.id.sdom pa m e.bytes

/-- Drain the oldest entry of a thread's store buffer (R341), if its place is not held, no earlier load keeps it and what it comes after is
done (11 R243); of a pair on the host tier one half, in either order (11 R242). The loads that precede it are bound first (12 R266). -/
def State.drainOne (s : State) (t : Thread) : State := s.drainWith t (bit (Config.free 106 s.draws) 0)

/-- Perform the entries of a store buffer in order, and the stores of its die before them, for every agent (R269), as far as none is held. -/
def State.drainAll (s : State) (t : Thread) : State :=
  (upto 0 (2 * t.stores.length)).foldl (fun s _ => match s.find t.id with
    | some u => s.drainWith u false
    | none => s) ((s.put t).landDie (dieOf t.core))

/-- A buffered store of the thread is held: for a chunk in copy (13 R303), for an earlier load (11 R243), past its bound (18 R420), or
for a recall (R419), which a store of its die before its global point may wait for as well. -/
def State.stuck (s : State) (t : Thread) : Bool :=
  t.fills.any (fun f => match f.bar with | some k => decide (k < t.stores.length) | none => false) ||
  s.storeLost t || t.stores.any (fun e => (s.storePlace t.core t.id.sdom e).isNone) ||
  s.early.any (fun x => dieOf x.core == dieOf t.core && (s.storePlace x.core x.tid.sdom x.ent).isNone)

/-- A thread may leave its slot: nothing it issued is incomplete (R33), and its store buffer can drain (R269). -/
def State.mayLeave (s : State) (t : Thread) : Bool := t.pend.isNone && !s.stuck t

/-- Before a thread gives up its slot its store buffer drains (12 R269; `State.mayLeave` says that it can); then the slot and its charge
are released (R417). -/
def State.vacate (s : State) (t : Thread) : State × Thread :=
  let s1 := s.drainAll t
  s1.releaseSlot ((s1.find t.id).getD { t with stores := [] })

/-- A step mark leaves the step list that holds its handle, wherever its thread is by now (R415). -/
def State.unstep (s : State) (i : Tid) : State :=
  if s.cores.any (fun c => c.2.steps.contains i) then
    { s with cores := s.cores.map (fun c => (c.1, { c.2 with steps := c.2.steps.filter (· ≠ i) })) }
  else s

/-- Park a thread (R402): FAULTED, FCAUSE the code, the slot released, the record in the die's upcall queue, and its gang
parked (09 R212). A step mark is removed (R415). `own` says that a context fault is one on the thread's own frame, which for a handler
is an escalation (R406). -/
def State.park (s : State) (t : Thread) (f : Flt) (async ctx : Bool) (word : Nat) (own : Bool := true) : State :=
  let r0 := s.recOf t f async ctx word
  let r := if ctx && own && t.hnd then
      { r0 with cause := .regionFault, esc := true, detail := f.cause.code, addr := w64 t.region
                pool := some (t.home, t.region) }
    else r0
  let (s1, t1) := s.vacate t
  let t2 := { t1 with st := .faulted, fcause := f.cause.code, walk := none, pend := none, req := none, stepped := false,
                      cond := none, waitarg := 0, deadline := w64 (2 ^ 64 - 1) }
  let s2 := (s1.unstep t.id).put t2
  (s2.pushRec (dieOf t.core) r).gangParked t

/-- A thread becomes READY, starting w from 0 (R45). -/
def State.toReady (s : State) (t : Thread) : State :=
  let (s1, t1) := s.vacate t
  s1.put { t1 with st := .ready, readySince := s.tick, aged := 0, preempt := false, walk := none }

/-- Write a device value to a register of a thread, wherever its frame is (R34, R471). -/
def State.deviceReg (s : State) (i : Tid) (n : Nat) (v : Word) : State :=
  match s.find i with
  | none => s
  | some t => s.put (t.wr n v)

/-- The lowest-numbered enabled die. -/
def State.firstDie (s : State) : Nat := ((upto 0 8).find? s.dieOn).getD 0

/-- The die whose slice homes an address, or the lowest-numbered enabled die (17 R396). -/
def State.homeDie (s : State) (die home addr : Nat) : Nat :=
  match s.walkTable die home addr .walk with
  | .error _ => s.firstDie
  | .ok x => match s.locOf die home addr x.leaf true with
    | .ok l => l.spot.die
    | .error _ => s.firstDie

/-- Store a launch's status word at DONEADDR (R333), counting a store that cannot be performed in error counter 7. -/
def State.storeStatus (s : State) (die home addr idx status : Nat) : State :=
  if addr = 0 then s
  else match s.devDo { die := die, sdom := home, va := addr, act := .status (toBytes 8 ((idx * 256 + status) % 2 ^ 64)) } with
    | .ok s1 => s1.checkWatches
    | .error _ => s.countErr (s.homeDie die home addr) 7

/-- Add d to a field of n bytes at an offset of a queue's LQD (R329). -/
def State.lqdAdd (s : State) (q : QueueEnt) (off n : Nat) (d : Int) : State :=
  match s.devDo { die := 0, sdom := q.sdom, va := q.lqd + off, act := .add n d } with
  | .ok s1 => s1.checkWatches
  | .error _ => s

/-- Try a held write of the device again (13 R303). -/
def State.flushOne (s : State) (o : DevOp) : State :=
  if s.devHeld o then { s with devq := s.devq ++ [o] }
  else match s.devPerform o, o.act with
    | .ok s1, _ => s1
    | .error _, .status _ => s.countErr (s.homeDie o.die o.sdom o.va) 7
    | .error _, .count _ _ => { s with credq := s.credq.erase (pairKey o.die (s.devHome o), .device) }
    | .error _, _ => s

/-- The held writes of the device whose places wait no more are performed, in their order (13 R303). -/
def State.flushDev (s : State) : State :=
  if s.devq.isEmpty then s else s.devq.foldl State.flushOne { s with devq := [] }

/-- What follows every step at once: held writes of the device (13 R303), waits that a changed word ends (16 R361), and records that
waited for an entry (18 R403). -/
def State.settle (s : State) : State :=
  let s1 := s.flushDev.checkWatches.flushRecs
  if s1.ended.isEmpty then s1 else { s1 with ended := [] }

def State.queue (s : State) (q : Nat) : QueueEnt := Sparse.get QueueEnt.init s.queues q

/-- R335: a launch with no UNBORN thread and every thread DONE stores its status, leaves OPEN and the table. -/
def State.endLaunches (s : State) : State :=
  s.launches.foldl (fun s l =>
    if l.live = 0 ∧ (l.next = l.count ∨ l.cancelled) then
      let s1 := { s with launches := s.launches.filter (fun x : Launch => x.id ≠ l.id) }
      let s2 := s1.storeStatus 0 l.home l.doneaddr l.index (if l.cancelled then 2 else 1)
      s2.lqdAdd { QueueEnt.init with lqd := l.lqd, sdom := l.home } 0x28 1 (-1)
    else s) s

/-- A thread of a launch ended (R335). -/
def State.launchThreadDone (s : State) (l : Option (Nat × Nat)) : State :=
  match l with
  | none => s
  | some (id, _) =>
    let s1 := { s with launches := s.launches.map (fun x : Launch => if x.id = id then { x with live := x.live - 1 } else x) }
    s1.endLaunches

/-- Clear the pool bit of a handler that ended (R404). -/
def State.clearPool (s : State) (die : Nat) (p : Option (Nat × Nat × Nat)) : State :=
  match p with
  | none => s
  | some (home, rcb, k) =>
    match s.devDo { die := die, sdom := home, va := rcb + 0x58, act := .clear 8 k } with
    | .ok s1 => s1
    | .error _ => s

/-- Whether a queue with reservations accepts a request of a thread now (R339): an entry is reserved for it, or one is free and none
is reserved. -/
def Reserve.admits (r : Reserve) (used cap : Nat) (i : Tid) : Bool :=
  decide (used < cap) && (r.since.isEmpty || (r.list.take r.since.length).contains i)

/-- The list after a NACK (R339): the sender is appended when every entry is in use or reserved. -/
def Reserve.nacked (r : Reserve) (used cap : Nat) (i : Tid) : Reserve :=
  if decide (cap ≤ used + r.since.length) && !r.list.contains i && decide (r.list.length < 32) then { r with list := r.list ++ [i] }
  else r

/-- The k-th handle leaves the list, with its reservation if it has one. -/
def Reserve.drop (r : Reserve) (k : Nat) : Reserve := { list := removeNth k r.list, since := removeNth k r.since }

/-- The list after a request of a thread was accepted (R339). -/
def Reserve.accepted (r : Reserve) (i : Tid) : Reserve :=
  match r.list.findIdx? (· == i) with
  | some k => r.drop k
  | none => r

/-- An entry freed at a tick is reserved for the oldest listed handle that has none (R339). -/
def Reserve.freed (r : Reserve) (tick : Nat) : Reserve :=
  if r.since.length < r.list.length then { r with since := r.since ++ [tick] } else r

/-- The reservation of the k-th handle lapses, and the entry passes on (R339). -/
def Reserve.lapse (r : Reserve) (k tick : Nat) : Reserve := (r.drop k).freed tick

/-- A thread's handle leaves the list, its reservation lapsing (R339). -/
def Reserve.leave (r : Reserve) (i : Tid) (tick : Nat) : Reserve :=
  match r.list.findIdx? (· == i) with
  | some k => if k < r.since.length then r.lapse k tick else r.drop k
  | none => r

/-- Drop a thread's reservations (R339). -/
def State.dropReservations (s : State) (i : Tid) : State :=
  { s with
    cores := s.cores.map (fun x => (x.1, { x.2 with taskRes := x.2.taskRes.leave i s.tick }))
    dies := s.dies.map (fun x => (x.1, { x.2 with engRes := x.2.engRes.leave i s.tick })) }

/-- The class A faults of a thread that is DONE go to the log (R402): those queued, those its outstanding loads have met or meet, and,
when its requests across links end, their time-outs. -/
def State.logLast (s : State) (t : Thread) : State :=
  let rec' := fun c k a => s.recOf t { cause := c, addr := a, kind := k, detail := 0, fetch := false } true false 0
  let fills := t.fills.map (s.bindFill t)
  let s1 := (t.asyncs ++ fills.filterMap (fun f => f.bad.map (fun b => rec' b.1 b.2.1 b.2.2))).foldl State.logDone s
  let l := (fills.filter (fun f => f.bad.isNone)).filterMap (fun f => f.req.map (fun r => (rec' .requestTimeOut r.kind r.addr, r)))
  if l.isEmpty then s1 else { s1 with orphans := s1.orphans ++ l }

/-- R35, R113, R359: the thread is DONE. Its stores drain, its frame is written back with STATE 0 (or that write is held,
R471), its charges, reservations, pool bit, step mark and parked task entry (R355) are released, and its name names no live thread. -/
def State.makeDone (s : State) (t0 : Thread) : State :=
  let s0 := s.drainAll t0
  let t := { t0 with stores := [] }
  let die := dieOf t.core
  let (s1, t1) := s0.releaseSlot t
  let absent := let s' := s1.put t1; { s' with held := s'.held ++ [t1] }
  let s2 :=
    if t1.placed.isNone && s1.frameWaits die t.id then absent
    else match (s1.put t1).ensureFrame t1 with
    | .ok s' => match s'.find t.id with
      | some u => s'.writeBack u 0 0 t0.cached
      | none => s'
    | .error _ => absent
  let s2 := s2.unstep t.id
  let c := s2.core t.core
  let gone := c.taskq.filter (fun e => e.parked && e.handle == t.id.handle && e.sdom == t.id.sdom)
  let s3 := s2.setCore t.core { c with
    taskq := c.taskq.filter (fun e => !(e.parked && e.handle == t.id.handle && e.sdom == t.id.sdom))
    taskRes := gone.foldl (fun r _ => r.freed s.tick) c.taskRes }
  let s3 := s3.logLast t
  let s4 := s3.charge die t.home .ctx (-1) (s3.path die t.home t.region)
  let s5 := { s4 with
    threads := s4.threads.filter (fun u => u.id ≠ t.id)
    issue := s4.issue.filter (· ≠ t.id)
    resReserved := s4.resReserved.filter (fun x => x.2.2 ≠ t.id)
    deferrals := s4.deferrals.map (fun e : Deferral => if e.tid = some t.id then { e with tid := none } else e) }
  ((((s5.clearPool die t.pool).dropReservations t.id).orphanCmds t.id).launchThreadDone t.launch).checkWatches

/-- Put an arriving message into an inbox that has room (R340); a waiting RECV completes with it in the same update. -/
def State.deliver (s : State) (t : Thread) (m : Msg) : State :=
  let t1 := { t with
    msgs := t.msgs.setIfInBounds ((t.inhead + t.incnt) % 4) m
    incnt := t.incnt + 1 }
  match t.st, t.cond with
  | .waiting .recv, some (.recv pair) =>
    let (t2, p, q) := t1.takeMsg
    s.completeWait t2 [(2 * pair, p), (2 * pair + 1, q)]
  | _, _ => s.put t1

/-- The live thread a handle names for an issuer's domain (R350): none where the frame lies outside class CTX. -/
def State.named (s : State) (i : Tid) : Option Thread :=
  match s.find i with
  | none => none
  | some u => match s.walkTable (dieOf u.core) i.sdom (frameAddr i.handle) .load with
    | .ok x => if Leaf.cls x.leaf = 3 then some u else none
    | .error _ => some u

/-- Offer a held kill message (R367): placed, discarded, or still held. -/
def State.offerKill (s : State) (m : KillMsg) : State × Bool :=
  match s.named m.target with
  | none => (s, true)
  | some t => if t.incnt < 4 then (s.deliver t { payload := 0, src := m.src, tag := 0xFFFD }, true) else (s, false)

/-- A KILL whose message was placed or discarded completes with status 0 (R367). -/
def State.killCompletes (s : State) (issuer : Option Tid) : State :=
  match issuer.bind s.find with
  | none => s
  | some t => match t.pend with
    | some (.killHeld reg) => s.endWaitMove { (t.wr reg 0) with pc := t.pc + 4, pend := none }
    | _ => s

/-- The queued records of a killed thread are discarded (18 R422). -/
def State.dropRecords (s : State) (i : Tid) : State :=
  let keep := fun (r : Rec) => r.tid != some i || r.mcDom.isSome
  { s with dies := s.dies.map (fun d => (d.1, { d.2 with upq := d.2.upq.filter keep })), lateRecs := s.lateRecs.filter (fun x => keep x.2) }

/-- KILL takes effect (R367): the thread is DONE, its gang breaks (09 R214), queued class A records are discarded, and its
return message, if bit 63 of g1 is set, is offered and held while the inbox is full. -/
def State.killNow (s : State) (t : Thread) (issuer : Option Tid) : State :=
  let g1 := t.rd 1
  let s1 := ((s.gangBreakReq t).dropRecords t.id).makeDone { t with asyncs := [], killed := false }
  if bit g1.toNat 63 then
    let m : KillMsg := { target := { sdom := t.id.sdom, handle := wbits g1 46 0 }, src := t.id.handle, issuer := issuer }
    let (s2, settled) := s1.offerKill m
    if settled then s2.killCompletes issuer else { s2 with killMsgs := s2.killMsgs ++ [m] }
  else s1.killCompletes issuer

/-- The issuer of a KILL that waits for a thread to reach its boundary (R367). -/
def State.killer (s : State) (i : Tid) : Option Tid :=
  (s.threads.find? (fun u => match u.pend with | some (.kill h _) => h == i | _ => false)).map (·.id)

/-- After a KILL took effect its issuer waits only for the message (R367). -/
def State.killWaiting (s : State) (i : Option Tid) : State :=
  match i.bind s.find with
  | none => s
  | some t => match t.pend with
    | some (.kill _ reg) => s.put { t with pend := some (.killHeld reg) }
    | _ => s

/-- R411: what takes effect at a thread's boundary, in its order: nothing if it is DONE or FAULTED, or has an issued instruction
incomplete; KILL; the first class A
record; the step mark, with the word just executed. Suspension, eviction and YIELD follow as the PREEMPTION step. While a
buffered store of the thread is held the event waits (12 R269), and while the upcall queue is full a record of class A does (18 R403):
the next turn or drain of the thread meets it again. -/
def State.boundary (s : State) (i : Tid) (word : Nat) : State :=
  match s.find i with
  | none => s
  | some t =>
    if t.st = .faulted ∨ t.pend.isSome then s
    else if s.stuck t || (!t.killed && s.upqFull (dieOf t.core)) then
      if t.stepped && t.asyncs.isEmpty then
        (s.unstep i).put { t with stepped := false, asyncs := [s.recOf t (.plain .step 0) true false word] }
      else s
    else if t.killed then
      let k := s.killer i
      (s.killWaiting k).killNow t k
    else match t.asyncs with
      | r :: l =>
        let (s1, t1) := s.vacate { t with asyncs := l }
        (((s1.unstep i).put { t1 with st := .faulted, fcause := r.cause.code, walk := none, stepped := false, cond := none, waitarg := 0,
                                       deadline := w64 (2 ^ 64 - 1) }).pushRec (dieOf t.core) { r with pc := t.pc }).gangParked t
      | [] =>
        if t.stepped then s.park t (.plain .step 0) true false word
        else s

/-- Raise a class A fault for a thread (R402, R411): queued while an issued instruction is incomplete or the thread is
FAULTED, parking it at once otherwise; for a thread that is DONE it goes to the log (R402). -/
def State.raiseAsync (s : State) (i : Tid) (c : Cause) (k : AccKind) (detail : Nat) (a : Word) : State :=
  match s.find i with
  | none => s
  | some t =>
    let r := s.recOf t { cause := c, addr := a, kind := k, detail := detail, fetch := false } true false 0
    let t1 := { t with asyncs := t.asyncs ++ [r] }
    if t.st = .faulted ∨ t.pend.isSome then s.put t1 else (s.put t1).boundary i 0

end Sys2Proof.Machine
end

