-- ==== Sys2Proof/Machine/Operands.lean ====
section
/-! DEFINITION. Which registers each instruction names and reads (03 R64, 05 R117), when it is eligible (11 R243 and the rules
R32 names), and the frame every instruction word runs in: the outcomes of 18 R410 from order 3 on. -/
namespace Sys2Proof.Machine

/-- The second registers of a LD.acq.p or ST.rel.p pair. -/
def pairImplied (isPair : Bool) (d : Nat) : List Nat := if isPair then [d + 1] else []

/-- The argument group of SPAWN and CALLAT: read unless it is g0 (16 R353). -/
def argGroup (b : Nat) : List Nat := if b = 0 then [] else [4 * b, 4 * b + 1, 4 * b + 2, 4 * b + 3]

/-- The general registers an instruction names, in the order of R64: fields from the top down, then implied ones. -/
def namedRegs : Instr → List Nat
  | .add d a b _ => [d.toNat, a.toNat, b.toNat]
  | .sub d a b _ => [d.toNat, a.toNat, b.toNat]
  | .mul d a b _ => [d.toNat, a.toNat, b.toNat]
  | .mulhS d a b => [d.toNat, a.toNat, b.toNat]
  | .mulhN d a b => [d.toNat, a.toNat, b.toNat]
  | .divs d a b _ => [d.toNat, a.toNat, b.toNat]
  | .divn d a b _ => [d.toNat, a.toNat, b.toNat]
  | .rems d a b _ => [d.toNat, a.toNat, b.toNat]
  | .remn d a b _ => [d.toNat, a.toNat, b.toNat]
  | .and d a b => [d.toNat, a.toNat, b.toNat]
  | .or d a b => [d.toNat, a.toNat, b.toNat]
  | .xor d a b => [d.toNat, a.toNat, b.toNat]
  | .andn d a b => [d.toNat, a.toNat, b.toNat]
  | .orn d a b => [d.toNat, a.toNat, b.toNat]
  | .shl d a b _ => [d.toNat, a.toNat, b.toNat]
  | .shr d a b _ => [d.toNat, a.toNat, b.toNat]
  | .asr d a b _ => [d.toNat, a.toNat, b.toNat]
  | .rol d a b _ => [d.toNat, a.toNat, b.toNat]
  | .ror d a b _ => [d.toNat, a.toNat, b.toNat]
  | .minS d a b => [d.toNat, a.toNat, b.toNat]
  | .minN d a b => [d.toNat, a.toNat, b.toNat]
  | .maxS d a b => [d.toNat, a.toNat, b.toNat]
  | .maxN d a b => [d.toNat, a.toNat, b.toNat]
  | .clz d a _ => [d.toNat, a.toNat]
  | .popc d a _ => [d.toNat, a.toNat]
  | .brev d a => [d.toNat, a.toNat]
  | .leaX1 d a b => [d.toNat, a.toNat, b.toNat]
  | .leaX2 d a b => [d.toNat, a.toNat, b.toNat]
  | .leaX4 d a b => [d.toNat, a.toNat, b.toNat]
  | .leaX8 d a b => [d.toNat, a.toNat, b.toNat]
  | .mad d a b c => [d.toNat, a.toNat, b.toNat, c.toNat]
  | .sel d a b _ _ => [d.toNat, a.toNat, b.toNat]
  | .cmp _ a b _ _ => [a.toNat, b.toNat]
  | .cmpi _ _ a _ => [a.toNat]
  | .addi d a _ => [d.toNat, a.toNat]
  | .andi d a _ => [d.toNat, a.toNat]
  | .ori d a _ => [d.toNat, a.toNat]
  | .xori d a _ => [d.toNat, a.toNat]
  | .shli d a _ => [d.toNat, a.toNat]
  | .shri d a _ => [d.toNat, a.toNat]
  | .asri d a _ => [d.toNat, a.toNat]
  | .rori d a _ => [d.toNat, a.toNat]
  | .shliW d a _ => [d.toNat, a.toNat]
  | .shriW d a _ => [d.toNat, a.toNat]
  | .asriW d a _ => [d.toNat, a.toNat]
  | .roriW d a _ => [d.toNat, a.toNat]
  | .movi d _ => [d.toNat]
  | .movhi d _ _ => [d.toNat]
  | .bfxS d a _ _ => [d.toNat, a.toNat]
  | .bfxN d a _ _ => [d.toNat, a.toNat]
  | .bfi d a _ _ => [d.toNat, a.toNat]
  | .leaPc d _ => [d.toNat]
  | .br _ => []
  | .brp _ _ _ => []
  | .jmp _ => []
  | .call _ => []
  | .nop => []
  | .jmpr a => [a.toNat]
  | .callr a => [a.toNat]
  | .ret => []
  | .exit => []
  | .trap _ => []
  | .brk _ => []
  | .yield => []
  | .fadd d a b _ => [d.toNat, a.toNat, b.toNat]
  | .fsub d a b _ => [d.toNat, a.toNat, b.toNat]
  | .fmul d a b _ => [d.toNat, a.toNat, b.toNat]
  | .fdiv d a b _ => [d.toNat, a.toNat, b.toNat]
  | .fsqrt d a _ => [d.toNat, a.toNat]
  | .fmin d a b _ => [d.toNat, a.toNat, b.toNat]
  | .fmax d a b _ => [d.toNat, a.toNat, b.toNat]
  | .fabs d a _ => [d.toNat, a.toNat]
  | .fneg d a _ => [d.toNat, a.toNat]
  | .fcpys d a b _ => [d.toNat, a.toNat, b.toNat]
  | .fclass d a _ => [d.toNat, a.toNat]
  | .fcmpEq _ a b _ => [a.toNat, b.toNat]
  | .fcmpLt _ a b _ => [a.toNat, b.toNat]
  | .fcmpLe _ a b _ => [a.toNat, b.toNat]
  | .fcmpUn _ a b _ => [a.toNat, b.toNat]
  | .frcp d a => [d.toNat, a.toNat]
  | .frsq d a => [d.toNat, a.toNat]
  | .fexp2 d a => [d.toNat, a.toNat]
  | .flog2 d a => [d.toNat, a.toNat]
  | .fma _ d a b c => [d.toNat, a.toNat, b.toNat, c.toNat]
  | .fms _ d a b c => [d.toNat, a.toNat, b.toNat, c.toNat]
  | .fnma _ d a b c => [d.toNat, a.toNat, b.toNat, c.toNat]
  | .fnms _ d a b c => [d.toNat, a.toNat, b.toNat, c.toNat]
  | .padd d a b _ => [d.toNat, a.toNat, b.toNat]
  | .psub d a b _ => [d.toNat, a.toNat, b.toNat]
  | .pmul d a b _ => [d.toNat, a.toNat, b.toNat]
  | .pmin d a b _ => [d.toNat, a.toNat, b.toNat]
  | .pmax d a b _ => [d.toNat, a.toNat, b.toNat]
  | .pdot d a b _ => [d.toNat, a.toNat, b.toNat]
  | .pfma d a b c _ => [d.toNat, a.toNat, b.toNat, c.toNat]
  | .cvt d a _ _ _ _ => [d.toNat, a.toNat]
  | .mxpack d a b _ => [d.toNat, a.toNat, b.toNat, a.toNat + 1, a.toNat + 2, a.toNat + 3]
  | .mxunpack d a b _ => [d.toNat, a.toNat, b.toNat, d.toNat + 1, d.toNat + 2, d.toNat + 3]
  | .mxscale d a b _ => [d.toNat, a.toNat, b.toNat, a.toNat + 1, a.toNat + 2, a.toNat + 3]
  | .ldB d a _ => [d.toNat, a.toNat]
  | .ldH d a _ => [d.toNat, a.toNat]
  | .ldW d a _ => [d.toNat, a.toNat]
  | .ldD d a _ => [d.toNat, a.toNat]
  | .ldBS d a _ => [d.toNat, a.toNat]
  | .ldHS d a _ => [d.toNat, a.toNat]
  | .ldWS d a _ => [d.toNat, a.toNat]
  | .ldP d a _ => [2 * d.toNat, a.toNat, 2 * d.toNat + 1]
  | .stB v a _ => [v.toNat, a.toNat]
  | .stH v a _ => [v.toNat, a.toNat]
  | .stW v a _ => [v.toNat, a.toNat]
  | .stD v a _ => [v.toNat, a.toNat]
  | .stP v a _ => [2 * v.toNat, a.toNat, 2 * v.toNat + 1]
  | .ldAcq d a _ wd => [d.toNat, a.toNat] ++ pairImplied (decide (wd = .p)) d.toNat
  | .stRel v a _ wd => [v.toNat, a.toNat] ++ pairImplied (decide (wd = .p)) v.toNat
  | .ldfe d a _ => [d.toNat, a.toNat]
  | .ldfeK d a _ => [d.toNat, a.toNat]
  | .stfe v a _ => [v.toNat, a.toNat]
  | .stfeF v a _ => [v.toNat, a.toNat]
  | .pref a _ => [a.toNat]
  | .fence _ => []
  | .fenceAcq _ => []
  | .fenceRel _ => []
  | .atomAdd d a b _ _ => [d.toNat, a.toNat, b.toNat]
  | .atomAnd d a b _ _ => [d.toNat, a.toNat, b.toNat]
  | .atomOr d a b _ _ => [d.toNat, a.toNat, b.toNat]
  | .atomXor d a b _ _ => [d.toNat, a.toNat, b.toNat]
  | .atomMinS d a b _ _ => [d.toNat, a.toNat, b.toNat]
  | .atomMinN d a b _ _ => [d.toNat, a.toNat, b.toNat]
  | .atomMaxS d a b _ _ => [d.toNat, a.toNat, b.toNat]
  | .atomMaxN d a b _ _ => [d.toNat, a.toNat, b.toNat]
  | .atomSwap d a b _ _ => [d.toNat, a.toNat, b.toNat]
  | .atomFaddF32 d a b _ => [d.toNat, a.toNat, b.toNat]
  | .atomFaddF64 d a b _ => [d.toNat, a.toNat, b.toNat]
  | .atomFmaxF32 d a b _ => [d.toNat, a.toNat, b.toNat]
  | .casW d a b c _ => [d.toNat, a.toNat, b.toNat, c.toNat]
  | .casD d a b c _ => [d.toNat, a.toNat, b.toNat, c.toNat]
  | .gangForm d a b => [d.toNat, a.toNat, b.toNat]
  | .gangJoin d a => [d.toNat, a.toNat]
  | .gangLeave => []
  | .gangMma _ _ _ => []
  | .mxburst a => [a.toNat]
  | .mxwait => []
  | .accLd d _ b => [d.toNat, b.toNat]
  | .accSt v _ b => [v.toNat, b.toNat]
  | .accZero _ => []
  | .accScale _ b => [b.toNat]
  | .accCvt d _ b => [d.toNat, b.toNat]
  | .mxcfg a b => [a.toNat, b.toNat]
  | .cpy a b _ _ _ _ => [a.toNat, b.toNat]
  | .cpy2d a b _ _ _ _ => [a.toNat, b.toNat]
  | .deal a b _ _ _ _ => [a.toNat, b.toNat]
  | .rstr a b _ _ _ _ => [a.toNat, b.toNat]
  | .mred a b _ _ _ _ => [a.toNat, b.toNat]
  | .esync _ => []
  | .spawn d a b => [d.toNat, a.toNat] ++ (if b = 0 then [0] else argGroup b.toNat)
  | .callat d a b => [d.toNat, a.toNat] ++ (if b = 0 then [0] else argGroup b.toNat)
  | .send d a b => [d.toNat, a.toNat, b.toNat]
  | .recv d a => [2 * d.toNat, a.toNat, 2 * d.toNat + 1]
  | .wait d a b => [d.toNat, a.toNat, 2 * b.toNat, 2 * b.toNat + 1]
  | .wake d a => [d.toNat, a.toNat]
  | .migr a => [a.toNat]
  | .sleep a => [a.toNat]
  | .prio a => [a.toNat]
  | .resume d a => [d.toNat, a.toNat]
  | .kill d a => [d.toNat, a.toNat]
  | .thr d a => [d.toNat, a.toNat]
  | .fillInit d a b => [d.toNat, a.toNat, b.toNat]
  | .fillAdd d a b => [d.toNat, a.toNat, b.toNat]
  | .fillWait d a b => [d.toNat, a.toNat, 2 * b.toNat, 2 * b.toNat + 1]
  | .sbarArrive d a => [d.toNat, a.toNat]
  | .sbarWait _ a b => [a.toNat, b.toNat]
  | .tscr d => [2 * d.toNat, 2 * d.toNat + 1]
  | .xcnt d a => [d.toNat, a.toNat]
  | .pcnt d a b => [d.toNat, a.toNat, b.toNat]
  | .route d a b => [2 * d.toNat, a.toNat, b.toNat, 2 * d.toNat + 1]
  | .placeq d a => [2 * d.toNat, a.toNat, 2 * d.toNat + 1]
  | .tlbinv a b => [a.toNat, b.toNat]
  | .gtsync a => [a.toNat]
  | .csrr d _ => [d.toNat]
  | .csrw v _ => [v.toNat]
  | .csrs v _ => [v.toNat]
  | .csrc v _ => [v.toNat]
  | .upret a => [a.toNat]
  | .eret => []
  | .halt => []
  | .feat d a => [d.toNat, a.toNat]
  | .attest d a b => [d.toNat, a.toNat, b.toNat]
  | .dbgRd d a => [d.toNat, a.toNat]
  | .dbgWr a b => [a.toNat, b.toNat]
  | .dbgStep d a => [d.toNat, a.toNat]
  | .hnop _ => []
  | .hctx _ _ => []
  | .hfetch _ _ => []
  | .hintReserved _ _ => []
  | .phaseTurn _ => []
  | .registerFill _ _ => []
  | .registerLineArrival _ => []
  | .controlLineArrival _ => []
  | .walkEnd _ => []
  | .retCompletion _ => []
  | .feretryReissue _ => []
  | .storeBufferDrain _ => []
  | .waitDeadline _ => []
  | .instructionReply _ => []
  | .engineAcceptanceReply _ => []
  | .fullEmptyReply _ => []
  | .tlbinvCompletion _ => []
  | .gtsyncCompletion _ => []
  | .materialisation _ => []
  | .activation _ => []
  | .priorityAging _ => []
  | .preemption _ => []
  | .gangResolution _ => []
  | .matrixOperationCompletion _ => []
  | .rampUpEnd _ => []
  | .rampDownStart _ => []
  | .rampDownEnd _ => []
  | .gangSave _ => []
  | .gangReactivation _ => []
  | .gangBreak _ => []
  | .launchDoorbell _ => []
  | .launchTailNotice _ => []
  | .launchQueuePoll _ => []
  | .launchTake _ => []
  | .taskCreation _ => []
  | .reservationLapse _ => []
  | .killMessageRetry _ => []
  | .engineCommandStart _ => []
  | .engineCommandCompletion _ _ => []
  | .rstrChunkComplete _ _ => []
  | .rstrAbort _ _ => []
  | .carveChangeEnd _ => []
  | .carveUnitZeroingEnd _ _ => []
  | .segmentZeroingEnd _ _ => []
  | .equinoxEvaluation _ => []
  | .equinoxCopyCompletion _ _ _ => []
  | .sbarArrivalCount _ => []
  | .sbarEpisodeEndDelivery _ _ => []
  | .sbarDeadline _ => []
  | .tscTick => []
  | .upcallServe _ => []
  | .uncorrectableError _ _ => []
  | .correctedError _ => []
  | .flitCheckFailure _ => []
  | .sharersLostRecallEnd _ => []
  | .requestTimeout _ => []
  | .packageReset => []
  | .discovery => []
  | .linkTraining => []
  | .memoryTraining => []
  | .configuration => []
  | .release => []
  | .linkFailure _ => []
  | .linkRetrainEnd _ _ => []
  | .coreRetirement _ => []
  | .hostApertureRead _ _ _ => []
  | .hostApertureWrite _ _ _ => []
  | .managementWindowWrite _ => []
  | .cert _ => []
  | .takeown _ => []
  | .setfeat _ => []
  | .mkdom _ => []
  | .rmdom _ => []
  | .setroot _ => []
  | .setaper _ => []
  | .setqueue _ => []
  | .setedt _ => []
  | .setfdt _ => []
  | .setep _ => []
  | .setcarveTarget _ => []
  | .setcarveCarvedom _ => []
  | .setspdom _ => []
  | .setsoldom _ => []
  | .setgtbase _ => []
  | .setcoreoff _ => []
  | .setmgmtHalted _ => []
  | .setmgmtReqto _ => []
  | .setmgmtHostto _ => []
  | .setmgmtErrorCounter _ => []
  | .setmgmtHold _ => []
  | .mailboxUnknownCommand _ => []
  | .ethernetTailNotice _ => []
  | .ethernetPoll _ => []
  | .ethernetPut _ => []
  | .ethernetGet _ => []
  | .ethernetCompletion _ _ => []
  | .ethernetInboundAccess _ => []
  | .ethernetTransportTimeout _ => []
  | .rds _ => []
  | .rdx _ => []
  | .rdu _ => []
  | .wbl _ => []
  | .wrm _ => []
  | .atm _ => []
  | .feo _ => []
  | .inv _ => []
  | .rcl _ => []
  | .ctx _ => []
  | .thrPacket _ => []
  | .dmv _ => []
  | .invt _ => []
  | .hst _ => []
  | .mgt _ => []
  | .data _ => []
  | .ack _ => []
  | .nack _ => []
  | .defer _ => []
  | .old _ => []
  | .iack _ => []
  | .stat _ => []
  | .cack _ => []
  | .lazokelFlitRetry _ => []
  | .unassignedOpPacket _ => []

/-- The general registers an instruction reads, which must be full (R117), in the order of R64. The destination group of MXUNPACK is
not read, and is not checked (log 83: DEDUCED). -/
def readRegs : Instr → List Nat
  | .add _ a b _ => [a.toNat, b.toNat]
  | .sub _ a b _ => [a.toNat, b.toNat]
  | .mul _ a b _ => [a.toNat, b.toNat]
  | .mulhS _ a b => [a.toNat, b.toNat]
  | .mulhN _ a b => [a.toNat, b.toNat]
  | .divs _ a b _ => [a.toNat, b.toNat]
  | .divn _ a b _ => [a.toNat, b.toNat]
  | .rems _ a b _ => [a.toNat, b.toNat]
  | .remn _ a b _ => [a.toNat, b.toNat]
  | .and _ a b => [a.toNat, b.toNat]
  | .or _ a b => [a.toNat, b.toNat]
  | .xor _ a b => [a.toNat, b.toNat]
  | .andn _ a b => [a.toNat, b.toNat]
  | .orn _ a b => [a.toNat, b.toNat]
  | .shl _ a b _ => [a.toNat, b.toNat]
  | .shr _ a b _ => [a.toNat, b.toNat]
  | .asr _ a b _ => [a.toNat, b.toNat]
  | .rol _ a b _ => [a.toNat, b.toNat]
  | .ror _ a b _ => [a.toNat, b.toNat]
  | .minS _ a b => [a.toNat, b.toNat]
  | .minN _ a b => [a.toNat, b.toNat]
  | .maxS _ a b => [a.toNat, b.toNat]
  | .maxN _ a b => [a.toNat, b.toNat]
  | .clz _ a _ => [a.toNat]
  | .popc _ a _ => [a.toNat]
  | .brev _ a => [a.toNat]
  | .leaX1 _ a b => [a.toNat, b.toNat]
  | .leaX2 _ a b => [a.toNat, b.toNat]
  | .leaX4 _ a b => [a.toNat, b.toNat]
  | .leaX8 _ a b => [a.toNat, b.toNat]
  | .mad _ a b c => [a.toNat, b.toNat, c.toNat]
  | .sel _ a b _ _ => [a.toNat, b.toNat]
  | .cmp _ a b _ _ => [a.toNat, b.toNat]
  | .cmpi _ _ a _ => [a.toNat]
  | .addi _ a _ => [a.toNat]
  | .andi _ a _ => [a.toNat]
  | .ori _ a _ => [a.toNat]
  | .xori _ a _ => [a.toNat]
  | .shli _ a _ => [a.toNat]
  | .shri _ a _ => [a.toNat]
  | .asri _ a _ => [a.toNat]
  | .rori _ a _ => [a.toNat]
  | .shliW _ a _ => [a.toNat]
  | .shriW _ a _ => [a.toNat]
  | .asriW _ a _ => [a.toNat]
  | .roriW _ a _ => [a.toNat]
  | .movi _ _ => []
  | .movhi d _ _ => [d.toNat]
  | .bfxS _ a _ _ => [a.toNat]
  | .bfxN _ a _ _ => [a.toNat]
  | .bfi d a _ _ => [d.toNat, a.toNat]
  | .leaPc _ _ => []
  | .br _ => []
  | .brp _ _ _ => []
  | .jmp _ => []
  | .call _ => []
  | .nop => []
  | .jmpr a => [a.toNat]
  | .callr a => [a.toNat]
  | .ret => []
  | .exit => []
  | .trap _ => []
  | .brk _ => []
  | .yield => []
  | .fadd _ a b _ => [a.toNat, b.toNat]
  | .fsub _ a b _ => [a.toNat, b.toNat]
  | .fmul _ a b _ => [a.toNat, b.toNat]
  | .fdiv _ a b _ => [a.toNat, b.toNat]
  | .fsqrt _ a _ => [a.toNat]
  | .fmin _ a b _ => [a.toNat, b.toNat]
  | .fmax _ a b _ => [a.toNat, b.toNat]
  | .fabs _ a _ => [a.toNat]
  | .fneg _ a _ => [a.toNat]
  | .fcpys _ a b _ => [a.toNat, b.toNat]
  | .fclass _ a _ => [a.toNat]
  | .fcmpEq _ a b _ => [a.toNat, b.toNat]
  | .fcmpLt _ a b _ => [a.toNat, b.toNat]
  | .fcmpLe _ a b _ => [a.toNat, b.toNat]
  | .fcmpUn _ a b _ => [a.toNat, b.toNat]
  | .frcp _ a => [a.toNat]
  | .frsq _ a => [a.toNat]
  | .fexp2 _ a => [a.toNat]
  | .flog2 _ a => [a.toNat]
  | .fma _ _ a b c => [a.toNat, b.toNat, c.toNat]
  | .fms _ _ a b c => [a.toNat, b.toNat, c.toNat]
  | .fnma _ _ a b c => [a.toNat, b.toNat, c.toNat]
  | .fnms _ _ a b c => [a.toNat, b.toNat, c.toNat]
  | .padd _ a b _ => [a.toNat, b.toNat]
  | .psub _ a b _ => [a.toNat, b.toNat]
  | .pmul _ a b _ => [a.toNat, b.toNat]
  | .pmin _ a b _ => [a.toNat, b.toNat]
  | .pmax _ a b _ => [a.toNat, b.toNat]
  | .pdot d a b _ => [d.toNat, a.toNat, b.toNat]
  | .pfma _ a b c _ => [a.toNat, b.toNat, c.toNat]
  | .cvt _ a _ _ _ _ => [a.toNat]
  | .mxpack _ a b _ => [a.toNat, b.toNat, a.toNat + 1, a.toNat + 2, a.toNat + 3]
  | .mxunpack _ a b _ => [a.toNat, b.toNat]
  | .mxscale _ a b _ => [a.toNat, b.toNat, a.toNat + 1, a.toNat + 2, a.toNat + 3]
  | .ldB _ a _ => [a.toNat]
  | .ldH _ a _ => [a.toNat]
  | .ldW _ a _ => [a.toNat]
  | .ldD _ a _ => [a.toNat]
  | .ldBS _ a _ => [a.toNat]
  | .ldHS _ a _ => [a.toNat]
  | .ldWS _ a _ => [a.toNat]
  | .ldP _ a _ => [a.toNat]
  | .stB v a _ => [v.toNat, a.toNat]
  | .stH v a _ => [v.toNat, a.toNat]
  | .stW v a _ => [v.toNat, a.toNat]
  | .stD v a _ => [v.toNat, a.toNat]
  | .stP v a _ => [2 * v.toNat, a.toNat, 2 * v.toNat + 1]
  | .ldAcq _ a _ _ => [a.toNat]
  | .stRel v a _ wd => [v.toNat, a.toNat] ++ pairImplied (decide (wd = .p)) v.toNat
  | .ldfe _ a _ => [a.toNat]
  | .ldfeK _ a _ => [a.toNat]
  | .stfe v a _ => [v.toNat, a.toNat]
  | .stfeF v a _ => [v.toNat, a.toNat]
  | .pref a _ => [a.toNat]
  | .fence _ => []
  | .fenceAcq _ => []
  | .fenceRel _ => []
  | .atomAdd _ a b _ _ => [a.toNat, b.toNat]
  | .atomAnd _ a b _ _ => [a.toNat, b.toNat]
  | .atomOr _ a b _ _ => [a.toNat, b.toNat]
  | .atomXor _ a b _ _ => [a.toNat, b.toNat]
  | .atomMinS _ a b _ _ => [a.toNat, b.toNat]
  | .atomMinN _ a b _ _ => [a.toNat, b.toNat]
  | .atomMaxS _ a b _ _ => [a.toNat, b.toNat]
  | .atomMaxN _ a b _ _ => [a.toNat, b.toNat]
  | .atomSwap _ a b _ _ => [a.toNat, b.toNat]
  | .atomFaddF32 _ a b _ => [a.toNat, b.toNat]
  | .atomFaddF64 _ a b _ => [a.toNat, b.toNat]
  | .atomFmaxF32 _ a b _ => [a.toNat, b.toNat]
  | .casW _ a b c _ => [a.toNat, b.toNat, c.toNat]
  | .casD _ a b c _ => [a.toNat, b.toNat, c.toNat]
  | .gangForm _ a b => [a.toNat, b.toNat]
  | .gangJoin _ a => [a.toNat]
  | .gangLeave => []
  | .gangMma _ _ _ => []
  | .mxburst a => [a.toNat]
  | .mxwait => []
  | .accLd _ _ b => [b.toNat]
  | .accSt v _ b => [v.toNat, b.toNat]
  | .accZero _ => []
  | .accScale _ b => [b.toNat]
  | .accCvt _ _ b => [b.toNat]
  | .mxcfg a b => [a.toNat, b.toNat]
  | .cpy a b _ _ _ f => a.toNat :: (if f then [b.toNat] else [])
  | .cpy2d a b _ _ _ f => a.toNat :: (if f then [b.toNat] else [])
  | .deal a b _ _ _ f => a.toNat :: (if f then [b.toNat] else [])
  | .rstr a b _ _ _ f => a.toNat :: (if f then [b.toNat] else [])
  | .mred a b _ _ _ f => a.toNat :: (if f then [b.toNat] else [])
  | .esync _ => []
  | .spawn d a b => [d.toNat, a.toNat] ++ argGroup b.toNat
  | .callat d a b => [d.toNat, a.toNat] ++ argGroup b.toNat
  | .send _ a b => [a.toNat, b.toNat]
  | .recv _ a => [a.toNat]
  | .wait _ a b => [a.toNat, 2 * b.toNat, 2 * b.toNat + 1]
  | .wake _ a => [a.toNat]
  | .migr a => [a.toNat]
  | .sleep a => [a.toNat]
  | .prio a => [a.toNat]
  | .resume _ a => [a.toNat]
  | .kill _ a => [a.toNat]
  | .thr _ a => [a.toNat]
  | .fillInit _ a b => [a.toNat, b.toNat]
  | .fillAdd _ a b => [a.toNat, b.toNat]
  | .fillWait _ a b => [a.toNat, 2 * b.toNat, 2 * b.toNat + 1]
  | .sbarArrive _ a => [a.toNat]
  | .sbarWait _ a b => [a.toNat, b.toNat]
  | .tscr _ => []
  | .xcnt _ a => [a.toNat]
  | .pcnt _ a b => [a.toNat, b.toNat]
  | .route _ a b => [a.toNat, b.toNat]
  | .placeq _ a => [a.toNat]
  | .tlbinv a b => [a.toNat, b.toNat]
  | .gtsync a => [a.toNat]
  | .csrr _ _ => []
  | .csrw v _ => [v.toNat]
  | .csrs v _ => [v.toNat]
  | .csrc v _ => [v.toNat]
  | .upret a => [a.toNat]
  | .eret => []
  | .halt => []
  | .feat _ a => [a.toNat]
  | .attest _ a b => [a.toNat, b.toNat]
  | .dbgRd _ a => [a.toNat]
  | .dbgWr a b => [a.toNat, b.toNat]
  | .dbgStep _ a => [a.toNat]
  | .hnop _ => []
  | .hctx _ _ => []
  | .hfetch _ _ => []
  | .hintReserved _ _ => []
  | .phaseTurn _ => []
  | .registerFill _ _ => []
  | .registerLineArrival _ => []
  | .controlLineArrival _ => []
  | .walkEnd _ => []
  | .retCompletion _ => []
  | .feretryReissue _ => []
  | .storeBufferDrain _ => []
  | .waitDeadline _ => []
  | .instructionReply _ => []
  | .engineAcceptanceReply _ => []
  | .fullEmptyReply _ => []
  | .tlbinvCompletion _ => []
  | .gtsyncCompletion _ => []
  | .materialisation _ => []
  | .activation _ => []
  | .priorityAging _ => []
  | .preemption _ => []
  | .gangResolution _ => []
  | .matrixOperationCompletion _ => []
  | .rampUpEnd _ => []
  | .rampDownStart _ => []
  | .rampDownEnd _ => []
  | .gangSave _ => []
  | .gangReactivation _ => []
  | .gangBreak _ => []
  | .launchDoorbell _ => []
  | .launchTailNotice _ => []
  | .launchQueuePoll _ => []
  | .launchTake _ => []
  | .taskCreation _ => []
  | .reservationLapse _ => []
  | .killMessageRetry _ => []
  | .engineCommandStart _ => []
  | .engineCommandCompletion _ _ => []
  | .rstrChunkComplete _ _ => []
  | .rstrAbort _ _ => []
  | .carveChangeEnd _ => []
  | .carveUnitZeroingEnd _ _ => []
  | .segmentZeroingEnd _ _ => []
  | .equinoxEvaluation _ => []
  | .equinoxCopyCompletion _ _ _ => []
  | .sbarArrivalCount _ => []
  | .sbarEpisodeEndDelivery _ _ => []
  | .sbarDeadline _ => []
  | .tscTick => []
  | .upcallServe _ => []
  | .uncorrectableError _ _ => []
  | .correctedError _ => []
  | .flitCheckFailure _ => []
  | .sharersLostRecallEnd _ => []
  | .requestTimeout _ => []
  | .packageReset => []
  | .discovery => []
  | .linkTraining => []
  | .memoryTraining => []
  | .configuration => []
  | .release => []
  | .linkFailure _ => []
  | .linkRetrainEnd _ _ => []
  | .coreRetirement _ => []
  | .hostApertureRead _ _ _ => []
  | .hostApertureWrite _ _ _ => []
  | .managementWindowWrite _ => []
  | .cert _ => []
  | .takeown _ => []
  | .setfeat _ => []
  | .mkdom _ => []
  | .rmdom _ => []
  | .setroot _ => []
  | .setaper _ => []
  | .setqueue _ => []
  | .setedt _ => []
  | .setfdt _ => []
  | .setep _ => []
  | .setcarveTarget _ => []
  | .setcarveCarvedom _ => []
  | .setspdom _ => []
  | .setsoldom _ => []
  | .setgtbase _ => []
  | .setcoreoff _ => []
  | .setmgmtHalted _ => []
  | .setmgmtReqto _ => []
  | .setmgmtHostto _ => []
  | .setmgmtErrorCounter _ => []
  | .setmgmtHold _ => []
  | .mailboxUnknownCommand _ => []
  | .ethernetTailNotice _ => []
  | .ethernetPoll _ => []
  | .ethernetPut _ => []
  | .ethernetGet _ => []
  | .ethernetCompletion _ _ => []
  | .ethernetInboundAccess _ => []
  | .ethernetTransportTimeout _ => []
  | .rds _ => []
  | .rdx _ => []
  | .rdu _ => []
  | .wbl _ => []
  | .wrm _ => []
  | .atm _ => []
  | .feo _ => []
  | .inv _ => []
  | .rcl _ => []
  | .ctx _ => []
  | .thrPacket _ => []
  | .dmv _ => []
  | .invt _ => []
  | .hst _ => []
  | .mgt _ => []
  | .data _ => []
  | .ack _ => []
  | .nack _ => []
  | .defer _ => []
  | .old _ => []
  | .iack _ => []
  | .stat _ => []
  | .cack _ => []
  | .lazokelFlitRetry _ => []
  | .unassignedOpPacket _ => []

/-- When an instruction is eligible beyond R117 (11 R243 and the rules that R32 names). -/
inductive Elig where
  /-- always -/
  | free
  /-- a memory instruction: held while an acquiring access of the thread is outstanding (R244) -/
  | mem
  /-- a store: room in the store buffer (15 R341) as well -/
  | store
  /-- the store buffer is empty (ATOM.rlx, CAS.rlx; an engine command, 15 R343) -/
  | stores
  /-- the store buffer is empty and every earlier access is performed and visible within a scope, as far as it covers them (12 R265) -/
  | drained (q : Scope)
  /-- as `drained`, at the scope of the network that the word in g[a] names: PKG for the package combine, DIE for the others (12 R278) -/
  | barrier (a : Reg)
  /-- every earlier load has its value bound (FENCE.acq) -/
  | bound
  /-- no floating-point producer is outstanding (05 R118) -/
  | floats
  /-- no engine command of the thread is queued, and its commands' writes that the scope covers are visible (16 R375) -/
  | engines (q : Scope)
  /-- no empty-bit producer is outstanding and the store buffer is empty (17 R380) -/
  | quiet
  /-- EXIT: a release only where bit 63 of g1 says that it sends a message (16 R359) -/
  | exit
  /-- MXWAIT: no operation of the gang is in flight (09 R206) -/
  | lock
  /-- an accumulator access by the index word in g[b], of n elements or of those its TYPE gives: the tile is not locked (08 R186) -/
  | index (tile : Tile) (b : Reg) (n : Option Nat)
  deriving DecidableEq, Repr

/-- The condition of an atomic by its order (R243). -/
def atomElig (o : AtomOrder) : Elig :=
  match o with | .rlx => .stores | .die => .drained .die | .pkg => .drained .pkg | .sys => .drained .sys

/-- The condition of each instruction. -/
def elig : Instr → Elig
  | .add _ _ _ _ => .free
  | .sub _ _ _ _ => .free
  | .mul _ _ _ _ => .free
  | .mulhS _ _ _ => .free
  | .mulhN _ _ _ => .free
  | .divs _ _ _ _ => .free
  | .divn _ _ _ _ => .free
  | .rems _ _ _ _ => .free
  | .remn _ _ _ _ => .free
  | .and _ _ _ => .free
  | .or _ _ _ => .free
  | .xor _ _ _ => .free
  | .andn _ _ _ => .free
  | .orn _ _ _ => .free
  | .shl _ _ _ _ => .free
  | .shr _ _ _ _ => .free
  | .asr _ _ _ _ => .free
  | .rol _ _ _ _ => .free
  | .ror _ _ _ _ => .free
  | .minS _ _ _ => .free
  | .minN _ _ _ => .free
  | .maxS _ _ _ => .free
  | .maxN _ _ _ => .free
  | .clz _ _ _ => .free
  | .popc _ _ _ => .free
  | .brev _ _ => .free
  | .leaX1 _ _ _ => .free
  | .leaX2 _ _ _ => .free
  | .leaX4 _ _ _ => .free
  | .leaX8 _ _ _ => .free
  | .mad _ _ _ _ => .free
  | .sel _ _ _ _ _ => .free
  | .cmp _ _ _ _ _ => .free
  | .cmpi _ _ _ _ => .free
  | .addi _ _ _ => .free
  | .andi _ _ _ => .free
  | .ori _ _ _ => .free
  | .xori _ _ _ => .free
  | .shli _ _ _ => .free
  | .shri _ _ _ => .free
  | .asri _ _ _ => .free
  | .rori _ _ _ => .free
  | .shliW _ _ _ => .free
  | .shriW _ _ _ => .free
  | .asriW _ _ _ => .free
  | .roriW _ _ _ => .free
  | .movi _ _ => .free
  | .movhi _ _ _ => .free
  | .bfxS _ _ _ _ => .free
  | .bfxN _ _ _ _ => .free
  | .bfi _ _ _ _ => .free
  | .leaPc _ _ => .free
  | .br _ => .free
  | .brp _ _ _ => .free
  | .jmp _ => .free
  | .call _ => .store
  | .nop => .free
  | .jmpr _ => .free
  | .callr _ => .store
  | .ret => .mem
  | .exit => .exit
  | .trap _ => .free
  | .brk _ => .free
  | .yield => .free
  | .fadd _ _ _ _ => .free
  | .fsub _ _ _ _ => .free
  | .fmul _ _ _ _ => .free
  | .fdiv _ _ _ _ => .free
  | .fsqrt _ _ _ => .free
  | .fmin _ _ _ _ => .free
  | .fmax _ _ _ _ => .free
  | .fabs _ _ _ => .free
  | .fneg _ _ _ => .free
  | .fcpys _ _ _ _ => .free
  | .fclass _ _ _ => .free
  | .fcmpEq _ _ _ _ => .free
  | .fcmpLt _ _ _ _ => .free
  | .fcmpLe _ _ _ _ => .free
  | .fcmpUn _ _ _ _ => .free
  | .frcp _ _ => .free
  | .frsq _ _ => .free
  | .fexp2 _ _ => .free
  | .flog2 _ _ => .free
  | .fma _ _ _ _ _ => .free
  | .fms _ _ _ _ _ => .free
  | .fnma _ _ _ _ _ => .free
  | .fnms _ _ _ _ _ => .free
  | .padd _ _ _ _ => .free
  | .psub _ _ _ _ => .free
  | .pmul _ _ _ _ => .free
  | .pmin _ _ _ _ => .free
  | .pmax _ _ _ _ => .free
  | .pdot _ _ _ _ => .free
  | .pfma _ _ _ _ _ => .free
  | .cvt _ _ _ _ _ _ => .free
  | .mxpack _ _ _ _ => .free
  | .mxunpack _ _ _ _ => .free
  | .mxscale _ _ _ _ => .free
  | .ldB _ _ _ => .mem
  | .ldH _ _ _ => .mem
  | .ldW _ _ _ => .mem
  | .ldD _ _ _ => .mem
  | .ldBS _ _ _ => .mem
  | .ldHS _ _ _ => .mem
  | .ldWS _ _ _ => .mem
  | .ldP _ _ _ => .mem
  | .stB _ _ _ => .store
  | .stH _ _ _ => .store
  | .stW _ _ _ => .store
  | .stD _ _ _ => .store
  | .stP _ _ _ => .store
  | .ldAcq _ _ _ _ => .mem
  | .stRel _ _ _ _ => .store
  | .ldfe _ _ _ => .mem
  | .ldfeK _ _ _ => .mem
  | .stfe _ _ q => .drained q
  | .stfeF _ _ q => .drained q
  | .pref _ _ => .mem
  | .fence q => if q = .thread then .mem else .drained q
  | .fenceAcq s => if s = .thread then .mem else .bound
  | .fenceRel _ => .mem
  | .atomAdd _ _ _ _ o => atomElig o
  | .atomAnd _ _ _ _ o => atomElig o
  | .atomOr _ _ _ _ o => atomElig o
  | .atomXor _ _ _ _ o => atomElig o
  | .atomMinS _ _ _ _ o => atomElig o
  | .atomMinN _ _ _ _ o => atomElig o
  | .atomMaxS _ _ _ _ o => atomElig o
  | .atomMaxN _ _ _ _ o => atomElig o
  | .atomSwap _ _ _ _ o => atomElig o
  | .atomFaddF32 _ _ _ o => atomElig o
  | .atomFaddF64 _ _ _ o => atomElig o
  | .atomFmaxF32 _ _ _ o => atomElig o
  | .casW _ _ _ _ o => atomElig o
  | .casD _ _ _ _ o => atomElig o
  | .gangForm _ _ _ => .drained .pkg
  | .gangJoin _ _ => .drained .pkg
  | .gangLeave => .free
  | .gangMma _ _ _ => .free
  | .mxburst _ => .free
  | .mxwait => .lock
  | .accLd _ tile b => .index tile b (some 2)
  | .accSt _ tile b => .index tile b (some 2)
  | .accZero _ => .free
  | .accScale _ _ => .free
  | .accCvt _ tile b => .index tile b none
  | .mxcfg _ _ => .free
  | .cpy _ _ _ _ _ _ => .stores
  | .cpy2d _ _ _ _ _ _ => .stores
  | .deal _ _ _ _ _ _ => .stores
  | .rstr _ _ _ _ _ _ => .stores
  | .mred _ _ _ _ _ _ => .stores
  | .esync q => .engines q
  | .spawn _ _ _ => .drained .pkg
  | .callat _ _ _ => .drained .pkg
  | .send _ _ _ => .drained .pkg
  | .recv _ _ => .free
  | .wait _ _ _ => .free
  | .wake _ _ => .free
  | .migr _ => .free
  | .sleep _ => .free
  | .prio _ => .free
  | .resume _ _ => .drained .pkg
  | .kill _ _ => .drained .pkg
  | .thr _ _ => .free
  | .fillInit _ _ _ => .stores
  | .fillAdd _ _ _ => .drained .pkg
  | .fillWait _ _ _ => .free
  | .sbarArrive _ a => .barrier a
  | .sbarWait _ _ _ => .free
  | .tscr _ => .quiet
  | .xcnt _ _ => .free
  | .pcnt _ _ _ => .free
  | .route _ _ _ => .free
  | .placeq _ _ => .free
  | .tlbinv _ _ => .drained .pkg
  | .gtsync _ => .drained .pkg
  | .csrr _ c => if c = 0x007 ∨ c = 0x008 then .floats else .free
  | .csrw _ c => if c = 0x007 ∨ c = 0x008 then .floats else .free
  | .csrs _ c => if c = 0x007 ∨ c = 0x008 then .floats else .free
  | .csrc _ c => if c = 0x007 ∨ c = 0x008 then .floats else .free
  | .upret _ => .drained .pkg
  | .eret => .drained .pkg
  | .halt => .free
  | .feat _ _ => .free
  | .attest _ _ _ => .drained .pkg
  | .dbgRd _ _ => .free
  | .dbgWr _ _ => .free
  | .dbgStep _ _ => .free
  | .hnop _ => .free
  | .hctx _ _ => .free
  | .hfetch _ _ => .free
  | .hintReserved _ _ => .free
  | .phaseTurn _ => .free
  | .registerFill _ _ => .free
  | .registerLineArrival _ => .free
  | .controlLineArrival _ => .free
  | .walkEnd _ => .free
  | .retCompletion _ => .free
  | .feretryReissue _ => .free
  | .storeBufferDrain _ => .free
  | .waitDeadline _ => .free
  | .instructionReply _ => .free
  | .engineAcceptanceReply _ => .free
  | .fullEmptyReply _ => .free
  | .tlbinvCompletion _ => .free
  | .gtsyncCompletion _ => .free
  | .materialisation _ => .free
  | .activation _ => .free
  | .priorityAging _ => .free
  | .preemption _ => .free
  | .gangResolution _ => .free
  | .matrixOperationCompletion _ => .free
  | .rampUpEnd _ => .free
  | .rampDownStart _ => .free
  | .rampDownEnd _ => .free
  | .gangSave _ => .free
  | .gangReactivation _ => .free
  | .gangBreak _ => .free
  | .launchDoorbell _ => .free
  | .launchTailNotice _ => .free
  | .launchQueuePoll _ => .free
  | .launchTake _ => .free
  | .taskCreation _ => .free
  | .reservationLapse _ => .free
  | .killMessageRetry _ => .free
  | .engineCommandStart _ => .free
  | .engineCommandCompletion _ _ => .free
  | .rstrChunkComplete _ _ => .free
  | .rstrAbort _ _ => .free
  | .carveChangeEnd _ => .free
  | .carveUnitZeroingEnd _ _ => .free
  | .segmentZeroingEnd _ _ => .free
  | .equinoxEvaluation _ => .free
  | .equinoxCopyCompletion _ _ _ => .free
  | .sbarArrivalCount _ => .free
  | .sbarEpisodeEndDelivery _ _ => .free
  | .sbarDeadline _ => .free
  | .tscTick => .free
  | .upcallServe _ => .free
  | .uncorrectableError _ _ => .free
  | .correctedError _ => .free
  | .flitCheckFailure _ => .free
  | .sharersLostRecallEnd _ => .free
  | .requestTimeout _ => .free
  | .packageReset => .free
  | .discovery => .free
  | .linkTraining => .free
  | .memoryTraining => .free
  | .configuration => .free
  | .release => .free
  | .linkFailure _ => .free
  | .linkRetrainEnd _ _ => .free
  | .coreRetirement _ => .free
  | .hostApertureRead _ _ _ => .free
  | .hostApertureWrite _ _ _ => .free
  | .managementWindowWrite _ => .free
  | .cert _ => .free
  | .takeown _ => .free
  | .setfeat _ => .free
  | .mkdom _ => .free
  | .rmdom _ => .free
  | .setroot _ => .free
  | .setaper _ => .free
  | .setqueue _ => .free
  | .setedt _ => .free
  | .setfdt _ => .free
  | .setep _ => .free
  | .setcarveTarget _ => .free
  | .setcarveCarvedom _ => .free
  | .setspdom _ => .free
  | .setsoldom _ => .free
  | .setgtbase _ => .free
  | .setcoreoff _ => .free
  | .setmgmtHalted _ => .free
  | .setmgmtReqto _ => .free
  | .setmgmtHostto _ => .free
  | .setmgmtErrorCounter _ => .free
  | .setmgmtHold _ => .free
  | .mailboxUnknownCommand _ => .free
  | .ethernetTailNotice _ => .free
  | .ethernetPoll _ => .free
  | .ethernetPut _ => .free
  | .ethernetGet _ => .free
  | .ethernetCompletion _ _ => .free
  | .ethernetInboundAccess _ => .free
  | .ethernetTransportTimeout _ => .free
  | .rds _ => .free
  | .rdx _ => .free
  | .rdu _ => .free
  | .wbl _ => .free
  | .wrm _ => .free
  | .atm _ => .free
  | .feo _ => .free
  | .inv _ => .free
  | .rcl _ => .free
  | .ctx _ => .free
  | .thrPacket _ => .free
  | .dmv _ => .free
  | .invt _ => .free
  | .hst _ => .free
  | .mgt _ => .free
  | .data _ => .free
  | .ack _ => .free
  | .nack _ => .free
  | .defer _ => .free
  | .old _ => .free
  | .iack _ => .free
  | .stat _ => .free
  | .cack _ => .free
  | .lazokelFlitRetry _ => .free
  | .unassignedOpPacket _ => .free

/-- Words that a feature bit of FEATEN turns illegal (20 R456). -/
def featureOk (f : Word) : Instr → Bool
  | .gangMma q g sp => (!sp || f.getLsbD 1) && (!g || f.getLsbD 2) && (!q || f.getLsbD 3)
  | .cvt _ _ _ _ t u => f.getLsbD 4 || !((decide (6 ≤ t.code) && decide (t.code ≤ 8)) || (decide (6 ≤ u.code) && decide (u.code ≤ 8)))
  | .mxpack _ _ _ t | .mxunpack _ _ _ t | .mxscale _ _ _ t => f.getLsbD 4 || !(decide (6 ≤ t.code))
  | .rstr _ _ _ _ _ _ => f.getLsbD 6
  | .route _ _ _ | .xcnt _ _ => f.getLsbD 7
  | .ldfe _ _ _ | .ldfeK _ _ _ | .stfe _ _ _ | .stfeF _ _ _ => f.getLsbD 8
  | _ => true

/-- Transfers, whose successor is not PC + 4 (06 R140). A BRP that is not taken is judged by its meaning. -/
def isTransfer : Instr → Bool
  | .br _ | .brp _ _ _ | .jmp _ | .call _ | .jmpr _ | .callr _ | .ret => true
  | _ => false

/-- Whether PC is the last word of a canonical half (R140). -/
def lastWord (pc : Word) : Bool := pc == 0x00FFFFFFFFFFFFFC || pc == 0xFFFFFFFFFFFFFFFC

/-- An acquiring access of the thread is outstanding (R244): one whose value is not bound, or a deferred LDFE. -/
def State.acquiring (s : State) (t : Thread) : Bool :=
  t.fills.any (·.acq) || s.deferrals.any (fun e => e.tid == some t.id)
/-- A load, atomic or full/empty access of the thread has not its value bound (12 R259). -/
def Thread.loading (t : Thread) : Bool := t.fills.any (·.mem)
/-- Entries of a core's store buffer (R341). -/
def State.coreStores (s : State) (c : Nat) : Nat :=
  (s.threads.filter (fun t => t.core == c)).foldl (fun n t => n + t.stores.length) 0
/-- Engine commands a thread has in the queues of the package (16 R375). -/
def State.queuedCmds (s : State) (i : Tid) : Bool :=
  s.dies.any (fun d => d.2.engq.any (fun c => c.tid == i && c.eq.isNone))
/-- Whether a write of a completed command of a thread that a scope covers is not visible yet (12 R279). -/
def State.landingIn (s : State) (i : Tid) (die : Nat) (q : Scope) : Bool :=
  s.dies.any (fun d => d.2.landing.any (fun x => x.tid == i && covers q die x.dies))
/-- An outstanding access of a thread that a scope covers has no value yet (12 R264, R265). -/
def State.awaits (s : State) (t : Thread) (q : Scope) (f : Fill) : Bool :=
  f.mem && (match f.src with
    | none => true
    | some x => covers q (dieOf t.core) (match x.leaf with
      | some e => s.leafDies (dieOf t.core) t.id.sdom x.va e
      | none => some (2 ^ dieOf (physUnit x.pa - 32))))

/-- The store buffer is empty, no acquiring access is outstanding, and every earlier access that the scope covers, and every store of the
die that it could have seen, is performed and visible within it (R243; 12 R265, R272). -/
def State.settledIn (s : State) (t : Thread) (q : Scope) : Bool :=
  !s.acquiring t && t.stores.isEmpty && !t.fills.any (s.awaits t q) && !s.earlyIn (dieOf t.core) q

/-- The convened gang of a thread (09 R195). -/
def State.myGang (s : State) (t : Thread) : Option Gang :=
  match t.gang.bind s.gang with
  | some g => if g.gstate = 2 then some g else none
  | none => none

/-- The element (I, J) an index word names, within its limits for n elements (09 R207); `cvt` admits TYPE, RM and SAT. -/
def indexOk (g : Gang) (w : Word) (n : Nat) (cvt : Bool) : Bool :=
  let side := if g.quad then 64 else 32
  decide (wbits w 5 0 < side) && wbits w 7 6 == 0 && decide (wbits w 13 8 < side) && wbits w 13 8 % n == 0 &&
  wbits w 15 14 == 0 && wbits w 63 24 == 0 &&
  (if cvt then decide (wbits w 22 20 ≤ 5) else wbits w 23 16 == 0)

/-- The core of the quadrant of an element (08 R185). -/
def Gang.elemCore (g : Gang) (w : Word) : Nat := g.cores.getD (wbits w 5 0 / 32 * 2 + wbits w 13 8 / 32) 0

/-- Whether a tile of a core is locked (08 R186). -/
def State.tileLocked (s : State) (core : Nat) (tile : Tile) : Bool := bit (s.core core).unit.lock tile.toNat

/-- The destination types of ACC.CVT, and how many elements each packs (09 R210). -/
def accType : Nat → Option (CvtType × Nat)
  | 2 => some (.bf16, 4) | 3 => some (.f16, 4) | 4 => some (.e4m3, 8) | 5 => some (.e5m2, 8) | 6 => some (.e3m2, 8)
  | 7 => some (.e2m3, 8) | 8 => some (.e2m1, 16) | 12 => some (.i8, 8) | 13 => some (.i4, 16) | _ => none

/-- Whether an instruction stands before a lock (08 R186; 09 R206): MXWAIT while an operation is in flight, an accumulator access whose
index word is valid and whose tile is locked. -/
def State.lockHolds (s : State) (t : Thread) (e : Elig) : Bool :=
  match s.myGang t, e with
  | some g, .lock => g.op.isSome
  | some g, .index tile b n =>
    let w := t.rd b.toNat
    let ok := match n with
      | some k => indexOk g w k false
      | none => (match accType (wbits w 19 16) with | some (_, k) => indexOk g w k true | none => false)
    ok && s.tileLocked (g.elemCore w) tile
  | _, _ => false

/-- Whether an eligibility condition holds (R243). -/
def State.eligible (s : State) (t : Thread) : Elig → Bool
  | .free | .lock | .index _ _ _ => true
  | .mem => !s.acquiring t
  | .store => !s.acquiring t && decide (t.stores.length < 8) && decide (s.coreStores t.core < 128)
  | .stores => !s.acquiring t && t.stores.isEmpty
  | .drained q => s.settledIn t q
  | .barrier a => s.settledIn t (if wbits (t.rd a.toNat) 1 0 = 3 then .pkg else .die)
  | .bound => !s.acquiring t && !t.loading
  | .floats => !t.fills.any (·.float)
  | .engines q => !s.acquiring t && !s.queuedCmds t.id && !s.landingIn t.id (dieOf t.core) q
  | .quiet => t.fills.isEmpty && t.stores.isEmpty && !s.acquiring t
  | .exit => !bit (t.rd 1).toNat 63 || s.settledIn t .pkg

/-- The register line that holds gn (05 R111). -/
def lineOf (n : Nat) : Nat := n / 16 + 1

/-- Orders 3 to 5 of R410 and the conditions that hold a thread BLOCKED before issue (R32): illegal by feature, register-range
(R64), an empty register (R117), eligibility, an absent register line, a lock (08 R186); then the bad target of an instruction at the
last word of a half (R140; log 9). -/
def State.gate (s : State) (t : Thread) (i : Instr) : Except Stop Unit :=
  if !featureOk s.featen i then failWith .illegal 0
  else match (namedRegs i).find? (fun n => decide (t.count ≤ n)) with
  | some n => .error (.fault { cause := .registerRange, addr := 0, kind := .none, detail := n, fetch := false })
  | none =>
    match (readRegs i).find? (fun n => !t.full n && t.emt.getLsbD n) with
    | some n => .error (.fault { cause := .emptyRegister, addr := 0, kind := .none, detail := n, fetch := false })
    | none =>
      if (readRegs i).any (fun n => !t.full n) then .error .block
      else if !s.eligible t (elig i) then .error .block
      else if (namedRegs i).any (fun n => n != 0 && !t.linesIn.contains (lineOf n)) then .error .line
      else if s.lockHolds t (elig i) then .error .lock
      else if lastWord t.pc && !isTransfer i then failWith .badTarget (t.pc + 4)
      else .ok ()

/-- What the request of a held instruction acts on (R53): a task queue, the inbox or frame of a thread, a command queue, a word. -/
def Thread.pendPlace (t : Thread) : Option (Nat × Nat × Nat) :=
  match t.pend with
  | some (.spawn core _) => some (0, core, 0)
  | some (.send h _ _ _) | some (.resume h _) | some (.kill h _) => some (1, h.sdom, h.handle)
  | some .exit => some (1, t.id.sdom, wbits (t.rd 1) 46 0)
  | some (.engine _) => some (2, dieOf t.core, 0)
  | some (.fe _ _ va _ _) => some (3, t.id.sdom, va / 8)
  | _ => none

/-- R53: of the requests of one issue group that act on one thing, those of lower slots take effect first. -/
def State.groupFirst (s : State) (t : Thread) : Bool :=
  match t.pendPlace with
  | none => true
  | some k => !s.threads.any (fun u => u.core == t.core && u.issuedAt == t.issuedAt && u.pendPlace == some k &&
      (match u.slot, t.slot with | some (p, i), some (q, j) => p == q && decide (i < j) | _, _ => false))

/-- The word of an instruction, as the record's WORD holds it (R401). -/
def wordOf (i : Instr) : Nat := (encodeNat i).getD 0

/-- A synchronous fault of a thread (R402). It waits while a buffered store of the thread is held (12 R269): the thread meets it again
at a later turn. -/
def State.parkWhenFree (s : State) (t : Thread) (f : Flt) (ctx : Bool) (word : Nat) : State :=
  if s.stuck t then s.put { t with st := .blocked .empty } else s.park t f false ctx word

/-- A thread that does not complete its instruction: it faults (R402), or is BLOCKED before issue for the reason given (R32). -/
def State.stopped (s : State) (t : Thread) (i : Instr) : Stop → State
  | .fault f => s.parkWhenFree t f false (wordOf i)
  | .block => s.put { t with st := .blocked .empty }
  | .walk w => s.put { t with st := .blocked .empty, walk := some w }
  | .line => (s.put { t with st := .blocked .line }).tally t.core (some t.id.sdom) 0x05 1
  | .lock => (s.put { t with st := .blocked .lock }).tally t.core (some t.id.sdom) 0x06 1
  | .credit r reg src home =>
    (s.put { t with st := .blocked .empty, pend := some (.atomic reg), iword := wordOf i
                    req := match t.req with | some x => some x | none => r }).awaitCredit src home (.thread t.id)

/-- What was walked for the instruction in progress of a thread (11 R239). -/
def State.freshOf (s : State) (t : Thread) : List Fresh := (s.core t.core).fresh.filter (fun f => f.tid == t.id)

/-- The frame every instruction word runs in: the executing thread, orders 3 to 5 of R410, then the instruction's own
effect `k`, which completes or stops; where it completes, what was walked for it is used (13 R307); then the boundary (R411). -/
def word (i : Instr) (s : State) (k : State → Thread → Except Stop State) : Host.Outcome State Fault Refusal :=
  match s.cur.bind s.find with
  | none => .fault .noIssuingThread
  | some t =>
    match s.gate t i with
    | .error e => .next (s.stopped t i e)
    | .ok _ => match k s t with
      | .error e => .next (s.stopped t i e)
      | .ok s' => .next ((s'.commitFresh t.core t.id (s.freshOf t)).boundary t.id (wordOf i))

/-- A step of another agent: a next state. -/
def event (s : State) : Host.Outcome State Fault Refusal := .next s

/-- Completion of an instruction that does not transfer control: PC := PC + 4 (R140), with the thread's new value. -/
def State.retire (s : State) (t : Thread) : State := s.put { t with pc := t.pc + 4 }

/-- Completion with a register written (R116). -/
def State.retireReg (s : State) (t : Thread) (d : Nat) (v : Word) : State := s.retire (t.wr d v)

/-- An empty-bit producer issues (R116): its destinations are emptied and the fill is outstanding (02 R34). -/
def Thread.produce (t : Thread) (f : Fill) : Thread :=
  { (f.regs.foldl (fun t x => t.clr x.1) t) with fills := t.fills ++ [f] }

/-- A fill of one register with no flags. -/
def regFill (d : Nat) (v : Word) : Fill := { regs := [(d, v)], flags := 0, float := false, req := none, bad := none }

/-- The fill of an instruction that met a poisoned word (18 R418): it writes nothing. -/
def badFill (regs : List Nat) (k : AccKind) (va : Nat) : Fill :=
  { regs := regs.map (fun r => (r, 0)), flags := 0, float := false, req := none, bad := some (.poisonedData, k, w64 va) }

/-- A next state that satisfies the frame of `word`: the thread executes and passes orders 3 to 5 of R410. -/
def CanIssue (s : State) (t : Thread) (i : Instr) : Prop := s.cur.bind s.find = some t ∧ s.gate t i = .ok ()

end Sys2Proof.Machine
end

