-- ==== Sys2Proof/Machine/Access.lean ====
section
/-! DEFINITION. How a thread's load, store and atomic reach bytes: data breakpoints (18 R412, R413), forwarding from the own
store buffer (11 R240), context lines of the own and of other threads (05 R122, R123, 10 R225), and entering the store
buffer (11 R241). -/
namespace Sys2Proof.Machine

/-- Word k of debug slot n of a core (R412). -/
def State.dbgWord (s : State) (core n k : Nat) : Nat := (Sparse.get 0 (s.core core).dbg (32 * n + 8 * k)).toNat

/-- EN, OWNER and HANDLE of a debug slot admit a thread (R412). -/
def State.slotFor (s : State) (t : Thread) (n : Nat) : Bool :=
  let w := s.dbgWord t.core n 1
  let h := bits (s.dbgWord t.core n 2) 46 0
  bit w 16 && bits w 15 0 == t.id.sdom && (h == 0 || h == t.id.handle)

/-- The data slot that holds for an access (R413); none for the instruction a step mark lets pass (R415). -/
def State.dataSlot (s : State) (t : Thread) (va n : Nat) (k : AccKind) : Option Nat :=
  if t.stepped then none
  else [4, 5].find? (fun x =>
    let w := s.dbgWord t.core x 1
    let lo := s.dbgWord t.core x 0
    let hi := lo + 8 * 2 ^ bits w 21 19
    let kind := bits w 18 17
    s.slotFor t x && decide (va < hi) && decide (lo < va + n) &&
    (match k with
     | .load => kind == 1 || kind == 3
     | .atomic => decide (1 ≤ kind)
     | _ => kind == 2 || kind == 3))

/-- The instruction slot that holds for a thread at its turn (R412). -/
def State.fetchSlot (s : State) (t : Thread) : Option Nat :=
  if t.stepped then none else [0, 1, 2, 3].find? (fun x => s.slotFor t x && s.dbgWord t.core x 0 == t.pc.toNat)

/-- Whether an access waits for a dropped frame that is to be loaded again, or for the held write of a finished thread: a line of it is
written still, or its place waits (05 R125, 22 R471; 13 R303). -/
def State.ctxWaits (s : State) (sdom va : Nat) (g : Target) : Bool :=
  match g.leaf? with
  | none => false
  | some l =>
    Leaf.cls l == 3 &&
    (let i : Tid := { sdom := sdom, handle := handleOf va }
     match s.find i with
     | some u => u.placed.isNone && s.frameWaits (dieOf u.core) i
     | none => match s.held.find? (fun u => u.id == i) with
       | some u => s.frameWaits (dieOf u.core) i
       | none => s.devq.any (fun o => o.sdom == sdom && o.va / 1024 == va / 1024))

/-- R239, then the data breakpoint (R410 order 6). -/
def State.reach (s : State) (t : Thread) (al : Nat) (a : Access) : Except Stop Target :=
  match s.access t.core t.id.sdom al a with
  | .error e => .error e
  | .ok g =>
    if s.ctxWaits t.id.sdom a.ea.toNat g then .error .block else
    match s.dataSlot t a.ea.toNat a.n a.kind with
    | some x => .error (.fault { cause := .breakpoint, addr := i64 a.ea, kind := a.kind, detail := x + 1, fetch := false })
    | none => .ok g

/-- A frame that TLBINV dropped, named by an address of class CTX, is loaded again before the access (R125), and the held
write of a finished thread is performed (22 R471). -/
def State.syncFrame (s : State) (sdom va : Nat) (g : Target) : State :=
  match g.leaf? with
  | none => s
  | some l =>
    if Leaf.cls l = 3 then
      match s.find { sdom := sdom, handle := handleOf va } with
      | some u => match s.ensureFrame u with
        | .ok s' => s'
        | .error _ => s
      | none => s.settleHeld { sdom := sdom, handle := handleOf va }
    else s

/-- Registers of a line that an access of n bytes at offset k touches (R111). -/
def regsTouched (i k n : Nat) : List Nat :=
  ((upto 0 16).filter (fun w => decide (k < 8 * w + 8) && decide (8 * w < k + n))).map (fun w => 16 * (i - 1) + w)

/-- What a load finds: it completes at issue with its bytes and a poisoned word (R240), or its value is bound later: where its bytes lie
now, under which leaf, and the spot when its home lies across a link (18 R420). -/
inductive Loaded where
  | here (bytes : List Byte) (bad : Option Nat)
  | away (pa : Nat) (leaf : Option Word) (spot : Option Spot)
  deriving DecidableEq, Repr

/-- The request across a link of an access to a spot (18 R420). -/
def State.reqOf (s : State) (core : Nat) (k : AccKind) (va : Nat) (x : Spot) : Option Req :=
  reqTo core k va x s.tick

/-- Where the bytes of a load are (R240, R122, R123). A load of an own empty register is an instruction that reads it (R117). -/
def State.loadBytes (s : State) (t : Thread) (va : Nat) (g : Target) (n : Nat) : Except Stop Loaded :=
  match g with
  | .pad c off =>
    let pa := physAddr (padUnit c) off
    if c = t.core then .ok (.here ((upto pa n).map (s.viewByte t)) (s.viewPoison t va pa n)) else .ok (.away pa none none)
  | .mem l =>
    match s.lineAt l.spot.pa with
    | some (u, i) =>
      let k := l.spot.pa % 128
      if u.id = t.id then
        if i = 0 then
          if t.fills.any (·.float) then .error .block
          else .ok (.here (((t.lineBytes 0).drop k).take n) none)
        else
          let regs := if i = 5 then [] else regsTouched i k n
          match regs.find? (fun r => !t.full r && t.emt.getLsbD r) with
          | some r => .error (.fault { cause := .emptyRegister, addr := 0, kind := .none, detail := r, fetch := false })
          | none =>
            if regs.any (fun r => !t.full r) then .error .block
            else .ok (.here (((t.lineBytes i).drop k).take n) none)
      else .ok (.away l.spot.pa (some l.leaf) (some l.spot))
    | none => .ok (.away l.spot.pa (some l.leaf) (some l.spot))

/-- The bytes that a load finds if it is performed now, with a poisoned word (R246, R361, 10 R225). -/
def State.bytesNow (s : State) (t : Thread) (va n : Nat) : Loaded → List Byte × Option Nat
  | .here bs bad => (bs, bad)
  | .away pa _ _ => (s.loadAt t pa n, s.loadPoison t va pa n)

/-- The request across a link that a load makes (18 R420). -/
def State.loadReq (s : State) (t : Thread) (k : AccKind) (va : Nat) : Loaded → Option Req
  | .here _ _ => none
  | .away _ _ spot => spot.bind (s.reqOf t.core k va)

/-- The fill of a load whose value is bound later (12 R259): its destinations are emptied now. -/
def State.loadFill (s : State) (t : Thread) (k : AccKind) (va n : Nat) (acq : Bool) (conv : LoadConv) (pa : Nat) (leaf : Option Word)
    (spot : Option Spot) : Fill :=
  { regs := conv.regs [], flags := 0, float := false, req := spot.bind (s.reqOf t.core k va), bad := none, mem := true, acq := acq
    src := some { va := va, pa := pa, n := n, leaf := leaf, conv := conv, kind := k, half := none }, pos := t.stores.length }

/-- Complete a load that brings register values: at once, or as an outstanding fill (R240, 02 R34). A poisoned word leaves
the destination empty and ends in a class A fault (18 R418). -/
def State.finishLoad (s : State) (t : Thread) (k : AccKind) (va n : Nat) (acq : Bool) (conv : LoadConv) (x : Loaded) : State :=
  match x with
  | .here bs none => s.retire ((conv.regs bs).foldl (fun t r => t.wr r.1 r.2) (s.bindLoads t))
  | .here _ (some w) =>
    s.retire ((s.bindLoads t).produce { regs := conv.regs [], flags := 0, float := false, req := none, mem := true, acq := acq
                                        bad := some (.poisonedData, k, w64 w) })
  | .away pa leaf spot => s.retire (t.produce (s.loadFill t k va n acq conv pa leaf spot))

/-- A store by a thread into a context line of a live thread (R122, R123): registers take their bytes and become full; a
control or handler line only from the handler of a FAULTED thread, the handler line taking no byte (R111). A store to its own control
line is held while a floating-point producer is outstanding (05 R118). A store to another's frame waits for an empty store
buffer (12 R268), and after a release for what comes before it (R243). -/
def State.storeCtx (s : State) (t u : Thread) (i pa : Nat) (va : Nat) (kd : AccKind) (bs : List Byte) : Except Stop State :=
  let k := pa % 128
  if u.id = t.id then
    if i = 0 ∧ t.fills.any (·.float) = true then .error .block
    else if i = 0 ∨ i = 5 then failAcc .controlLineWrite va kd 0
    else .ok (s.writeRegs (s.bindLoads t) i pa bs)
  else if (i = 0 ∨ i = 5) ∧ !(t.hnd && t.upv == u.id.handle && u.id.sdom == t.id.sdom && u.st == .faulted) then
    failAcc .controlLineWrite va kd 0
  else if t.stores ≠ [] ∨ t.barred ∨ t.fenced.any (s.earlyIn (dieOf t.core)) then .error .block
  else
    let s1 := s.put (s.bindLoads { t with fenced := [] })
    .ok (if i = 5 then s1
      else if i = 0 then s1.put (u.handlerStore (wordsOf (overlay (u.lineBytes 0) k bs) 16))
      else s1.writeRegs u i pa bs)

/-- Perform a store's effect at issue: into a context line, or into the store buffer (R241). The thread's PC is not moved. -/
def State.storeBytes (s : State) (t : Thread) (va : Nat) (g : Target) (kd : AccKind) (bs : List Byte) : Except Stop State :=
  match s.lineAt g.pa with
  | some (u, i) => s.storeCtx t u i g.pa va kd bs
  | none => .ok (s.put { t with stores := t.stores ++ [{ va := va, pa := g.pa, bytes := bs, leaf := g.leaf?
                                                         since := if t.stores = [] then s.tick else 0, rel := t.fenced }]
                                fenced := [] })

/-- Whether a place is a live thread's control line or handler line (05 R123, 10 R225). -/
def State.ctlLine (s : State) (pa : Nat) : Bool :=
  match s.lineAt pa with | some (_, i) => i == 0 || i == 5 | none => false

/-- The request across a link of an access to a target (18 R420). -/
def State.reqAt (s : State) (t : Thread) (g : Target) (k : AccKind) (va : Nat) : Option Req :=
  match g with
  | .pad _ _ => none
  | .mem l => s.reqOf t.core k va l.spot

/-- ST.rel and FENCE.rel (R243; 12 R264, R265): stores that enter the store buffer from now on drain only after the thread's earlier
loads, and after the stores of its die have reached their global points, as far as the scope covers them. -/
def State.release (s : State) (t : Thread) (q : Scope) : Thread :=
  { t with fills := t.fills.map (fun f => if s.awaits t q f && f.bar.isNone then { f with bar := some t.stores.length } else f)
           fenced := q :: t.fenced }

/-- The same thread in a later state. -/
def State.again (s : State) (t : Thread) : Thread := (s.find t.id).getD t

/-- A store instruction: checks, effect, completion (R239, R241). -/
def State.storeInstr (s : State) (t : Thread) (ea : Int) (al : Nat) (bs : List Byte) : Except Stop State :=
  match s.reach t al { ea := ea, n := bs.length, kind := .store, write := true } with
  | .error e => .error e
  | .ok g =>
    let s1 := s.syncFrame t.id.sdom ea.toNat g
    match s1.storeBytes (s1.again t) ea.toNat g .store bs with
    | .error e => .error e
    | .ok s2 => .ok (s2.retire (s2.again t))

/-- A load instruction: checks, bytes, completion (R239, R240); `acq` for an acquire (R244). -/
def State.loadInstr (s : State) (t : Thread) (ea : Int) (n : Nat) (acq : Bool) (conv : LoadConv) : Except Stop State :=
  match s.reach t n { ea := ea, n := n, kind := .load, write := false } with
  | .error e => .error e
  | .ok g =>
    let s1 := s.syncFrame t.id.sdom ea.toNat g
    let t1 := s1.again t
    match s1.loadBytes t1 ea.toNat g n with
    | .error e => .error e
    | .ok x => .ok (s1.finishLoad t1 .load ea.toNat n acq conv x)

/-- EA of an M form: g[a] read as unsigned plus the signed offset (10 R217). -/
def eaOf (t : Thread) (a : Reg) (o : BitVec 14) : Int := (t.rd a.toNat).toNat + o.toInt

end Sys2Proof.Machine
end

