-- ==== Sys2Proof/Machine/Fetch.lean ====
section
/-! DEFINITION. Fetching an instruction word (03 R59, R60, R66) and the outcomes before its execution: the bad target of a
resumed thread (05 R123), the fetch breakpoint, the fetch fault, the illegal instruction (18 R410). -/
namespace Sys2Proof.Machine

/-- A fault of a fetch (18 R401: FETCH set, KIND 0). -/
def fetchFault {α : Type} (c : Cause) (a : Word) : Except Stop α :=
  .error (.fault { cause := c, addr := a, kind := .none, detail := 0, fetch := true })

/-- R60: the word at a thread's PC under the leaf that maps it, or what stops the fetch. -/
def State.fetchAt (s : State) (t : Thread) (leaf : Word) : Except Stop Nat :=
  let va := t.pc.toNat
  if !Leaf.x leaf then fetchFault .permission t.pc
  else match s.locOf (dieOf t.core) t.id.sdom va leaf false with
    | .error _ => .error .block
    | .ok l =>
      if s.carveWaits l.spot then .error .block
      else if !(l.spot.inRange && s.carveAdmits t.id.sdom l.spot) then fetchFault .placementRange t.pc
      else match s.viewPoison { t with stores := [] } va l.spot.pa 4 with
        | some w => fetchFault .poisonedData (w64 w)
        | none => .ok (ofBytes (s.loadAt { t with stores := [] } l.spot.pa 4))

/-- R60: the word at a thread's PC, as a plain load of the fetching thread finds it, or what stops the fetch. -/
def State.fetchWord (s : State) (t : Thread) : Except Stop Nat :=
  let va := t.pc.toNat
  if !canonical va then fetchFault .nonCanonical t.pc
  else if inWindow va then fetchFault .windowAccess t.pc
  else match s.tlbFind t.core t.id.sdom va with
    | none => .error (.walk { va := va, kind := .none, write := false, fetch := true })
    | some e =>
      if Leaf.x e.leaf && !Leaf.a e.leaf then .error (.walk { va := va, kind := .none, write := false, fetch := true })
      else s.fetchAt t e.leaf

/-- The word at a thread's PC for a record of class S (18 R401), also where no fetch stands behind the fault: the word its page holds,
0 where a fetch would find none. -/
def State.peekWord (s : State) (t : Thread) : Nat :=
  let r := match s.fetchWord t with
    | .error (.walk w) => (match s.walkTable (dieOf t.core) t.id.sdom w.va .none with
        | .ok x => s.fetchAt t x.leaf
        | .error f => .error (.fault f))
    | x => x
  match r with
  | .ok w => w
  | .error _ => 0

/-- R123: a PC that a handler wrote and that no transfer could reach. -/
def badPc (pc : Word) : Bool := pc.toNat % 4 != 0 || !canonical pc.toNat

/-- The fault of R412. -/
def breakpointFault (pc : Word) (slot : Nat) : Flt :=
  { cause := .breakpoint, addr := pc, kind := .none, detail := slot + 1, fetch := false }

/-- A fetched word that no instruction decodes from parks the thread (R66); otherwise it is the instruction to execute. -/
def State.decodeFor (s : State) (t : Thread) (w : Nat) : Except State Instr :=
  match decodeWord w with
  | .error _ => .error (s.parkWhenFree t (.plain .illegal 0) false w)
  | .ok i => .ok i

/-- R410 orders 1 to 3 for a thread that issues: the state it leaves when one of them is its outcome, or the instruction it
executes. The group's word is fetched once (R59). -/
def State.beforeExec (s : State) (t : Thread) : Except State Instr :=
  if badPc t.pc then
    .error (s.parkWhenFree t { cause := .badTarget, addr := t.pc, kind := .none, detail := 0, fetch := true } false 0)
  else match s.fetchSlot t with
    | some n => .error (s.parkWhenFree t (breakpointFault t.pc n) false (s.peekWord t))
    | none =>
      match s.fetched with
      | some w => s.decodeFor t w
      | none => match s.fetchWord t with
        | .ok w => s.decodeFor t w
        | .error (.fault f) => .error (s.parkWhenFree t f false 0)
        | .error (.walk w) => .error (s.put { t with st := .blocked .empty, walk := some w })
        | .error _ => .error (s.put { t with st := .blocked .empty })

/-- What a thread's turn finds (02 R52, R410): it may issue (its outcome may be a fault), or it stands before issue for a
reason. A thread that would read an empty register whose EMT bit is 1 faults at the turn. -/
inductive TurnView where
  | mayIssue (w : Option Nat)
  | notYet
  | stops (x : Stop) (w : Nat)
  deriving DecidableEq, Repr

/-- R60: an own store to the line of the next instruction has not drained. -/
def State.ownStoreAhead (s : State) (t : Thread) : Bool :=
  match s.tlbFind t.core t.id.sdom t.pc.toNat with
  | none => false
  | some e => match s.locOf (dieOf t.core) t.id.sdom t.pc.toNat e.leaf false with
    | .error _ => false
    | .ok l => t.stores.any (fun x => decide (x.pa / 128 ≤ l.spot.pa / 128) &&
        decide (l.spot.pa / 128 ≤ (x.pa + x.bytes.length - 1) / 128))

/-- Evaluate a thread at its turn (R52). -/
def State.turnView (s : State) (t : Thread) : TurnView :=
  if badPc t.pc then .mayIssue none
  else if s.ownStoreAhead t then .notYet
  else if (s.fetchSlot t).isSome then .mayIssue none
  else match s.fetchWord t with
    | .error (.fault _) => .mayIssue none
    | .error x => .stops x 0
    | .ok w => match decodeWord w with
      | .error _ => .mayIssue (some w)
      | .ok i => match s.gate t i with
        | .ok _ => .mayIssue (some w)
        | .error (.fault f) => if f.cause = .emptyRegister then .stops (.fault f) w else .mayIssue (some w)
        | .error x => .stops x w

end Sys2Proof.Machine
end

