-- ==== Sys2Proof/Machine/Activate.lean ====
section
/-! DEFINITION. Slots: the activation unit (02 R43 to R50, R55), eviction and pre-emption (18 R417), region faults (R42), and
the steps ACTIVATION, PRIORITY_AGING, CONTROL_LINE_ARRIVAL and PREEMPTION. -/
namespace Sys2Proof.Machine

/-- Whether an RCB itself is valid (R42), whatever stands above its parent. -/
def State.rcbValid (s : State) (die home va : Nat) : Bool :=
  match s.rcb die home va with
  | none => false
  | some r => r.valid && (r.parent == 0 || (match s.rcb die home r.parent with
    | none => true
    | some p => r.depth == p.depth + 1))

/-- R42: the nearest valid ancestor of an invalid RCB that is reached through it (0: none). -/
def State.validAbove (s : State) (die home : Nat) : Nat → Nat → Nat
  | 0, _ => 0
  | k + 1, va => match s.rcb die home va with
    | none => 0
    | some r =>
      if r.parent = 0 then 0
      else if s.rcbValid die home r.parent then r.parent
      else s.validAbove die home k r.parent

/-- R42: an RCB found invalid for a region raises a region fault on a core, at most once per RCB and core in 100 us. -/
def State.regionFault (s : State) (core home bad : Nat) : State :=
  let c := s.core core
  if c.faultTimes.any (fun x => x.1 == bad && decide (s.tick < x.2 + 100000)) then s
  else
    let r : Rec := { cause := .regionFault, async := false, fetch := false, ctx := true, esc := false, kind := .none
                     detail := 0, tid := none, core := core, pc := 0, word := 0, addr := w64 bad, tick := s.tick
                     region := s.validAbove (dieOf core) home 9 bad, home := home, pool := none, mcDom := none }
    (s.setCore core { c with
      faultTimes := (bad, s.tick) :: c.faultTimes.filter (fun x => decide (s.tick < x.2 + 100000)) }).pushRec (dieOf core) r

/-- Whether the device may act for a region on a core now (R42, R44): its chain, when it is valid, not suspended, not held, and no
count of it waits (13 R303). -/
inductive RegionView where
  | ok (path : List (Nat × Rcb))
  | held
  | invalid (bad : Nat)
  deriving DecidableEq, Repr

/-- View a region's chain. -/
def State.regionView (s : State) (die home region : Nat) : RegionView :=
  if s.chainWaits die home 9 region then .held
  else match s.chain die home region with
  | .error b => .invalid b
  | .ok l =>
    if suspendedPath l || (match l.getLast? with | some (a, _) => s.rootHeld home a | none => false) ||
      s.pathWaits die home (l.map (·.1)) then .held else .ok l

/-- The region of a path that refuses one more slot for a thread (R43, R49): budget units reserved for others count as
used. -/
def State.slotBlocker (s : State) (i : Tid) (home : Nat) : List (Nat × Rcb) → Option Nat
  | [] => none
  | (a, r) :: l =>
    let kept := (s.resReserved.filter (fun x => x.1 == home && x.2.1 == a && x.2.2 != i)).length
    if r.resUsed + kept + 1 ≤ effective Rcb.resBudget 0xFFFFFFFF ((a, r) :: l) then s.slotBlocker i home l else some a

/-- R45: the effective priority of a thread: its base priority, which grows with the ticks it has been READY. -/
def State.prioOf (s : State) (t : Thread) : Nat :=
  if t.st = .ready then min 63 (t.prio + (s.tick - t.readySince) / 50000) else t.prio

/-- The tick at which a READY thread reached its effective priority (R47): noted when its base priority changed, or by its age. -/
def State.reachedAt (s : State) (t : Thread) : Nat :=
  if t.reach.1 = s.prioOf t ∧ t.readySince ≤ t.reach.2 then t.reach.2 else t.readySince + 50000 * (s.prioOf t - t.prio)

/-- The keys of R47 of a candidate: effective priority, the tick at which it reached it, handle. -/
structure Key where
  prio : Nat
  since : Nat
  handle : Nat
  deriving DecidableEq, Repr

/-- Whether a candidate comes before another by the three keys (R47). -/
def Key.before (a b : Key) : Bool :=
  decide (b.prio < a.prio) || (a.prio == b.prio && (decide (a.since < b.since) ||
    (a.since == b.since && decide (a.handle < b.handle))))

/-- The keys of a READY thread. -/
def State.keyOf (s : State) (t : Thread) : Key := { prio := s.prioOf t, since := s.reachedAt t, handle := t.id.handle }

/-- R47: whether candidate t comes before u by the three keys. -/
def State.precedes (s : State) (t u : Thread) : Bool := (s.keyOf t).before (s.keyOf u)

/-- The first of some threads by the keys of R47. -/
def State.firstOf (s : State) : List Thread → Option Thread
  | [] => none
  | t :: l => match s.firstOf l with
    | none => some t
    | some u => if s.precedes t u then some t else some u

/-- R45, R365: the base priority of a thread follows its region's, unless PRIO lowered it; a change while it is READY is noted with the
tick at which it reached the effective priority it now has (R47). -/
def State.refreshPrio (s : State) (t : Thread) (path : List (Nat × Rcb)) : Thread :=
  let rp := effPrio path
  if (t.priol && decide (t.prio ≤ rp)) || (t.prio == rp && !t.priol) then t
  else
    let u := { t with prio := rp, priol := false }
    { u with reach := (s.prioOf u, if s.prioOf u = s.prioOf t then s.reachedAt t else s.tick) }

/-- Threads of a core that stand READY and take slots by themselves (R55: a gang's members take them together). -/
def State.readyOf (s : State) (core : Nat) : List Thread :=
  s.threads.filter (fun t => t.core == core && t.st == .ready && t.gang.isNone)

/-- The threads that hold slots of a core. -/
def State.residentsOf (s : State) (core : Nat) : List Thread :=
  s.threads.filter (fun t => t.core == core && t.holdsSlot)

/-- A free slot in the phase with the fewest bound threads (R48 rule 1); which free slot of the phase the rule does not say: here the
lowest number (log 103: DESIGN CHOICE). -/
def State.freeSlot (s : State) (core : Nat) : Option (Nat × Nat) :=
  let l := (s.residentsOf core).filterMap (·.slot)
  let bound := fun p => (l.filter (fun x => x.1 == p)).length
  match leastBy bound (upto 0 16) with
  | none => none
  | some p =>
    match (upto 0 32).find? (fun k => !l.contains (p, k)) with
    | some k => some (p, k)
    | none => none

/-- The chain of a thread that is evicted is read for its release (R43): an RCB found invalid raises a region fault (R42). -/
def State.chainChecked (s : State) (t : Thread) : State :=
  match s.regionView (dieOf t.core) t.home t.region with
  | .invalid b => s.regionFault t.core t.home b
  | _ => s

/-- The move of an evicted or pre-empted thread (R32, R417): WAITING keeps its wait, everything else becomes READY. -/
def State.evict (s : State) (t : Thread) : State :=
  let s0 := ((s.chainChecked t).tally t.core (some t.id.sdom) 0x09 1).drainAll t
  let u := s0.again t
  match u.st with
  | .waiting _ => let (s1, t1) := s0.releaseSlot u; s1.put { t1 with preempt := false }
  | _ => s0.toReady u

/-- The effective priority of what holds a slot: the thread's base priority, for a gang the highest of its members (R55). -/
def State.victimPrio (s : State) (t : Thread) : Nat :=
  match t.gang with
  | none => t.prio
  | some g => (s.threads.filter (fun u => u.gang == some g)).foldl (fun m u => max m u.prio) 0

/-- Least by two keys. -/
def leastBy2 {α : Type} (f g : α → Nat) (l : List α) : Option α :=
  match leastBy f l with
  | none => none
  | some a => leastBy g (l.filter (fun x => f x == f a))

/-- R48 rules 2 to 4: the resident whose slot the candidate takes. The rules name no tie-break among threads that have waited, or been
resident, equally long: the first in State's list (log 87: DESIGN CHOICE); nor since when a gang is resident whose members took slots at
different ticks: here its member that is looked at, and for the gang as a whole its last member (`State.gangSince`; log 104: DESIGN
CHOICE). -/
def State.victimFor (s : State) (core p : Nat) : Option Thread :=
  let l := s.residentsOf core
  match leastBy (·.waitSince) (l.filter (fun t =>
      (match t.st with | .waiting _ => true | _ => false) && t.gang.isNone)) with
  | some t => some t
  | none =>
    let old := l.filter (fun t => decide (t.slotSince + 25000 ≤ s.tick) && !t.preempt)
    match leastBy2 s.victimPrio (·.slotSince) (old.filter (fun t => decide (s.victimPrio t < p))) with
    | some t => some t
    | none => if p = 63 then leastBy (·.slotSince) (old.filter (fun t => s.victimPrio t == 63)) else none

/-! A convened gang's slots (R55, 08 R172). -/

/-- The base priority of a gang, its effective priority while it waits for slots, and when it reached it (R55). -/
def State.gangBase (s : State) (g : Gang) : Nat := (s.gangThreads g).foldl (fun m t => max m t.prio) 0
def State.gangPrio (s : State) (g : Gang) : Nat := min 63 (s.gangBase g + (s.tick - g.since) / 50000)
def State.gangReached (s : State) (g : Gang) : Nat :=
  if g.reach.1 = s.gangPrio g ∧ g.since ≤ g.reach.2 then g.reach.2 else g.since + 50000 * (s.gangPrio g - s.gangBase g)

/-- The keys of a gang that waits for slots (R55): its leader's handle stands for it. -/
def State.gangKey (s : State) (g : Gang) : Key :=
  { prio := s.gangPrio g, since := s.gangReached g, handle := match g.leader with | some i => i.handle | none => 0 }

/-- R47: whether a gang comes before a READY thread. -/
def State.gangPrecedes (s : State) (g : Gang) (t : Thread) : Bool := (s.gangKey g).before (s.keyOf t)

/-- Insert by two keys, after those equal. -/
def insertBy2 {α : Type} (f g : α → Nat) (a : α) : List α → List α
  | [] => [a]
  | b :: l => if f a < f b ∨ (f a = f b ∧ g a < g b) then a :: b :: l else b :: insertBy2 f g a l

/-- Sort by two keys, keeping the order of equals. -/
def sortBy2 {α : Type} (f g : α → Nat) (l : List α) : List α := l.foldl (fun r a => insertBy2 f g a r) []

/-- Residents of a core that a candidate of priority p may evict now, in the order of rules 2 to 4 of R48, after the members of gangs
that are to be saved for it. -/
def State.freeable (s : State) (core p : Nat) (gone : List GangId) : List Thread :=
  (s.residentsOf core).filter (fun t => t.gang.any gone.contains) ++
  let l := (s.residentsOf core).filter (fun t => t.gang.isNone && s.mayLeave t)
  let waiting := l.filter (fun t => match t.st with | .waiting _ => true | _ => false)
  let old := l.filter (fun t => (match t.st with | .waiting _ => false | _ => true) && decide (t.slotSince + 25000 ≤ s.tick) && !t.preempt)
  sortBy2 (·.waitSince) (fun _ => 0) waiting ++ sortBy2 (·.prio) (·.slotSince) (old.filter (fun t => decide (t.prio < p))) ++
  (if p = 63 then sortBy2 (·.slotSince) (fun _ => 0) (old.filter (fun t => t.prio == 63)) else [])

/-- The free slots of a phase. -/
def State.freeSeats (s : State) (core p : Nat) : List ((Nat × Nat) × Option Tid) :=
  let taken := (s.residentsOf core).filterMap (·.slot)
  ((upto 0 32).filter (fun k => !taken.contains (p, k))).map (fun k => ((p, k), none))

/-- Seats of one phase for a candidate: its free slots, then those of the residents that may be evicted. -/
def State.phaseSeats (s : State) (core prio : Nat) (gone : List GangId) (p : Nat) : List ((Nat × Nat) × Option Tid) :=
  s.freeSeats core p ++
  ((s.freeable core prio gone).filterMap (fun t => match t.slot with
    | some (q, k) => if q = p then some ((q, k), some t.id) else none
    | none => none))

/-- Seats for n members on a core (R55): in one phase with enough free slots, that with the fewest bound threads (R48 rule 1); else in the
lowest phase with enough free or freeable slots; else in the lowest-numbered phases. The rule names no choice among several phases, and
speaks of a core gang only: here a quad gang's members on each core take one phase in the same way (log 105: DESIGN CHOICE). -/
def State.coreSeats (s : State) (core prio n : Nat) (gone : List GangId) : Option (List ((Nat × Nat) × Option Tid)) :=
  match leastBy (fun p => 32 - (s.freeSeats core p).length) ((upto 0 16).filter (fun p => decide (n ≤ (s.freeSeats core p).length))) with
  | some p => some ((s.freeSeats core p).take n)
  | none =>
    match (upto 0 16).find? (fun p => decide (n ≤ (s.phaseSeats core prio gone p).length)) with
    | some p => some ((s.phaseSeats core prio gone p).take n)
    | none =>
      let l := (upto 0 16).flatMap (s.phaseSeats core prio gone)
      if n ≤ l.length then some (l.take n) else none

/-- The members of a gang that stand on its q-th core, in index order. -/
def Gang.at' (g : Gang) (q : Nat) : List Tid :=
  (g.members.filter (fun x => !g.quad || x.1 % 4 == q)).map (·.2)

/-- What room a gang finds (R55, R172): seats for every member, a gang to be saved first, or none. -/
inductive Room where
  | seats (l : List (Tid × (Nat × Nat) × Option Tid))
  | holder (g : GangId)
  | none
  deriving DecidableEq, Repr

/-- The tick since which a resident gang has been resident. -/
def State.gangSince (s : State) (g : Gang) : Nat := (s.gangThreads g).foldl (fun m t => max m t.slotSince) 0

/-- R48 rules 3 and 4 for a resident gang as a victim. -/
def State.gangVictim (s : State) (p : Nat) (h : Gang) : Bool :=
  let q := s.gangBase h
  h.resident && !h.saving && decide (s.gangSince h + 25000 ≤ s.tick) && (decide (q < p) || (p == 63 && q == 63))

/-- Seats for the members of a gang on each of its cores, once the gangs `gone` are saved. -/
def State.gangParts (s : State) (g : Gang) (gone : List GangId) : List (List Tid × Option (List ((Nat × Nat) × Option Tid))) :=
  (upto 0 g.cores.length).map (fun q =>
    (g.at' q, s.coreSeats (g.cores.getD q 0) (s.gangPrio g) (g.at' q).length gone))

/-- The room for a gang (R55, R172): gangs that hold its units are saved first only where every one of them may be, and seats for every
member follow. -/
def State.gangRoom (s : State) (g : Gang) : Room :=
  let p := s.gangPrio g
  if !s.unitsFree g then
    let holders := (g.cores.filterMap (fun c => (s.core c).unit.gang)).eraseDups
    if holders.all (fun h => (s.gang h).any (fun x => x.saving || s.gangVictim p x)) && (s.gangParts g holders).all (fun x => x.2.isSome) then
      match holders.find? (fun h => (s.gang h).any (fun x => !x.saving)) with
      | some h => .holder h
      | none => .none
    else .none
  else
    let parts := s.gangParts g []
    if parts.all (fun x => x.2.isSome) then
      .seats (parts.flatMap (fun x => (x.1.zip (x.2.getD [])).map (fun y => (y.1, y.2.1, y.2.2))))
    else
      let l := s.gangs.filter (fun h => h.id != g.id && h.cores.any g.cores.contains && s.gangVictim p h)
      match (if (s.gangParts g (l.map (·.id))).all (fun x => x.2.isSome) then leastBy2 s.gangBase s.gangSince l else none) with
      | some h => .holder h.id
      | none => .none

/-- Charge a slot and drop the reservations it uses (R43, R49). -/
def State.chargeSlot (s : State) (t : Thread) : State :=
  let s1 := s.charge (dieOf t.core) t.home .res 1 (s.path (dieOf t.core) t.home t.region)
  { s1 with resReserved := s1.resReserved.filter (fun x => x.2.2 != t.id) }

/-- A poisoned word of a context line, as a class C fault (18 R418). -/
def State.framePoison (s : State) (t : Thread) (i : Nat) : Option Flt :=
  match t.placed with
  | none => none
  | some l => (s.poisonedIn (l.getD i 0) 128).map (fun w =>
      { cause := .poisonedData, addr := w64 (vaOfWord (frameAddr t.id.handle + 128 * i) (l.getD i 0) w), kind := .walk
        detail := 0, fetch := false })

/-- The lines a core's context cache holds (01 R17, R18): the control lines of its residents, and the register lines they use. -/
def State.cachedLines (s : State) (core : Nat) : List (Tid × Nat) :=
  (s.residentsOf core).flatMap (fun t => (if t.ctl then [(t.id, 0)] else []) ++ t.linesIn.map (fun n => (t.id, n)))

/-- Room for one more line in a core's context cache (01 R17, R18): where its 2,048 lines are in use a register line leaves it, which one
is a free value (log 86); it is written back where it lies, so no access sees the move. -/
def State.cacheRoom (s : State) (core : Nat) : State :=
  let l := s.cachedLines core
  let regs := l.filter (fun x => x.2 != 0)
  if l.length < 2048 then s
  else match regs[Config.free 86 s.draws % (regs.length + (if regs.isEmpty then 1 else 0))]? with
    | some (i, n) => match s.find i with
      | some t => s.put { t with linesIn := t.linesIn.erase n }
      | none => s
    | none => s

/-- Give a slot to a READY thread (R32, R47): its frame's page must be present and of class CTX (10 R224); the control line
then arrives (R50). While the frame's place waits the thread stays READY. -/
def State.activate (s : State) (t : Thread) (slot : Nat × Nat) : State :=
  if s.frameWaits (dieOf t.core) t.id then s
  else match s.framePlaces (dieOf t.core) t.id t.lineList with
  | .error f => s.park t f false true 0
  | .ok _ => match (s.dropStale t).ensureFrame ((s.dropStale t).again t) with
    | .error f => s.park t f false true 0
    | .ok s0 =>
      let s1 := s0.touch (dieOf t.core) t.id.sdom (frameAddr t.id.handle) false
      let u := s1.again t
      match s1.framePoison u 0 with
      | some f => s1.park u f false true 0
      | none =>
        (((s1.put { u with st := .resident, slot := some slot, ctl := false, linesIn := [], age := 0, slotSince := s.tick
                           aged := 0, preempt := false }).chargeSlot u).tally t.core (some t.id.sdom) 0x08 1)

/-- Whether a resident thread or gang of a core already leaves for a candidate (R48). -/
def State.claimed (s : State) (core : Nat) (i : Tid) : Bool :=
  s.threads.any (fun u => u.core == core && u.holdsSlot && u.claim == some i) ||
  s.gangs.any (fun g => g.cores.contains core && g.resident && g.claim == some i)

/-- Ask for a resident gang to be saved for a candidate (R190, R48). -/
def State.gangLeavesFor (s : State) (g : GangId) (i : Tid) : State :=
  State.gangSaveReq { s with gangs := s.gangs.map (fun x => if x.id = g then { x with claim := some i } else x) } (some g)

/-- Make room for a candidate by rules 2 to 4 of R48, if the victim may leave now, and activate it; a victim within an issued
instruction, or a gang, leaves at its boundary, and the candidate stays READY until then (R33, R55). -/
def State.takeSlot (s : State) (t : Thread) : State :=
  match s.freeSlot t.core with
  | some sl => s.activate t sl
  | none =>
    if s.claimed t.core t.id then s
    else match s.victimFor t.core (s.prioOf t) with
    | none => s
    | some v =>
      match v.gang with
      | some g => s.gangLeavesFor g t.id
      | none =>
        if s.mayLeave v then
          match v.slot with
          | some sl => let s1 := s.evict v; s1.activate (s1.again t) sl
          | none => s
        else s.put { v with preempt := true, claim := some t.id }

/-- R49: whether a thread's region lies in the subtree of an RCB of a home domain. -/
def State.under (s : State) (home a : Nat) (t : Thread) : Bool :=
  t.home == home && (s.path (dieOf t.core) home t.region).contains a

/-- What a thread that asks for a slot meets (R43, R44, R49): it may take one, a resident budget refuses it, or it asks for none. -/
inductive SlotView where
  | ok
  | refused (a : Nat)
  | no
  deriving DecidableEq, Repr

/-- View a READY thread's request for a slot. -/
def State.slotView (s : State) (t : Thread) : SlotView :=
  match s.regionView (dieOf t.core) t.home t.region with
  | .ok path =>
    if s.frameWaits (dieOf t.core) t.id || !s.coreOn t.core then .no
    else match s.slotBlocker t.id t.home path with
      | none => .ok
      | some a => .refused a
  | _ => .no

/-- The candidates of a core that R43, R42 and R44 admit; the region faults found; the threads refused only by a resident budget. -/
def State.surveyReady (s : State) (core : Nat) : State × List Thread × List (Thread × Nat) :=
  (s.readyOf core).foldl (fun (x : State × List Thread × List (Thread × Nat)) t =>
    match x.1.regionView (dieOf core) t.home t.region with
    | .invalid b => (x.1.regionFault core t.home b, x.2)
    | _ => match x.1.slotView t with
      | .ok => (x.1, x.2.1 ++ [t], x.2.2)
      | .refused a => (x.1, x.2.1, x.2.2 ++ [(t, a)])
      | .no => x) (s, [], [])

/-- How far the charges of a gang's members go, one after another (R43): admitted, or the first member that a resident budget refuses, or
none for a region that is held. -/
def State.gangSlotView (s : State) (g : Gang) : Except (Option (Thread × Nat)) State :=
  (s.gangThreads g).foldl (fun (r : Except (Option (Thread × Nat)) State) t => match r with
    | .error e => .error e
    | .ok s1 => match s1.slotView t with
      | .ok => .ok (s1.chargeSlot t)
      | .refused a => .error (some (t, a))
      | .no => .error none) (.ok s)

/-- R43 for a whole gang: every member's charge is admitted with those before it, and no region is held. -/
def State.gangAdmits (s : State) (g : Gang) : Bool := match s.gangSlotView g with | .ok _ => true | .error _ => false

/-- Whether a convened gang asks for slots (R191, R212): it waits for them with no member FAULTED or within an issued instruction. -/
def Gang.asks (g : Gang) (s : State) : Bool :=
  g.gstate == 2 && !g.resident && !g.breaking && (s.gangThreads g).all (fun t => t.st != .faulted && !t.holdsSlot && t.pend.isNone)

/-- The victim of a request that the resident budget of region a refuses (R49): the longest-resident thread or gang of a's subtree. -/
def State.budgetVictim (s : State) (home a : Nat) : Option Thread :=
  leastBy (fun u => match u.gang.bind s.gang with | some g => s.gangSince g | none => u.slotSince)
    (s.threads.filter (fun u => u.holdsSlot && decide (u.slotSince + 25000 ≤ s.tick) && s.under home a u && !u.preempt &&
      !(u.gang.bind s.gang).any (·.saving)))

/-- A request of R49: its keys, its thread, and the region whose resident budget alone refuses it. -/
structure BudgetReq where
  key : Key
  id : Tid
  home : Nat
  region : Nat
  deriving DecidableEq, Repr

/-- The requests of R49 across the package that can be served: READY threads of effective priority 63, and gangs by a member, refused only
by a resident budget, with no unit of that region reserved for them yet. -/
def State.budgetRequests (s : State) : List BudgetReq :=
  let free := fun (x : BudgetReq) => !s.resReserved.contains (x.home, x.region, x.id) && (s.budgetVictim x.home x.region).isSome
  ((s.threads.filterMap (fun t =>
    if t.st == .ready && t.gang.isNone && s.prioOf t == 63 then
      match s.slotView t with
      | .refused a => some { key := s.keyOf t, id := t.id, home := t.home, region := a : BudgetReq }
      | _ => none
    else none)) ++
  (s.gangs.filterMap (fun g =>
    if g.asks s && s.gangPrio g == 63 then
      match s.gangSlotView g with
      | .error (some (t, b)) => some { key := s.gangKey g, id := t.id, home := t.home, region := b : BudgetReq }
      | _ => none
    else none))).filter free

/-- The first of some requests by the keys of R47. -/
def firstKey : List BudgetReq → Option BudgetReq
  | [] => none
  | x :: l => match firstKey l with
    | none => some x
    | some y => if y.key.before x.key then some y else some x

/-- R49: a request of priority 63 refused by the resident budget of region a, the first of the package: the victim is evicted, wherever
it stands, and the unit reserved. -/
def State.budgetEvict (s : State) (i : Tid) (home a : Nat) : State :=
  if (firstKey s.budgetRequests).any (fun x => x.id == i && x.home == home && x.region == a) = false then s
  else match s.budgetVictim home a with
    | none => s
    | some v =>
      let s1 := { s with resReserved := s.resReserved ++ [(home, a, i)] }
      match v.gang with
      | some g => s1.gangSaveReq (some g)
      | none => if s1.mayLeave v then s1.evict v else s1.put { v with preempt := true }

/-- R191, R212: a gang that waits for slots may take them: none of its members FAULTED, charges admitted, and no READY
thread of its cores before it (R47). A member that is DONE is found at the reactivation (R191). -/
def State.gangMayReturn (s : State) (g : Gang) : Bool :=
  g.asks s && g.cores.all s.coreOn && s.gangAdmits g &&
  g.cores.all (fun c => match s.firstOf (s.surveyReady c).2.1 with
    | some t => s.gangPrecedes g t
    | none => true)

/-- Whether a gang that can take its slots now comes before a core's candidate (R47). -/
def State.gangFirst (s : State) (core : Nat) (t : Thread) : Bool :=
  s.gangs.any (fun g => g.cores.contains core && s.gangPrecedes g t && s.gangMayReturn g &&
    (match s.gangRoom g with | .none => false | _ => true))

/-- Note the tick at which the gangs that wait for slots reached the effective priorities they now have (R47, R55), `s0` being the state
before base priorities changed. -/
def State.noteGangReach (s s0 : State) : State :=
  { s with gangs := s.gangs.map (fun g =>
      if g.resident || s.gangBase g == s0.gangBase g then g
      else { g with reach := (s.gangPrio g, if s.gangPrio g = s0.gangPrio g then s0.gangReached g else s.tick) }) }

/-- R43, R45, R365: at a decision the base priorities of the threads of a core follow their regions, whose pages take A (13 R291). -/
def State.refreshCore (s : State) (core : Nat) : State :=
  let s1 := (s.threads.filter (fun t => t.core == core)).foldl
    (fun s0 t =>
      let s := s0.chainRead (dieOf core) t.home t.region
      match s.chain (dieOf core) t.home t.region with
      | .ok path => s.put (s.refreshPrio (s.again t) path)
      | _ => s) s
  s1.noteGangReach s

/-- The region faults of the members of gangs that wait for slots on a core (R42). -/
def State.gangRegionFaults (s : State) (core : Nat) : State :=
  (s.threads.filter (fun t => t.core == core && (t.gang.bind s.gang).any (fun g => g.asks s))).foldl
    (fun s t => match s.regionView (dieOf core) t.home t.region with
      | .invalid b => s.regionFault core t.home b
      | _ => s) s

/-- The requests of a core's threads, and of the gangs whose first core it is, that a resident budget refuses (R49). -/
def State.budgetDecide (s : State) (core : Nat) (refused : List (Thread × Nat)) : State :=
  let gangs := (s.gangs.filter (fun g => g.cores.head? == some core && g.asks s)).filterMap (fun g => match s.gangSlotView g with
    | .error (some (t, a)) => some (t, a)
    | _ => none)
  (refused ++ gangs).foldl (fun s x => s.budgetEvict x.1.id x.1.home x.2) s

/-- One decision of a core's activation unit (R47 to R49). -/
def State.activateCore (s : State) (core : Nat) : State :=
  if !s.coreOn core then s
  else
    let (s1, ok, refused) := ((s.refreshCore core).gangRegionFaults core).surveyReady core
    let s2 := match s1.firstOf ok with
      | some t => if s1.gangFirst core t then s1 else s1.takeSlot t
      | none => s1
    s2.budgetDecide core refused

/-- Step ACTIVATION (R47). -/
def execActivation (core : Nat) (s : State) : Host.Outcome State Fault Refusal := event (s.activateCore core)

/-- Step PRIORITY_AGING (R45): the effective priority of a READY thread has risen. -/
def execPriorityAging (i : Tid) (s : State) : Host.Outcome State Fault Refusal :=
  event (match s.find i with
    | none => s
    | some t => if t.st = .ready then s.put { t with aged := (s.tick - t.readySince) / 50000 } else s)

/-- The control line of a thread that holds a slot arrives (R50); a frame whose lines were dropped in place (10 R233) is fetched again. -/
def State.ctlArrives (s : State) (t : Thread) : State :=
  match s.ensureFrame t with
  | .error f => s.parkWhenFree t f true 0
  | .ok s0 => match s0.framePoison (s0.again t) 0 with
    | some f => s0.parkWhenFree (s0.again t) f true 0
    | none => let s1 := s0.cacheRoom t.core; s1.put { s1.again t with ctl := true }

/-- Step CONTROL_LINE_ARRIVAL (R50). -/
def execControlLineArrival (i : Tid) (s : State) : Host.Outcome State Fault Refusal :=
  event (match s.find i with
    | none => s
    | some t => if t.holdsSlot && !t.ctl && !s.frameWaits (dieOf t.core) t.id then s.ctlArrives t else s)

/-- Whether a thread that holds a slot must leave it (R417): asked to, suspended or held with its region (R44, R406), or on a core
that is no longer enabled (19 R433). -/
def State.mustLeave (s : State) (t : Thread) : Bool :=
  t.holdsSlot && (t.preempt || !s.coreOn t.core || s.held? (dieOf t.core) t.home t.region)

/-- Step PREEMPTION (R417): at its boundary; a gang is saved as one (R55). -/
def execPreemption (i : Tid) (s : State) : Host.Outcome State Fault Refusal :=
  event (match s.find i with
    | none => s
    | some t =>
      if s.mustLeave t && s.mayLeave t then
        let s1 := if t.gang.isSome then s.chainChecked t else s
        match t.gang with
        | some g => if (s1.gang g).any (·.resident) then s1.gangSaveReq (some g) else s1.evict (s1.again t)
        | none => s1.evict (s1.again t)
      else s)

/-- YIELD after its completion (06 R145): the thread is evicted for a candidate of no lower effective priority, which takes the
freed slot; a gang that is the candidate takes its slots, the freed one among them, at its reactivation (02 R55). While a buffered store of
the thread is held it leaves once that has drained (18 R417). -/
def State.yieldTo (s : State) (i : Tid) : State :=
  match s.find i with
  | none => s
  | some t0 =>
    if t0.gang.isSome || t0.st ≠ .resident then s
    else
      let (s1, ok, _) := (s.refreshCore t0.core).surveyReady t0.core
      let t := s1.again t0
      let left := s1.put { t with slot := none }
      let gang := (s1.gangs.filter (fun g => g.cores.contains t.core && left.gangMayReturn g && decide (t.prio ≤ s1.gangPrio g) &&
        left.gangRoom g != .none)).head?
      let go := fun (k : State → State) (c : Option Tid) =>
        if s1.mayLeave t then k (s1.evict t) else s1.put { t with preempt := true, claim := c }
      match gang, s1.firstOf ok, t.slot with
      | some _, _, _ => go (fun s2 => s2) none
      | none, some u, some sl => if t.prio ≤ s1.prioOf u then go (fun s2 => s2.activate (s2.again u) sl) (some u.id) else s1
      | _, _, _ => s1

/-- YIELD (R145): it completes as a NOP; unless an earlier event of R411 takes the thread, it yields. -/
def execYield (s : State) : Host.Outcome State Fault Refusal :=
  word .yield s (fun s t =>
    let s1 := s.retire t
    .ok (if t.killed || !t.asyncs.isEmpty || t.stepped then s1 else s1.yieldTo t.id))

end Sys2Proof.Machine
end

