-- ==== Sys2Proof/Machine/Flags.lean ====
section
/-! DEFINITION. The floating-point flags of FPF (04 R100). -/
namespace Sys2Proof.Machine

/-- FPF: NX 0, UF 1, OF 2, DZ 3, NV 4 (R100). -/
abbrev Fpf := BitVec 5

def flagNX : Fpf := 1
def flagUF : Fpf := 2
def flagOF : Fpf := 4
def flagDZ : Fpf := 8
def flagNV : Fpf := 16

/-- A flag raised under a condition. -/
def flagIf (b : Bool) (f : Fpf) : Fpf := if b then f else 0

/-- UF and NX of one rounding (R100): tininess is judged on the exact result, before rounding. -/
def roundFlags (inexact tiny : Bool) : Fpf := flagIf inexact flagNX ||| flagIf (inexact && tiny) flagUF

end Sys2Proof.Machine
end

