-- ==== Sys2Proof/Machine/Fp.lean ====
section
/-! DEFINITION. Number formats and exact arithmetic (04 R89 to R100): the value an encoding has, rounding an exact value
once, and sums, products, quotients and roots kept exact until then. -/
namespace Sys2Proof.Machine

/-- How a format encodes special values (R89, R90): infinities and NaNs; E4M3's single NaN; neither. -/
inductive Special where
  | ieee | e4m3 | none
  deriving DecidableEq, Repr

/-- A floating-point format (R89): exponent bits, mantissa bits, bias. NaNs signal in formats of 16 bits and more. -/
structure Fmt where
  eb : Nat
  mb : Nat
  bias : Nat
  spec : Special
  deriving DecidableEq, Repr

def f64 : Fmt := { eb := 11, mb := 52, bias := 1023, spec := .ieee }
def f32 : Fmt := { eb := 8, mb := 23, bias := 127, spec := .ieee }
def bf16 : Fmt := { eb := 8, mb := 7, bias := 127, spec := .ieee }
def f16 : Fmt := { eb := 5, mb := 10, bias := 15, spec := .ieee }
def e5m2 : Fmt := { eb := 5, mb := 2, bias := 15, spec := .ieee }
def e4m3 : Fmt := { eb := 4, mb := 3, bias := 7, spec := .e4m3 }
def e3m2 : Fmt := { eb := 3, mb := 2, bias := 3, spec := .none }
def e2m3 : Fmt := { eb := 2, mb := 3, bias := 1, spec := .none }
def e2m1 : Fmt := { eb := 2, mb := 1, bias := 1, spec := .none }

/-- Width in bits. -/
def Fmt.width (f : Fmt) : Nat := 1 + f.eb + f.mb
/-- The greatest exponent field of a finite value (R89, R90). -/
def Fmt.topE (f : Fmt) : Nat := if f.spec = .ieee then 2 ^ f.eb - 2 else 2 ^ f.eb - 1
/-- The greatest mantissa at that exponent (R89, R90). -/
def Fmt.topM (f : Fmt) : Nat := if f.spec = .e4m3 then 2 ^ f.mb - 2 else 2 ^ f.mb - 1
/-- Put sign, exponent field and mantissa together. -/
def Fmt.pack (f : Fmt) (neg : Bool) (e m : Nat) : Nat := b2n neg * 2 ^ (f.eb + f.mb) + e * 2 ^ f.mb + m
/-- The canonical NaN (R89, R90); +0 in a format that has none (R97). -/
def Fmt.nan (f : Fmt) : Nat :=
  match f.spec with
  | .ieee => f.pack false (2 ^ f.eb - 1) (2 ^ (f.mb - 1))
  | .e4m3 => 0x7F
  | .none => 0
/-- The largest finite value of a sign. -/
def Fmt.max (f : Fmt) (neg : Bool) : Nat := f.pack neg f.topE f.topM
/-- The infinity of a sign, of a format that has it. -/
def Fmt.inf (f : Fmt) (neg : Bool) : Nat := f.pack neg (2 ^ f.eb - 1) 0

/-- A value: NaN (`invalid` when it raises NV: a signalling operand, or the result of an invalid operation), an infinity, or
(-1)^neg * m * 2^e. -/
inductive Val where
  | nan (invalid : Bool)
  | inf (neg : Bool)
  | fin (neg : Bool) (m : Nat) (e : Int)
  deriving DecidableEq, Repr

/-- The value of an encoding (R89, R90). -/
def Fmt.decode (f : Fmt) (n : Nat) : Val :=
  let neg := bit n (f.eb + f.mb)
  let e := bits n (f.eb + f.mb - 1) f.mb
  let m := bits n (f.mb - 1) 0
  if f.spec = .ieee ∧ e = 2 ^ f.eb - 1 then
    if m = 0 then .inf neg else .nan (!bit m (f.mb - 1) && decide (16 ≤ f.width))
  else if f.spec = .e4m3 ∧ e = 15 ∧ m = 7 then .nan false
  else if e = 0 then .fin neg m (1 - (f.bias : Int) - f.mb)
  else .fin neg (2 ^ f.mb + m) ((e : Int) - f.bias - f.mb)

/-- Rounding modes (R96). -/
inductive RMode where
  | rne | rtz | rup | rdn | rna
  deriving DecidableEq, Repr

/-- The mode of a code 1 to 5 (R96). -/
def RMode.ofCode : Nat → RMode
  | 2 => .rtz
  | 3 => .rup
  | 4 => .rdn
  | 5 => .rna
  | _ => .rne

/-- Bits of a number: 0 for 0, else 1 + floor(log2 n), for numbers below 2^k. -/
def bitLen (n : Nat) : Nat := if n = 0 then 0 else Nat.log2 n + 1

/-- Whether to round a magnitude up from its kept part (R96): `rem` of `2^k` is discarded, with more below it when `sticky`. -/
def roundsUp (r : RMode) (neg : Bool) (kept rem k : Nat) (sticky : Bool) : Bool :=
  let inexact := rem != 0 || sticky
  let half := 2 ^ k
  match r with
  | .rne => decide (half < 2 * rem) || (2 * rem == half && (sticky || kept % 2 == 1))
  | .rtz => false
  | .rup => inexact && !neg
  | .rdn => inexact && neg
  | .rna => decide (half ≤ 2 * rem)

/-- The result of an overflow (R97). -/
def Fmt.overflow (f : Fmt) (r : RMode) (sat neg : Bool) : Nat :=
  let toInf := !sat && (match r with
    | .rne | .rna => true
    | .rtz => false
    | .rup => !neg
    | .rdn => neg)
  match f.spec with
  | .ieee => if toInf then f.inf neg else f.max neg
  | .e4m3 => if toInf then f.nan else f.max neg
  | .none => f.max neg

/-- Round the exact magnitude m * 2^e, or one between it and (m+1) * 2^e when `sticky`, once (R96, R97, R100). -/
def Fmt.round (f : Fmt) (r : RMode) (sat neg : Bool) (m : Nat) (e : Int) (sticky : Bool) : Nat × Fpf :=
  if m = 0 ∧ sticky = false then (f.pack neg 0 0, 0)
  else
    let x : Int := (bitLen m : Int) - 1 + e
    let qmin : Int := 1 - (f.bias : Int) - f.mb
    let q : Int := if x - f.mb < qmin then qmin else x - f.mb
    let k := (q - e).toNat
    let up := m * 2 ^ (e - q).toNat
    let kept := up / 2 ^ k
    let rem := up % 2 ^ k
    let n := if roundsUp r neg kept rem k sticky then kept + 1 else kept
    let tiny := decide (x < 1 - (f.bias : Int))
    let inexact := rem != 0 || sticky
    let (n', q') := if n = 2 ^ (f.mb + 1) then (2 ^ f.mb, q + 1) else (n, q)
    let ef := if n' < 2 ^ f.mb then 0 else (q' + f.mb + f.bias).toNat
    let mf := n' % 2 ^ f.mb
    if f.topE < ef ∨ (ef = f.topE ∧ f.topM < mf) then (f.overflow r sat neg, flagOF ||| flagNX)
    else (f.pack neg ef mf, roundFlags inexact tiny)

/-- Deliver a value into a format (R97): rounding a finite one, the rules for NaN and infinities otherwise. -/
def Fmt.deliver (f : Fmt) (r : RMode) (sat : Bool) : Val → Nat × Fpf
  | .nan inv => match f.spec with
    | .none => (0, flagNV)
    | _ => (f.nan, flagIf inv flagNV)
  | .inf neg => match f.spec with
    | .ieee => if sat then (f.max neg, flagNX) else (f.inf neg, 0)
    | .e4m3 => if sat then (f.max neg, flagNX) else (f.nan, flagNV)
    | .none => (f.max neg, if sat then flagNX else flagNV)
  | .fin neg m e => f.round r sat neg m e false

/-- The negated value. -/
def Val.neg : Val → Val
  | .nan i => .nan i
  | .inf n => .inf !n
  | .fin n m e => .fin (!n) m e

/-- The exact product (R94, R95, R100): 0 × inf is invalid. -/
def Val.mul : Val → Val → Val
  | .nan a, .nan b => .nan (a || b)
  | .nan a, _ => .nan a
  | _, .nan b => .nan b
  | .inf a, .inf b => .inf (a ^^ b)
  | .inf a, .fin b m _ => if m = 0 then .nan true else .inf (a ^^ b)
  | .fin a m _, .inf b => if m = 0 then .nan true else .inf (a ^^ b)
  | .fin a m e, .fin b n k => .fin (a ^^ b) (m * n) (e + k)

def Val.isNan : Val → Bool
  | .nan _ => true
  | _ => false
def Val.isInvalid : Val → Bool
  | .nan i => i
  | _ => false
def Val.isInf (neg : Bool) : Val → Bool
  | .inf n => n == neg
  | _ => false
def Val.isZero : Val → Bool
  | .fin _ m _ => m == 0
  | _ => false
/-- The sign of a value that is not NaN. -/
def Val.sign : Val → Bool
  | .nan _ => false
  | .inf n => n
  | .fin n _ _ => n

/-- The least exponent of the finite values of a list. -/
def minExp : List Val → Int
  | [] => 0
  | [.fin _ _ e] => e
  | .fin _ _ e :: l => min e (minExp l)
  | _ :: l => minExp l

/-- A finite value as an integer multiple of 2^e0. -/
def Val.scaled (e0 : Int) : Val → Int
  | .fin n m e => let x : Int := m * 2 ^ (e - e0).toNat; if n then -x else x
  | _ => 0

/-- The exact sum of a list of addends (R94, R95, R100); `r` decides only the sign of a zero that is not of one sign. -/
def Val.sum (r : RMode) (l : List Val) : Val :=
  let opposed := l.any (Val.isInf true) && l.any (Val.isInf false)
  if l.any Val.isNan then .nan (l.any Val.isInvalid || opposed)
  else if opposed then .nan true
  else if l.any (Val.isInf true) then .inf true
  else if l.any (Val.isInf false) then .inf false
  else
    let e0 := minExp l
    let x := (l.map (Val.scaled e0)).sum
    if x = 0 then
      if l.all Val.isZero && l.all (fun v => v.sign == true) then .fin true 0 0
      else if l.all Val.isZero && l.all (fun v => v.sign == false) then .fin false 0 0
      else .fin (r == .rdn) 0 0
    else .fin (decide (x < 0)) x.natAbs e0

/-- Operations of two values rounded once (R155, R161). -/
def Fmt.add (f : Fmt) (r : RMode) (x y : Val) : Nat × Fpf := f.deliver r false (Val.sum r [x, y])
def Fmt.mul (f : Fmt) (r : RMode) (x y : Val) : Nat × Fpf := f.deliver r false (x.mul y)
def Fmt.fma (f : Fmt) (r : RMode) (x y z : Val) : Nat × Fpf := f.deliver r false (Val.sum r [x.mul y, z])

/-- Quotient rounded once (R155, R160). -/
def Fmt.div (f : Fmt) (r : RMode) (x y : Val) : Nat × Fpf :=
  let s := x.sign ^^ y.sign
  match x, y with
  | .nan a, .nan b => f.deliver r false (.nan (a || b))
  | .nan a, _ => f.deliver r false (.nan a)
  | _, .nan b => f.deliver r false (.nan b)
  | .inf _, .inf _ => f.deliver r false (.nan true)
  | .inf _, .fin _ _ _ => f.deliver r false (.inf s)
  | .fin _ _ _, .inf _ => (f.pack s 0 0, 0)
  | .fin _ m e, .fin _ n k =>
    if n = 0 then
      if m = 0 then f.deliver r false (.nan true) else (f.inf s, flagDZ)
    else
      let a := m * 2 ^ 140
      f.round r false s (a / n) (e - k - 140) (a % n != 0)

/-- The greatest number of at most k bits whose square is at most n. -/
def isqrt (k n : Nat) : Nat :=
  (upto 0 k).foldr (fun b r => let c := r + 2 ^ b; if c * c ≤ n then c else r) 0

/-- Square root rounded once (R155). -/
def Fmt.sqrt (f : Fmt) (r : RMode) (x : Val) : Nat × Fpf :=
  match x with
  | .nan a => f.deliver r false (.nan a)
  | .inf n => f.deliver r false (if n then .nan true else .inf false)
  | .fin n m e =>
    if m = 0 then (f.pack n 0 0, 0)
    else if n then f.deliver r false (.nan true)
    else
      let a := (if e % 2 = 0 then m else 2 * m) * 2 ^ 160
      let h := (if e % 2 = 0 then e else e - 1) / 2 - 80
      let q := isqrt 112 a
      f.round r false false q h (q * q != a)

/-- -1, 0 or 1 as x is below, equal to or above y, neither being NaN; -0 equals +0. -/
def Val.cmp : Val → Val → Int
  | .inf a, .inf b => (if a then -1 else 1) - (if b then -1 else 1)
  | .inf a, _ => if a then -1 else 1
  | _, .inf b => if b then 1 else -1
  | x, y =>
    let e0 := minExp [x, y]
    let a := x.scaled e0
    let b := y.scaled e0
    if a < b then -1 else if b < a then 1 else 0

/-- x is at most y, -0 counting as less than +0 (R156). -/
def Val.leZ (x y : Val) : Bool := decide (x.cmp y < 0) || (x.cmp y == 0 && (x.sign || !y.sign))

/-- FMIN and FMAX on encodings (R156). -/
def Fmt.minmax (f : Fmt) (wantMax : Bool) (a b : Nat) : Nat × Fpf :=
  let x := f.decode a
  let y := f.decode b
  let nv := flagIf (x.isInvalid || y.isInvalid) flagNV
  if x.isNan && y.isNan then (f.nan, nv)
  else if x.isNan then (b % 2 ^ f.width, nv)
  else if y.isNan then (a % 2 ^ f.width, nv)
  else (if (x.leZ y) ^^ wantMax then a % 2 ^ f.width else b % 2 ^ f.width, nv)

/-- R158: the class mask of an encoding. -/
def Fmt.classify (f : Fmt) (a : Nat) : Nat :=
  match f.decode a with
  | .nan s => if s then 2 ^ 8 else 2 ^ 9
  | .inf n => if n then 2 ^ 0 else 2 ^ 7
  | .fin n m _ =>
    if m = 0 then (if n then 2 ^ 3 else 2 ^ 4)
    else if m < 2 ^ f.mb then (if n then 2 ^ 2 else 2 ^ 5)
    else (if n then 2 ^ 1 else 2 ^ 6)

/-! FRCP, FRSQ, FEXP2, FLOG2 (07 R160). Quotients and roots are exact to a remainder. 2^x and log2(x) of an FP32 operand are
either exact or irrational; series in fixed point with 300 fractional bits decide the rounding (log 21). -/

/-- 1.0. -/
def Val.one : Val := .fin false 1 0

/-- FRCP (R160). -/
def frcpVal (r : RMode) (x : Val) : Nat × Fpf := f32.div r .one x

/-- FRSQ (R160). -/
def frsqVal (r : RMode) (x : Val) : Nat × Fpf :=
  match x with
  | .nan a => f32.deliver r false (.nan a)
  | .inf n => if n then f32.deliver r false (.nan true) else (0, 0)
  | .fin n m e =>
    if m = 0 then (f32.inf n, flagDZ)
    else if n then f32.deliver r false (.nan true)
    else
      let a := if e % 2 = 0 then m else 2 * m
      let h := (if e % 2 = 0 then e else e - 1) / 2
      let q := isqrt 101 (2 ^ 200 / a)
      f32.round r false false q (-100 - h) (q * q * a != 2 ^ 200)

/-- Fractional bits of the series. -/
def fixBits : Nat := 300

/-- ln 2 in fixed point: the sum of 1 / (k * 2^k). -/
def ln2Fix : Nat := (upto 1 310).foldl (fun s k => s + 2 ^ fixBits / (k * 2 ^ k)) 0

/-- exp(y) in fixed point, 0 ≤ y < 1: the sum of y^k / k!. -/
def expFix (y : Nat) : Nat :=
  ((upto 1 90).foldl (fun (a : Nat × Nat) k => let t := a.2 * y / 2 ^ fixBits / k; (a.1 + t, t)) (2 ^ fixBits, 2 ^ fixBits)).1

/-- ln(1 + z) with z = n / d, 0 ≤ z ≤ 1: twice the sum of t^(2k+1) / (2k+1) with t = n / (2d + n). -/
def lnFix (n d : Nat) : Nat :=
  let t := n * 2 ^ fixBits / (2 * d + n)
  let t2 := t * t / 2 ^ fixBits
  2 * ((upto 0 110).foldl (fun (a : Nat × Nat) k => (a.1 + a.2 / (2 * k + 1), a.2 * t2 / 2 ^ fixBits)) (0, t)).1

/-- FEXP2 (R160). -/
def fexp2Val (r : RMode) (x : Val) : Nat × Fpf :=
  match x with
  | .nan a => f32.deliver r false (.nan a)
  | .inf n => if n then (0, 0) else (f32.inf false, 0)
  | .fin n m e =>
    if m = 0 then (f32.pack false 127 0, 0)
    else
      -- x = k + f with k an integer and f = fr / 2^d, 0 ≤ f < 1
      let d := (-e).toNat
      let a : Int := m * 2 ^ e.toNat
      let v : Int := if n then -a else a
      let k := v / 2 ^ d
      let fr := (v % 2 ^ d).toNat
      if 1000 < k then f32.round r false false 1 1000 false
      else if k < -1000 then f32.round r false false 1 (-1000) true
      else if fr = 0 then f32.round r false false 1 k false
      else f32.round r false false (expFix (fr * ln2Fix / 2 ^ d) / 2 ^ 20) (k - 280) true

/-- FLOG2 (R160). The zero it gives for 1.0 is +0 under every rounding mode: neither R160 nor R95 gives its sign (log 90: DESIGN
CHOICE). -/
def flog2Val (r : RMode) (x : Val) : Nat × Fpf :=
  match x with
  | .nan a => f32.deliver r false (.nan a)
  | .inf n => if n then f32.deliver r false (.nan true) else (f32.inf false, 0)
  | .fin n m e =>
    if m = 0 then (f32.inf true, flagDZ)
    else if n then f32.deliver r false (.nan true)
    else
      let b := bitLen m - 1
      let k : Int := b + e
      let fr := m - 2 ^ b
      if fr = 0 then f32.round r false (decide (k < 0)) k.natAbs 0 false
      else
        let v : Int := k * 2 ^ 280 + (lnFix fr (2 ^ b) * 2 ^ 280 / ln2Fix : Nat)
        if 0 ≤ v then f32.round r false false v.natAbs (-280) true
        else f32.round r false true (v.natAbs - 1) (-280) true

end Sys2Proof.Machine
end

