-- ==== Sys2Proof/Machine/LoadStore.lean ====
section
/-! DEFINITION. Plain and ordered loads and stores, fences and prefetch (11 R237 to R244, R255; 12 R276). -/
namespace Sys2Proof.Machine

/-- LD.B (R240). -/
def execLdB (d a : Reg) (o : BitVec 14) (s : State) : Host.Outcome State Fault Refusal :=
  word (.ldB d a o) s (fun s t => s.loadInstr t (eaOf t a o) 1 false (.zero d.toNat))
/-- LD.H (R240). -/
def execLdH (d a : Reg) (o : BitVec 14) (s : State) : Host.Outcome State Fault Refusal :=
  word (.ldH d a o) s (fun s t => s.loadInstr t (eaOf t a o) 2 false (.zero d.toNat))
/-- LD.W (R240). -/
def execLdW (d a : Reg) (o : BitVec 14) (s : State) : Host.Outcome State Fault Refusal :=
  word (.ldW d a o) s (fun s t => s.loadInstr t (eaOf t a o) 4 false (.zero d.toNat))
/-- LD.D (R240). -/
def execLdD (d a : Reg) (o : BitVec 14) (s : State) : Host.Outcome State Fault Refusal :=
  word (.ldD d a o) s (fun s t => s.loadInstr t (eaOf t a o) 8 false (.zero d.toNat))
/-- LD.B.S (R240). -/
def execLdBS (d a : Reg) (o : BitVec 14) (s : State) : Host.Outcome State Fault Refusal :=
  word (.ldBS d a o) s (fun s t => s.loadInstr t (eaOf t a o) 1 false (.sign d.toNat 1))
/-- LD.H.S (R240). -/
def execLdHS (d a : Reg) (o : BitVec 14) (s : State) : Host.Outcome State Fault Refusal :=
  word (.ldHS d a o) s (fun s t => s.loadInstr t (eaOf t a o) 2 false (.sign d.toNat 2))
/-- LD.W.S (R240). -/
def execLdWS (d a : Reg) (o : BitVec 14) (s : State) : Host.Outcome State Fault Refusal :=
  word (.ldWS d a o) s (fun s t => s.loadInstr t (eaOf t a o) 4 false (.sign d.toNat 4))
/-- LD.P (R240): the pair g(2d), g(2d+1). -/
def execLdP (d : PairReg) (a : Reg) (o : BitVec 14) (s : State) : Host.Outcome State Fault Refusal :=
  word (.ldP d a o) s (fun s t => s.loadInstr t (eaOf t a o) 16 false (.pair (2 * d.toNat)))

/-- The low n bytes of a register (R241). -/
def Thread.low (t : Thread) (r n : Nat) : List Byte := toBytes n (t.rd r).toNat

/-- ST.B (R241). -/
def execStB (v a : Reg) (o : BitVec 14) (s : State) : Host.Outcome State Fault Refusal :=
  word (.stB v a o) s (fun s t => s.storeInstr t (eaOf t a o) 1 (t.low v.toNat 1))
/-- ST.H (R241). -/
def execStH (v a : Reg) (o : BitVec 14) (s : State) : Host.Outcome State Fault Refusal :=
  word (.stH v a o) s (fun s t => s.storeInstr t (eaOf t a o) 2 (t.low v.toNat 2))
/-- ST.W (R241). -/
def execStW (v a : Reg) (o : BitVec 14) (s : State) : Host.Outcome State Fault Refusal :=
  word (.stW v a o) s (fun s t => s.storeInstr t (eaOf t a o) 4 (t.low v.toNat 4))
/-- ST.D (R241). -/
def execStD (v a : Reg) (o : BitVec 14) (s : State) : Host.Outcome State Fault Refusal :=
  word (.stD v a o) s (fun s t => s.storeInstr t (eaOf t a o) 8 (t.low v.toNat 8))
/-- ST.P (R241): the pair g(2v), g(2v+1). -/
def execStP (v : PairReg) (a : Reg) (o : BitVec 14) (s : State) : Host.Outcome State Fault Refusal :=
  word (.stP v a o) s (fun s t =>
    s.storeInstr t (eaOf t a o) 16 (t.low (2 * v.toNat) 8 ++ t.low (2 * v.toNat + 1) 8))

/-- EA of MEMO, ATOM and CAS: g[a] (R239). -/
def regEa (t : Thread) (a : Reg) : Int := (t.rd a.toNat).toNat

/-- LD.acq (R240, R244). -/
def execLdAcq (d a : Reg) (q : Scope) (wd : LdWidth) (s : State) : Host.Outcome State Fault Refusal :=
  word (.ldAcq d a q wd) s (fun s t =>
    match wd with
    | .b => s.loadInstr t (regEa t a) 1 true (.zero d.toNat)
    | .h => s.loadInstr t (regEa t a) 2 true (.zero d.toNat)
    | .w => s.loadInstr t (regEa t a) 4 true (.zero d.toNat)
    | .d => s.loadInstr t (regEa t a) 8 true (.zero d.toNat)
    | .p => s.loadInstr t (regEa t a) 16 true (.pair d.toNat)
    | .bS => s.loadInstr t (regEa t a) 1 true (.sign d.toNat 1)
    | .hS => s.loadInstr t (regEa t a) 2 true (.sign d.toNat 2)
    | .wS => s.loadInstr t (regEa t a) 4 true (.sign d.toNat 4))

/-- A store release: it enters the store buffer, and drains after the earlier stores and the earlier loads (R243). -/
def State.storeRel (s : State) (t : Thread) (q : Scope) (ea : Int) (al : Nat) (bs : List Byte) : Except Stop State :=
  (s.put (s.release t q)).storeInstr (s.release t q) ea al bs

/-- ST.rel (R241, R243). -/
def execStRel (v a : Reg) (q : Scope) (wd : StWidth) (s : State) : Host.Outcome State Fault Refusal :=
  word (.stRel v a q wd) s (fun s t =>
    match wd with
    | .b => s.storeRel t q (regEa t a) 1 (t.low v.toNat 1)
    | .h => s.storeRel t q (regEa t a) 2 (t.low v.toNat 2)
    | .w => s.storeRel t q (regEa t a) 4 (t.low v.toNat 4)
    | .d => s.storeRel t q (regEa t a) 8 (t.low v.toNat 8)
    | .p => s.storeRel t q (regEa t a) 16 (t.low v.toNat 8 ++ t.low (v.toNat + 1) 8))

/-- FENCE (12 R276): eligible once the earlier accesses are performed; it changes nothing else. -/
def execFence (q : Scope) (s : State) : Host.Outcome State Fault Refusal := word (.fence q) s (fun s t => .ok (s.retire t))
/-- FENCE.acq (R276). -/
def execFenceAcq (q : Scope) (s : State) : Host.Outcome State Fault Refusal :=
  word (.fenceAcq q) s (fun s t => .ok (s.retire t))
/-- FENCE.rel (R276, R243): later stores drain after the earlier stores, as they do anyway, and after the earlier loads. -/
def execFenceRel (q : Scope) (s : State) : Host.Outcome State Fault Refusal :=
  word (.fenceRel q) s (fun s t => .ok (s.retire (if q = .thread then t else s.release t q)))

/-- A page request of a thread for the page of an address (13 R301, 18 R407), at most one per page, core and 100 us. -/
def State.pageRequest (s : State) (t : Thread) (va : Nat) : State :=
  let page := alignDown va 16384
  let c := s.core t.core
  if c.pageReqs.any (fun x => x.1 == page && decide (s.tick < x.2 + 100000)) then s
  else
    let r : Rec := { cause := .pageRequest, async := true, fetch := false, ctx := false, esc := false, kind := .none
                     detail := 0, tid := none, core := t.core, pc := 0, word := 0, addr := w64 page, tick := s.tick
                     region := t.region, home := t.home, pool := none, mcDom := none }
    (s.setCore t.core { c with
      pageReqs := (page, s.tick) :: c.pageReqs.filter (fun x => decide (s.tick < x.2 + 100000)) }).pushRec (dieOf t.core) r

/-- PREF (R255, 13 R301): it writes nothing and sets no A; the walk fills the TLB and the walk cache (13 R307), and one that ends in a
V = 0 entry makes a page request. -/
def execPref (a : Reg) (l : PrefLevel) (s : State) : Host.Outcome State Fault Refusal :=
  word (.pref a l) s (fun s t =>
    let va := (t.rd a.toNat).toNat
    let die := dieOf t.core
    if !canonical va || inWindow va || (s.tlbFind t.core t.id.sdom va).isSome || s.walkWaits die t.id.sdom va then .ok (s.retire t)
    else match s.walk die t.id.sdom va .load false with
      | .error f => if f.cause = .pageNotPresent then .ok ((s.pageRequest t va).retire t) else .ok (s.retire t)
      | .ok x =>
        if Leaf.r x.leaf && (match s.locOf die t.id.sdom va x.leaf false with
            | .ok l => l.spot.inRange && s.carveAdmits t.id.sdom l.spot
            | .error _ => false)
        then .ok (((s.walkKeep die x.path).tlbAdd t.core (tlbEntOf t.id.sdom va x.leaf)).retire t)
        else .ok (s.retire t))

end Sys2Proof.Machine
end

