-- ==== Sys2Proof/Machine/Atomic.lean ====
section
/-! DEFINITION. ATOM and CAS (11 R245 to R247, 10 R220, R225). -/
namespace Sys2Proof.Machine

/-- Perform a write of a thread's access at once, at its target and the other placement of a word in transition (R245,
13 R303). -/
def State.performAt (s : State) (d : Nat) (g : Target) (bs : List Byte) : State :=
  match g with
  | .pad c off => s.perform d (physAddr (padUnit c) off) none bs
  | .mem l => s.perform d l.spot.pa l.mirror bs

/-- The die whose home performs an ATOM or CAS (R245): of the new placement for a page in transition; none for one performed in the
issuing core's L1 or in a scratchpad. -/
def State.atomicHome (s : State) (core sdom va : Nat) (g : Target) : Option Nat :=
  match g with
  | .pad _ _ => none
  | .mem l =>
    match (if Leaf.trans l.leaf then s.restripeOf sdom va else none) with
    | some r => some (if r.st = 3 then l.spot.die else (s.spot (s.geo (dieOf core) r.newgidx) (r.newPlace va)).die)
    | none =>
      if physUnit l.spot.pa = hostUnit ∨ Leaf.cls l.leaf = 1 ∨ Leaf.cls l.leaf = 2 ∨ Leaf.apl l.leaf ≠ 0 then some l.spot.die else none

/-- A failed CAS on a register line writes no byte, and sets the register full (10 R225, R246). -/
def State.touchReg (s : State) (pa : Nat) : State :=
  match s.lineAt pa with
  | some (u, i) => if i = 0 ∨ i = 5 then s else
      let n := 16 * (i - 1) + pa % 128 / 8
      s.put (if n = 0 then u else u.wr n (u.rd n))
  | none => s

/-- The request across a link of an atomic (18 R420). -/
def State.atomicReq (s : State) (t : Thread) (va : Nat) (g : Target) : Option Req :=
  match g with
  | .pad _ _ => none
  | .mem l => match s.atomicHome t.core t.id.sdom va g with
    | some h => s.reqOf t.core .atomic va { l.spot with die := h }
    | none => s.reqOf t.core .atomic va l.spot

/-- Whether the request of an atomic at a home may leave now: a credit of the home is free for it, and for the host tier a route joins
its die to the host (15 R345; 19 R431, R439). -/
def State.atomicGoes (s : State) (t : Thread) (home : Nat) (g : Target) : Bool :=
  s.creditFor (dieOf t.core) home (.thread t.id) && (physUnit g.pa != hostUnit || s.linked (dieOf t.core) 12)

/-- An ATOM or CAS of n bytes: `f` gives the new value from the old, or none when nothing is written (R246). The store
buffer is empty (R243). Across a link it waits for a credit of its home and a route (15 R345, 19 R431, R439). -/
def State.atomic (s : State) (t : Thread) (a : Reg) (n : Nat) (d : Reg) (f : Nat → Option Nat) : Except Stop State :=
  match s.reach t n { ea := regEa t a, n := n, kind := .atomic, write := true } with
  | .error e => .error e
  | .ok g =>
    let va := (t.rd a.toNat).toNat
    let s1 := ((s.syncFrame t.id.sdom va g).landOwn t.id g.pa n).landWords (dieOf t.core) g.pa n
    let t1 := { s1.bindLoads (s1.again t) with req := none, pend := none }
    let home := (s1.atomicHome t.core t.id.sdom va g).getD (dieOf t.core)
    if s1.ctlLine g.pa then
      failAcc .controlLineWrite va .atomic 0
    else match s1.loadBytes t1 va g n with
      | .error e => .error e
      | .ok x =>
        if !s1.atomicGoes t home g then .error (.credit (s1.atomicReq t va g) d.toNat (dieOf t.core) home)
        else match s1.bytesNow t1 va n x with
        | (_, some w) => .ok (s1.retire (t1.produce { regs := [(d.toNat, 0)], flags := 0, float := false, req := none, mem := true
                                                      acq := true, bad := some (.poisonedData, .atomic, w64 w) }))
        | (bs, none) =>
          let old := ofBytes bs
          let s2 := match f old with
            | some v => (s1.put t1).performAt t.id.sdom g (toBytes n v)
            | none => (s1.put t1).touchReg g.pa
          let s3 := s2.takeEntry (.thread t.id) (dieOf t.core) home t.id.sdom g.pa old
          .ok (s3.retire ((s3.again t1).produce { regFill d.toNat (w64 old) with
            req := s1.atomicReq t va g, mem := true, acq := true }))

/-- Bytes of a width (R78). -/
def Width.bytes : Width → Nat
  | .b => 1 | .h => 2 | .w => 4 | .d => 8

/-- g[b][8n-1:0] (R246). -/
def Thread.lowNum (t : Thread) (r : Reg) (n : Nat) : Nat := (t.rd r.toNat).toNat % 2 ^ (8 * n)

/-- An integer ATOM: the new value from the width in bytes, the old value and y (R246). -/
def atomOp (i : Instr) (d a b : Reg) (n : Nat) (f : Nat → Nat → Nat) (s : State) : Host.Outcome State Fault Refusal :=
  word i s (fun s t => s.atomic t a n d (fun old => some (f old (t.lowNum b n))))

/-- ATOM.ADD (R246). -/
def execAtomAdd (d a b : Reg) (wd : Width) (o : AtomOrder) (s : State) : Host.Outcome State Fault Refusal :=
  atomOp (.atomAdd d a b wd o) d a b (Width.bytes wd) (fun x y => x + y) s
/-- ATOM.AND (R246). -/
def execAtomAnd (d a b : Reg) (wd : Width) (o : AtomOrder) (s : State) : Host.Outcome State Fault Refusal :=
  atomOp (.atomAnd d a b wd o) d a b (Width.bytes wd) (fun x y => x &&& y) s
/-- ATOM.OR (R246). -/
def execAtomOr (d a b : Reg) (wd : Width) (o : AtomOrder) (s : State) : Host.Outcome State Fault Refusal :=
  atomOp (.atomOr d a b wd o) d a b (Width.bytes wd) (fun x y => x ||| y) s
/-- ATOM.XOR (R246). -/
def execAtomXor (d a b : Reg) (wd : Width) (o : AtomOrder) (s : State) : Host.Outcome State Fault Refusal :=
  atomOp (.atomXor d a b wd o) d a b (Width.bytes wd) (fun x y => x ^^^ y) s
/-- ATOM.MIN.s (R246). -/
def execAtomMinS (d a b : Reg) (wd : Width) (o : AtomOrder) (s : State) : Host.Outcome State Fault Refusal :=
  atomOp (.atomMinS d a b wd o) d a b (Width.bytes wd)
    (fun x y => if sval x (8 * Width.bytes wd) ≤ sval y (8 * Width.bytes wd) then x else y) s
/-- ATOM.MIN.n (R246). -/
def execAtomMinN (d a b : Reg) (wd : Width) (o : AtomOrder) (s : State) : Host.Outcome State Fault Refusal :=
  atomOp (.atomMinN d a b wd o) d a b (Width.bytes wd) (fun x y => min x y) s
/-- ATOM.MAX.s (R246). -/
def execAtomMaxS (d a b : Reg) (wd : Width) (o : AtomOrder) (s : State) : Host.Outcome State Fault Refusal :=
  atomOp (.atomMaxS d a b wd o) d a b (Width.bytes wd)
    (fun x y => if sval x (8 * Width.bytes wd) ≤ sval y (8 * Width.bytes wd) then y else x) s
/-- ATOM.MAX.n (R246). -/
def execAtomMaxN (d a b : Reg) (wd : Width) (o : AtomOrder) (s : State) : Host.Outcome State Fault Refusal :=
  atomOp (.atomMaxN d a b wd o) d a b (Width.bytes wd) (fun x y => max x y) s
/-- ATOM.SWAP (R246). -/
def execAtomSwap (d a b : Reg) (wd : Width) (o : AtomOrder) (s : State) : Host.Outcome State Fault Refusal :=
  atomOp (.atomSwap d a b wd o) d a b (Width.bytes wd) (fun _ y => y) s
/-- ATOM.FADD.f32 (R246): rounded under RNE, no flag. -/
def execAtomFaddF32 (d a b : Reg) (o : AtomOrder) (s : State) : Host.Outcome State Fault Refusal :=
  atomOp (.atomFaddF32 d a b o) d a b 4 (fun x y => (f32.add .rne (f32.decode x) (f32.decode y)).1) s
/-- ATOM.FADD.f64 (R246). -/
def execAtomFaddF64 (d a b : Reg) (o : AtomOrder) (s : State) : Host.Outcome State Fault Refusal :=
  atomOp (.atomFaddF64 d a b o) d a b 8 (fun x y => (f64.add .rne (f64.decode x) (f64.decode y)).1) s
/-- ATOM.FMAX.f32 (R246, 07 R156). -/
def execAtomFmaxF32 (d a b : Reg) (o : AtomOrder) (s : State) : Host.Outcome State Fault Refusal :=
  atomOp (.atomFmaxF32 d a b o) d a b 4 (fun x y => (f32.minmax true x y).1) s

/-- CAS.W (R246). -/
def execCasW (d a b c : Reg) (o : AtomOrder) (s : State) : Host.Outcome State Fault Refusal :=
  word (.casW d a b c o) s (fun s t =>
    s.atomic t a 4 d (fun old => if old = t.lowNum c 4 then some (t.lowNum b 4) else none))
/-- CAS.D (R246). -/
def execCasD (d a b c : Reg) (o : AtomOrder) (s : State) : Host.Outcome State Fault Refusal :=
  word (.casD d a b c o) s (fun s t =>
    s.atomic t a 8 d (fun old => if old = t.lowNum c 8 then some (t.lowNum b 8) else none))

end Sys2Proof.Machine
end

