-- ==== Sys2Proof/Machine/Units.lean ====
section
/-! DEFINITION. The ramp and burst of matrix units (08 R187, R188; 01 R30): what a core cycle does to them, the ramps an operation
or MXBURST begins, and the steps RAMP_UP_END, RAMP_DOWN_START and RAMP_DOWN_END. -/
namespace Sys2Proof.Machine

/-- Events of a matrix unit, attributed to the domain of the gang that holds it (17 R394). -/
def State.tallyUnit (s : State) (core code n : Nat) : State :=
  match (s.core core).unit.gang with
  | some g => s.tally core (some g.sdom) code n
  | none => s

/-- Whether every unit of a gang is UP (R187). -/
def State.unitsUp (s : State) (g : Gang) : Bool := g.cores.all (fun c => (s.core c).unit.ramp == .up)

/-- Once every unit of a gang is UP its operation in flight takes its first step, and goes on (R187). -/
def State.noteUp (s : State) (i : Option GangId) : State :=
  match i.bind s.gang with
  | none => s
  | some g => match g.op with
    | some op => if !op.going && s.unitsUp g then s.setGang { g with op := some { op with going := true } } else s
    | none => s

/-- Whether the operation of a unit takes its cycles now (R187, R203). -/
def State.opMoves (s : State) (u : MatUnit) : Bool :=
  match u.run, u.gang.bind s.gang with
  | some _, some g => g.op.any (·.going)
  | _, _ => false

/-- One cycle of a core's matrix unit (R187, R188, R203). -/
def State.unitTurn (s0 : State) (core : Nat) : State :=
  let s := s0.noteUp (s0.core core).unit.gang
  let u := (s.core core).unit
  let ramping := u.ramp == .rampUp || u.ramp == .rampDown
  let moves := s.opMoves u
  let s1 := if ramping && 0 < u.left then s.tallyUnit core 0x0D 1 else s
  let s2 := if ramping && 0 < u.stag then s1.tallyUnit core 0x0E 1 else s1
  let s3 := if moves && (match u.run with | some n => decide (48 < n) && decide (n ≤ 48 + u.steps) | none => false) then
      s2.tallyUnit core 0x0C 1
    else s2
  let burst := u.burst - 1
  s3.modUnit core (fun u => { u with
    left := u.left - 1, stag := u.stag - 1, burst := burst
    run := if moves then u.run.map (· - 1) else u.run
    idle := if u.ramp = .up ∧ u.run.isNone ∧ burst = 0 then u.idle + 1 else 0 })

/-- The cores of a die whose units began ramping up in a cycle (01 R30). A unit that ramps up again out of RAMPDOWN counts among them
and is staggered like any other (log 85: DEDUCED). -/
def State.rampsBegun (s : State) (die cycle : Nat) : List Nat :=
  (s.cores.filter (fun x => dieOf x.1 == die && x.2.unit.ramp == .rampUp && x.2.unit.began == cycle)).map (·.1)

/-- A unit begins ramping up for n more cycles in a cycle (01 R30): units of the die that begin together start in ascending core
number, 16 in each cycle, so it is delayed by those below it, and those above it that now stand at a multiple of 16 by one cycle. -/
def State.beginRamp (s : State) (core n : Nat) : State :=
  let cycle := (s.core core).cycle
  let l := s.rampsBegun (dieOf core) cycle
  let below := fun c => (l.filter (fun x => decide (x < c))).length
  let stag := below core / 16
  let s1 := l.foldl (fun s c =>
    if core < c ∧ (below c + 1) % 16 = 0 then s.modUnit c (fun u => { u with left := u.left + 1, stag := u.stag + 1 }) else s) s
  s1.modUnit core (fun u => { u with ramp := .rampUp, left := n + stag, stag := stag, began := cycle, idle := 0 })

/-- R187: an operation starts or MXBURST with a non-zero length on a unit; the cycle in which it happens is the first of the
ramp. -/
def State.rampUp (s : State) (core : Nat) : State :=
  let u := (s.core core).unit
  match u.ramp with
  | .down => (s.beginRamp core 63).tallyUnit core 0x0D 1
  | .rampDown => s.beginRamp core (62 - u.left)
  | _ => s.modUnit core (fun u => { u with idle := 0 })

/-- The step due of a unit: the end of a ramp, the begin of RAMPDOWN, the completion of its operation. -/
def MatUnit.upDue (u : MatUnit) : Bool := u.ramp == .rampUp && u.left == 0
def MatUnit.downDue (u : MatUnit) : Bool := u.ramp == .rampDown && u.left == 0
def MatUnit.idleDue (u : MatUnit) : Bool := u.ramp == .up && decide (256 ≤ u.idle)
def MatUnit.opDue (u : MatUnit) : Bool := u.run == some 0

/-- Step RAMP_UP_END (R187). -/
def execRampUpEnd (core : Nat) (s : State) : Host.Outcome State Fault Refusal :=
  .next (if (s.core core).unit.upDue then
      (s.modUnit core (fun u => { u with ramp := .up, idle := 0, stag := 0 })).noteUp (s.core core).unit.gang
    else s)
/-- Step RAMP_DOWN_START (R187). -/
def execRampDownStart (core : Nat) (s : State) : Host.Outcome State Fault Refusal :=
  .next (if (s.core core).unit.idleDue then s.modUnit core (fun u => { u with ramp := .rampDown, left := 64, idle := 0 }) else s)
/-- Step RAMP_DOWN_END (R187). -/
def execRampDownEnd (core : Nat) (s : State) : Host.Outcome State Fault Refusal :=
  .next (if (s.core core).unit.downDue then s.modUnit core (fun u => { u with ramp := .down, idle := 0 }) else s)

end Sys2Proof.Machine
end

