-- ==== Sys2Proof/Machine/Sched.lean ====
section
/-! DEFINITION. The March unit's turn (02 R52, R53) and the fills, lines and walks that release threads (R32, R34). -/
namespace Sys2Proof.Machine

/-- R403: while a die's upcall queue is full only handler threads are eligible. -/
def State.mayTurn (s : State) (t : Thread) : Bool := t.hnd || !s.upqFull (dieOf t.core)

/-- Whether a thread stands before issue for a condition that may have come to hold (R32): BLOCKED EMPTY, with no walk and no
issued instruction, but for an atomic whose request waits to leave (15 R345). -/
def Thread.waitsCredit (t : Thread) : Bool := match t.pend with | some (.atomic _) => true | _ => false
def Thread.blockedBefore (t : Thread) : Bool := t.st == .blocked .empty && (t.pend.isNone || t.waitsCredit) && t.walk.isNone

/-- Evaluate one thread at its phase's turn (R52): its new state, and the word it may issue. -/
def State.evalTurn (s : State) (t : Thread) : State × Option (Tid × Option Nat) :=
  if !((t.st == .resident || t.blockedBefore) && t.ctl && !t.preempt && s.mayTurn t) then (s, none)
  else if (!t.asyncs.isEmpty || t.killed) && !t.waitsCredit then (s.boundary t.id 0, none)
  else
    let u := { t with st := .resident }
    match s.turnView u with
    | .mayIssue w => (s.put u, some (t.id, w))
    | .notYet => (s.put u, none)
    | .stops (.fault f) w => (s.parkWhenFree u f false w, none)
    | .stops .block _ | .stops (.credit _ _ _ _) _ => (s.put { t with st := .blocked .empty }, none)
    | .stops (.walk r) _ => (s.put { t with st := .blocked .empty, walk := some r }, none)
    | .stops .line _ => ((s.put { t with st := .blocked .line }).tally t.core (some t.id.sdom) 0x05 1, none)
    | .stops .lock _ => ((s.put { t with st := .blocked .lock }).tally t.core (some t.id.sdom) 0x06 1, none)

/-- The threads bound to a phase of a core. -/
def State.phaseThreads (s : State) (core p : Nat) : List Thread :=
  s.threads.filter (fun t => t.core == core && (match t.slot with | some (q, _) => q == p | none => false))

/-- Evaluate every thread of a phase (R52). -/
def State.evalPhase (s : State) (core p : Nat) : State × List (Tid × Option Nat) :=
  (s.phaseThreads core p).foldl (fun (x : State × List (Tid × Option Nat)) t =>
    match x.1.find t.id with
    | none => x
    | some u => match x.1.evalTurn u with
      | (s1, some c) => (s1, x.2 ++ [c])
      | (s1, none) => (s1, x.2)) (s, [])

/-- The slot number of a thread within its phase. -/
def Thread.slotNo (t : Thread) : Nat := match t.slot with | some (_, k) => k | none => 0

/-- Insert a thread by slot number. -/
def insertSlot (t : Thread) : List Thread → List Thread
  | [] => [t]
  | u :: l => if t.slotNo ≤ u.slotNo then t :: u :: l else u :: insertSlot t l

/-- The issue group of a phase's candidates (R52): the oldest thread, ties to the lowest slot, and those that share its PC and
domain, in ascending slot order (R53). -/
def groupOf (l : List Thread) : List Thread :=
  let l' := l.foldr insertSlot []
  match greatestBy (·.age) l' with
  | none => []
  | some t =>
    -- the first in slot order among the oldest
    match l'.find? (fun u => u.age == t.age) with
    | none => []
    | some t => l'.filter (fun u => u.pc == t.pc && u.id.sdom == t.id.sdom)

/-- Ages after a turn, and the cycle of issue of the group (R52, R53). -/
def State.ageTurn (s : State) (core p : Nat) (issued : List Tid) : State :=
  let cycle := (s.core core).cycle
  { s with threads := s.threads.map (fun t =>
      if t.core = core ∧ (match t.slot with | some (q, _) => q == p | none => false) = true then
        if issued.contains t.id then { t with age := 0, issuedAt := cycle } else { t with age := min (t.age + 1) 65535 }
      else t) }

/-- Events of the cycle that need no unit of their own (17 R394). -/
def State.tallyCycle (s : State) (core : Nat) (group : List Thread) : State :=
  let s1 := s.tally core none 0x00 1
  let s2 := match group with
    | [] => s1.tally core none 0x03 1
    | t :: _ => (s1.tally core (some t.id.sdom) 0x01 1).tally core (some t.id.sdom) 0x02 group.length
  let s3 := (s2.threads.filter (fun t => t.core == core && t.st == .blocked .empty && t.holdsSlot)).foldl
    (fun s t => s.tally core (some t.id.sdom) 0x04 1) s2
  let doms := ((s3.threads.filter (fun t => t.core == core && t.holdsSlot)).map (·.id.sdom)).eraseDups
  doms.foldl (fun s d => [0x0A, 0x0B].foldl (fun s k => s.tally core (some d) k (Config.cacheEvents s.draws (256 * d + k))) s) s3

/-- One cycle of a core: the counters take the events of the cycle before (17 R394), then come its matrix unit (08 R187) and the turn of
phase cycle mod 16 (R52). -/
def State.turn (s0 : State) (core : Nat) : State :=
  let s := (s0.countCycle core).unitTurn core
  let p := (s.core core).cycle % 16
  let (s1, cand) := s.evalPhase core p
  let group := groupOf (cand.filterMap (fun c => s1.find c.1))
  let ids := group.map (·.id)
  let w := cand.findSome? (fun c => if ids.contains c.1 then c.2 else none)
  let s2 := (s1.ageTurn core p ids).tallyCycle core group
  let c := s2.core core
  { s2.setCore core { c with cycle := c.cycle + 1 } with issue := ids, fetched := w }

/-- One cycle of a core that is being retired (19 R433): nothing issues, and an operation in flight goes on. -/
def State.idleTurn (s0 : State) (core : Nat) : State :=
  let s := (s0.countCycle core).unitTurn core
  let c := s.core core
  s.setCore core { c with cycle := c.cycle + 1 }

/-- Step PHASE_TURN (R52): the group's threads execute in the steps that follow (R53). -/
def execPhaseTurn (core : Nat) (s : State) : Host.Outcome State Fault Refusal :=
  event (if s.stage = .running ∧ s.halted = false ∧ s.issue = [] then
      if s.coreOn core = true then s.turn core
      else if s.retiring.contains core then s.idleTurn core
      else s
    else s)

/-- Release a thread that was BLOCKED EMPTY on a register, if it no longer is (R32). -/
def State.recheck (s : State) (i : Tid) : State :=
  match s.find i with
  | none => s
  | some t =>
    if t.blockedBefore then
      match s.turnView { t with st := .resident } with
      | .stops .block _ => s
      | _ => s.put { t with st := .resident }
    else s

/-- A pair load of the host tier of which no half is performed yet (11 R242). -/
def LoadSrc.hostPair (x : LoadSrc) : Bool := x.n == 16 && physUnit x.pa == hostUnit && x.half.isNone

/-- A fill writes whole registers: those in lines that no context cache holds carry no poison mark any more (18 R418). -/
def State.clearMarks (s : State) (t : Thread) (regs : List (Nat × Word)) : State :=
  match t.placed with
  | none => s
  | some l => if s.poison.isEmpty then s else regs.foldl (fun s r =>
      if t.cached (lineOf r.1) then s else s.unpoison (l.getD (lineOf r.1) 0 + 8 * (r.1 % 16)) 8) s

/-- DETAIL of a fault that a load ends in when its value is due: the level, where its page is absent (13 R290). -/
def State.fillDetail (s : State) (t : Thread) (f : Fill) (c : Cause) : Nat :=
  match f.src with
  | some x => if c = .pageNotPresent then
      match s.walkTable (dieOf t.core) t.id.sdom x.va .load with | .error e => e.detail | .ok _ => 0
    else 0
  | none => 0

/-- Deliver the k-th outstanding fill of a thread (R34, 07 R152), unless its request is past its bound (18 R420): a load binds its value now, after those before it (12 R259, R266);
registers and flags at once, or the class A fault it ended in, which waits while the upcall queue is full (18 R403). Of a pair of the host tier one half, either, is performed first. -/
def State.deliverFill (s : State) (t0 : Thread) (k : Nat) : State :=
  let t := s.bindUpTo t0 k
  match t.fills[k]? with
  | none => s
  | some f =>
    if f.req.any s.reqLost || f.src.any (fun x => s.recalling (s.srcPa t x)) then s
    else if f.src.any LoadSrc.hostPair then
      let h := Config.free 82 s.draws % 2
      let half := f.src.map (fun x => { x with half := some (h, s.loadAt { t with stores := t.stores.take f.pos } (s.srcPa t x + 8 * h) 8) })
      s.put { t with fills := t.fills.set k { f with src := half } }
    else
      let f1 := s.bindFill t f
      let t1 := { t.dropFill k s.tick with saw := s.sawWith t [f] }
      match f1.bad with
      | some (c, kind, a) => if s.upqFull (dieOf t.core) then s else (s.put t1).raiseAsync t.id c kind (s.fillDetail t f c) a
      | none =>
        let t2 := (f1.regs.foldl (fun t x => t.wr x.1 x.2) t1).noted (f1.regs.map (fun x => 16 + x.1))
        ((s.clearMarks t f1.regs).put { t2 with fpf := t2.fpf ||| f1.flags }).recheck t.id

/-- The reply to the k-th request still out of threads of a name that are DONE by now is discarded (R34). -/
def State.orphanFill (s : State) (i : Tid) (k : Nat) : State :=
  match (s.orphans.filter (fun x => x.1.tid == some i))[k]? with
  | some x => if s.reqLost x.2 then s else { s with orphans := s.orphans.erase x }
  | none => s

/-- Step REGISTER_FILL (R34): the reply to a request of a thread that is DONE by now is discarded. -/
def execRegisterFill (i : Tid) (k : Nat) (s : State) : Host.Outcome State Fault Refusal :=
  event (match s.find i with
    | none => s.orphanFill i k
    | some t => if k < t.fills.length then s.deliverFill t k else s.orphanFill i (k - t.fills.length))

/-- The first register line a thread's next instruction needs and has not (R32). -/
def State.missingLine (s : State) (t : Thread) : Option Nat :=
  match s.fetchWord t with
  | .error _ => none
  | .ok w => match decodeWord w with
    | .error _ => none
    | .ok i => ((namedRegs i).find? (fun n => n != 0 && decide (n < t.count) && !t.linesIn.contains (lineOf n))).map lineOf

/-- Step REGISTER_LINE_ARRIVAL (R32): the line arrives, or its page raises a context fault (05 R124). -/
def execRegisterLineArrival (i : Tid) (s : State) : Host.Outcome State Fault Refusal :=
  event (match s.find i with
    | none => s
    | some t =>
      if t.st = .blocked .line ∧ s.frameWaits (dieOf t.core) t.id = false then
        match s.framePlaces (dieOf t.core) t.id (s.missingLine t).toList with
        | .error f => s.parkWhenFree t f true 0
        | .ok _ =>
          match s.missingLine t with
          | none => s.put { t with st := .resident }
          | some n => match s.framePoison t n with
            | some f => s.parkWhenFree t f true 0
            | none =>
              let s1 := s.cacheRoom t.core
              let u := s1.again t
              s1.put { u with st := .resident, linesIn := u.linesIn ++ [n] }
      else s)

/-- The fault that follows a walk that found a leaf: the permission, then the place of the byte (R290, R306). -/
def State.leafFault (s : State) (t : Thread) (w : WalkReq) (leaf : Word) : Option Flt :=
  let flt := fun c => some { cause := c, addr := w64 w.va, kind := w.kind, detail := 0, fetch := w.fetch : Flt }
  if !permits leaf w.kind w.write w.fetch then flt .permission
  else match s.locOf (dieOf t.core) t.id.sdom w.va leaf w.write with
    | .error _ => none
    | .ok l =>
      if s.carveWaits l.spot || (l.spot.inRange && s.carveAdmits t.id.sdom l.spot) then none else flt .placementRange

/-- R290, R291: the end of a walk that holds a thread: that of a fetch enters the TLB and the die's walk cache (R298), that of an access
waits for its instruction, which uses it when it does not fault; an instruction that faults leaves the leaf its A and D (R307). -/
def State.endWalk (s : State) (t : Thread) (w : WalkReq) : State :=
  let die := dieOf t.core
  if s.walkWaits die t.id.sdom w.va then s
  else match s.walk die t.id.sdom w.va w.kind w.write with
  | .error f => s.parkWhenFree t { f with fetch := w.fetch } false (if w.fetch then 0 else s.peekWord t)
  | .ok x => match s.leafFault t w x.leaf with
    | some f => s.parkWhenFree t f false (if w.fetch then 0 else s.peekWord t)
    | none =>
      let f : Fresh := { tid := t.id, va := w.va, write := w.write, leaf := x.leaf, entryPa := x.entryPa, path := x.path }
      let s1 :=
        if w.fetch then s.useFresh t.core f
        else
          let c := s.core t.core
          s.setCore t.core { c with fresh := f :: c.fresh }
      s1.put { s1.again t with walk := none, st := .resident }

/-- Step WALK_END (R290). -/
def execWalkEnd (i : Tid) (s : State) : Host.Outcome State Fault Refusal :=
  event (match s.find i with
    | none => s
    | some t => match t.walk with
      | some w => if t.st = .blocked .empty then s.endWalk t w else s
      | none => s)

/-- The oldest store of a thread that has drained and not reached its global point reaches it, or by a free value a later one
(12 R273). -/
def State.landOldest (s : State) (i : Tid) : State :=
  let l := s.early.filter (fun x => x.tid == i)
  match l[Config.free 106 s.draws / 4 % (l.length + (if l.isEmpty then 1 else 0))]? with
  | some x => s.landEarlyWhere (fun y => y == x)
  | none => s

/-- Step STORE_BUFFER_DRAIN (15 R341): the oldest buffered store drains; or, where one has drained before, and always where none is buffered, that
one reaches its global point (12 R273; log 106). An event of the thread that waited for a held store follows (18 R411). -/
def execStoreBufferDrain (i : Tid) (s : State) : Host.Outcome State Fault Refusal :=
  event (match s.find i with
    | none => s.landOldest i
    | some t =>
      let s1 := if s.early.any (·.tid == i) && (t.stores.isEmpty || bit (Config.free 106 s.draws) 1) then s.landOldest i else s.drainOne t
      if t.asyncs.isEmpty && !t.killed then s1 else s1.boundary t.id 0)

end Sys2Proof.Machine
end

