-- ==== Sys2Proof/Machine/ThreadQ.lean ====
section
/-! DEFINITION. Threads, messages and waiting (16 R348 to R368, 15 R338 to R340): major 0x30, EXIT, and the steps that answer
and end these instructions. -/
namespace Sys2Proof.Machine

/-- R350: the bits of a handle operand. -/
def handleOk (w : Word) : Bool := wbits w 63 47 == 0 && w != 0

/-- R350: access the frame's control line of a handle, after the held writes to it (22 R471), and name its live thread for the issuer's
domain; handle 0 stands for none. -/
def State.frameNamed (s : State) (t : Thread) (h : Nat) (write : Bool) : Except Stop (State × Tid) :=
  match s.access t.core t.id.sdom 8 { ea := frameAddr h, n := 8, kind := if write then .store else .load, write := write } with
  | .error e => .error e
  | .ok g =>
    if s.ctxWaits t.id.sdom (frameAddr h) g then .error .block
    else
      let isCtx := match g.leaf? with | some l => Leaf.cls l == 3 | none => false
      .ok (s.syncFrame t.id.sdom (frameAddr h) g, { sdom := t.id.sdom, handle := if isCtx then h else 0 })

/-- R350 with the thread-operand fault. -/
def State.handleArg (s : State) (t : Thread) (a : Reg) (write : Bool) : Except Stop (State × Tid) :=
  if handleOk (t.rd a.toNat) then s.frameNamed t (t.rd a.toNat).toNat write
  else failWith .threadOperand (t.rd a.toNat)

/-- Issue an instruction that holds its thread until its reply (R351). -/
def State.hold (s : State) (t : Thread) (w : Nat) (p : Pend) : State :=
  s.put { t with st := .blocked .empty, pend := some p, iword := w }

/-- R352: a task word within its limits. -/
def State.taskOk (s : State) (t : Thread) (w entry : Word) : Bool :=
  let core := if bit w.toNat 49 then t.core else wbits w 60 50
  wbits w 46 0 != 0 && wbits w 63 61 == 0 && (!bit w.toNat 49 || wbits w 60 50 == 0) && s.coreOn core &&
  entry.toNat % 4 == 0 && canonical entry.toNat && !inWindow (frameAddr (wbits w 46 0))

/-- SPAWN and CALLAT (R352, R353). -/
def State.spawnInstr (s : State) (t : Thread) (w : Nat) (d a : Reg) (b : BitVec 4) (callat : Bool) : Except Stop State :=
  let task := t.rd d.toNat
  if !s.taskOk t task (t.rd a.toNat) then failWith .taskOperand task
  else
    let e : TaskEnt :=
      { pc := t.rd a.toNat
        args := if b = 0 then [0, 0, 0, 0] else (argGroup b.toNat).map t.rd
        region := t.region, home := t.home, sdom := t.id.sdom, lines := wbits task 48 47 + 1, handle := wbits task 46 0
        caller := w64 (t.id.handle + b2n callat * 2 ^ 63), from' := t.id, parked := false }
    .ok (s.hold t w (.spawn (if bit task.toNat 49 then t.core else wbits task 60 50) e))

/-- SPAWN (R353). -/
def execSpawn (d a : Reg) (b : BitVec 4) (s : State) : Host.Outcome State Fault Refusal :=
  word (.spawn d a b) s (fun s t => s.spawnInstr t (wordOf (.spawn d a b)) d a b false)
/-- CALLAT (R353). -/
def execCallat (d a : Reg) (b : BitVec 4) (s : State) : Host.Outcome State Fault Refusal :=
  word (.callat d a b) s (fun s t => s.spawnInstr t (wordOf (.callat d a b)) d a b true)

/-- SEND (R356). -/
def execSend (d a b : Reg) (s : State) : Host.Outcome State Fault Refusal :=
  word (.send d a b) s (fun s t =>
    let w := t.rd a.toNat
    if wbits w 46 0 = 0 then failWith .threadOperand w
    else if bit w.toNat 47 || decide (0xFFF0 ≤ wbits w 63 48) then failWith .messageOperand w
    else match s.frameNamed t (wbits w 46 0) true with
      | .error e => .error e
      | .ok (s, h) => .ok (s.hold (s.again t) (wordOf (.send d a b)) (.send h (wbits w 63 48) (t.rd b.toNat) d.toNat)))

/-- The registers of a polled or timed-out RECV (R357, R358). -/
def recvNone (pair : Nat) : List (Nat × Word) := [(2 * pair, 0), (2 * pair + 1, w64 (0xFFFF * 2 ^ 48))]

/-- A fill of several registers. -/
def regsFill (l : List (Nat × Word)) : Fill := { regs := l, flags := 0, float := false, req := none, bad := none }

/-- A waiting instruction passes to WAITING (R360): it has no other effect. Its test comes after the thread's earlier loads (12 R266). -/
def State.goWait (s : State) (t : Thread) (k : WaitKind) (c : WaitCond) (arg deadline : Word) : State :=
  s.put { s.bindLoads t with st := .waiting k, cond := some c, waitarg := arg, deadline := deadline, waitSince := s.tick }

/-- RECV (R357). -/
def execRecv (d : PairReg) (a : Reg) (s : State) : Host.Outcome State Fault Refusal :=
  word (.recv d a) s (fun s t =>
    if 0 < t.incnt then
      let (t1, p, q) := t.takeMsg
      .ok (s.retire (t1.produce (regsFill [(2 * d.toNat, p), (2 * d.toNat + 1, q)])))
    else if t.rd a.toNat = 0 then .ok (s.retire (t.produce (regsFill (recvNone d.toNat))))
    else .ok (s.goWait t .recv (.recv d.toNat) 0 (s.deadlineOf (t.rd a.toNat))))

/-- WAIT (R361). -/
def execWait (d a : Reg) (b : PairReg) (s : State) : Host.Outcome State Fault Refusal :=
  word (.wait d a b) s (fun s t =>
    let addr := t.rd a.toNat
    match s.access t.core t.id.sdom 8 { ea := addr.toNat, n := 8, kind := .load, write := false } with
    | .error e => .error e
    | .ok g =>
      let s1 := s.syncFrame t.id.sdom addr.toNat g
      let t1 := s1.again t
      match s1.loadBytes t1 addr.toNat g 8 with
      | .error e => .error e
      | .ok x =>
        let u := s1.bindLoads t1
        let req := s1.loadReq t1 .load addr.toNat x
        match s1.bytesNow u addr.toNat 8 x with
        | (_, some w) => .ok (s1.retire (u.produce { regs := [(d.toNat, 0)], flags := 0, float := false, req := none,
                                                     bad := some (.poisonedData, .load, w64 w) }))
        | (bs, none) =>
          let v := w64 (ofBytes bs)
          if v ≠ t.rd (2 * b.toNat) ∨ t.rd (2 * b.toNat + 1) = 0 then
            .ok (s1.retire (u.produce { regFill d.toNat v with req := req }))
          else .ok (s1.goWait t1 .wait (.watch g.pa (t.rd (2 * b.toNat)) d.toNat) addr
            (s1.deadlineOf (t.rd (2 * b.toNat + 1)))))

/-- SLEEP (R362). -/
def execSleep (a : Reg) (s : State) : Host.Outcome State Fault Refusal :=
  word (.sleep a) s (fun s t =>
    if t.rd a.toNat = 0 then .ok (s.retire t)
    else .ok (s.goWait t .wait .sleep 0 (s.deadlineOf (t.rd a.toNat))))

/-- The end of a WAIT or SLEEP by WAKE or the deadline (R361, R362). -/
def State.endWaitKind (s : State) (u : Thread) : State :=
  match u.cond with
  | some (.watch pa _ reg) => s.completeWait u [(reg, s.viewWord u pa)]
  | _ => s.completeWait u []

/-- WAKE (R363). -/
def execWake (d a : Reg) (s : State) : Host.Outcome State Fault Refusal :=
  word (.wake d a) s (fun s t =>
    match s.handleArg t a true with
    | .error e => .error e
    | .ok (s, h) =>
      match s.find h with
      | some u =>
        if u.st = .waiting .wait then
          let s1 := s.endWaitKind u
          .ok (s1.retire ((s1.again t).produce (regFill d.toNat 1)))
        else .ok (s.retire ((s.again t).produce (regFill d.toNat 0)))
      | none => .ok (s.retire ((s.again t).produce (regFill d.toNat 0))))

/-- Threads assigned to a core that are READY or hold a slot (R364). -/
def State.loadOf (s : State) (core : Nat) : Nat :=
  (s.threads.filter (fun t => t.core == core && (t.st == .ready || t.holdsSlot))).length

/-- The target core of MIGR (R364). -/
def State.migrTarget (s : State) (w : Word) : Option Nat :=
  if wbits w 63 12 ≠ 0 then none
  else if bit w.toNat 11 then
    if wbits w 10 3 ≠ 0 then none
    else leastBy s.loadOf ((upto (wbits w 2 0 * 256) 256).filter s.coreOn)
  else if s.coreOn (wbits w 10 0) then some (wbits w 10 0) else none

/-- The record address of a thread's gang. -/
def Thread.gangRecord (t : Thread) : Word := match t.gang with | some g => w64 g.record | none => 0

/-- MIGR (R364). -/
def execMigr (a : Reg) (s : State) : Host.Outcome State Fault Refusal :=
  word (.migr a) s (fun s t =>
    match s.migrTarget (t.rd a.toNat) with
    | none => failWith .migrateOperand (t.rd a.toNat)
    | some c =>
      if t.gang.isSome then failWith .gangBound t.gangRecord
      else if c = t.core then .ok (s.retire t)
      else if s.stuck t then .error .block
      else
        let s1 := (s.retire t).toReady { t with pc := t.pc + 4 }
        .ok (s1.put { s1.again t with core := c }))

/-- PRIO (R365). While the region's chain cannot be read the thread's own priority stands for its region's (log 99). -/
def execPrio (a : Reg) (s : State) : Host.Outcome State Fault Refusal :=
  word (.prio a) s (fun s t =>
    let v := (t.rd a.toNat).toNat
    let rp := match s.chain (dieOf t.core) t.home t.region with | .ok l => effPrio l | .error _ => t.prio
    if v = 0xFF then .ok (s.retire { t with prio := rp, priol := false })
    else if v ≤ 63 then .ok (s.retire { t with prio := min v rp, priol := decide (v < rp) })
    else failWith .prioOperand (t.rd a.toNat))

/-- The state word of THR (R366). -/
def Thread.stateWord (u : Thread) : Word :=
  w64 (u.st.code + u.st.sub * 2 ^ 3 + (match u.slot with | some (p, _) => 2 ^ 6 + p % 16 * 2 ^ 7 | none => 0)
    + u.core % 2048 * 2 ^ 11 + u.incnt % 8 * 2 ^ 22 + u.fcause % 256 * 2 ^ 25 + (u.lines - 1) % 4 * 2 ^ 33)

/-- The poisoned word of the frame of a handle that a read of its state meets (18 R418). -/
def State.ctlPoison (s : State) (t : Thread) (h : Nat) : Option Nat :=
  match s.access t.core t.id.sdom 8 { ea := frameAddr h + 8, n := 8, kind := .load, write := false } with
  | .ok g => s.loadPoison t (frameAddr h + 8) g.pa 8
  | .error _ => none

/-- THR (R366). A poisoned state word leaves the destination empty (18 R418). -/
def execThr (d a : Reg) (s : State) : Host.Outcome State Fault Refusal :=
  word (.thr d a) s (fun s t =>
    if t.rd a.toNat = 0 then .ok (s.retire (t.produce (regFill d.toNat 0)))
    else match s.handleArg t a false with
      | .error e => .error e
      | .ok (s, h) =>
        let v := match s.find h with | some u => u.stateWord | none => 0
        match s.ctlPoison t (t.rd a.toNat).toNat with
        | some w => .ok (s.retire ((s.again t).produce { regFill d.toNat 0 with bad := some (.poisonedData, .load, w64 w) }))
        | none => .ok (s.retire ((s.again t).produce (regFill d.toNat v))))

/-- Whether a region is another one or an ancestor of it, found through PARENT (R367). -/
def State.atOrAbove (s : State) (die home anc : Nat) : Nat → Nat → Bool
  | 0, _ => false
  | k + 1, va => va == anc || (match s.rcb die home va with
    | none => false
    | some r => r.parent != 0 && s.atOrAbove die home anc k r.parent)

/-- R367: whether an issuer is entitled to a target: its handler, or of its region or an ancestor in at most eight steps. -/
def State.entitled (s : State) (t u : Thread) : Bool :=
  (t.hnd && t.upv == u.id.handle && t.id.sdom == u.id.sdom) ||
  (t.home == u.home && s.atOrAbove (dieOf t.core) u.home t.region 9 u.region)

/-- RESUME and KILL up to their reply (R367, R351): the privilege fault comes before those of the access to the frame (R368). -/
def State.controlInstr (s : State) (t : Thread) (w : Nat) (a : Reg) (p : Tid → Pend) : Except Stop State :=
  match s.named { sdom := t.id.sdom, handle := (t.rd a.toNat).toNat } with
  | some u =>
    if s.entitled t u then
      match s.handleArg t a true with
      | .error e => .error e
      | .ok (s, h) => .ok (s.hold (s.again t) w (p h))
    else if s.chainWaits (dieOf t.core) u.home 9 u.region then .error .block
    else failWith .privilege 0
  | none =>
    match s.handleArg t a true with
    | .error e => .error e
    | .ok (s, h) => .ok (s.hold (s.again t) w (p h))

/-- RESUME (R367). -/
def execResume (d a : Reg) (s : State) : Host.Outcome State Fault Refusal :=
  word (.resume d a) s (fun s t => s.controlInstr t (wordOf (.resume d a)) a (fun h => .resume h d.toNat))
/-- KILL (R367). -/
def execKill (d a : Reg) (s : State) : Host.Outcome State Fault Refusal :=
  word (.kill d a) s (fun s t => s.controlInstr t (wordOf (.kill d a)) a (fun h => .kill h d.toNat))

/-- EXIT (R359, R146): without a return message the thread is DONE at once, its buffered stores drained; with one it waits for the
reply. -/
def execExit (s : State) : Host.Outcome State Fault Refusal :=
  word .exit s (fun s t =>
    if t.gang.isSome then failWith .gangBound t.gangRecord
    else
      let g1 := t.rd 1
      if bit g1.toNat 63 && wbits g1 46 0 != 0 then
        match s.frameNamed t (wbits g1 46 0) true with
        | .error e => .error e
        | .ok (s, _) => .ok (s.hold (s.again t) (wordOf .exit) .exit)
      else if s.stuck t then .error .block
      else .ok (s.makeDone { t with pc := t.pc + 4 }))

/-! Replies (R351, R339). -/

/-- The reply completes the instruction: registers written, PC + 4, RESIDENT, then the boundary. -/
def State.replyDone (s : State) (i : Tid) (regs : List (Nat × Word)) : State :=
  match s.find i with
  | none => s
  | some t =>
    let t1 := regs.foldl (fun t x => t.wr x.1 x.2) t
    (s.put { t1 with pend := none, st := .resident, pc := t.pc + 4 }).boundary i t.iword

/-- A negative acknowledgement (R339). -/
def State.replyNack (s : State) (t : Thread) : State :=
  ((s.put { t with pend := none, st := .blocked .feretry, retryAt := (s.core t.core).cycle + 256 }).tally t.core
    (some t.id.sdom) 0x07 1).tally t.core (some t.id.sdom) 0x0F 1

/-- Threads of a group that materialise together: a gang, or one thread (02 R38). -/
def Launch.unit (l : Launch) : Nat := if l.gshape = 0 then 1 else l.gm

/-- Threads that follow one another at one core or quad of a launch (02 R37). -/
def Launch.block (l : Launch) : Nat :=
  l.unit * (if l.pack then (if l.gshape = 2 then 2048 else 512) / l.unit else 1)

/-- How many of the first n threads of a launch are assigned to its k-th core or quad (02 R37). -/
def Launch.below (l : Launch) (k n : Nat) : Nat :=
  let row := l.block * l.cores.length
  n / row * l.block + min l.block (n % row - k * l.block)

/-- The UNBORN threads of a launch at its k-th core or quad. -/
def Launch.unbornAt (l : Launch) (k : Nat) : Nat := l.below k l.count - l.below k l.next

/-- The UNBORN threads of a launch assigned to a core; those of a quad gang lie round-robin on its cores (02 R37). -/
def Launch.unborn (l : Launch) (c : Nat) : Nat :=
  if l.cancelled then 0
  else if l.gshape = 2 then
    match l.cores.findIdx? (· == quadOf c), [0, 1, 16, 17].findIdx? (fun k => quadBase (quadOf c) + k == c) with
    | some k, some p => l.unbornAt k / l.gm * ((l.gm + 3 - p) / 4)
    | _, _ => 0
  else match l.cores.findIdx? (· == c) with
    | some k => l.unbornAt k
    | none => 0

/-- Threads assigned to a core, UNBORN ones among them (19 R433). -/
def State.assigned (s : State) (c : Nat) : Nat :=
  s.launches.foldl (fun n l => n + l.unborn c) (s.threads.filter (fun t => t.core == c)).length

/-- 19 R433 step 2: where a thread of a core that is no longer enabled goes. -/
def State.refuge (s : State) (core : Nat) : Nat :=
  if s.coreOn core then core
  else match leastBy s.assigned ((upto (256 * dieOf core) 256).filter s.coreOn) with
    | some c => c
    | none => ((upto 0 2048).find? s.coreOn).getD core

/-- The threads assigned to the cores of a quad, UNBORN ones among them (19 R433). -/
def State.quadAssigned (s : State) (q : Nat) : Nat :=
  [0, 1, 16, 17].foldl (fun n k => n + s.assigned (quadBase q + k)) 0

/-- Quads of a die, or of the package, whose cores are all enabled. -/
def State.wholeQuads (s : State) (lo n : Nat) : List Nat :=
  (upto lo n).filter (fun q => [0, 1, 16, 17].all (fun k => s.coreOn (quadBase q + k)))

/-- 19 R433 step 2: where a quad gang goes whose quad has lost a core. -/
def State.quadRefuge (s : State) (q : Nat) : Nat :=
  match leastBy s.quadAssigned (s.wholeQuads (alignDown q 64) 64) with
  | some x => x
  | none => (s.wholeQuads 0 512).head?.getD q

/-- Whether a request from a core may arrive now: those that arrive in one cycle come in ascending source core number (R338, R346). -/
def orderedArrival (last : Option (Nat × Nat)) (now src : Nat) : Bool :=
  match last with
  | some (c, k) => c != now || decide (k ≤ src)
  | none => true

/-- A task request reaches its core (R338, R339), or the core that took over from it (19 R443). -/
def State.spawnReply (s : State) (t : Thread) (target : Nat) (e : TaskEnt) : State :=
  let core := s.refuge target
  let c := s.core core
  if !orderedArrival c.arrived c.cycle t.core then s
  else
    let c1 := { c with arrived := some (c.cycle, t.core) }
    if c.taskRes.admits c.taskq.length 64 t.id then
      (s.setCore core { c1 with taskq := c.taskq ++ [e], taskRes := c.taskRes.accepted t.id }).replyDone t.id []
    else (s.setCore core { c1 with taskRes := c.taskRes.nacked c.taskq.length 64 t.id }).replyNack t

/-- RESUME of a FAULTED thread (R367): READY on its assigned core; a parked task entry leaves its queue (R355), and the place it frees
is reserved (R339). -/
def State.resumeThread (s : State) (u : Thread) : State :=
  let c := s.core u.core
  let own := fun (e : TaskEnt) => e.parked && e.handle == u.id.handle && e.sdom == u.id.sdom
  let s1 := s.setCore u.core { c with
    taskq := c.taskq.filter (fun e => !own e)
    taskRes := (c.taskq.filter own).foldl (fun r _ => r.freed s.tick) c.taskRes }
  s1.put { u with st := .ready, fcause := 0, readySince := s.tick, aged := 0 }

/-- The reply to RESUME (R367). -/
def State.resumeReply (s : State) (t : Thread) (h : Tid) (reg : Nat) : State :=
  match s.find h with
  | some u => if u.st = .faulted then (s.resumeThread u).replyDone t.id [(reg, 0)] else s.replyDone t.id [(reg, 1)]
  | none => s.replyDone t.id [(reg, 1)]

/-- The reply to KILL (R367): the target is DONE at its boundary; KILL completes once the message is placed. -/
def State.killReply (s : State) (t : Thread) (h : Tid) (reg : Nat) : State :=
  match s.find h with
  | none => s.replyDone t.id [(reg, 1)]
  | some u =>
    if u.id = t.id then if s.stuck t then s else
      (s.put { t with pend := none }).killNow { t with pend := none, pc := t.pc + 4 } none
    else if !s.mayLeave u then s.put { u with killed := true }
    else (s.killWaiting (some t.id)).killNow u (some t.id)

/-- The reply to SEND (R356). -/
def State.sendReply (s : State) (t : Thread) (h : Tid) (tag : Nat) (val : Word) (reg : Nat) : State :=
  match s.find h with
  | none => s.replyDone t.id [(reg, 1)]
  | some u =>
    if u.incnt < 4 then (s.deliver u { payload := val, src := t.id.handle, tag := tag }).replyDone t.id [(reg, 0)]
    else s.replyNack t

/-- The reply to EXIT's return message (R359): g1 and g8 are taken as they stand now. -/
def State.exitReply (s : State) (t : Thread) : State :=
  let g1 := t.rd 1
  match (if bit g1.toNat 63 then s.named { sdom := t.id.sdom, handle := wbits g1 46 0 } else none) with
  | none => if s.stuck t then s else s.makeDone { t with pend := none, pc := t.pc + 4 }
  | some u =>
    if s.stuck t then s
    else if u.incnt < 4 then
      let s1 := s.deliver u { payload := t.rd 8, src := t.id.handle, tag := 0xFFFE }
      let t1 := s1.again t
      s1.makeDone { t1 with pend := none, pc := t1.pc + 4 }
    else s.replyNack t

/-- Step INSTRUCTION_REPLY (R351); the requests of one issue group to one place come in slot order (R53). -/
def execInstructionReply (i : Tid) (s : State) : Host.Outcome State Fault Refusal :=
  event (match s.find i with
    | none => s
    | some t => if !s.groupFirst t then s else match t.pend with
      | some (.spawn core e) => s.spawnReply t core e
      | some (.send h tag val reg) => s.sendReply t h tag val reg
      | some (.resume h reg) => s.resumeReply t h reg
      | some (.kill h reg) => s.killReply t h reg
      | some .exit => s.exitReply t
      | _ => s)

/-- Step WAIT_DEADLINE (R360): the deadline of a WAIT, SLEEP, RECV or FILL.WAIT has come. -/
def execWaitDeadline (i : Tid) (s : State) : Host.Outcome State Fault Refusal :=
  event (match s.find i with
    | none => s
    | some t =>
      if !s.deadlinePassed t then s
      else match t.st, t.cond with
        | .waiting .wait, _ => s.endWaitKind t
        | .waiting .recv, some (.recv pair) => s.completeWait t (recvNone pair)
        | .waiting .fill, some (.fill pa _ reg) => s.completeWait t [(reg, s.viewWord t pa)]
        | _, _ => s)

/-- Step KILL_MESSAGE_RETRY (R367): the k-th held kill message is offered again. -/
def execKillMessageRetry (k : Nat) (s : State) : Host.Outcome State Fault Refusal :=
  event (match s.killMsgs[k]? with
    | none => s
    | some m =>
      let (s1, settled) := s.offerKill m
      if settled then State.killCompletes { s1 with killMsgs := removeNth k s1.killMsgs } m.issuer else s1)

/-- The list after the oldest reservation that has run 1,000 ticks lapses (R339). -/
def Reserve.expire (r : Reserve) (tick : Nat) : Reserve :=
  match r.since.findIdx? (fun k => decide (k + 1000 ≤ tick)) with
  | some k => r.lapse k tick
  | none => r

/-- Step RESERVATION_LAPSE (15 R339): 1,000 ticks after a reservation began. An inbox keeps none. -/
def execReservationLapse (p : ResPlace) (s : State) : Host.Outcome State Fault Refusal :=
  event (match p with
    | .task core => let c := s.core core; s.setCore core { c with taskRes := c.taskRes.expire s.tick }
    | .engine die => let x := s.die die; s.setDie die { x with engRes := x.engRes.expire s.tick }
    | .inbox _ => s)

end Sys2Proof.Machine
end

