-- ==== Sys2Proof/Machine/Counters.lean ====
section
/-! DEFINITION. Counters and barriers (17 R377 to R396): TSCR, fill counters, Solstice barriers, performance and error counters, and
the steps that count an arrival, end an episode, expire a barrier's deadline and advance the time-stamp counter. -/
namespace Sys2Proof.Machine

/-- TSCR (R380): the tick and the core number, in place for the next turn. -/
def execTscr (d : PairReg) (s : State) : Host.Outcome State Fault Refusal :=
  word (.tscr d) s (fun s t => .ok (s.retire ((t.wr (2 * d.toNat) s.tsc).wr (2 * d.toNat + 1) (w64 t.core))))

/-- Step TSC_TICK (R377): every copy of the counter advances once; debug halt stops it. -/
def execTscTick (s : State) : Host.Outcome State Fault Refusal :=
  event (if s.stage = .running ∧ s.halted = false then { s with tick := s.tick + 1 } else s)

/-! Fill counters. -/

/-- R382: the counter word after an addition of n bytes. -/
def fillAddWord (w n : Nat) : Nat :=
  let arrived := bits w 31 0 + n
  let expect := bits w 62 32
  let phase := bits w 63 63
  if expect ≠ 0 ∧ expect ≤ arrived then
    (1 - phase) * 2 ^ 63 + expect * 2 ^ 32 + min (arrived - expect) 0xFFFFFFFF
  else phase * 2 ^ 63 + expect * 2 ^ 32 + min arrived 0xFFFFFFFF

/-- R383: the word FILL.INIT leaves. -/
def fillInitWord (w expect : Nat) : Nat := bits w 63 63 * 2 ^ 63 + expect * 2 ^ 32

/-- The checks of a fill counter's address (R383, R217, R221): the scratchpad byte it names. Its faults carry
KIND 0: a fill-counter instruction is none of the kinds of access that 18 R401 lists. -/
def State.counterPlace (s : State) (core sdom : Nat) (addr : Word) : Except Stop Target :=
  let a : Access := { ea := addr.toNat, n := 8, kind := .none, write := true }
  if !check1 a then failAcc .nonCanonical a.ea .none 0
  else if !check2 s core a then failAcc .windowAccess a.ea .none 0
  else if !inWindow addr.toNat then failWith .counterOperand addr
  else match windowOf s core addr.toNat with
    | .pad c off => match s.padAccess sdom core a (.pad c off) with
      | .error e => .error e
      | .ok g => if addr.toNat % 8 = 0 then .ok g else failWith .counterOperand addr
    | _ => failAcc .windowAccess a.ea .none 0

/-- FILL.INIT and FILL.ADD (R383): `f` gives the new word from the old; `ok` says that the operand is within its limit. -/
def State.fillUpdate (s : State) (t : Thread) (d a : Reg) (ok : Bool) (f : Nat → Nat) : Except Stop State :=
  let addr := t.rd a.toNat
  match s.counterPlace t.core t.id.sdom addr with
  | .error e => .error e
  | .ok g =>
    if !ok then failWith .counterOperand addr
    else match s.poisonedIn g.pa 8 with
      | some _ => .ok (s.retire (t.produce { regFill d.toNat 0 with bad := some (.poisonedData, .none, addr) }))
      | none =>
        let s := s.landOwn t.id g.pa 8
        let old := s.numAs t.id.sdom g.pa 8
        let s1 := (s.put (s.bindLoads t)).perform t.id.sdom g.pa none (toBytes 8 (f old))
        .ok (s1.retire ((s1.again t).produce (regFill d.toNat (w64 old))))

/-- FILL.INIT (R383). -/
def execFillInit (d a b : Reg) (s : State) : Host.Outcome State Fault Refusal :=
  word (.fillInit d a b) s (fun s t =>
    let n := (t.rd b.toNat).toNat
    s.fillUpdate t d a (decide (n < 2 ^ 31)) (fun w => fillInitWord w n))

/-- FILL.ADD (R383). -/
def execFillAdd (d a b : Reg) (s : State) : Host.Outcome State Fault Refusal :=
  word (.fillAdd d a b) s (fun s t =>
    let n := (t.rd b.toNat).toNat
    s.fillUpdate t d a (decide (n ≤ 2 ^ 32)) (fun w => fillAddWord w n))

/-- FILL.WAIT (R384): one that completes at issue is an acquiring access until its destination is filled (11 R244). -/
def execFillWait (d a : Reg) (b : PairReg) (s : State) : Host.Outcome State Fault Refusal :=
  word (.fillWait d a b) s (fun s t =>
    let addr := t.rd a.toNat
    let want := t.rd (2 * b.toNat)
    let limit := t.rd (2 * b.toNat + 1)
    match s.counterPlace t.core t.id.sdom addr with
    | .error e => .error e
    | .ok g =>
      if wbits want 63 1 ≠ 0 then failWith .counterOperand addr
      else match s.loadBytes t addr.toNat g 8 with
        | .error e => .error e
        | .ok x =>
          let u := s.bindLoads t
          match s.bytesNow u addr.toNat 8 x with
          | (_, some w) => .ok (s.retire (u.produce { regFill d.toNat 0 with bad := some (.poisonedData, .none, w64 w) }))
          | (bs, none) =>
            let v := w64 (ofBytes bs)
            if fillDone v want ∨ limit = 0 then .ok (s.retire (u.produce { regFill d.toNat v with mem := true, acq := true }))
            else .ok (s.goWait t .fill (.fill g.pa want d.toNat) addr (s.deadlineOf limit)))

/-! Solstice barriers. -/

/-- The network of a NET that contains a core (R385). -/
def netOf (kind core : Nat) : Nat :=
  match kind with
  | 0 => dieOf core * 64 + core / 16 % 16
  | 1 => dieOf core * 64 + 16 + core % 16
  | 2 => dieOf core * 64 + 32
  | _ => 8 * 64 + 32

/-- Whether a core lies on a network (R385). -/
def onNet (net core : Nat) : Bool :=
  netOf 0 core == net || netOf 1 core == net || netOf 2 core == net || netOf 3 core == net

/-- The span of a network: its enabled cores (R385). -/
def State.span (s : State) (net : Nat) : List Nat :=
  (if net / 64 < 8 then upto (256 * (net / 64)) 256 else upto 0 2048).filter (fun c => s.coreOn c && onNet net c)

def State.sol (s : State) (net : Nat) : SolNet := Sparse.get SolNet.init s.solstice net
def State.setSol (s : State) (net : Nat) (x : SolNet) : State := { s with solstice := Sparse.set SolNet.init s.solstice net x }
/-- The endpoint of a core on a network. -/
def SolNet.endPt (x : SolNet) (core : Nat) : EndPt := Sparse.get EndPt.init x.ends core

/-- Whether an endpoint's arrivals for the open episode, and for the next, have reached COUNT (R387): issued, and counted. -/
def EndPt.full0 (e : EndPt) : Bool := decide (0 < e.count0) && decide (e.count0 ≤ e.issued0)
def EndPt.full1 (e : EndPt) : Bool := decide (0 < e.count1) && decide (e.count1 ≤ e.issued1)
def EndPt.signalled (e : EndPt) : Bool := decide (0 < e.count0) && decide (e.count0 ≤ e.counted0)

/-- The endpoint once an episode ends: the next becomes the open one (R387, R390). -/
def EndPt.advance (e : EndPt) : EndPt :=
  { issued0 := e.issued1, counted0 := e.counted1, count0 := e.count1, issued1 := 0, counted1 := 0, count1 := 0 }

/-- The waiters for an episode of a network on the cores that a test picks are released (R389). -/
def State.releaseWaiters (s : State) (net ep : Nat) (abandoned : Bool) (on : Nat → Bool) : State :=
  s.threads.foldl (fun s t => match t.cond with
    | some (.sbar k e p _) => if k = net ∧ e = ep ∧ on t.core = true then s.completeWait (t.wp p abandoned) [] else s
    | _ => s) s

/-- The open episode of a network ends (R387, R390): EPI and history advance, endpoints move on, arrivals of the episode not
yet counted are discarded, and the end sets out for every core of the span. -/
def State.endEpisode (s : State) (net : Nat) (abandoned : Bool) : State :=
  let x := s.sol net
  let y := { x with
    epi := (x.epi + 1) % 2 ^ 16
    hist := (2 * x.hist + b2n abandoned) % 2 ^ 32
    ends := (x.ends.map (fun e => (e.1, e.2.advance))).filter (fun e => e.2 ≠ EndPt.init) }
  let s1 := s.setSol net y
  let s2 := { s1 with
    arrivals := s1.arrivals.filter (fun a => !(a.1 == net && a.2.2 == x.epi))
    ends := s1.ends ++ (s.span net).map (fun c => (net, c, x.epi, abandoned)) }
  -- where no core is left to reach, every waiter is released at once
  if (s.span net).isEmpty then s2.releaseWaiters net x.epi abandoned (fun _ => true) else s2

/-- R387: the open episode completes once every endpoint of the span has signalled it; the next may then complete as well. -/
def State.checkEpisode (s : State) (net : Nat) : Nat → State
  | 0 => s
  | k + 1 =>
    let l := s.span net
    if !l.isEmpty && l.all (fun c => ((s.sol net).endPt c).signalled) then (s.endEpisode net false).checkEpisode net k
    else s

/-- SBAR.ARRIVE (R388). -/
def execSbarArrive (d a : Reg) (s : State) : Host.Outcome State Fault Refusal :=
  word (.sbarArrive d a) s (fun s t =>
    let w := t.rd a.toNat
    let count := wbits w 11 2
    let net := netOf (wbits w 1 0) t.core
    let x := s.sol net
    let e := x.endPt t.core
    if wbits w 63 12 ≠ 0 ∨ count = 0 ∨ 512 < count then failWith .counterOperand w
    else if x.dom ≠ t.id.sdom then failWith .privilege 0
    else if !e.full0 then
      if e.issued0 ≠ 0 ∧ e.count0 ≠ count then failWith .counterOperand w
      else
        let s1 := s.setSol net { x with ends := Sparse.set EndPt.init x.ends t.core { e with issued0 := e.issued0 + 1, count0 := count } }
        .ok (State.retireReg { s1 with arrivals := s1.arrivals ++ [(net, t.core, x.epi)] } t d.toNat (w64 x.epi))
    else if e.full1 then .error .block
    else if e.issued1 ≠ 0 ∧ e.count1 ≠ count then failWith .counterOperand w
    else
      let ep := (x.epi + 1) % 2 ^ 16
      let s1 := s.setSol net { x with ends := Sparse.set EndPt.init x.ends t.core { e with issued1 := e.issued1 + 1, count1 := count } }
      .ok (State.retireReg { s1 with arrivals := s1.arrivals ++ [(net, t.core, ep)] } t d.toNat (w64 ep)))

/-- The time-out of SBAR.WAIT in ticks (R389): all ones stands for none. -/
def sbarLimit (n : Nat) : Word := if n = 0xFFFFFFFF then w64 (2 ^ 64 - 1) else w64 n

/-- SBAR.WAIT (R389). -/
def execSbarWait (p : Pred) (a b : Reg) (s : State) : Host.Outcome State Fault Refusal :=
  word (.sbarWait p a b) s (fun s t =>
    let w := t.rd a.toNat
    let v := t.rd b.toNat
    let net := netOf (wbits w 1 0) t.core
    let x := s.sol net
    let e := wbits v 15 0
    let delta := (x.epi + 2 ^ 16 - e) % 2 ^ 16
    let limit := wbits v 63 32
    if wbits w 63 2 ≠ 0 ∨ wbits v 31 16 ≠ 0 then failWith .counterOperand w
    else if x.dom ≠ t.id.sdom then failWith .privilege 0
    else if 1 ≤ delta ∧ delta ≤ 32 then .ok (s.retire (t.wp p (bit x.hist (delta - 1))))
    else if delta ≠ 0 ∧ delta ≠ 0xFFFF then failWith .counterOperand w
    else if limit = 0 then .ok (s.retire (t.wp p true))
    else .ok (s.goWait t .sbar (.sbar net e p limit) w (s.deadlineOf (sbarLimit limit))))

/-- Step SBAR_ARRIVAL_COUNT (R388): the n-th arrival on its way is counted, and may complete the episode (R387). -/
def execSbarArrivalCount (n : Nat) (s : State) : Host.Outcome State Fault Refusal :=
  event (match s.arrivals[n]? with
    | none => s
    | some (net, core, ep) =>
      let x := s.sol net
      let e := x.endPt core
      let e1 := if ep = x.epi then { e with counted0 := e.counted0 + 1 } else { e with counted1 := e.counted1 + 1 }
      let s1 := s.setSol net { x with ends := Sparse.set EndPt.init x.ends core e1 }
      State.checkEpisode { s1 with arrivals := removeNth n s1.arrivals } net 2)

/-- Step SBAR_EPISODE_END_DELIVERY (R391): the n-th end on its way reaches a core and releases its waiters (R389). A thread
moved off the network by a retirement is released with the first delivery. -/
def execSbarEpisodeEndDelivery (n core : Nat) (s : State) : Host.Outcome State Fault Refusal :=
  event (match s.ends[n]? with
    | none => s
    | some (net, c, ep, abandoned) =>
      if c ≠ core then s
      else State.releaseWaiters { s with ends := removeNth n s.ends } net ep abandoned (fun k => k == core || !(s.span net).contains k))

/-- The ends on their way to a core reach it (19 R433). -/
def State.endsReach (s : State) (core : Nat) : State :=
  (s.ends.filter (fun e => e.2.1 == core)).foldl (fun s e => s.releaseWaiters e.1 e.2.2.1 e.2.2.2 (fun k => k == core))
    { s with ends := s.ends.filter (fun e => e.2.1 != core) }

/-- R390: a thread that may still arrive on a core. -/
def State.participant (s : State) (dom core : Nat) : Bool :=
  s.threads.any (fun t => t.core == core && t.holdsSlot && t.id.sdom == dom && t.st != .waiting .sbar)

/-- R390: the deadline of a barrier waiter has come and its episode has not ended. -/
def State.expireBarrier (s : State) (t : Thread) (net ep limit : Nat) : State :=
  let x := s.sol net
  let lagging := (s.span net).filter (fun c => !(x.endPt c).full0)
  let later := fun (s : State) => s.put { (s.again t) with deadline := w64 (min (2 ^ 64 - 1) (t.deadline.toNat + limit)) }
  if lagging.all (s.participant x.dom) then later s
  else
    let s1 := ((s.endEpisode net true).countErr (dieOf t.core) 10).checkEpisode net 1
    if ep = x.epi then s1 else later s1

/-- Step SBAR_DEADLINE (R390). -/
def execSbarDeadline (i : Tid) (s : State) : Host.Outcome State Fault Refusal :=
  event (match s.find i with
    | none => s
    | some t => match t.st, t.cond with
      | .waiting .sbar, some (.sbar net ep _ limit) =>
        let x := s.sol net
        let delta := (x.epi + 2 ^ 16 - ep) % 2 ^ 16
        if !s.deadlinePassed t ∨ (1 ≤ delta ∧ delta ≤ 32) then s
        else s.expireBarrier t net ep limit
      | _, _ => s)

/-- R386: a SOLDOM write that changes the owner ends the open episode as an abandonment and resets every endpoint. -/
def State.setSoldom (s : State) (net dom : Nat) : State :=
  let x := s.sol net
  if x.dom = dom then s
  else
    let s1 := s.endEpisode net true
    let y := s1.sol net
    { s1.setSol net { y with dom := dom, ends := [] } with arrivals := s1.arrivals.filter (fun a => a.1 ≠ net) }

/-! Performance and error counters (R393 to R396). -/

def Core.counter (c : Core) (k : Nat) : Perf := Sparse.get Perf.init c.perf k
def State.setCounter (s : State) (core k : Nat) (p : Perf) : State :=
  let c := s.core core
  s.setCore core { c with perf := Sparse.set Perf.init c.perf k p }

/-- PCNT (R395). -/
def execPcnt (d a b : Reg) (s : State) : Host.Outcome State Fault Refusal :=
  word (.pcnt d a b) s (fun s t =>
    let w := t.rd a.toNat
    let v := t.rd b.toNat
    let n := wbits w 7 0
    let op := wbits w 9 8
    let c := (s.core t.core).counter n
    let clean := wbits w 63 10 == 0
    if op = 3 then
      if t.id.sdom ≠ 0 then failWith .privilege 0
      else if !clean || decide (10 < n) then failWith .counterOperand w
      else .ok (s.retire (t.produce (regFill d.toNat (Sparse.get 0 (s.die (dieOf t.core)).errs n))))
    else if 7 < n then failWith .counterOperand w
    else if c.owner ≠ t.id.sdom ∧ c.owner ≠ 0xFFFF then failWith .privilege 0
    else if !clean then failWith .counterOperand w
    else
      let old := if c.owner = t.id.sdom then c.val else 0
      if op = 0 then .ok (s.retireReg t d.toNat old)
      else if op = 1 then
        if 0x0F < wbits v 7 0 ∨ wbits v 63 9 ≠ 0 then failWith .counterOperand w
        else .ok ((s.setCounter t.core n { owner := t.id.sdom, event := wbits v 7 0, en := bit v.toNat 8, val := 0, new := true }).retireReg t d.toNat old)
      else
        .ok ((if c.owner = t.id.sdom then s.setCounter t.core n { c with owner := 0xFFFF, en := false, val := 0 } else s).retireReg
          t d.toNat old))

end Sys2Proof.Machine
end

