-- ==== Sys2Proof/Machine/Agent.lean ====
section
/-! DEFINITION. Accesses of the device's agents in a domain (16 R371, R373; 13 R303; 10 R225; 18 R418): where a byte lies, reading
bytes, writing bytes, and the code of what goes wrong. -/
namespace Sys2Proof.Machine

/-- Why an agent's access is not performed: it waits (R303, 10 R233, R235), or it ends in a CODE of R373 at an address. -/
inductive AgentStop where
  | held
  | code (n va : Nat)
  deriving DecidableEq, Repr

/-- CODE of a fault an instruction would take (R373). -/
def codeOf : Cause → Nat
  | .pageNotPresent => 16 | .pageInvalid => 17 | .geometry => 17 | .permission => 18 | .placementRange => 19
  | .poisonedData => 20 | _ => 18

/-- The pieces, within aligned words, of n bytes at an address: first byte and size. -/
def wordPieces (a n : Nat) : List (Nat × Nat) :=
  if n = 0 then [] else
  (touchedWords a n).map (fun w => let lo := max a w; (lo, min (a + n) (w + 8) - lo))

/-- Where an access of an agent is made: the die that walks, the core whose windows it sees (none: none), the domain. -/
structure Agent where
  die : Nat
  core : Option Nat
  sdom : Nat
  deriving DecidableEq, Repr

/-- The scratchpad byte a window address named when a command was accepted (16 R371; 19 R433: whatever core has retired since). -/
def windowFixed (core v : Nat) : Option (Nat × Nat) :=
  if 0xFFFFFFFFFFFC0000 ≤ v then some (core, v - 0xFFFFFFFFFFFC0000)
  else if 0xFFFFFFFFFFE00000 ≤ v ∧ v < 0xFFFFFFFFFFF00000 then
    some (quadCore core ((v - 0xFFFFFFFFFFE00000) / 2 ^ 18), (v - 0xFFFFFFFFFFE00000) % 2 ^ 18)
  else none

/-- Whether a route joins an agent's die, or the host for the host agent, to the unit that serves a spot (19 R431, R439). -/
def State.agentJoined (s : State) (g : Agent) (x : Spot) : Bool :=
  s.linked g.die (if physUnit x.pa = hostUnit then 12 else x.die)

/-- R371, R373: where bytes within one aligned word lie for an agent that reads or writes them; A and D are marked (13 R291). -/
def State.agentAt (s : State) (g : Agent) (va : Nat) (write : Bool) : Except AgentStop (State × Target) :=
  if inWindow va then
    match g.core with
    | none => .error (.code 18 va)
    | some c => match windowFixed c va with
      | some (c', off) => .ok (s, .pad c' off)
      | none => .error (.code 18 va)
  else if !canonical va then .error (.code 16 va)
  else if s.walkWaits g.die g.sdom va then .error .held
  else match s.walk g.die g.sdom va .engine write with
    | .error f => .error (.code (codeOf f.cause) va)
    | .ok x =>
      if !(if write then Leaf.w x.leaf else Leaf.r x.leaf) then .error (.code 18 va)
      else match s.locOf g.die g.sdom va x.leaf write with
        | .error _ => .error .held
        | .ok l =>
          if s.carveWaits l.spot || !s.agentJoined g l.spot || s.ctxWaits g.sdom va (.mem l) then .error .held
          else if !(l.spot.inRange && s.carveAdmits g.sdom l.spot) then .error (.code 19 va)
          else
            let s1 := s.markLeaf g.sdom x write
            .ok (s1.syncFrame g.sdom va (.mem l), .mem l)

/-- Read bytes one after another for an agent; the first that cannot be read ends it. -/
def State.agentRead (s : State) (g : Agent) : Nat → Nat → Except AgentStop (State × List Byte)
  | _, 0 => .ok (s, [])
  | va, n + 1 =>
    match s.agentAt g va false with
    | .error e => .error e
    | .ok (s1, p) =>
      if (s1.poisonedIn p.pa 1).isSome then .error (.code 20 va)
      else match s1.agentRead g (va + 1) n with
        | .error e => .error e
        | .ok (s2, l) => .ok (s2, s1.byteAt g.sdom p.pa :: l)

/-- Write bytes that lie within one aligned word for an agent. A live control line takes nothing: CODE 21 (10 R225). -/
def State.agentWrite (s : State) (g : Agent) (va : Nat) (bs : List Byte) : Except AgentStop State :=
  match s.agentAt g va true with
  | .error e => .error e
  | .ok (s1, p) =>
    if s1.ctlLine p.pa then .error (.code 21 va)
    else .ok (s1.performAt g.sdom p bs)

/-- Write bytes for an agent, word by word; the first that cannot be written ends it. -/
def State.agentWrites (s : State) (g : Agent) (va : Nat) (bs : List Byte) : Except AgentStop State :=
  (wordPieces va bs.length).foldl (fun r p => match r with
    | .error e => .error e
    | .ok s1 => s1.agentWrite g p.1 ((bs.drop (p.1 - va)).take p.2)) (.ok s)

/-- The little-endian number an agent reads. -/
def State.agentNum (s : State) (g : Agent) (va n : Nat) : Except AgentStop (State × Nat) :=
  match s.agentRead g va n with
  | .error e => .error e
  | .ok (s1, l) => .ok (s1, ofBytes l)

end Sys2Proof.Machine
end

