-- ==== Sys2Proof/Machine/FullEmpty.lean ====
section
/-! DEFINITION. Full/empty loads and stores (11 R249 to R254) and the steps that answer and re-issue them. -/
namespace Sys2Proof.Machine

/-- Whether a full/empty access writes, and so sets D (13 R291): STFE and STFE.f do, LDFE where its page's sync bit is set, LDFE.k never
(R250, R253). -/
def State.feWrites (s : State) (t : Thread) (ea : Int) (kind : Nat) : Bool :=
  decide (2 ≤ kind) || (kind == 0 && (s.tlbFind t.core t.id.sdom ea.toNat).any (fun e => Leaf.sync e.leaf))

/-- A full/empty access to a page without write permission, which each of them needs beside what R290 names (R256; 13 R290; log 84). -/
def State.feDenied (s : State) (t : Thread) (ea : Int) : Bool := (s.tlbFind t.core t.id.sdom ea.toNat).any (fun e => !Leaf.w e.leaf)

/-- R239 with the permissions of R256, the sync-class fault (R253), then the data breakpoint. -/
def State.reachFe (s : State) (t : Thread) (ea : Int) (kind : Nat) : Except Stop Target :=
  let a : Access := { ea := ea, n := 8, kind := .fullEmpty, write := s.feWrites t ea kind }
  match s.access t.core t.id.sdom 8 a with
  | .error (.fault f) => if f.cause = .placementRange ∧ s.feDenied t ea = true then failAcc .permission ea .fullEmpty 0 else .error (.fault f)
  | .error e => .error e
  | .ok g =>
    if s.feDenied t ea then failAcc .permission ea .fullEmpty 0
    else match g.leaf? with
    | some l =>
      if Leaf.sync l && Geo.tier (s.geo (dieOf t.core) (Leaf.gidx l)) == 3 then failAcc .syncClass ea .fullEmpty 0
      else s.reach t 8 a
    | none => .ok g

/-- Whether a full/empty access is made under the word's bit (R251, R253): the page's sync bit is set and the word is not a
context line. -/
def State.syncWord (s : State) (g : Target) : Bool :=
  (match g.leaf? with | some l => Leaf.sync l | none => false) && (s.lineAt g.pa).isNone

/-- The thread held by a full/empty access until the home's reply (R251). -/
def State.holdFe (s : State) (t : Thread) (w kind reg va : Nat) (leaf : Word) (val : Word) : State :=
  s.put { t with
    st := .blocked .empty, iword := w, pend := some (.fe kind reg va leaf val)
    req := match s.locOf (dieOf t.core) t.id.sdom va leaf true with
      | .ok l => s.reqOf t.core .fullEmpty va l.spot
      | .error _ => none }

/-- LDFE and LDFE.k (R250, R251, R253): kind 0 empties the word, 1 keeps it. -/
def State.loadFe (s : State) (t : Thread) (a d : Reg) (kind w : Nat) : Except Stop State :=
  match s.reachFe t (regEa t a) kind with
  | .error e => .error e
  | .ok g =>
    let va := (t.rd a.toNat).toNat
    let s1 := s.syncFrame t.id.sdom va g
    let t1 := s1.again t
    if s1.syncWord g then .ok (s1.holdFe t1 w kind d.toNat va (g.leaf?.getD 0) 0)
    else match s1.loadBytes t1 va g 8 with
      | .error e => .error e
      | .ok x => .ok (s1.finishLoad t1 .fullEmpty va 8 true (.zero d.toNat) x)

/-- STFE and STFE.f (R250, R251, R253): kind 2 needs the word empty, 3 does not; 4 is either where the page's sync bit is clear, where
it acts as a store release and the thread is held until the home's reply. -/
def State.storeFe (s : State) (t : Thread) (a v : Reg) (kind w : Nat) : Except Stop State :=
  match s.reachFe t (regEa t a) kind with
  | .error e => .error e
  | .ok g =>
    let va := (t.rd a.toNat).toNat
    let s1 := s.syncFrame t.id.sdom va g
    let t1 := s1.again t
    if (s1.lineAt g.pa).isSome then
      match s1.storeBytes t1 va g .fullEmpty (t.low v.toNat 8) with
      | .error e => .error e
      | .ok s2 => .ok (s2.retire (s2.again t1))
    else .ok (s1.holdFe t1 w (if s1.syncWord g then kind else 4) v.toNat va (g.leaf?.getD 0) (t.rd v.toNat))

/-- LDFE (R250). -/
def execLdfe (d a : Reg) (q : Scope) (s : State) : Host.Outcome State Fault Refusal :=
  word (.ldfe d a q) s (fun s t => s.loadFe t a d 0 (wordOf (.ldfe d a q)))
/-- LDFE.k (R250). -/
def execLdfeK (d a : Reg) (q : Scope) (s : State) : Host.Outcome State Fault Refusal :=
  word (.ldfeK d a q) s (fun s t => s.loadFe t a d 1 (wordOf (.ldfeK d a q)))
/-- STFE (R250). -/
def execStfe (v a : Reg) (q : Scope) (s : State) : Host.Outcome State Fault Refusal :=
  word (.stfe v a q) s (fun s t => s.storeFe t a v 2 (wordOf (.stfe v a q)))
/-- STFE.f (R250). -/
def execStfeF (v a : Reg) (q : Scope) (s : State) : Host.Outcome State Fault Refusal :=
  word (.stfeF v a q) s (fun s t => s.storeFe t a v 3 (wordOf (.stfeF v a q)))

/-- The outstanding fill of a full/empty load that the home performed: its value, or poison (R252, 18 R418). -/
def State.feFill (s : State) (sdom pa va reg : Nat) : Fill :=
  match s.poisonedIn pa 8 with
  | some w => { regs := [(reg, 0)], flags := 0, float := false, req := none, mem := true, acq := true
                bad := some (.poisonedData, .fullEmpty, w64 (vaOfWord va pa w)) }
  | none => { regFill reg (w64 (s.numAs sdom pa 8)) with mem := true, acq := true }

/-- Set the full/empty bit of a word, and of its other placement while its page is in transition (12 R282, 13 R303). -/
def State.setFe (s : State) (pa : Nat) (mirror : Option Nat) (b : Bool) : State :=
  match mirror with
  | some m => (s.setFull pa b).setFull m b
  | none => s.setFull pa b

/-- The word's bit after an LDFE performed on it (R250); poisoned data performs no write (18 R418). -/
def State.takeWord (s : State) (pa : Nat) (mirror : Option Nat) (keep : Bool) : State :=
  if keep || (s.poisonedIn pa 8).isSome then s else s.setFe pa mirror false

/-- R252: perform the deferred entries of a word that its bit admits, oldest first. -/
def State.serveDeferred (s : State) (pa : Nat) (mirror : Option Nat) : State :=
  s.deferrals.foldl (fun s e =>
    if e.pa = pa ∧ s.isFull pa = true then
      let s1 := { s with deferrals := s.deferrals.erase e }
      let s2 := match e.tid.bind s.find with
        | some u => s1.put { u with fills := u.fills ++ [s.feFill u.id.sdom pa e.va e.reg] }
        | none => s1
      s2.takeWord pa mirror e.keep
    else s) s

/-- Where a full/empty access is performed (R254): home die, slice, physical address and mirror; none while the word's chunk is
being copied (13 R303) or its line is under recall (18 R419). -/
def State.fePlace (s : State) (t : Thread) (va : Nat) (leaf : Word) : Option (Nat × Nat × Nat × Option Nat) :=
  match s.locOf (dieOf t.core) t.id.sdom va leaf true with
  | .error _ => none
  | .ok l => if s.recalling l.spot.pa then none else some (l.spot.die, homeSlice l.p, l.spot.pa, l.mirror)

/-- Entries of a home slice (R251). -/
def State.deferralsOf (s : State) (die slice : Nat) : Nat :=
  (s.deferrals.filter (fun e => e.die == die && e.slice == slice)).length

/-- A negative acknowledgement (R251, R32): the thread re-issues after 256 cycles. -/
def State.nack (s : State) (t : Thread) : State :=
  ((s.put { t with pend := none, req := none, st := .blocked .feretry, retryAt := (s.core t.core).cycle + 256 }).dropCredit t.id).tally t.core
    (some t.id.sdom) 0x07 1

/-- A full/empty instruction completes with its home's reply (R251); a request that crossed a link has taken an entry (15 R345). -/
def State.feDone (s : State) (t : Thread) (die va old : Nat) : State :=
  (s.takeEntry (.thread t.id) (dieOf t.core) die t.id.sdom va old).boundary t.id t.iword

/-- R250, R251: the home answers a full/empty instruction, those of one issue group in slot order (R252, R53): the thread's earlier loads have their places in the die order before it
(12 R266). The boundary of a completed instruction follows. -/
def State.feReply (s : State) (t0 : Thread) (kind reg va : Nat) (leaf : Word) (val : Word) : State :=
  let t := s.bindLoads t0
  match s.fePlace t va leaf with
  | none => s
  | some (die, slice, pa, mirror) =>
    let s := (s.landOwn t.id pa 8).landWords (dieOf t.core) pa 8
    let full := s.isFull pa
    let done := { t with pend := none, req := none, st := .resident, pc := t.pc + 4 }
    if !s.groupFirst t || t.req.any s.reqLost then s
    else if !s.creditFor (dieOf t.core) die (.thread t.id) then s.awaitCredit (dieOf t.core) die (.thread t.id)
    else if kind ≤ 1 then
      if full then
        let f := s.feFill t.id.sdom pa va reg
        (((s.put (done.produce f)).takeWord pa mirror (kind == 1)).serveDeferred pa mirror).feDone t die va (s.numAs t.id.sdom pa 8)
      else if s.deferralsOf die slice < 64 then
        let e : Deferral := { die := die, slice := slice, pa := pa, va := va, tid := some t.id, reg := reg
                              keep := kind == 1 }
        let s1 := s.put (done.clr reg)
        State.feDone { s1 with deferrals := s1.deferrals ++ [e] } t die va 0
      else s.nack t
    else if kind = 4 then ((s.put done).perform t.id.sdom pa mirror (wordBytes val)).feDone t die va 0
    else if kind = 3 ∨ full = false then
      let s1 := (s.put done).perform t.id.sdom pa mirror (wordBytes val)
      ((s1.setFe pa mirror true).serveDeferred pa mirror).feDone t die va 0
    else s.nack t

/-- Step FULL_EMPTY_REPLY: the home's reply reaches the thread (R251). -/
def execFullEmptyReply (i : Tid) (s : State) : Host.Outcome State Fault Refusal :=
  event (match s.find i with
    | none => s
    | some t => match t.pend with
      | some (.fe kind reg va leaf val) => s.feReply t kind reg va leaf val
      | _ => s)

/-- Step FERETRY_REISSUE: 256 cycles after a negative acknowledgement the thread is RESIDENT again (02 R32). -/
def execFeretryReissue (i : Tid) (s : State) : Host.Outcome State Fault Refusal :=
  event (match s.find i with
    | none => s
    | some t =>
      if t.st = .blocked .feretry ∧ t.retryAt ≤ (s.core t.core).cycle then s.put { t with st := .resident } else s)

end Sys2Proof.Machine
end

