-- ==== Sys2Proof/Machine/Tlb.lean ====
section
/-! DEFINITION. Invalidating translations (13 R299; 05 R125; 08 R192): what TLBINV, RSTR (R302, R304, R305), SETROOT and RMDOM share. -/
namespace Sys2Proof.Machine

/-- Every address: what names all translations of a domain (R299). -/
def allExtent : Nat × Nat := (0, 2 ^ 64)

/-- The pages of a domain that TLBs hold and a range meets: each is dropped whole (R299). -/
def State.tlbExtents (s : State) (sdom : Nat) (r : Nat × Nat) : List (Nat × Nat) :=
  r :: (s.cores.flatMap (fun c => (c.2.tlb.filter (fun e => e.sdom == sdom && meets (e.base, e.size) r)).map
    (fun e => (e.base, e.size)))).eraseDups

/-- Drop the TLB and walk-cache entries of a domain that extents meet, in every core and die, with what was walked for an instruction
that has not issued (R299). -/
def State.tlbDrop (s : State) (sdom : Nat) (l : List (Nat × Nat)) : State :=
  { s with
    cores := s.cores.map (fun c =>
      (c.1, { c.2 with
        tlb := c.2.tlb.filter (fun (e : TlbEnt) => !(e.sdom == sdom && meetsAny l (e.base, e.size)))
        fresh := c.2.fresh.filter (fun (f : Fresh) => !(f.tid.sdom == sdom && meetsAny l (f.ent.base, f.ent.size))) }))
    dies := s.dies.map (fun d =>
      (d.1, { d.2 with walks := d.2.walks.filter (fun (e : WalkEnt) => !(e.sdom == sdom && meetsAny l (e.base, e.size))) })) }

/-- The extents of what a gang keeps in memory (08 R173, R175). -/
def Gang.extents (g : Gang) : List (Nat × Nat) := [(g.id.record, 2048), (g.frameb, 65536 * g.cores.length)]

/-- Whether a resident gang's record or frames lie in extents of a domain (R192). -/
def Gang.inExtents (g : Gang) (sdom : Nat) (l : List (Nat × Nat)) : Bool :=
  g.resident && g.id.sdom == sdom && g.extents.any (meetsAny l)

/-- Whether a thread has accesses in extents of a domain that are not performed: buffered stores, loads whose value is not bound. -/
def Thread.storesIn (t : Thread) (l : List (Nat × Nat)) : Bool := t.stores.any (fun e => meetsAny l (e.va, e.bytes.length))
def Thread.loadsIn (t : Thread) (l : List (Nat × Nat)) : Bool :=
  t.fills.any (fun f => match f.src with | some x => meetsAny l (x.va, x.n) | none => false)

/-- Whether a store before its global point lies in extents of a domain. -/
def Early.inExtents (x : Early) (sdom : Nat) (l : List (Nat × Nat)) : Bool :=
  x.tid.sdom == sdom && meetsAny l (x.ent.va, x.ent.bytes.length)

/-- R299: loads and stores of the domain translated by a dropped entry are performed, as far as none is held. -/
def State.flushExtents (s0 : State) (sdom : Nat) (l : List (Nat × Nat)) : State :=
  let s := s0.landEarlyWhere (fun x => x.inExtents sdom l)
  (s.threads.filter (fun t => t.id.sdom == sdom && (t.storesIn l || t.loadsIn l))).foldl
    (fun s t =>
      let s1 := if t.storesIn l then s.drainAll (s.again t) else s
      if t.loadsIn l then s1.put (s1.bindLoads (s1.again t)) else s1) s

/-- R125: the frame lines of a range are written back under their recorded placement words and dropped. -/
def State.dropFramesIn (s : State) (sdom : Nat) (l : List (Nat × Nat)) (self : Option Tid) : State :=
  (s.threads.filter (fun t => t.frameIn sdom l && t.placed.isSome && (!t.holdsSlot || t.invalidating) && some t.id != self)).foldl
    (fun s t => s.dropFrame (s.again t)) s

/-- R299, R125, R192: begin an invalidation of extents of a domain: accesses already translated are performed, the entries
dropped, the frame lines of threads without a slot written back under their recorded placement words and dropped, and what else holds
frame lines, records or gang frames of the range told to leave. -/
def State.invalidate (s : State) (sdom : Nat) (l : List (Nat × Nat)) (self : Option Tid) : State :=
  let s1 := (s.flushExtents sdom l).tlbDrop sdom l
  let s2 := { s1 with threads := s1.threads.map (fun (t : Thread) =>
    if t.frameIn sdom l && t.holdsSlot && some t.id != self then { t with preempt := true } else t) }
  let s2 := s2.dropFramesIn sdom l self
  { s2 with gangs := s2.gangs.map (fun (g : Gang) => if g.inExtents sdom l then { g with saving := true } else g) }

/-- R299: accesses of the domain that were translated before the entries were dropped and are not yet performed. -/
def Thread.accessIn (t : Thread) (sdom : Nat) (l : List (Nat × Nat)) : Bool :=
  t.id.sdom == sdom && (t.storesIn l || (match t.pend with
    | some (.fe _ _ va _ _) => meetsAny l (va, 8)
    | some (.ret x) => meetsAny l (x.va, x.n)
    | _ => false))

/-- Whether an invalidation's waits are over (R299): no access left, every thread told to leave has left its slot (R125), no held write of
a frame line of the range remains (R125), no gang of the range is resident (R192). A thread within its own TLBINV leaves after that completes (02 R33); its lines are dropped with
the others. -/
def State.invalidated (s : State) (sdom : Nat) (l : List (Nat × Nat)) (self : Option Tid) : Bool :=
  !s.threads.any (fun t => t.accessIn sdom l ||
    (t.frameIn sdom l && t.holdsSlot && t.preempt && !t.invalidating && some t.id != self)) &&
  !s.gangs.any (fun g => g.inExtents sdom l && g.saving) && !s.early.any (fun x => x.inExtents sdom l) &&
  !s.devq.any (fun o => o.sdom == sdom && (match o.act with | .frame bs => meetsAny l (o.va, bs.length) | _ => false)) &&
  !s.dies.any (fun d => d.2.landing.any (fun x => x.tid.sdom == sdom && meetsAny l (x.va, x.bytes.length)))

/-- Drop the TLB entries of every domain that name a geometry (R300). -/
def State.tlbDropGeo (s : State) (gidx : Nat) : State :=
  { s with cores := s.cores.map (fun c => (c.1, { c.2 with
      tlb := c.2.tlb.filter (fun (e : TlbEnt) => Leaf.gidx e.leaf != gidx)
      fresh := c.2.fresh.filter (fun (f : Fresh) => Leaf.gidx f.leaf != gidx) })) }

/-- Every byte of a range is canonical (R299, 10 R216). -/
def rangeCanonical (a n : Nat) : Bool :=
  n == 0 || (decide (a + n ≤ 2 ^ 56) || (decide (0xFF00000000000000 ≤ a) && decide (a + n ≤ 2 ^ 64)))

/-- R299: the range TLBINV names. -/
def invRange (a b : Nat) : Nat × Nat := if b = 0 then allExtent else (alignDown a 16384, 16384 * b)

/-- TLBINV (R299): it holds the thread until every access and line of the range is gone. -/
def execTlbinv (a b : Reg) (s : State) : Host.Outcome State Fault Refusal :=
  word (.tlbinv a b) s (fun s t =>
    let r := invRange (t.rd a.toNat).toNat (t.rd b.toNat).toNat
    if t.rd b.toNat ≠ 0 ∧ rangeCanonical r.1 r.2 = false then failWith .nonCanonical (t.rd a.toNat)
    else if t.rd b.toNat ≠ 0 ∧ inWindow r.1 = true then .ok (s.retire t)
    else
      let l := s.tlbExtents t.id.sdom r
      let s1 := s.invalidate t.id.sdom l (some t.id)
      .ok (s1.put { (s1.again t) with st := .blocked .empty, pend := some (.tlbinv l), iword := wordOf (.tlbinv a b) }))

/-- Step TLBINV_COMPLETION (R299): the instruction completes; a thread whose own frame lies in the range then gives up its
slot and its lines. -/
def execTlbinvCompletion (i : Tid) (s : State) : Host.Outcome State Fault Refusal :=
  event (match s.find i with
    | none => s
    | some t => match t.pend with
      | some (.tlbinv l) =>
        if s.invalidated i.sdom l (some i) then
          let s2 := (s.dropFramesIn i.sdom l (some i)).replyDone i []
          match s2.find i with
          | none => s2
          | some u =>
            if u.frameIn i.sdom l then
              let s3 := if u.st != .resident then s2
                else if u.gang.isSome then (s2.put { u with preempt := true }).gangSaveReq u.gang
                else (s2.tally u.core (some u.id.sdom) 0x09 1).toReady u
              s3.dropFrame (s3.again u)
            else s2
        else s
      | _ => s)

end Sys2Proof.Machine
end

