-- ==== Sys2Proof/Machine/Engine.lean ====
section
/-! DEFINITION. Copy engines (16 R369 to R375, 15 R343) and live re-striping (13 R302 to R305): CPY, CPY2D, DEAL, RSTR, MRED, ESYNC,
and the steps that accept, start and complete a command and that move a chunk. -/
namespace Sys2Proof.Machine

/-! Descriptors. -/

/-- PARTS of a DEAL, 1 otherwise (R369). -/
def EngCmd.parts (c : EngCmd) : Nat := if c.kind = .deal then bits c.p1 39 32 else 1
/-- BLK of a DEAL (R369). -/
def EngCmd.blk (c : EngCmd) : Nat := bits c.p1 31 0
/-- The blocks of one part of a DEAL, as the destination's extent needs (R369). -/
def EngCmd.partLen (c : EngCmd) : Nat := (c.len + c.blk * c.parts - 1) / (c.blk * c.parts) * c.blk

/-- Element size of MRED (R369). -/
def mredSize (ty : Nat) : Nat := match ty with | 1 => 4 | 2 => 2 | _ => 8

/-- The limits of R369 and the conditions of R370 step 4 on strides. -/
def EngCmd.limitsOk (c : EngCmd) : Bool :=
  decide (c.status % 16 = 0) &&
  (match c.kind with
   | .cpy => decide (1 ≤ c.len) && decide (c.len ≤ 2 ^ 32) && c.p1 == 0 && c.p2 == 0 && c.p3 == 0
   | .cpy2d => decide (1 ≤ c.len) && decide (c.len ≤ 2 ^ 24) && decide (1 ≤ c.p1) && decide (c.p1 ≤ 2 ^ 24) &&
       (c.p1 == 1 || decide (c.len ≤ c.p3))
   | .deal => decide (1 ≤ c.len) && decide (c.len ≤ 2 ^ 32) && decide (1 ≤ c.blk) && decide (1 ≤ c.parts) &&
       decide (c.parts ≤ 64) && decide (c.p1 < 2 ^ 40) && decide (c.len % c.blk = 0) && c.p3 == 0 &&
       (c.parts == 1 || decide (c.partLen ≤ c.p2))
   | .rstr => decide (c.src % 16384 = 0) && c.dst == 0 && decide (c.len % 16384 = 0) && decide (1 ≤ c.len / 16384) &&
       decide (c.len / 16384 < 2 ^ 32) && decide (c.p1 < 2 ^ 10) && decide (c.p2 < 2 ^ 38) && c.p3 == 0
   | .mred => decide (1 ≤ c.len) && decide (c.len ≤ 2 ^ 32) && [0, 1, 2, 10].contains (bits c.p1 3 0) &&
       decide (bits c.p1 5 4 ≤ 2) && decide (c.p1 < 2 ^ 6) && c.p2 == 0 && c.p3 == 0 &&
       decide (c.len % mredSize (bits c.p1 3 0) = 0) && decide (c.src % mredSize (bits c.p1 3 0) = 0) &&
       decide (c.dst % mredSize (bits c.p1 3 0) = 0))

/-- The source range (R369). -/
def EngCmd.srcRange (c : EngCmd) : Nat × Nat :=
  (c.src, if c.kind = .cpy2d then (c.p1 - 1) * c.p2 + c.len else c.len)
/-- The destination range (R369); none for RSTR. -/
def EngCmd.dstRange (c : EngCmd) : Option (Nat × Nat) :=
  match c.kind with
  | .rstr => none
  | .cpy2d => some (c.dst, (c.p1 - 1) * c.p3 + c.len)
  | .deal => some (c.dst, (c.parts - 1) * c.p2 + c.partLen)
  | _ => some (c.dst, c.len)

/-- The ranges acceptance checks, in the order of R370 step 5. -/
def EngCmd.ranges (c : EngCmd) : List (Nat × Nat) :=
  [c.srcRange] ++ c.dstRange.toList ++ (if c.status = 0 then [] else [(c.status, 16)]) ++
  (match c.fill with | some a => [(a, 8 * c.parts)] | none => [])

/-- The counters of a fill lie in the local scratchpad or the quad view (R370 step 4). -/
def fillPlaceOk (a n : Nat) : Bool :=
  a % 8 == 0 && ((decide (0xFFFFFFFFFFFC0000 ≤ a) && decide (a + n ≤ 2 ^ 64)) ||
    (decide (0xFFFFFFFFFFE00000 ≤ a) && decide (a + n ≤ 0xFFFFFFFFFFF00000)))

/-- R370 step 4. -/
def EngCmd.operandsOk (c : EngCmd) (last : Nat) : Bool :=
  last == 0 && c.limitsOk &&
  (match c.dstRange with | some d => !meets c.srcRange d | none => true) &&
  (match c.fill with | some a => fillPlaceOk a (8 * c.parts) | none => true)

/-- R217 and R221 on a range (R370 step 5). -/
def State.rangeOk (s : State) (t : Thread) (r : Nat × Nat) : Except Stop Unit :=
  let a : Access := { ea := r.1, n := r.2, kind := .engine, write := false }
  if !rangeCanonical r.1 r.2 then failAcc .nonCanonical a.ea .engine 0
  else if !check2 s t.core a then failAcc .windowAccess a.ea .engine 0
  else if inWindow r.1 then
    match windowOf s t.core r.1 with
    | .pad c off => match s.padAccess t.id.sdom t.core a (.pad c off) with
      | .ok _ => .ok ()
      | .error e => .error e
    | _ => failAcc .windowAccess a.ea .engine 0
  else .ok ()

/-- The checks of several ranges in order. -/
def State.rangesOk (s : State) (t : Thread) : List (Nat × Nat) → Except Stop Unit
  | [] => .ok ()
  | r :: l => match s.rangeOk t r with
    | .error e => .error e
    | .ok _ => s.rangesOk t l

/-- The descriptor's bytes by 16-byte loads of the thread (R369, R370 step 3). -/
def State.descLoads (s : State) (t : Thread) (va : Nat) : Nat → Except Stop (List Byte)
  | 0 => .ok []
  | k + 1 =>
    match s.access t.core t.id.sdom 16 { ea := va, n := 16, kind := .engine, write := false } with
    | .error e => .error e
    | .ok g => match s.loadBytes t va g 16 with
      | .error e => .error e
      | .ok x => match s.bytesNow t va 16 x with
        | (_, some w) => failAcc .poisonedData w .engine 0
        | (bs, none) => match s.descLoads t (va + 16) k with
          | .error e => .error e
          | .ok l => .ok (bs ++ l)

/-- A command from its descriptor's words (R369). -/
def cmdOf (t : Thread) (kind : EngKind) (n : Nat → Nat) (scope : Scope) (acq rel : Bool) (fill : Option Nat) : EngCmd :=
  { id := 0, kind := kind, tid := t.id, home := t.home, region := t.region, core := t.core, src := n 0, dst := n 1, len := n 2
    p1 := n 3, p2 := n 4, p3 := n 5, status := n 6, scope := scope, acq := acq, rel := rel, fill := fill, started := false
    record := none, result := 0 }

/-- An engine instruction up to the queue's reply (R370). -/
def State.engineInstr (s : State) (t : Thread) (w : Nat) (kind : EngKind) (a b : Reg) (scope : Scope) (acq rel fill : Bool) :
    Except Stop State :=
  let va := (t.rd a.toNat).toNat
  let acc : Access := { ea := va, n := 64, kind := .engine, write := false }
  if !check1 acc then failAcc .nonCanonical va .engine 0
  else if !check2 s t.core acc then failAcc .windowAccess va .engine 0
  else if va % 64 ≠ 0 then failWith .engineOperand (t.rd a.toNat)
  else match s.descLoads (s.bindLoads t) va 4 with
    | .error e => .error e
    | .ok bs =>
      let n := fun k => ofBytes ((bs.drop (8 * k)).take 8)
      let c := cmdOf t kind n scope acq rel (if fill then some (t.rd b.toNat).toNat else none)
      if !c.operandsOk (n 7) then failWith .engineOperand (t.rd a.toNat)
      else match s.rangesOk t c.ranges with
        | .error e => .error e
        | .ok _ => .ok (s.hold (s.bindLoads t) w (.engine c))

/-- CPY (R369 to R371). -/
def execCpy (a b : Reg) (s' : Scope) (q r f : Bool) (s : State) : Host.Outcome State Fault Refusal :=
  word (.cpy a b s' q r f) s (fun s t => s.engineInstr t (wordOf (.cpy a b s' q r f)) .cpy a b s' q r f)
/-- CPY2D (R369 to R371). -/
def execCpy2d (a b : Reg) (s' : Scope) (q r f : Bool) (s : State) : Host.Outcome State Fault Refusal :=
  word (.cpy2d a b s' q r f) s (fun s t => s.engineInstr t (wordOf (.cpy2d a b s' q r f)) .cpy2d a b s' q r f)
/-- DEAL (R369 to R371). -/
def execDeal (a b : Reg) (s' : Scope) (q r f : Bool) (s : State) : Host.Outcome State Fault Refusal :=
  word (.deal a b s' q r f) s (fun s t => s.engineInstr t (wordOf (.deal a b s' q r f)) .deal a b s' q r f)
/-- RSTR (R369 to R371, R374). -/
def execRstr (a b : Reg) (s' : Scope) (q r f : Bool) (s : State) : Host.Outcome State Fault Refusal :=
  word (.rstr a b s' q r f) s (fun s t => s.engineInstr t (wordOf (.rstr a b s' q r f)) .rstr a b s' q r f)
/-- MRED (R369 to R372). -/
def execMred (a b : Reg) (s' : Scope) (q r f : Bool) (s : State) : Host.Outcome State Fault Refusal :=
  word (.mred a b s' q r f) s (fun s t => s.engineInstr t (wordOf (.mred a b s' q r f)) .mred a b s' q r f)

/-- ESYNC (R375): eligible once no queue holds a command of the thread and the writes of its commands that S covers are visible. -/
def execEsync (s' : Scope) (s : State) : Host.Outcome State Fault Refusal :=
  word (.esync s') s (fun s t => .ok (s.retire t))

/-! Re-striping. -/

/-- The extent of a record (R302). -/
def Restripe.extent (r : Restripe) : Nat × Nat := (r.vbase, r.nchunk * 16384)

/-- The placements of a new chunk by 256 bytes lie within their limits (R302). -/
def State.newOk (s : State) (die gidx frame k : Nat) : Bool :=
  (upto 0 64).all (fun i => (s.spot (s.geo die gidx) ((frame + k) * 16384 + 256 * i)).inRange)

/-- R302: the conditions of one chunk: its leaf grants R and W, is not in transition and not of the host tier; its page lies
within the range; the new placement is in range and aligned to the page. -/
def State.chunkOk (s : State) (die sdom : Nat) (c : EngCmd) (k : Nat) : Bool :=
  let va := c.src + 16384 * k
  match s.walkTable die sdom va .engine with
  | .error _ => false
  | .ok x =>
    let e := x.leaf
    let base := alignDown va (Leaf.bytes e)
    Leaf.r e && Leaf.w e && !Leaf.trans e && Geo.tier (s.geo die (Leaf.gidx e)) != 3 &&
    decide (c.src ≤ base) && decide (base + Leaf.bytes e ≤ c.src + c.len) &&
    (base != va || (c.p2 + k) * 16384 % Leaf.bytes e == 0) && s.newOk die c.p1 c.p2 k

/-- Whether the walks of a range wait: for a table page in a carve unit that grows or is being zeroed, or under recall (10 R233, R235). -/
def State.rangeWaits (s : State) (die sdom va n : Nat) : Bool :=
  (upto 0 n).any (fun k => s.walkWaits die sdom (va + 16384 * k))

/-- R302: the RSTR may begin. -/
def State.rstrOk (s : State) (die sdom : Nat) (c : EngCmd) : Bool :=
  let g := s.geo die c.p1
  rangeCanonical c.src c.len && !inWindow (c.src + c.len - 1) &&
  s.geoValid g && Geo.tier g != 3 &&
  !(s.dies.any (fun d => d.2.restripe.any (fun r => r.2.st != 0 && r.2.sdom == sdom && meets r.2.extent (c.src, c.len)))) &&
  (upto 0 (c.len / 16384)).all (s.chunkOk die sdom c)

/-- Do something to every leaf entry of a range (13 R289: a large page has one for each 16 KiB, or for each 32 MiB of a 1 GiB page): its
walk, and the chunk where its page begins. -/
def State.eachLeaf (s : State) (die sdom : Nat) (r : Restripe) (f : State → Walked → Nat → State) : State :=
  (upto 0 r.nchunk).foldl (fun s k =>
    let va := r.vbase + 16384 * k
    match s.walkTable die sdom va .engine with
    | .ok x => if x.lvl = 4 ∨ va % 2 ^ 25 = 0 then f s x ((alignDown va (Leaf.bytes x.leaf) - r.vbase) / 16384) else s
    | .error _ => s) s

/-- The lowest free record of a die's Restripe Table (R302). -/
def Die.freeRecord (d : Die) : Option Nat := (upto 0 64).find? (fun k => !d.restripe.any (fun r => r.1 == k))

/-- R302: an accepted RSTR fills its record, sets TRANS in its leaves and invalidates their translations. -/
def State.beginRstr (s : State) (die sdom : Nat) (c : EngCmd) (k : Nat) : State :=
  let r : Restripe := { vbase := c.src, nchunk := c.len / 16384, sdom := sdom, st := 1, newgidx := c.p1, newframe := c.p2
                        prog := 0, start := s.tick, cmd := c.id }
  let x := s.die die
  let s1 := s.setDie die { x with restripe := Sparse.put x.restripe k r }
  let s2 := s1.eachLeaf die sdom r (fun s w _ => s.orEntry sdom w.entryPa 0x100)
  s2.invalidate sdom [r.extent] none

/-- Change the record r of a die. -/
def State.setRestripe (s : State) (die k : Nat) (r : Restripe) : State :=
  let x := s.die die
  s.setDie die { x with restripe := Sparse.put x.restripe k r }

/-- The records of a die. -/
def State.restripeAt (s : State) (die k : Nat) : Option Restripe :=
  ((s.die die).restripe.find? (fun r => r.1 == k)).map (·.2)

/-- Old and new physical addresses of a byte of a range, under its leaf and its record. -/
def State.oldPa (s : State) (die va : Nat) (e : Word) : Spot := s.spot (s.geo die (Leaf.gidx e)) (Leaf.place e va)
def State.newPa (s : State) (die va : Nat) (r : Restripe) : Spot := s.spot (s.geo die r.newgidx) (r.newPlace va)

/-- Copy one aligned word with its full/empty bit and its poison mark (R303, 18 R418). -/
def State.copyWord (s : State) (sdom old new : Nat) : State :=
  let s1 := s.writeAs sdom new (s.readAs sdom old 8)
  let s2 := s1.setFull new (s.isFull old)
  if (s.poisonedIn old 8).isSome then s2.markPoison new else s2

/-- The frames of a domain's threads that lie in an extent and whose lines are held. -/
def State.framesIn (s : State) (sdom : Nat) (x : Nat × Nat) : List Thread :=
  s.threads.filter (fun t => t.frameIn sdom [x] && t.placed.isSome)

/-- The frames of an extent take their pages' current placement (R125, R303); their lines were written back. -/
def State.rehome (s : State) (sdom : Nat) (x : Nat × Nat) : State :=
  (s.framesIn sdom x).foldl (fun s t => match s.framePlaces (dieOf t.core) t.id with
    | .ok l => s.put { (s.again t) with placed := some l }
    | .error _ => s) s

/-- R254, R303: deferral entries, watches and buffered stores of a chunk's words follow the placement that serves them. `f` gives the
address and home of a word under the new placement from its address under the old. -/
def State.moveWaits (s : State) (f : Nat → Option (Nat × Nat × Nat)) : State :=
  { s with
    deferrals := s.deferrals.map (fun (e : Deferral) => match f e.pa with
      | some (pa, die, slice) => { e with pa := pa, die := die, slice := slice }
      | none => e)
    threads := s.threads.map (fun (t : Thread) => { t with
      stores := t.stores.map (fun (e : StoreEnt) => match f e.pa with
        | some (q, _, _) => { e with pa := q + e.pa % 8 }
        | none => e)
      cond := match t.cond with
        | some (.watch pa v reg) => match f pa with
          | some (q, _, _) => some (.watch q v reg)
          | none => t.cond
        | some (.gangTest g pa l reg) => match f pa with
          | some (q, _, _) => some (.gangTest g q l reg)
          | none => t.cond
        | c => c }) }

/-- The map of addresses from one placement of a chunk to the other, word by word. -/
def wordMap (l : List (Nat × Spot × Nat)) (pa : Nat) : Option (Nat × Nat × Nat) :=
  (l.find? (fun x => x.1 == alignDown pa 8)).map (fun x => (x.2.1.pa, x.2.1.die, x.2.2))

/-- The words of a chunk: old address, new spot and new slice. -/
def State.chunkWords (s : State) (die : Nat) (r : Restripe) (k : Nat) (e : Word) : List (Nat × Spot × Nat) :=
  (upto 0 2048).map (fun i =>
    let va := r.vbase + 16384 * k + 8 * i
    ((s.oldPa die va e).pa, s.newPa die va r, homeSlice (r.newPlace va)))

/-- The words of a chunk the other way: new address, old spot and old slice. -/
def State.chunkWordsBack (s : State) (die : Nat) (r : Restripe) (k : Nat) (e : Word) : List (Nat × Spot × Nat) :=
  (upto 0 2048).map (fun i =>
    let va := r.vbase + 16384 * k + 8 * i
    ((s.newPa die va r).pa, s.oldPa die va e, homeSlice (Leaf.place e va)))

/-- R303: copy chunk PROG, with the frames in it, and move on. -/
def State.copyChunk (s : State) (die k : Nat) (r : Restripe) : State :=
  let va := r.vbase + 16384 * r.prog
  let s3 := match s.walkTable die r.sdom va .engine with
    | .error _ => s.setRestripe die k { r with prog := r.prog + 1 }
    | .ok x =>
      let s0 := s.landWhere (fun y => y.tid.sdom == r.sdom && meets (y.va, y.bytes.length) (va, 16384))
      let s1 := (s0.framesIn r.sdom (va, 16384)).foldl (fun s t => s.writeBack t t.st.code t.st.sub) s0
      let l := s.chunkWords die r r.prog x.leaf
      let s2 := l.foldl (fun s w => s.copyWord r.sdom w.1 w.2.1.pa) s1
      ((s2.moveWaits (wordMap l)).setRestripe die k { r with prog := r.prog + 1 }).rehome r.sdom (va, 16384)
  s3

/-- R304 step 1: the leaf a page takes. -/
def finalLeaf (e : Nat) (r : Restripe) (k : Nat) : Nat :=
  let e1 := setBits e 26 38 (r.newframe + k)
  setBits (setBits e1 16 10 r.newgidx) 8 1 0

/-- The leaf of each chunk of a range before it takes the new placement. -/
def State.oldLeaves (s : State) (die : Nat) (r : Restripe) : List Word :=
  (upto 0 r.nchunk).map (fun k => match s.walkTable die r.sdom (r.vbase + 16384 * k) .engine with
    | .ok x => x.leaf
    | .error _ => 0)

/-- R304 steps 1 and 2: every leaf takes the new placement, and translations are invalidated; writes to the old placement go on. -/
def State.finishRstr (s : State) (die k : Nat) (r : Restripe) : State :=
  let s1 := s.eachLeaf die r.sdom r (fun s x i =>
    if Leaf.trans x.leaf then s.writeAs r.sdom x.entryPa (toBytes 8 (finalLeaf x.leaf.toNat r i)) else s)
  (s1.setRestripe die k { r with st := 2, old := s.oldLeaves die r }).invalidate r.sdom [r.extent] none

/-- Entries a die's spill list holds: those beyond the 64 of each slice (R254, 15 R342). -/
def State.spilled (s : State) (die : Nat) : Nat := (upto 0 64).foldl (fun n k => n + (s.deferralsOf die k - 64)) 0

/-- A command that runs. -/
def State.running (s : State) (die id : Nat) : Option EngCmd := (s.die die).engq.find? (fun c => c.id == id && c.started)

/-- Replace a command of a die's queue. -/
def State.setCmd (s : State) (die : Nat) (c : EngCmd) : State :=
  let x := s.die die
  s.setDie die { x with engq := x.engq.map (fun y => if y.id = c.id then c else y) }

/-- The tick at which the request of a command's k-th piece across a link left, while it is not answered (18 R420). -/
def EngCmd.askedAt (c : EngCmd) (k : Nat) : Option Nat := (c.asked.find? (fun x => x.1 == k)).map (·.2)

/-- Where the bytes of chunk PROG lie, by lines: their addresses, old and new places. -/
def State.chunkSpots (s : State) (die : Nat) (r : Restripe) : List (Nat × Spot × Spot) :=
  let va := r.vbase + 16384 * r.prog
  match s.walkTable die r.sdom va .engine with
  | .error _ => []
  | .ok x => (upto 0 128).map (fun i => (va + 128 * i, s.oldPa die (va + 128 * i) x.leaf, s.newPa die (va + 128 * i) r))

/-- Whether a chunk's copy waits: for its tables, for a carve unit or a line under either placement (10 R233, R235; 18 R419), or for a
route to one of its homes (19 R431). -/
def State.chunkWaits (s : State) (die : Nat) (r : Restripe) : Bool :=
  s.walkWaits die r.sdom (r.vbase + 16384 * r.prog) ||
  (s.chunkSpots die r).any (fun x => s.carveWaits x.2.1 || s.carveWaits x.2.2 || !s.linked die x.2.1.die || !s.linked die x.2.2.die)

/-- What ends the copy of a chunk with a CODE and FADDR (16 R373): its translation, or a place out of range or of another owner (10
R233). -/
def State.chunkBad (s : State) (die : Nat) (r : Restripe) : Option (Nat × Nat) :=
  let ok := fun (x : Spot) => x.inRange && s.carveAdmits r.sdom x
  match s.walkTable die r.sdom (r.vbase + 16384 * r.prog) .engine with
  | .error f => some (codeOf f.cause, r.vbase + 16384 * r.prog)
  | .ok _ => ((s.chunkSpots die r).find? (fun x => !(ok x.2.1 && ok x.2.2))).map (fun x => (19, x.1))

/-- Whether the copy of a chunk sends requests across a link to read the old placement, and to write the new (18 R420). -/
def State.chunkRemote (s : State) (die : Nat) (r : Restripe) : Bool × Bool :=
  let l := s.chunkSpots die r
  (l.any (fun x => x.2.1.die != die), l.any (fun x => x.2.2.die != die))

/-- The requests of a chunk's copy leave (18 R420). -/
def State.askChunk (s : State) (die : Nat) (c : EngCmd) : State :=
  match c.record.bind (fun k => ((s.die die).restripe.find? (fun r => r.1 == k)).map (·.2)) with
  | none => s
  | some r =>
    let x := s.chunkRemote die r
    if r.st = 1 ∧ (x.1 || x.2) = true ∧ c.askedAt r.prog = none then s.setCmd die { c with asked := [(r.prog, s.tick)] } else s

/-- The spill lists of all dies are within their limit (15 R342). -/
def State.spillOk (s : State) : Bool := (upto 0 8).all (fun d => decide (s.spilled d ≤ 8192))

/-- R305 steps 1 to 4: the old placement becomes authoritative again. -/
def State.abortRstr (s : State) (die k : Nat) (r : Restripe) : State :=
  let s1 := (s.framesIn r.sdom r.extent).foldl (fun s t => s.writeBack t t.st.code t.st.sub) s
  let s2 := (upto 0 r.prog).foldl (fun s i => match s.walkTable die r.sdom (r.vbase + 16384 * i) .engine with
    | .ok x => s.moveWaits (wordMap (s.chunkWordsBack die r i x.leaf))
    | .error _ => s) s1
  let s3 := (s2.setRestripe die k { r with st := 3 }).rehome r.sdom r.extent
  let s4 := s3.eachLeaf die r.sdom r (fun s x _ =>
    s.writeAs r.sdom x.entryPa (toBytes 8 (setBits x.leaf.toNat 8 1 0)))
  s4.invalidate r.sdom [r.extent] none

/-- A transition that runs aborts (R305), once its tables can be walked and there is room for the deferral entries it returns (15
R342). -/
def State.tryAbort (s : State) (die k : Nat) (r : Restripe) : State :=
  let s1 := s.abortRstr die k r
  if r.st = 1 ∧ s.rangeWaits die r.sdom r.vbase r.nchunk = false ∧ s1.spillOk = true then s1 else s

/-- An access of an RSTR's copy ends its command with a CODE and FADDR (16 R373, 18 R420): the transition aborts. -/
def State.failRstr (s : State) (die k : Nat) (r : Restripe) (c : EngCmd) (bad : Nat × Nat) : State :=
  (s.setCmd die { c with bad := some bad }).tryAbort die k r

/-- Step RSTR_CHUNK_COMPLETE (R303): the chunk PROG has been copied; after the last, R304 begins. It waits for the TLBINV of
R302, and while moving the chunk's deferral entries would pass the limit of a spill list (15 R342). -/
def execRstrChunkComplete (die r : Nat) (s : State) : Host.Outcome State Fault Refusal :=
  event (match s.restripeAt die r with
    | none => s
    | some x => match s.running die x.cmd with
      | none => s
      | some c =>
        if x.st = 1 ∧ s.invalidated x.sdom [x.extent] none = true ∧ s.chunkWaits die x = false then
          if c.bad.isSome then s.tryAbort die r x
          else if (c.askedAt x.prog).any (fun t => decide (t + s.reqto < s.tick)) then s
          else match s.chunkBad die x with
          | some b => s.failRstr die r x c b
          | none =>
            let s0 := if x.prog = 0 then s.dropFramesIn x.sdom [x.extent] none else s
            let s1 := s0.copyChunk die r x
            if !s1.spillOk then s else match s1.restripeAt die r with
            | some y =>
              if y.prog ≠ y.nchunk then s1
              else if s.rangeWaits die y.sdom y.vbase y.nchunk then s
              else s1.finishRstr die r y
            | none => s1
        else s)

/-- Step RSTR_ABORT (R305): an uncorrectable error met the copy. -/
def execRstrAbort (die r : Nat) (s : State) : Host.Outcome State Fault Refusal :=
  event (match s.restripeAt die r with
    | none => s
    | some x => s.tryAbort die r x)

/-! Queue and completion. -/

/-- The commands of threads in a queue (15 R343). -/
def Die.threadCmds (x : Die) : List EngCmd := x.engq.filter (fun c => c.eq.isNone)

/-- The queue takes a command (R370 to R374): an RSTR takes its record, or is to be refused with CODE 3. -/
def State.acceptCmd (s : State) (die : Nat) (t : Thread) (c0 : EngCmd) : State :=
  let x := s.die die
  let c1 := { c0 with id := s.nextCmd }
  let c := if c1.kind = .rstr then
      (if s.rstrOk die t.id.sdom c1 then { c1 with record := x.freeRecord } else { c1 with result := 3 }) else c1
  let s1 := s.setDie die { x with engq := x.engq ++ [c], engRes := x.engRes.accepted t.id }
  let s2 : State := { s1 with nextCmd := s.nextCmd + 1 }
  let s3 := s2.charge die t.home .eq 1 (s2.path die t.home t.region)
  match c.record with
  | some k => s3.beginRstr die t.id.sdom c k
  | none => s3

/-- Whether a store before its global point precedes what an accepted command reads or writes (12 R279): one of the issuer, one that it
has read, and, with the acquire flag, one of its die that the scope covers. -/
def State.leadsCmd (s : State) (t : Thread) (c : EngCmd) (x : Early) : Bool :=
  dieOf x.core == dieOf t.core && (x.tid == t.id || t.saw.contains (alignDown x.ent.pa 8) ||
    (c.acq && covers c.scope (dieOf t.core) (s.earlyDies x)))

/-- A command reaches the queue (R370, R374, 15 R339, R343): the owners of the segments it names are checked again (10 R221); the queue
takes it, or answers with a NACK. An invalid chain raises the region fault (02 R42). -/
def State.offerCmd (s : State) (die : Nat) (t : Thread) (c : EngCmd) : State :=
  let x := s.die die
  let used := x.threadCmds.length
  match s.rangesOk t c.ranges with
  | .error (.fault f) => s.parkWhenFree { t with pend := none } f false t.iword
  | .error _ => s
  | .ok _ =>
    if !x.engRes.admits used 240 t.id then
      (s.setDie die { x with engRes := x.engRes.nacked used 240 t.id }).replyNack t
    else match s.chain die t.home t.region with
      | .error b => (s.regionFault t.core t.home b).replyNack t
      | .ok l =>
        if !admits .eq 1 l || (c.kind == .rstr && x.freeRecord.isNone) then s.replyNack t
        else ((s.acceptCmd die t c).touchPath die t.home (l.map (·.1))).replyDone t.id []

/-- Step ENGINE_ACCEPTANCE_REPLY (R370): requests that arrive at one time come in the order of 15 R346; one whose charge waits waits. -/
def execEngineAcceptanceReply (i : Tid) (s : State) : Host.Outcome State Fault Refusal :=
  event (match s.find i with
    | none => s
    | some t => match t.pend with
      | some (.engine c) =>
        let die := dieOf t.core
        let s1 := s.landEarlyWhere (s.leadsCmd t c)
        let x := s1.die die
        if !s.groupFirst t || !orderedArrival x.arrived s.tick t.core || s1.chainWaits die t.home 9 t.region ||
            s1.pathWaits die t.home (s1.path die t.home t.region) || s1.early.any (s1.leadsCmd t c) ||
            (c.kind == .rstr && s1.rangeWaits die t.id.sdom c.src (c.len / 16384)) then s
        else (s1.setDie die { x with arrived := some (s.tick, t.core) }).offerCmd die t c
      | _ => s)

/-- Mark the first waiting command of a list as started, at a tick. -/
def startFirst (tick : Nat) : List EngCmd → List EngCmd
  | [] => []
  | c :: l => if c.started then c :: startFirst tick l else { c with started := true, since := tick } :: l

/-- Step ENGINE_COMMAND_START (15 R343): in acceptance order, at most 16 at once. -/
def execEngineCommandStart (die : Nat) (s : State) : Host.Outcome State Fault Refusal :=
  event (
    let x := s.die die
    if (x.engq.filter (·.started)).length < 16 then s.setDie die { x with engq := startFirst s.tick x.engq } else s)

/-- The agent that runs a command (R371): its issuer's address space and windows; Equinox's copies name no window (14 R479). -/
def EngCmd.agent (c : EngCmd) : Agent :=
  { die := dieOf c.core, core := if c.eq.isSome then none else some c.core, sdom := c.tid.sdom }

/-- One transfer of a command (R371): source, destination, size, part, and the row whose reads are its own (those of CPY2D, when rows
overlap). -/
structure Piece where
  src : Nat
  dst : Nat
  n : Nat
  part : Nat
  row : Nat := 0
  deriving DecidableEq, Repr

/-- The blocks a command moves (R371). -/
def EngCmd.blocks (c : EngCmd) : List Piece :=
  match c.kind with
  | .cpy | .mred => [{ src := c.src, dst := c.dst, n := c.len, part := 0 }]
  | .cpy2d => (upto 0 c.p1).map (fun r => { src := c.src + r * c.p2, dst := c.dst + r * c.p3, n := c.len, part := 0,
                                              row := if c.p2 < c.len then r else 0 })
  | .deal => (upto 0 (c.len / c.blk)).map (fun k =>
      { src := c.src + k * c.blk, dst := c.dst + k % c.parts * c.p2 + k / c.parts * c.blk, n := c.blk, part := k % c.parts })
  | .rstr => []

/-- The pieces of a block within aligned destination words, or the elements of MRED (R371, R372). -/
def EngCmd.cut (c : EngCmd) (b : Piece) : List Piece :=
  if c.kind = .mred then
    let es := mredSize (bits c.p1 3 0)
    (upto 0 (b.n / es)).map (fun k => { src := b.src + k * es, dst := b.dst + k * es, n := es, part := 0 })
  else (wordPieces b.dst b.n).map (fun p => { src := b.src + (p.1 - b.dst), dst := p.1, n := p.2, part := b.part, row := b.row })

/-- The pieces of a command, numbered from 0. -/
def EngCmd.pieces (c : EngCmd) : List Piece := c.blocks.flatMap c.cut

/-- R372: an element of DST after the reduction, from x of DST and y of SRC. -/
def mredOp (p1 x y : Nat) : Nat :=
  let op := bits p1 5 4
  let flt := fun (f : Fmt) => if op = 0 then (f.add .rne (f.decode x) (f.decode y)).1 else (f.minmax (op == 2) x y).1
  match bits p1 3 0 with
  | 0 => flt f64
  | 1 => flt f32
  | 2 => flt Machine.bf16
  | _ => if op = 0 then (x + y) % 2 ^ 64
         else if (decide (sval x 64 ≤ sval y 64)) == (op == 1) then x else y

/-- A source word that a row has read (12 R279): each is read once, whole. -/
def EngCmd.seenWord (c : EngCmd) (row w : Nat) : Option (List Byte) :=
  (c.seen.find? (fun x => x.1 == row * 2 ^ 64 + w)).map (·.2)

/-- Read the aligned word at w for a row, `lo` being its first byte that is needed (12 R279); of a context line every word is read at
one instruction boundary (10 R225). -/
def EngCmd.readWord (x : State × EngCmd) (row w lo : Nat) : Except AgentStop (State × EngCmd) :=
  if (x.2.seenWord row w).isSome then .ok x
  else match x.1.agentAt x.2.agent lo false with
    | .error e => .error e
    | .ok (s, p) =>
      let pa := alignDown p.pa 8
      if (s.poisonedIn pa 8).isSome then .error (.code 20 lo)
      else
        let l := if (s.lineAt pa).isSome then (upto 0 16).map (fun k => (alignDown w 128 + 8 * k, alignDown pa 128 + 8 * k)) else [(w, pa)]
        let l1 := l.filter (fun v => (s.poisonedIn v.2 8).isNone && (x.2.seenWord row v.1).isNone)
        let ws := l1.map (fun v => (row * 2 ^ 64 + v.1, (upto v.2 8).map (s.byteAt x.2.agent.sdom)))
        .ok (s, { x.2 with seen := x.2.seen ++ ws })

/-- Read n bytes at an address for a row. -/
def EngCmd.readBytes (x : State × EngCmd) (row a n : Nat) : Except AgentStop ((State × EngCmd) × List Byte) :=
  (wordPieces a n).foldl (fun r p => match r with
    | .error e => .error e
    | .ok (y, l) => match EngCmd.readWord y row (alignDown p.1 8) p.1 with
      | .error e => .error e
      | .ok z => .ok (z, l ++ (((z.2.seenWord row (alignDown p.1 8)).getD []).drop (p.1 % 8)).take p.2)) (.ok (x, []))

/-- What a piece will write: the bytes of its source, or the reduction of both elements (R371, R372). -/
def EngCmd.readPiece (c : EngCmd) (s : State) (p : Piece) : Except AgentStop ((State × EngCmd) × List Byte) :=
  match EngCmd.readBytes (s, c) p.row p.src p.n with
  | .error e => .error e
  | .ok (x, l) =>
    if c.kind = .mred then
      match EngCmd.readBytes x p.row p.dst p.n with
      | .error e => .error e
      | .ok (y, l2) => .ok (y, toBytes p.n (mredOp c.p1 (ofBytes l2) (ofBytes l)))
    else .ok (x, l)

/-- The geometry dies of a word (12 R263), as a mask; none for the host. -/
def State.geoDies (s : State) (die sdom va : Nat) : Target → Option Nat
  | .pad c _ => some (2 ^ dieOf c)
  | .mem l => s.leafDies die sdom va l.leaf

/-- A write of a command at its completion (12 R279): visible at once where the release flag covers it and on context lines (log 59),
later elsewhere. -/
def EngCmd.lateWrite (c : EngCmd) (s : State) (va : Nat) (bs : List Byte) : Except AgentStop State :=
  match s.agentAt c.agent va true with
  | .error e => .error e
  | .ok (s1, p) =>
    if s1.ctlLine p.pa then .error (.code 21 va)
    else
      let m := s1.geoDies c.agent.die c.agent.sdom va p
      if (c.rel && covers c.scope c.agent.die m) || (s1.lineAt p.pa).isSome then .ok (s1.performAt c.agent.sdom p bs)
      else
        let x := s1.die c.agent.die
        .ok (s1.setDie c.agent.die { x with landing := x.landing ++ [{
          tid := c.tid, va := va, pa := p.pa, mirror := match p with | .pad _ _ => none | .mem l => l.mirror
          bytes := bs, dies := m }] })

/-- A command's record of an access that failed (R373), for its k-th piece; none while the access waits. -/
def EngCmd.failed (c : EngCmd) (k : Nat) : AgentStop → Option EngCmd
  | .held => none
  | .code n va =>
    if n = 21 then some { c with late := some (c.late.getD va), lost := k :: c.lost }
    else some { c with bad := match c.bad with
      | some (m, v) => if m ≤ n then some (m, v) else some (n, va)
      | none => some (n, va) }

/-- The request of the k-th piece is answered (18 R420). -/
def EngCmd.answered (c : EngCmd) (k : Nat) : EngCmd := { c with asked := c.asked.filter (fun x => x.1 != k) }

/-- The k-th piece is read. -/
def EngCmd.doRead (c0 : EngCmd) (s : State) (k : Nat) (p : Piece) : Option (State × EngCmd) :=
  let c := c0.answered k
  match c.readPiece s p with
  | .ok ((s1, c1), l) => some (s1, { c1 with reads := (k, l) :: c1.reads })
  | .error e => (c.failed k e).map (fun c1 => (s, c1))

/-- The k-th piece, read before, is written by `w`. -/
def EngCmd.doWrite (c : EngCmd) (s : State) (k : Nat) (r : Except AgentStop State) : Option (State × EngCmd) :=
  match r with
  | .ok s1 => some (s1, { c.answered k with wrote := k :: c.wrote, reads := c.reads.filter (fun x => x.1 != k) })
  | .error e => ((c.answered k).failed k e).map (fun c1 => (s, c1))

/-- The k-th piece is over: written, or discarded. -/
def EngCmd.over (c : EngCmd) (k : Nat) : Bool := c.wrote.contains k || c.lost.contains k

/-- What the k-th piece has read. -/
def EngCmd.readOf (c : EngCmd) (k : Nat) : Option (List Byte) := (c.reads.find? (fun x => x.1 == k)).map (·.2)

/-- Whether an agent's access crosses a link, and whether it goes to the host (18 R420), held or not. -/
def State.agentRemote (s : State) (g : Agent) (va : Nat) (write : Bool) : Option Bool :=
  if inWindow va || !canonical va then none
  else match s.walkTable g.die g.sdom va .engine with
    | .error _ => none
    | .ok x => match s.locOf g.die g.sdom va x.leaf write with
      | .error _ => none
      | .ok l =>
        let host := physUnit l.spot.pa == hostUnit
        if l.spot.die != g.die || host then some host else none

/-- The request across a link that the k-th piece of a command makes next (18 R420): whether it writes, its address, and whether it goes
to the host. -/
def EngCmd.request (c : EngCmd) (s : State) (k : Nat) (p : Piece) : Option (Bool × Nat × Bool) :=
  let write := (c.readOf k).isSome
  (if write then [p.dst] else [p.src, p.src + p.n - 1] ++ (if c.kind = .mred then [p.dst] else [])).findSome?
    (fun va => (s.agentRemote c.agent va write).map (fun h => (write, va, h)))

/-- Whether the request of the k-th piece left so long ago that it gets no reply any more (18 R420). -/
def EngCmd.unanswered (c : EngCmd) (s : State) (k : Nat) (p : Piece) : Bool :=
  match c.askedAt k, c.request s k p with
  | some t, some r => decide (t + s.bound r.2.2 < s.tick)
  | _, _ => false

/-- One move of the k-th piece while the command runs: its read, or its write; after an error no further write starts (R373). -/
def EngCmd.move (c : EngCmd) (s : State) (k : Nat) (p : Piece) : Option (State × EngCmd) :=
  if c.over k || c.unanswered s k p then none
  else match c.readOf k with
    | none => c.doRead s k p
    | some l => if c.bad.isSome then none else c.doWrite s k (s.agentWrite c.agent p.dst l)

/-- The k-th piece at the command's completion. -/
def EngCmd.finishPiece (x : State × EngCmd) (k : Nat) (p : Piece) : Option (State × EngCmd) :=
  let put := fun (y : State × EngCmd) (l : List Byte) => y.2.doWrite y.1 k (y.2.lateWrite y.1 p.dst l)
  if x.2.over k || x.2.bad.isSome then some x
  else if x.2.unanswered x.1 k p then none
  else match x.2.readOf k with
    | some l => put x l
    | none => match x.2.doRead x.1 k p with
      | none => none
      | some y => match y.2.readOf k with
        | some l => put y l
        | none => some y

/-- The rest of a command's transfers (R371); none while an access waits. -/
def EngCmd.run (c : EngCmd) (s : State) : Option (State × EngCmd) :=
  ((upto 0 c.pieces.length).zip c.pieces).foldlM (fun x p => EngCmd.finishPiece x p.1 p.2) (s, c)

/-- A command leaves its queue. -/
def State.dropCmd (s : State) (die id : Nat) : State :=
  let x := s.die die
  s.setDie die { x with engq := x.engq.filter (fun y => y.id != id) }

/-- The engine moves a piece of a command that runs, in no particular order (12 R279): which is a free value, as is whether its request
across a link only leaves now and is answered later (log 59). -/
def State.engineMove (s : State) (die id : Nat) : State :=
  match s.running die id with
  | none => s
  | some c =>
    if c.kind = .rstr then s.askChunk die c
    else
      let l := c.pieces
      let x := Config.free 59 s.draws
      let k := x % l.length
      match l[k]? with
      | none => s
      | some p =>
        let asks := !c.over k && (c.request s k p).isSome && (c.askedAt k).isNone
        let ask := s.setCmd die { c with asked := (k, s.tick) :: c.asked }
        match c.move s k p with
        | none => if asks then ask else s
        | some (s1, c1) => if asks && bit (x / l.length) 0 then ask else s1.setCmd die c1

/-- A late write of a die's engine becomes visible: which is a free value (log 59). -/
def State.engineLand (s : State) (die : Nat) : State :=
  let x := s.die die
  let k := Config.free 59 s.draws % x.landing.length
  match x.landing[k]? with
  | none => s
  | some y => (s.setDie die { x with landing := removeNth k x.landing }).land y

/-- Bytes a command has written, of all its parts or of those a test picks (R373). -/
def EngCmd.written (c : EngCmd) (p : Piece → Bool) : Nat :=
  ((upto 0 c.pieces.length).zip c.pieces).foldl (fun n x => if c.wrote.contains x.1 && p x.2 then n + x.2.n else n) 0

/-- Add to a fill counter (R373, 17 R382); a poisoned counter word takes nothing. -/
def State.fillAddAt (s : State) (g : Agent) (va n : Nat) : State :=
  match s.agentAt g va true with
  | .error _ => s
  | .ok (s1, p) =>
    if (s1.poisonedIn p.pa 8).isSome then s1
    else s1.performAt g.sdom p (toBytes 8 (fillAddWord (s1.numAt g.sdom p.pa 8) n))

/-- A command's status block (R373), word by word. -/
def EngCmd.putStatus (c : EngCmd) (s : State) (code count faddr : Nat) : Except AgentStop State :=
  match c.lateWrite s c.status (toBytes 8 (code + count * 2 ^ 8)) with
  | .error e => .error e
  | .ok s1 => c.lateWrite s1 (c.status + 8) (toBytes 8 faddr)

/-- R373: a command ends: its status block, its fill, its queue entry and its charge. -/
def State.endCmd (s : State) (die : Nat) (c : EngCmd) (code count faddr : Nat) (adds : List Nat) : State :=
  let s1 := if c.status = 0 then s
    else match c.putStatus s code count faddr with
      | .ok s' => s'
      | .error _ => s.countErr die 9
  let s2 := if 16 ≤ code then s1.countErr die 9 else s1
  let s3 := match c.fill with
    | none => s2
    | some a => ((upto 0 adds.length).zip adds).foldl (fun s (x : Nat × Nat) => s.fillAddAt c.agent (a + 8 * x.1) x.2) s2
  let s4 := s3.dropCmd die c.id
  let x := s4.die die
  let s5 := s4.setDie die { x with engRes := x.engRes.freed s4.tick }
  s5.charge die c.home .eq (-1) (s5.path die c.home c.region)

/-- Whether the end of a command waits: its status block or its charge is held (13 R303, 10 R233). -/
def State.endWaits (s : State) (die : Nat) (c : EngCmd) : Bool :=
  (c.status != 0 && (match c.putStatus s 0 0 0 with | .error .held => true | _ => false)) ||
  s.chainWaits die c.home 9 c.region

/-- CODE and FADDR of a command (R373): the lowest error code. -/
def EngCmd.code (c : EngCmd) : Nat × Nat :=
  match c.bad, c.late with
  | some e, _ => e
  | none, some va => (21, va)
  | none, none => (1, 0)

/-- R304 steps 3 and 4, R305 steps 4 and 5: an RSTR whose last TLBINV is over frees its record and ends. -/
def State.endRstr (s : State) (die k : Nat) (r : Restripe) (c : EngCmd) : State :=
  let s1 := s.dropFramesIn r.sdom [r.extent] none
  let x := s1.die die
  let s2 := s1.setDie die { x with restripe := Sparse.drop x.restripe k }
  if r.st = 2 then s2.endCmd die c 1 r.nchunk 0 [r.nchunk]
  else match c.bad with
    | some b => (s2.countErr die 5).endCmd die c b.1 r.prog b.2 [0]
    | none => (s2.countErr die 5).endCmd die c 2 r.prog 0 [0]

/-- Step ENGINE_COMMAND_COMPLETION (R373) of a thread's command. -/
def execEngineCommandCompletion (die id : Nat) (s : State) : Host.Outcome State Fault Refusal :=
  event (match (s.die die).engq.find? (fun c => c.id == id && c.eq.isNone) with
    | none => s
    | some c =>
      if s.endWaits die c then s
      else if c.kind = .rstr then
        if c.result = 3 then s.endCmd die c 3 0 0 [0]
        else match c.record with
          | none => s
          | some k => match s.restripeAt die k with
            | none => s
            | some r =>
              if (r.st = 2 ∨ r.st = 3) ∧ s.invalidated r.sdom [r.extent] none = true then s.endRstr die k r c else s
      else if c.started then
        match c.run s with
        | none => s
        | some (s1, c1) =>
          s1.endCmd die c1 c1.code.1 (c1.written (fun _ => true)) c1.code.2
            ((upto 0 c.parts).map (fun k => c1.written (fun p => p.part == k)))
      else s)

end Sys2Proof.Machine
end

