-- ==== Sys2Proof/Machine/Tables.lean ====
section
/-! DEFINITION. The table instructions of major 0x32 (13 R297, R300; 14 R309 to R316; 17 R392): PLACEQ, GTSYNC, ROUTE, XCNT, and the
step that completes GTSYNC. -/
namespace Sys2Proof.Machine

/-! PLACEQ (R297). -/

/-- What PLACEQ finds: the pair it writes, or a poisoned table entry (18 R418). -/
inductive Placed where
  | pair (p a : Word)
  | bad (f : Flt)
  deriving DecidableEq, Repr

/-- The attribute word of a STATUS and LEVEL alone (R297). -/
def placeStatus (status lvl : Nat) : Placed := .pair 0 (w64 (status * 2 ^ 32 + lvl * 2 ^ 40))

/-- The level of a leaf (13 R288). -/
def leafLevel (e : Word) : Nat := if Leaf.size e = 2 then 3 else 4

/-- The HBM channel of a placement (R294). -/
def hbmChannel (geo : Word) (p : Nat) : Nat :=
  let c := p / (256 * 2 ^ Geo.ilv geo)
  (c / (setBitsOf (Geo.stacks geo) 16).length % 32) ^^^ (Geo.seed geo % 32)

/-- The attribute word of a leaf (R297); SLICE and CHAN are 0 unless the byte is in range. -/
def placeAttr (geo e : Word) (p : Nat) (sp : Spot) (ok : Bool) : Word :=
  let tier := Geo.tier geo
  w64 (sp.die + (if ok then homeSlice p * 2 ^ 3 else 0) + (if tier = 0 ∨ tier = 2 then sp.unit % 16 * 2 ^ 9 else 0)
    + (if ok ∧ tier = 0 then hbmChannel geo p * 2 ^ 13 else 0) + tier * 2 ^ 18 + Leaf.cls e * 2 ^ 20 + Leaf.apl e * 2 ^ 22
    + b2n (Leaf.sync e) * 2 ^ 24 + (b2n (Leaf.r e) + 2 * b2n (Leaf.w e) + 4 * b2n (Leaf.x e)) * 2 ^ 25
    + Leaf.size e * 2 ^ 28 + (if ok then 0 else 6) * 2 ^ 32 + leafLevel e * 2 ^ 40)

/-- R297 with the leaf at hand: the placement that serves a load. -/
def State.placeLeaf (s : State) (die sdom va : Nat) (e : Word) : Placed :=
  match s.locOf die sdom va e false with
  | .error _ => placeStatus 6 (leafLevel e)
  | .ok l =>
    let ok := l.spot.inRange && s.carveAdmits sdom l.spot
    let w := placeWord l.p l.gidx (Leaf.trans e)
    .pair (if ok then w else w &&& ~~~w64 (2 ^ 63)) (placeAttr (s.geo die l.gidx) e l.p l.spot ok)

/-- A value that R297 does not state, for a thread's PLACEQ (log 17: a free value). -/
def State.freeWord (s : State) (log : Nat) (t : Thread) (k : Nat) : Word :=
  w64 (Config.free log ((s.draws * 2 ^ 47 + t.id.handle) * 16 + k))

/-- R297: the translation of an address, or why there is none. -/
def State.placeQuery (s : State) (t : Thread) (va : Nat) : Placed :=
  if !canonical va then placeStatus 1 0
  else if inWindow va then placeStatus 2 0
  else match s.tlbFind t.core t.id.sdom va with
    | some e => s.placeLeaf (dieOf t.core) t.id.sdom va e.leaf
    | none => match s.walkOnce (dieOf t.core) t.id.sdom va .load with
      | .ok x => s.placeLeaf (dieOf t.core) t.id.sdom va x.leaf
      | .error f => match f.cause with
        | .pageNotPresent => placeStatus 3 (f.detail % 5)
        | .pageInvalid => placeStatus 4 (f.detail % 5)
        | .geometry => placeStatus 5 (f.detail % 5)
        | .poisonedData => .bad f
        -- STATUS 6 for a table page beyond its limit, which is not read: R297 gives the fields but LEVEL for a leaf only
        | _ => .pair (s.freeWord 17 t 0 &&& ~~~w64 (2 ^ 63))
                 (w64 (setBits (setBits ((s.freeWord 17 t 1).toNat &&& 0x3FFC1E07) 32 8 6) 40 3 (f.detail - 1)))

/-- Whether a PLACEQ waits for the tables of a walk (10 R233, R235). -/
def State.placeWaits (s : State) (t : Thread) (va : Nat) : Bool :=
  canonical va && !inWindow va && (s.tlbFind t.core t.id.sdom va).isNone && s.walkWaits (dieOf t.core) t.id.sdom va

/-- PLACEQ (R297). -/
def execPlaceq (d : PairReg) (a : Reg) (s : State) : Host.Outcome State Fault Refusal :=
  word (.placeq d a) s (fun s t =>
    let r := 2 * d.toNat
    if s.placeWaits t (t.rd a.toNat).toNat then .error .block
    else match s.placeQuery t (t.rd a.toNat).toNat with
    | .pair p q => .ok (s.retire (t.produce { regs := [(r, p), (r + 1, q)], flags := 0, float := false, req := none, bad := none }))
    | .bad f => .ok (s.retire (t.produce { regs := [(r, 0), (r + 1, 0)], flags := 0, float := false, req := none,
                                           bad := some (f.cause, f.kind, f.addr) })))

/-! GTSYNC (R300). -/

/-- GTSYNC (R300). -/
def execGtsync (a : Reg) (s : State) : Host.Outcome State Fault Refusal :=
  word (.gtsync a) s (fun s t =>
    let g := t.rd a.toNat
    if t.id.sdom ≠ 0 then failWith .privilege 0
    else if wbits g 63 10 ≠ 0 then failWith .tableOperand g
    else
      let va := s.gtbase.toNat + 8 * g.toNat
      match s.reach t 8 { ea := va, n := 8, kind := .load, write := false } with
      | .error e => .error e
      | .ok p =>
        let s1 := s.syncFrame t.id.sdom va p
        let t1 := s1.again t
        match s1.loadBytes t1 va p 8 with
        | .error e => .error e
        | .ok x => match s1.bytesNow t1 va 8 x with
          | (_, some w) => .ok (s1.retire (t1.produce (badFill [] .load w)))
          | (bs, none) => .ok (s1.hold t1 (wordOf (.gtsync a)) (.gtsync g.toNat (w64 (ofBytes bs)))))

/-- R300: an entry enters every die's geometry cache, and every TLB entry naming the index is dropped. -/
def State.setGeo (s : State) (idx : Nat) (e : Word) : State :=
  ((upto 0 8).foldl (fun s d => let x := s.die d; s.setDie d { x with gcache := Sparse.set 0 x.gcache idx e }) s).tlbDropGeo idx

/-- Step GTSYNC_COMPLETION (R300). -/
def execGtsyncCompletion (i : Tid) (s : State) : Host.Outcome State Fault Refusal :=
  event (match s.find i with
    | none => s
    | some t => match t.pend with
      | some (.gtsync idx e) => (s.setGeo idx e).replyDone i []
      | _ => s)

/-! ROUTE and XCNT (R309 to R316, R392). -/

/-- The EDT entry n (R308). -/
def State.edtEnt (s : State) (n : Nat) : Edt := Sparse.get Edt.init s.edt n

/-- The sums of the enabled weights of an entry's first slots (R311, R314): slot words, COUNT + 1 of them. -/
def slotWeight (s : State) (w : Nat) : Nat := if s.dieOn (bits w 2 0) then bits w 15 8 else 0

/-- The base address of a replica slot (R311). -/
def slotBase (w : Nat) : Nat := w / 2 ^ 16 * 2 ^ 16

/-- Word k of a 128-byte entry. -/
def entWord (n k : Nat) : Nat := n / 2 ^ (64 * k) % 2 ^ 64

/-- The slot words in use of a replica-table entry (R311). -/
def entSlots (n : Nat) : List Nat := (upto 1 (bits (entWord n 0) 18 16 + 1)).map (entWord n)

/-- The enabled weight of an entry (R311). -/
def State.entWeight (s : State) (n : Nat) : Nat := (entSlots n).foldl (fun a w => a + slotWeight s w) 0

/-- R311: a valid entry: every reserved bit is 0, those of its last 56 bytes among them. -/
def State.entValid (s : State) (n : Nat) : Bool :=
  let w0 := entWord n 0
  bit w0 19 && decide (w0 < 2 ^ 20) &&
  (entSlots n).all (fun w => bits w 7 3 == 0 && canonical (slotBase w)) &&
  (upto (bits w0 18 16 + 2) (7 - bits w0 18 16)).all (fun k => entWord n k == 0) && decide (n < 2 ^ 576) && decide (0 < s.entWeight n)

/-- R314: the smallest slot whose running sum of enabled weights exceeds t. -/
def State.pickSlot (s : State) (t : Nat) : Nat → Nat → List Nat → Option (Nat × Nat)
  | _, _, [] => none
  | k, acc, w :: l => if t < acc + slotWeight s w then some (k, w) else s.pickSlot t (k + 1) (acc + slotWeight s w) l

/-- The draw of R314 from a token key. -/
def routeDraw (key : Word) (w : Nat) : Nat := (key * 0x9E3779B97F4A7C15#64).toNat / 2 ^ 32 * w / 2 ^ 32

/-- Whether a store that a thread's access to a line follows is still on its way: its own, or one of its die (12 R261, R266). -/
def State.storeAhead (s : State) (t : Thread) (pa : Nat) : Bool :=
  t.stores.any (fun e => e.pa / 128 == pa / 128) || s.early.any (fun x => dieOf x.core == dieOf t.core && x.ent.pa / 128 == pa / 128)

/-- An access of ROUTE, whose faults are those of ATOM.D (R314), a control line's among them (10 R225); an entry needs R only. It
waits for the stores to the line that it follows (12 R261). A data breakpoint is judged on 8 bytes of the header and of the entry and
4 of the counter (log 111: DESIGN CHOICE). -/
def State.routeReach (s : State) (t : Thread) (ea n al : Nat) (write : Bool) : Except Stop Target :=
  if write then match s.reach t al { ea := ea, n := n, kind := .atomic, write := true } with
    | .error e => .error e
    | .ok g =>
      if s.ctlLine g.pa then failAcc .controlLineWrite ea .atomic 0
      else if s.storeAhead t g.pa then .error .block
      else .ok g
  else match s.reach t al { ea := ea, n := n, kind := .load, write := false } with
    | .ok g => if s.storeAhead t g.pa then .error .block else .ok g
    | .error (.fault f) => .error (.fault { f with kind := .atomic })
    | .error (.walk w) => .error (.walk { w with kind := .atomic })
    | .error e => .error e

/-- The first poisoned word among some at offsets from a place. -/
def State.poisonAt (s : State) (pa va : Nat) (offs : List Nat) : Option Nat :=
  (offs.find? (fun o => (s.poisonedIn (pa + o) 1).isSome)).map (fun o => va + o)

/-- The value of ROUTE's pair (R314). -/
def routePair (slot j dom e g : Nat) : Word × Word :=
  (w64 (slotBase slot + j * 8 + slot % 8), w64 (j * 2 ^ 32 + dom * 2 ^ 28 + e * 2 ^ 16 + g))

/-- R314 after every check: the two counters and the pair; the thread's earlier loads are bound first (12 R266). -/
def State.routeDone (s0 : State) (t : Thread) (r dom e gen j slot va : Nat) (head cnt : Target) : State :=
  let s := s0.put (s0.bindLoads t)
  let off := 0x10 + 8 * (gen % 2)
  let drain := s.numAt t.id.sdom (head.pa + off) 8 + 1
  let lc := min (s.numAt t.id.sdom cnt.pa 4 + 1) 0xFFFFFFFF
  let mv := fun (g : Target) (o : Nat) => match g with
    | .pad c f => Target.pad c (f + o)
    | .mem l => Target.mem { l with spot := { l.spot with pa := l.spot.pa + o }, mirror := l.mirror.map (· + o) }
  let s1 := s.performAt t.id.sdom (mv head off) (toBytes 8 drain)
  let s2 := s1.performAt t.id.sdom cnt (toBytes 4 lc)
  let p := routePair slot j dom e gen
  s2.retire ((s2.again t).produce { regs := [(r, p.1), (r + 1, p.2)], flags := 0, float := false,
                                    req := s2.reqAt t head .atomic va, bad := none, mem := true, acq := true })

/-- The selector's checks (R314). -/
def State.routeDom (s : State) (t : Thread) (sel : Word) : Option Edt :=
  let x := s.edtEnt (wbits sel 15 12)
  if wbits sel 63 16 = 0 ∧ x.v = true ∧ x.sdom = t.id.sdom then some x else none

/-- ROUTE goes on only where the words it read are not poisoned; its registers take the bad fill otherwise (18 R418). -/
def State.unlessBad (s : State) (t : Thread) (regs : List Nat) (bad : Option Nat) (k : Except Stop State) : Except Stop State :=
  match bad with
  | some w => .ok (s.retire (t.produce (badFill regs .atomic w)))
  | none => k

/-- ROUTE (R314 to R316). -/
def execRoute (d : PairReg) (a b : Reg) (s : State) : Host.Outcome State Fault Refusal :=
  word (.route d a b) s (fun s t =>
    let sel := t.rd a.toNat
    let r := 2 * d.toNat
    let e := wbits sel 11 0
    let dom := t.id.sdom
    match s.routeDom t sel with
    | none => failWith .routeOperand sel
    | some x =>
      let va := x.dva.toNat
      match s.routeReach t va 8 8 true with
      | .error e => .error e
      | .ok head =>
        let gen := s.numAt dom head.pa 2
        let ea := va + 0x1000 + gen % 2 * 0x80000 + e * 128
        let cva := s.numAt dom (head.pa + 0x38) 8 + 4 * e
        s.unlessBad t [r, r + 1] (s.poisonAt head.pa va [0, 0x10 + 8 * (gen % 2), 0x20, 0x38])
          (if bits (s.numAt dom (head.pa + 0x20) 8) 12 0 ≤ e then failWith .routeOperand sel
          else match s.routeReach t ea 8 8 false with
            | .error e => .error e
            | .ok g =>
              let n := s.numAt dom g.pa 128
              s.unlessBad t [r, r + 1] (s.poisonAt g.pa ea ((upto 0 16).map (8 * ·)))
                (if !s.entValid n then failWith .replicaTable (w64 ea)
                else match s.routeReach t cva 4 4 true with
                  | .error e => .error e
                  | .ok cnt =>
                    s.unlessBad t [r, r + 1] ((s.poisonAt cnt.pa cva [0]).map (alignDown · 8))
                      (match s.pickSlot (routeDraw (t.rd b.toNat) (s.entWeight n)) 0 0 (entSlots n) with
                      | none => failWith .replicaTable (w64 ea)
                      | some (j, slot) => .ok (s.routeDone t r (wbits sel 15 12) e gen j slot va head cnt)))))

/-- A number of n bytes that XCNT reads at a place, past the thread's own buffered stores (12 R261). -/
def State.numSeen (s : State) (t : Thread) (pa n : Nat) : Nat := ofBytes (s.loadAt t pa n)

/-- The first poisoned word among those at offsets that XCNT reads. -/
def State.poisonSeen (s : State) (t : Thread) (pa va : Nat) (offs : List Nat) : Option Nat :=
  offs.findSome? (fun o => s.viewPoison t (alignDown (va + o) 8) (alignDown (pa + o) 8) 8)

/-- XCNT (R392). -/
def execXcnt (d a : Reg) (s : State) : Host.Outcome State Fault Refusal :=
  word (.xcnt d a) s (fun s t =>
    let sel := t.rd a.toNat
    let e := wbits sel 11 0
    let stop := fun w => Except.ok (s.retire ((s.bindLoads t).produce { badFill [d.toNat] .load w with mem := true }))
    match s.routeDom t sel with
    | none => failWith .routeOperand sel
    | some x =>
      let va := x.dva.toNat
      match s.reach t 4 { ea := va, n := 4, kind := .load, write := false } with
      | .error e => .error e
      | .ok head =>
        let base := s.numSeen t (head.pa + 0x38) 8
        match s.poisonSeen t head.pa va [0, 0x20, 0x38] with
        | some w => stop w
        | none =>
          if bits (s.numSeen t (head.pa + 0x20) 8) 12 0 ≤ e then failWith .routeOperand sel
          else match s.reach t 4 { ea := (base + 4 * e : Nat), n := 4, kind := .load, write := false } with
            | .error e => .error e
            | .ok cnt =>
              match s.poisonSeen t cnt.pa (base + 4 * e) [0] with
              | some w => stop w
              | none => .ok (s.retire ((s.bindLoads t).produce { regFill d.toNat
                  (w64 (s.numSeen t head.pa 2 * 2 ^ 32 + s.numSeen t cnt.pa 4)) with
                    req := s.reqAt t head .load va, mem := true })))

end Sys2Proof.Machine
end

