-- ==== Sys2Proof/Machine/Equinox.lean ====
section
/-! DEFINITION. Equinox (14 R319 to R322, R479; 15 R344): one evaluation of an expert domain, its replication copies, publication,
and the event log. -/
namespace Sys2Proof.Machine

/-- The result of work for a domain: the state and a value, or the access that failed and the state it left (R479). -/
abbrev EqM := Except (AgentStop × State)

/-- Read n bytes for a domain. -/
def eqRead (g : Agent) (va n : Nat) (s : State) : EqM (State × Nat) :=
  match s.agentNum g va n with
  | .ok (s1, v) => .ok (s1, v)
  | .error e => .error (e, s)

/-- Write n bytes for a domain. -/
def eqWrite (g : Agent) (va n v : Nat) (s : State) : EqM (State × Unit) :=
  match s.agentWrites g va (toBytes n v) with
  | .ok s1 => .ok (s1, ())
  | .error e => .error (e, s)

/-! The descriptor (R309), as the number its first 128 bytes hold. -/

def dGen (n : Nat) : Nat := bits n 15 0
def dNexp (n : Nat) : Nat := bits (entWord n 4) 12 0
def dAuto (n : Nat) : Bool := bit (entWord n 4) 13
def dHold (n : Nat) : Bool := bit (entWord n 4) 14
def dMaxrep (n : Nat) : Nat := bits (entWord n 4) 17 15
def dElig (n : Nat) : Nat := bits (entWord n 4) 25 18
def dHigh (n : Nat) : Nat := bits (entWord n 5) 31 0
def dLow (n : Nat) : Nat := bits (entWord n 5) 63 32
def dInterval (n : Nat) : Nat := bits (entWord n 6) 31 0
def dLcbase (n : Nat) : Nat := entWord n 7
def dWsize (n : Nat) : Nat := entWord n 8
def dGradoff (n : Nat) : Nat := entWord n 9
def dPoolbase (n : Nat) : Nat := entWord n 10
def dPoolslots (n : Nat) : Nat := bits (entWord n 11) 3 0
def dPoolmap (n : Nat) : Nat := entWord n 12
def dLogbase (n : Nat) : Nat := entWord n 13
def dPendfree (n : Nat) : Nat := entWord n 15

/-- INTERVAL within its range (R309). -/
def intervalOk (n : Nat) : Bool := n == 0 || (decide (10000 ≤ n) && decide (n ≤ 10000000))

/-- The ticks between evaluations (R309, R310). -/
def intervalOf (n : Nat) : Nat := if dInterval n = 0 || !intervalOk (dInterval n) then 100000 else dInterval n

/-- The number of the descriptor that holds a word 6, INTERVAL, alone. -/
def dWord6 (v : Nat) : Nat := v * 2 ^ 384

/-- The ticks between evaluations of an expert domain (R309): 100,000 where INTERVAL cannot be read (log 39: DEDUCED); none while the read
waits. -/
def State.readInterval (s : State) (x : Edt) : Option Nat :=
  match s.agentNum { die := x.owner, core := none, sdom := x.sdom } (x.dva.toNat + 0x30) 8 with
  | .ok (_, v) => some (intervalOf (dWord6 v))
  | .error .held => none
  | .error _ => some 100000

/-- The tick at which a domain's next evaluation falls due (R319, 15 R344); none while its first INTERVAL is not readable yet. -/
def State.dueAt (s : State) (x : Edt) : Option Nat := if x.late then (s.readInterval x).map (x.due + ·) else some x.due

/-- R310: a valid descriptor. Of the reserved fields those of R309's table count, not the rest of the 4 KiB (log 101: DEDUCED). -/
def descValid (n : Nat) : Bool :=
  decide (1 ≤ dNexp n) && decide (dNexp n ≤ 4096) && decide (dLow n < dHigh n) && intervalOk (dInterval n) &&
  dWsize n != 0 && dWsize n % 16384 == 0 && dGradoff n % 128 == 0 && decide (dGradoff n < dWsize n) &&
  decide (1 ≤ dPoolslots n) && decide (dPoolslots n ≤ 8) &&
  bits (entWord n 0) 63 16 == 0 && bits (entWord n 4) 63 26 == 0 && bits (entWord n 6) 63 32 == 0 && bits (entWord n 11) 63 4 == 0

/-- The address of entry e of bank k (R309). -/
def entryVa (dva k e : Nat) : Nat := dva + 0x1000 + k * 0x80000 + e * 128
/-- The address of a pool slot (R309). -/
def slotVa (n d p : Nat) : Nat := dPoolbase n + (d * dPoolslots n + p) * dWsize n

/-- The number of the descriptor's words that an evaluation needs, the others 0 (R309, R479). -/
def eqWords (g : Agent) (dva : Nat) (ks : List Nat) (n : Nat) (s : State) : EqM (State × Nat) :=
  ks.foldlM (fun (x : State × Nat) k => do
    let (s1, v) ← eqRead g (dva + 8 * k) 8 x.1
    return (s1, setBits x.2 (64 * k) 64 v)) (s, n)

/-! The event log (R322). An access that waits makes the whole step wait. -/

/-- Write one record; a record or a LOGCNT that cannot be stored is dropped (R479). -/
def State.eqLog (s : State) (g : Agent) (dva : Nat) (kind die expert gen : Nat) : Except Unit State :=
  let record : EqM (State × Nat) := do
    let (s1, cnt) ← eqRead g (dva + 0x70) 8 s
    let (s2, base) ← eqRead g (dva + 0x68) 8 s1
    let at' := base + 16 * (cnt % 256)
    let (s3, _) ← eqWrite g at' 8 (s.tick % 2 ^ 64) s2
    let (s4, _) ← eqWrite g (at' + 8) 8 (kind + die % 8 * 2 ^ 8 + expert % 4096 * 2 ^ 16 + gen % 2 ^ 16 * 2 ^ 32) s3
    return (s4, cnt)
  match record with
  | .error (.held, _) => .error ()
  | .error _ => .ok s
  | .ok (s4, cnt) => match eqWrite g (dva + 0x70) 8 ((cnt + 1) % 2 ^ 64) s4 with
    | .error (.held, _) => .error ()
    | .error _ => .ok s4
    | .ok (s5, _) => .ok s5

/-- Change an EDT entry. -/
def State.setEdt (s : State) (k : Nat) (x : Edt) : State := { s with edt := Sparse.set Edt.init s.edt k x }

/-- The next due tick after now (15 R344): one that falls due while another is pending or running merges with it. -/
def nextDue (due interval tick : Nat) : Nat := if tick < due then due else due + ((tick - due) / interval + 1) * interval

/-- The due tick of a domain passes over those that fell due by now (15 R344). -/
def State.eqMerge (s : State) (k interval : Nat) : State :=
  let y := s.edtEnt k
  if y.v then s.setEdt k { y with due := nextDue ((s.dueAt y).getD y.due) interval s.tick, late := false } else s

/-- An evaluation: its agent, its domain's entry, its descriptor's address and words. -/
structure EqCtx where
  g : Agent
  dom : Nat
  dva : Nat
  n : Nat
  deriving DecidableEq, Repr

/-- Step 8 of R319: LASTEVAL, dropped where it cannot be stored; the instance is free, and the next evaluation falls due as usual (R479). -/
def State.eqClose (s : State) (c : EqCtx) : Except Unit State :=
  let free := fun (s1 : State) => let x := s1.die c.g.die; (s1.setDie c.g.die { x with eqRun := none }).eqMerge c.dom (intervalOf c.n)
  match eqWrite c.g (c.dva + 8) 8 (s.tick % 2 ^ 64) s with
  | .error (.held, _) => .error ()
  | .error _ => .ok (free s)
  | .ok (s1, _) => .ok (free s1)

/-! Decisions (R320). -/

/-- An active entry that takes part: expert, its load, its slots. -/
structure Active where
  e : Nat
  load : Nat
  slots : List Nat
  deriving DecidableEq, Repr

/-- R320: the load of a die. -/
def dieLoad (l : List Active) (d : Nat) : Nat :=
  l.foldl (fun a x => a + (x.slots.filter (fun w => w % 8 == d)).length * (x.load / x.slots.length)) 0

/-- Insert a candidate by descending load, ties to the lower expert. -/
def insertActive (x : Active) : List Active → List Active
  | [] => [x]
  | y :: l => if y.load < x.load ∨ (y.load = x.load ∧ x.e < y.e) then x :: y :: l else y :: insertActive x l

/-- The lowest pool slot of a die that is clear and not taken. -/
def freePool (n d : Nat) (taken : List (Nat × Nat × Nat)) : Option Nat :=
  (upto 0 (dPoolslots n)).find? (fun p => !bit (dPoolmap n) (8 * d + p) && !taken.any (fun x => x.2.1 == d && x.2.2 == p))

/-- R320: the replications, in order; `extra` is what earlier choices added to each die's load. -/
def State.replications (s : State) (n : Nat) (all : List Active) :
    List Active → List (Nat × Nat × Nat) → List (Nat × Nat) → List (Nat × Nat × Nat)
  | [], taken, _ => taken
  | x :: l, taken, extra =>
    if 16 ≤ taken.length then taken
    else
      let fit := (upto 0 8).filter (fun d => bit (dElig n) d && s.dieOn d && !x.slots.any (fun w => w % 8 == d) &&
        (freePool n d taken).isSome)
      match leastBy (fun d => dieLoad all d + Sparse.get 0 extra d) fit with
      | none => s.replications n all l taken extra
      | some d => match freePool n d taken with
        | none => s.replications n all l taken extra
        | some p => s.replications n all l (taken ++ [(x.e, d, p)])
            (Sparse.set 0 extra d (Sparse.get 0 extra d + x.load / (x.slots.length + 1)))

/-- R320: the actions of an evaluation: replications, then retirements. -/
def State.actions (s : State) (n : Nat) (all : List Active) : List (Nat × Nat × Nat) × List Nat :=
  let cand := (all.filter (fun x => decide (dHigh n < x.load) && decide (x.slots.length < dMaxrep n + 1))).foldr insertActive []
  let r := s.replications n all cand [] []
  let t := (all.filter (fun x => decide (x.load < dLow n) && decide (2 ≤ x.slots.length))).map (·.e)
  (r, t.take (16 - r.length))

/-! Steps of an evaluation (R319). -/

/-- Step 1: read and halve each counter. -/
def eqDecay (g : Agent) (n : Nat) (s : State) : EqM (State × List Nat) :=
  (upto 0 (dNexp n)).foldlM (fun (x : State × List Nat) e => do
    let (s1, v) ← eqRead g (dLcbase n + 4 * e) 4 x.1
    let (s2, _) ← eqWrite g (dLcbase n + 4 * e) 4 (v / 2) s1
    return (s2, x.2 ++ [v])) (s, [])

/-- The active entries, by expert. -/
def eqEntries (g : Agent) (dva n : Nat) (s : State) : EqM (State × List Nat) :=
  (upto 0 (dNexp n)).foldlM (fun (x : State × List Nat) e => do
    let (s1, v) ← eqRead g (entryVa dva (dGen n % 2) e) 128 x.1
    return (s1, x.2 ++ [v])) (s, [])

/-- Step 5: active entries of generation G are written to the inactive bank. -/
def eqSync (g : Agent) (dva n : Nat) (l : List Nat) (s : State) : EqM (State × Unit) :=
  ((upto 0 l.length).zip l).foldlM (fun (x : State × Unit) e =>
    if bits e.2 15 0 = dGen n then eqWrite g (entryVa dva ((dGen n + 1) % 2) e.1) 128 e.2 x.1 else .ok x) (s, ())

/-- Set or clear a POOLMAP bit. -/
def eqPool (g : Agent) (dva d p : Nat) (on : Bool) (s : State) : EqM (State × Unit) := do
  let (s1, v) ← eqRead g (dva + 0x60) 8 s
  eqWrite g (dva + 0x60) 8 (setBits v (8 * d + p) 1 (b2n on)) s1

/-- A POOLMAP bit is cleared, as far as it can be (R321, R479). -/
def State.eqUnpool (s : State) (g : Agent) (dva : Nat) (x : Nat × Nat × Nat) : Except Unit State :=
  match eqPool g dva x.2.1 x.2.2 false s with
  | .error (.held, _) => .error ()
  | .error _ => .ok s
  | .ok (s1, _) => .ok s1

/-- R479: the evaluation stops at a failed access. -/
def State.eqStop (s : State) (c : EqCtx) (reps : List (Nat × Nat × Nat)) : Except Unit State := do
  let s1 ← reps.foldlM (fun s x => s.eqUnpool c.g c.dva x) s
  let s2 ← s1.eqLog c.g c.dva 6 0 0 (dGen c.n)
  (s2.countErr c.g.die 6).eqClose c

/-- Go on after accesses of a domain: a failed one stops the evaluation, one that waits makes the step wait. -/
def EqCtx.after {α : Type} (c : EqCtx) (reps : List (Nat × Nat × Nat)) (r : EqM (State × α)) (k : State → α → Except Unit State) :
    Except Unit State :=
  match r with
  | .error (.held, _) => .error ()
  | .error (_, s1) => s1.eqStop c reps
  | .ok (s1, a) => k s1 a

/-- The slot words of an entry with WEIGHT 16 (R319 step 7). -/
def weight16 (w : Nat) : Nat := setBits w 8 8 16

/-- The number of a 128-byte entry from its words. -/
def entOf (l : List Nat) : Nat := ((upto 0 l.length).zip l).foldl (fun a x => a + x.2 % 2 ^ 64 * 2 ^ (64 * x.1)) 0

/-- A changed entry (R319 step 7): EGEN, COUNT and slots. -/
def newEntry (gen : Nat) (slots : List Nat) : Nat :=
  entOf ((gen % 2 ^ 16 + (slots.length - 1) % 8 * 2 ^ 16 + 2 ^ 19) :: slots.map weight16)

/-- The pool slot a base address is (R319 step 7): by bits 63:16, all that a slot word holds of a base (log 101: DEDUCED). -/
def poolOf (n base : Nat) : Option Nat :=
  ((upto 0 8).flatMap (fun d => (upto 0 (dPoolslots n)).map (fun p => (d, p)))).findSome? (fun x =>
    if slotVa n x.1 x.2 / 2 ^ 16 = base / 2 ^ 16 then some (8 * x.1 + x.2) else none)

/-- Step 7 for one expert: its entry in the inactive bank, and the die that gains or loses the slot. -/
def eqChange (g : Agent) (dva n : Nat) (e : Nat) (add : Option (Nat × Nat)) (s : State) : EqM (State × Nat) := do
  let (s1, ent) ← eqRead g (entryVa dva (dGen n % 2) e) 128 s
  let slots := entSlots ent
  let put := fun (l : List Nat) => eqWrite g (entryVa dva ((dGen n + 1) % 2) e) 128 (newEntry (dGen n + 1) l)
  match add with
  | some (d, p) =>
    let (s2, _) ← put (slots ++ [d + slotVa n d p / 2 ^ 16 * 2 ^ 16]) s1
    return (s2, d)
  | none =>
    let last := slots.getLast?.getD 0
    let (s2, _) ← put slots.dropLast s1
    match poolOf n (slotBase last) with
    | some b =>
      let (s3, v) ← eqRead g (dva + 0x78) 8 s2
      let (s4, _) ← eqWrite g (dva + 0x78) 8 (setBits v b 1 1) s3
      return (s4, last % 8)
    | none => return (s2, last % 8)

/-- Step 7: the changed entries, GEN; the list of (kind, expert, die) to log. -/
def eqPublish (g : Agent) (r : EqRun) (n : Nat) (s : State) : EqM (State × List (Nat × Nat × Nat)) := do
  let (s1, l1) ← r.done.foldlM (fun (x : State × List (Nat × Nat × Nat)) a => do
    let (s1, d) ← eqChange g r.dva n a.1 (some (a.2.1, a.2.2)) x.1
    return (s1, x.2 ++ [(2, a.1, d)])) (s, [])
  let (s2, l2) ← r.retire.foldlM (fun (x : State × List (Nat × Nat × Nat)) e => do
    let (s1, d) ← eqChange g r.dva n e none x.1
    return (s1, x.2 ++ [(3, e, d)])) (s1, l1)
  if l2.isEmpty then return (s2, l2)
  else
    let (s3, _) ← eqWrite g r.dva 2 ((r.gen + 1) % 2 ^ 16) s2
    return (s3, l2)

/-- Steps 7 and 8, once no copy is left. -/
def State.eqFinish (s : State) (c : EqCtx) (r : EqRun) : Except Unit State :=
  c.after r.done (eqPublish c.g r c.n s) (fun s1 l =>
    if l.isEmpty then s1.eqClose c
    else do
      let s2 ← s1.eqLog c.g c.dva 1 0 0 ((r.gen + 1) % 2 ^ 16)
      let s3 ← l.foldlM (fun s (x : Nat × Nat × Nat) => s.eqLog c.g c.dva x.1 x.2.2 x.2.1 ((r.gen + 1) % 2 ^ 16)) s2
      s3.eqClose c)

/-- R321: a replication fails. -/
def State.eqFail (s : State) (c : EqCtx) (r : EqRun) (x : Nat × Nat × Nat) : Except Unit State := do
  let s1 ← s.eqUnpool c.g c.dva x
  let s2 ← s1.eqLog c.g c.dva 4 x.2.1 x.1 r.gen
  return s2.countErr c.g.die 6

/-- The CPY of a replication (R319 step 6) as an entry of the engine command queue (15 R343), in the address space of the domain. -/
def EqRun.copyCmd (r : EqRun) (id die src dst e : Nat) : EngCmd :=
  { id := id, kind := .cpy, tid := { sdom := r.sdom, handle := 0 }, home := 0, region := 0, core := 256 * die, src := src, dst := dst
    len := dGradoff r.desc, p1 := 0, p2 := 0, p3 := 0, status := 0, scope := .pkg, acq := true, rel := true, fill := none
    started := false, record := none, result := 0, eq := some e }

/-- Begin the next copy (step 6), or publish when none is left: the pool slot is taken, and the copy from slot 0's base queued. A slot
that is set already cannot be taken (R321). -/
def State.eqNext (s : State) (c : EqCtx) (r : EqRun) : List (Nat × Nat × Nat) → Except Unit State
  | [] => s.eqFinish c { r with todo := [] }
  | (e, d, p) :: l =>
    c.after r.done (eqRead c.g (c.dva + 0x60) 8 s) (fun s1 v =>
      if bit v (8 * d + p) then
        match s1.eqFail c r (e, d, p) with
        | .error _ => .error ()
        | .ok s2 => s2.eqNext c r l
      else
        c.after r.done (eqPool c.g c.dva d p true s1) (fun s2 _ =>
          c.after (r.done ++ [(e, d, p)]) (eqRead c.g (entryVa c.dva (r.gen % 2) e + 8) 8 s2) (fun s3 w =>
            let x := s3.die c.g.die
            let cmd := r.copyCmd s3.nextCmd c.g.die (slotBase w) (slotVa c.n d p) e
            let s4 := s3.setDie c.g.die { x with eqRun := some { r with todo := (e, d, p) :: l }, engq := x.engq ++ [cmd] }
            .ok { s4 with nextCmd := s3.nextCmd + 1 })))

/-- What an evaluation leaves once it has decided: nothing to do, or the actions. -/
inductive EqPlan where
  | close
  | act (n : Nat) (reps : List (Nat × Nat × Nat)) (retire : List Nat)
  deriving DecidableEq, Repr

/-- R311 for Equinox: the entries that take part, with their loads. -/
def State.activeOf (s : State) (loads entries : List Nat) : List Active :=
  ((upto 0 entries.length).zip entries).filterMap (fun x =>
    if s.entValid x.2 then some { e := x.1, load := loads.getD x.1 0, slots := entSlots x.2 } else none)

/-- Steps 3 to 5: PENDFREE is freed, actions are decided, the inactive bank is synchronised. The words the actions need are read
before. -/
def eqPlan (c : EqCtx) (loads : List Nat) (s : State) : EqM (State × EqPlan) := do
  let (s0, n) ← eqWords c.g c.dva [12, 15] c.n s
  let pm := dPoolmap n - (dPoolmap n &&& dPendfree n)
  let (s1, _) ← eqWrite c.g (c.dva + 0x60) 8 pm s0
  let (s2, _) ← eqWrite c.g (c.dva + 0x78) 8 0 s1
  let (s3, ents) ← eqEntries c.g c.dva n s2
  let n1 := setBits n (64 * 12) 64 pm
  let (reps, retire) := s.actions n1 (s.activeOf loads ents)
  if reps.isEmpty && retire.isEmpty then return (s3, .close)
  else
    let (s4, n2) ← eqWords c.g c.dva [10] n1 s3
    let (s5, _) ← eqSync c.g c.dva n2 ents s4
    return (s5, .act n2 reps retire)

/-- R319 steps 1 to 6 for a valid descriptor with AUTO. -/
def State.eqAuto (s : State) (c : EqCtx) : Except Unit State :=
  c.after [] (eqWords c.g c.dva [7] c.n s) (fun s0 n0 =>
    c.after [] (eqDecay c.g n0 s0) (fun s1 loads =>
      if dHold c.n then s1.eqClose c
      else c.after [] (eqRead c.g (c.dva + 0x10 + 8 * ((dGen c.n + 1) % 2)) 8 s1) (fun s2 drain =>
        let y := s2.edtEnt c.dom
        if drain ≠ 0 then
          let s3 := s2.setEdt c.dom { y with stalls := y.stalls + 1 }
          if (y.stalls + 1) % 1000 = 0 then (s3.eqLog c.g c.dva 5 0 0 (dGen c.n)).bind (fun s4 => s4.eqClose c) else s3.eqClose c
        else
          c.after [] (eqPlan c loads (s2.setEdt c.dom { y with stalls := 0 })) (fun s3 plan =>
            match plan with
            | .close => s3.eqClose c
            | .act n reps retire =>
              s3.eqNext { c with n := n } { dom := c.dom, dva := c.dva, sdom := c.g.sdom, desc := n, gen := dGen n, todo := reps
                                            done := [], retire := retire } reps))))

/-- One evaluation of a domain (R319, R310); it waits while an access of it waits. GEN is read first, then INTERVAL, then what a valid
descriptor is judged by; where GEN cannot be read, INTERVAL still tells when the next one falls due (R479). -/
def State.evaluate (s : State) (die k : Nat) (x : Edt) : Except Unit State :=
  let g : Agent := { die := die, core := none, sdom := x.sdom }
  let n6 := match eqRead g (x.dva.toNat + 0x30) 8 s with | .ok (_, v) => dWord6 v | .error _ => 0
  let c : EqCtx := { g := g, dom := k, dva := x.dva.toNat, n := n6 }
  c.after [] (eqWords c.g c.dva [0] 0 s) (fun s0 n0 =>
    let c0 := { c with n := n0 }
    c0.after [] (eqWords c.g c.dva [6] n0 s0) (fun s1 n1 =>
      let c1 := { c with n := n1 }
      c1.after [] (eqWords c.g c.dva [4, 5, 8, 9, 11] n1 s1) (fun s2 n =>
        let c2 := { c with n := n }
        if !descValid n then (s2.eqLog c.g c.dva 6 0 0 (dGen n)).map (fun s3 => s3.eqMerge k (intervalOf n))
        else if !dAuto n then s2.eqClose c2
        else s2.eqAuto c2)))

/-- The domains of a die that are due, the earliest first (15 R344). -/
def State.dueDomain (s : State) (die : Nat) : Option (Nat × Edt) :=
  leastBy (fun x => (s.dueAt x.2).getD 0) (s.edt.filter (fun x => x.2.v && x.2.owner == die && (s.dueAt x.2).any (fun d => decide (d ≤ s.tick))))

/-- Step EQUINOX_EVALUATION (R319). -/
def execEquinoxEvaluation (die : Nat) (s : State) : Host.Outcome State Fault Refusal :=
  event (if (s.die die).eqRun.isSome then s
    else match s.dueDomain die with
      | none => s
      | some (k, x) => match s.evaluate die k x with
        | .ok s1 => s1
        | .error _ => s)

/-- What one replication's copy and zeroing give (R319 step 6, R321): they wait, fail, or are done. -/
inductive CopyRes where
  | held
  | failed (s : State)
  | done (s : State)
  deriving DecidableEq, Repr

/-- The end of a copy of weights (R319 step 6, R321): after a copy without error the gradient region of the slot, from an address on for n
bytes, is zeroed. A copy that ends with a CODE counts as every command does (16 R373). -/
def State.eqCopy (s : State) (g : Agent) (cmd : EngCmd) (a n : Nat) : CopyRes :=
  match cmd.run s with
  | none => .held
  | some (s1, c1) =>
    if c1.code.1 ≠ 1 then .failed (s1.countErr g.die 9)
    else match s1.agentWrites g a (List.replicate n 0) with
      | .ok s2 => .done s2
      | .error .held => .held
      | .error _ => .failed s1

/-- A copy that ended leaves the engine's queue, and the evaluation goes on (R319 step 6, R321). -/
def EqCtx.copied (c : EqCtx) (r : EqRun) (x : Nat × Nat × Nat) (l : List (Nat × Nat × Nat)) (id : Nat) :
    CopyRes → Except Unit State
  | .held => .error ()
  | .failed s1 => ((s1.dropCmd c.g.die id).eqFail c r x).bind (fun s2 => s2.eqNext c { r with todo := l } l)
  | .done s1 => (s1.dropCmd c.g.die id).eqNext c { r with todo := l, done := r.done ++ [x] } l

/-- Step EQUINOX_COPY_COMPLETION (R319 step 6, R321): the copy of expert k, which the engine has started, ends, by an uncorrectable error
when `ok` is false. -/
def execEquinoxCopyCompletion (die k : Nat) (ok : Bool) (s : State) : Host.Outcome State Fault Refusal :=
  event (match (s.die die).eqRun, (s.die die).engq.find? (fun c => c.eq == some k && c.started) with
    | some r, some cmd => match r.todo with
      | [] => s
      | (e, d, p) :: l =>
        let g : Agent := { die := die, core := none, sdom := r.sdom }
        let c : EqCtx := { g := g, dom := r.dom, dva := r.dva, n := r.desc }
        let res := if ok then s.eqCopy g cmd (slotVa r.desc d p + dGradoff r.desc) (dWsize r.desc - dGradoff r.desc) else .failed s
        if e ≠ k then s
        else match c.copied r (e, d, p) l cmd.id res with
          | .ok s1 => s1
          | .error _ => s
    | _, _ => s)

end Sys2Proof.Machine
end

