-- ==== Sys2Proof/Machine/Float.lean ====
section
/-! DEFINITION. Scalar floating point and the fused multiply-add family (07 R150 to R161). -/
namespace Sys2Proof.Machine

/-- The rounding mode of a thread's RND (07 R151). -/
def Thread.mode (t : Thread) : RMode := RMode.ofCode t.rnd.toNat
/-- The precision of a scalar word: bit 7 clear is .f64, set is .f32 (R154). -/
def prec (t : Bool) : Fmt := if t then f32 else f64
/-- The bits of an operand in a format (R150). -/
def Thread.fbits (th : Thread) (f : Fmt) (r : Reg) : Nat := (th.rd r.toNat).toNat % 2 ^ f.width
/-- The value of an operand in a format (R150). -/
def Thread.fval (th : Thread) (f : Fmt) (r : Reg) : Val := f.decode (th.fbits f r)
/-- The thread with flags raised (04 R100). -/
def Thread.raise (t : Thread) (fl : Fpf) : Thread := { t with fpf := t.fpf ||| fl }

/-- A floating-point instruction that completes at issue (R151): its result, zero-extended (R150), and its flags. -/
def floatOp (i : Instr) (d : Reg) (f : Thread → Nat × Fpf) (s : State) : Host.Outcome State Fault Refusal :=
  word i s (fun s t => .ok (s.retireReg (t.raise (f t).2) d.toNat (w64 (f t).1)))

/-- A floating-point empty-bit producer (R151, R152). -/
def floatFill (i : Instr) (d : Reg) (f : Thread → Nat × Fpf) (s : State) : Host.Outcome State Fault Refusal :=
  word i s (fun s t => .ok (s.retire (t.produce
    { regs := [(d.toNat, w64 (f t).1)], flags := (f t).2, float := true, req := none, bad := none })))

/-- A floating-point compare (R159): the predicate and its flags. -/
def floatCmp (i : Instr) (p : Pred) (f : Thread → Bool × Fpf) (s : State) : Host.Outcome State Fault Refusal :=
  word i s (fun s t => .ok (s.retire ((t.raise (f t).2).wp p (f t).1)))

/-- A sign operation (R157): NaN gives the canonical NaN, NV if signalling. -/
def signOp (f : Fmt) (x : Nat) (neg : Bool) : Nat × Fpf :=
  match f.decode x with
  | .nan inv => (f.nan, flagIf inv flagNV)
  | _ => (x % 2 ^ (f.width - 1) + b2n neg * 2 ^ (f.width - 1), 0)

/-- R159: the flag of a compare whose NaN operands all raise NV, or only the signalling ones. -/
def cmpFlags (all : Bool) (x y : Val) : Fpf :=
  flagIf (x.isInvalid || y.isInvalid || (all && (x.isNan || y.isNan))) flagNV

/-- FADD (R155). -/
def execFadd (d a b : Reg) (t : Bool) (s : State) : Host.Outcome State Fault Refusal :=
  floatOp (.fadd d a b t) d (fun th => (prec t).add th.mode (th.fval (prec t) a) (th.fval (prec t) b)) s

/-- FMUL (R155). -/
def execFmul (d a b : Reg) (t : Bool) (s : State) : Host.Outcome State Fault Refusal :=
  floatOp (.fmul d a b t) d (fun th => (prec t).mul th.mode (th.fval (prec t) a) (th.fval (prec t) b)) s

/-- FSUB (R155). -/
def execFsub (d a b : Reg) (t : Bool) (s : State) : Host.Outcome State Fault Refusal :=
  floatOp (.fsub d a b t) d (fun th => (prec t).add th.mode (th.fval (prec t) a) (th.fval (prec t) b).neg) s

/-- FDIV, an empty-bit producer (R155). -/
def execFdiv (d a b : Reg) (t : Bool) (s : State) : Host.Outcome State Fault Refusal :=
  floatFill (.fdiv d a b t) d (fun th => (prec t).div th.mode (th.fval (prec t) a) (th.fval (prec t) b)) s

/-- FSQRT, an empty-bit producer (R155). -/
def execFsqrt (d a : Reg) (t : Bool) (s : State) : Host.Outcome State Fault Refusal :=
  floatFill (.fsqrt d a t) d (fun th => (prec t).sqrt th.mode (th.fval (prec t) a)) s

/-- FMIN (R156). -/
def execFmin (d a b : Reg) (t : Bool) (s : State) : Host.Outcome State Fault Refusal :=
  floatOp (.fmin d a b t) d (fun th => (prec t).minmax false (th.fbits (prec t) a) (th.fbits (prec t) b)) s

/-- FMAX (R156). -/
def execFmax (d a b : Reg) (t : Bool) (s : State) : Host.Outcome State Fault Refusal :=
  floatOp (.fmax d a b t) d (fun th => (prec t).minmax true (th.fbits (prec t) a) (th.fbits (prec t) b)) s

/-- FABS (R157). -/
def execFabs (d a : Reg) (t : Bool) (s : State) : Host.Outcome State Fault Refusal :=
  floatOp (.fabs d a t) d (fun th => signOp (prec t) (th.fbits (prec t) a) false) s

/-- FNEG (R157). -/
def execFneg (d a : Reg) (t : Bool) (s : State) : Host.Outcome State Fault Refusal :=
  floatOp (.fneg d a t) d (fun th => signOp (prec t) (th.fbits (prec t) a)
    (!bit (th.fbits (prec t) a) ((prec t).width - 1))) s

/-- FCPYS (R157). -/
def execFcpys (d a b : Reg) (t : Bool) (s : State) : Host.Outcome State Fault Refusal :=
  floatOp (.fcpys d a b t) d (fun th => signOp (prec t) (th.fbits (prec t) a)
    (bit (th.fbits (prec t) b) ((prec t).width - 1))) s

/-- FCLASS (R158). -/
def execFclass (d a : Reg) (t : Bool) (s : State) : Host.Outcome State Fault Refusal :=
  floatOp (.fclass d a t) d (fun th => ((prec t).classify (th.fbits (prec t) a), 0)) s

/-- FCMP.eq (R159). -/
def execFcmpEq (p : Pred) (a b : Reg) (t : Bool) (s : State) : Host.Outcome State Fault Refusal :=
  floatCmp (.fcmpEq p a b t) p (fun th =>
    let x := th.fval (prec t) a
    let y := th.fval (prec t) b
    (!(x.isNan || y.isNan) && x.cmp y == 0, cmpFlags false x y)) s

/-- FCMP.lt (R159). -/
def execFcmpLt (p : Pred) (a b : Reg) (t : Bool) (s : State) : Host.Outcome State Fault Refusal :=
  floatCmp (.fcmpLt p a b t) p (fun th =>
    let x := th.fval (prec t) a
    let y := th.fval (prec t) b
    (!(x.isNan || y.isNan) && decide (x.cmp y < 0), cmpFlags true x y)) s

/-- FCMP.le (R159). -/
def execFcmpLe (p : Pred) (a b : Reg) (t : Bool) (s : State) : Host.Outcome State Fault Refusal :=
  floatCmp (.fcmpLe p a b t) p (fun th =>
    let x := th.fval (prec t) a
    let y := th.fval (prec t) b
    (!(x.isNan || y.isNan) && decide (x.cmp y ≤ 0), cmpFlags true x y)) s

/-- FCMP.un (R159). -/
def execFcmpUn (p : Pred) (a b : Reg) (t : Bool) (s : State) : Host.Outcome State Fault Refusal :=
  floatCmp (.fcmpUn p a b t) p (fun th =>
    let x := th.fval (prec t) a
    let y := th.fval (prec t) b
    (x.isNan || y.isNan, cmpFlags false x y)) s

/-- FRCP, an empty-bit producer (R160). -/
def execFrcp (d a : Reg) (s : State) : Host.Outcome State Fault Refusal :=
  floatFill (.frcp d a) d (fun th => frcpVal th.mode (th.fval f32 a)) s

/-- FRSQ, an empty-bit producer (R160). -/
def execFrsq (d a : Reg) (s : State) : Host.Outcome State Fault Refusal :=
  floatFill (.frsq d a) d (fun th => frsqVal th.mode (th.fval f32 a)) s

/-- FEXP2, an empty-bit producer (R160). -/
def execFexp2 (d a : Reg) (s : State) : Host.Outcome State Fault Refusal :=
  floatFill (.fexp2 d a) d (fun th => fexp2Val th.mode (th.fval f32 a)) s

/-- FLOG2, an empty-bit producer (R160). -/
def execFlog2 (d a : Reg) (s : State) : Host.Outcome State Fault Refusal :=
  floatFill (.flog2 d a) d (fun th => flog2Val th.mode (th.fval f32 a)) s

/-- FMA (R161). -/
def execFma (t : Bool) (d a b c : Reg) (s : State) : Host.Outcome State Fault Refusal :=
  floatOp (.fma t d a b c) d (fun th =>
    (prec t).fma th.mode (th.fval (prec t) a) (th.fval (prec t) b) (th.fval (prec t) c)) s

/-- FMS (R161). -/
def execFms (t : Bool) (d a b c : Reg) (s : State) : Host.Outcome State Fault Refusal :=
  floatOp (.fms t d a b c) d (fun th =>
    (prec t).fma th.mode (th.fval (prec t) a) (th.fval (prec t) b) (th.fval (prec t) c).neg) s

/-- FNMA (R161). -/
def execFnma (t : Bool) (d a b c : Reg) (s : State) : Host.Outcome State Fault Refusal :=
  floatOp (.fnma t d a b c) d (fun th =>
    (prec t).fma th.mode (th.fval (prec t) a).neg (th.fval (prec t) b) (th.fval (prec t) c).neg) s

/-- FNMS (R161). -/
def execFnms (t : Bool) (d a b c : Reg) (s : State) : Host.Outcome State Fault Refusal :=
  floatOp (.fnms t d a b c) d (fun th =>
    (prec t).fma th.mode (th.fval (prec t) a).neg (th.fval (prec t) b) (th.fval (prec t) c)) s

end Sys2Proof.Machine
end

