-- ==== Sys2Proof/Machine/Packed.lean ====
section
/-! DEFINITION. Packed arithmetic and dot products (07 R162 to R164, 04 R88, R109). -/
namespace Sys2Proof.Machine

/-- The format of a packed lane (R162). -/
def Lane3.fmt : Lane3 → Fmt
  | .f32 => Machine.f32 | .bf16 => Machine.bf16 | .f16 => Machine.f16
/-- The format of a PDOT lane (R163). -/
def Lane5.fmt : Lane5 → Fmt
  | .f32 => Machine.f32 | .bf16 => Machine.bf16 | .f16 => Machine.f16 | .e4m3 => Machine.e4m3 | .e5m2 => Machine.e5m2

/-- Element k of w-bit elements of a number (R88). -/
def elemOf (n w k : Nat) : Nat := n / 2 ^ (w * k) % 2 ^ w
/-- Elements put together (R88). -/
def packElems (w : Nat) : List Nat → Nat
  | [] => 0
  | x :: l => x % 2 ^ w + 2 ^ w * packElems w l
/-- Lane k of a register (R88). -/
def Thread.lane (t : Thread) (r : Reg) (f : Fmt) (k : Nat) : Nat := elemOf (t.rd r.toNat).toNat f.width k

/-- A lane-wise operation: every lane of g[d], the flags the union of the lanes' (R162, 04 R100). -/
def lanesOp (i : Instr) (d : Reg) (f : Fmt) (op : Thread → Nat → Nat × Fpf) (s : State) :
    Host.Outcome State Fault Refusal :=
  floatOp i d (fun t =>
    let l := (upto 0 (64 / f.width)).map (op t)
    (packElems f.width (l.map (·.1)), l.foldl (fun a x => a ||| x.2) 0)) s

/-- PADD (R162). -/
def execPadd (d a b : Reg) (t : Lane3) (s : State) : Host.Outcome State Fault Refusal :=
  lanesOp (.padd d a b t) d (Lane3.fmt t) (fun th k =>
    (Lane3.fmt t).add th.mode ((Lane3.fmt t).decode (th.lane a (Lane3.fmt t) k)) ((Lane3.fmt t).decode (th.lane b (Lane3.fmt t) k))) s

/-- PSUB (R162). -/
def execPsub (d a b : Reg) (t : Lane3) (s : State) : Host.Outcome State Fault Refusal :=
  lanesOp (.psub d a b t) d (Lane3.fmt t) (fun th k =>
    (Lane3.fmt t).add th.mode ((Lane3.fmt t).decode (th.lane a (Lane3.fmt t) k))
      ((Lane3.fmt t).decode (th.lane b (Lane3.fmt t) k)).neg) s

/-- PMUL (R162). -/
def execPmul (d a b : Reg) (t : Lane3) (s : State) : Host.Outcome State Fault Refusal :=
  lanesOp (.pmul d a b t) d (Lane3.fmt t) (fun th k =>
    (Lane3.fmt t).mul th.mode ((Lane3.fmt t).decode (th.lane a (Lane3.fmt t) k)) ((Lane3.fmt t).decode (th.lane b (Lane3.fmt t) k))) s

/-- PMIN (R162, R156). -/
def execPmin (d a b : Reg) (t : Lane3) (s : State) : Host.Outcome State Fault Refusal :=
  lanesOp (.pmin d a b t) d (Lane3.fmt t) (fun th k =>
    (Lane3.fmt t).minmax false (th.lane a (Lane3.fmt t) k) (th.lane b (Lane3.fmt t) k)) s

/-- PMAX (R162, R156). -/
def execPmax (d a b : Reg) (t : Lane3) (s : State) : Host.Outcome State Fault Refusal :=
  lanesOp (.pmax d a b t) d (Lane3.fmt t) (fun th k =>
    (Lane3.fmt t).minmax true (th.lane a (Lane3.fmt t) k) (th.lane b (Lane3.fmt t) k)) s

/-- PDOT: the exact sum of the lane products and the FP32 addend g[d][31:0], rounded once (R163, R109). -/
def execPdot (d a b : Reg) (t : Lane5) (s : State) : Host.Outcome State Fault Refusal :=
  floatOp (.pdot d a b t) d (fun th =>
    let f := Lane5.fmt t
    let l := (upto 0 (64 / f.width)).map (fun k => (f.decode (th.lane a f k)).mul (f.decode (th.lane b f k)))
    f32.deliver th.mode false (Val.sum th.mode (th.fval f32 d :: l))) s

/-- PFMA (R164): R161 in each lane. -/
def execPfma (d a b c : Reg) (t : Lane3) (s : State) : Host.Outcome State Fault Refusal :=
  lanesOp (.pfma d a b c t) d (Lane3.fmt t) (fun th k =>
    (Lane3.fmt t).fma th.mode ((Lane3.fmt t).decode (th.lane a (Lane3.fmt t) k)) ((Lane3.fmt t).decode (th.lane b (Lane3.fmt t) k))
      ((Lane3.fmt t).decode (th.lane c (Lane3.fmt t) k))) s

end Sys2Proof.Machine
end

