-- ==== Sys2Proof/Machine/Convert.lean ====
section
/-! DEFINITION. CVT (07 R165, R166) and the conversions of 04 R97 to R99. -/
namespace Sys2Proof.Machine

/-- The floating-point format of a type code; none for E8M0 and the integers (03 R76). -/
def cvtFmt : CvtType → Option Fmt
  | .f64 => some Machine.f64 | .f32 => some Machine.f32 | .bf16 => some Machine.bf16 | .f16 => some Machine.f16
  | .e4m3 => some Machine.e4m3 | .e5m2 => some Machine.e5m2 | .e3m2 => some Machine.e3m2 | .e2m3 => some Machine.e2m3
  | .e2m1 => some Machine.e2m1 | _ => none

/-- A signed value as a Val. -/
def Val.ofInt (x : Int) : Val := .fin (decide (x < 0)) x.natAbs 0

/-- The FP32 value of an E8M0 code (R91). -/
def e8m0Val (x : Nat) : Val := if x = 255 then .nan false else .fin false 1 ((x : Int) - 127)

/-- The value of a source register in a type (R150, R166). -/
def cvtRead (u : CvtType) (w : Word) : Val :=
  match cvtFmt u with
  | some f => f.decode (w.toNat % 2 ^ f.width)
  | none => match u with
    | .s => Val.ofInt w.toInt
    | .n => Val.ofInt w.toNat
    | .i8 => Val.ofInt (sval w.toNat 8)
    | .i4 => Val.ofInt (sval w.toNat 4)
    | _ => e8m0Val (w.toNat % 256)

/-- The range of an integer type (R92). -/
def cvtRange : CvtType → Int × Int
  | .n => (0, 2 ^ 64 - 1)
  | .i8 => (-128, 127)
  | .i4 => (-8, 7)
  | _ => (-(2 ^ 63), 2 ^ 63 - 1)

/-- A finite value rounded to an integer, and whether it is inexact (R98). -/
def roundInt (r : RMode) (neg : Bool) (m : Nat) (e : Int) : Int × Bool :=
  let k := (-e).toNat
  let up := m * 2 ^ e.toNat
  let kept := up / 2 ^ k
  let rem := up % 2 ^ k
  let n : Int := if roundsUp r neg kept rem k false then kept + 1 else kept
  (if neg then -n else n, rem != 0)

/-- Conversion into .s, .n, .i8 or .i4 (R98). -/
def toInt (u : CvtType) (r : RMode) (x : Val) : Int × Fpf :=
  let (lo, hi) := cvtRange u
  match x with
  | .nan _ => (0, flagNV)
  | .inf n => (if n then lo else hi, flagNV)
  | .fin n m e =>
    let (v, inexact) := roundInt r n m e
    if v < lo then (lo, flagNV)
    else if hi < v then (hi, flagNV)
    else (v, flagIf inexact flagNX)

/-- Conversion of an FP32 value into E8M0 (R99). -/
def toE8m0 (r : RMode) (sat : Bool) (x : Val) : Nat × Fpf :=
  match x with
  | .nan _ => (0xFF, flagNV)
  | .inf _ => (0xFF, flagNV)
  | .fin n m e =>
    if m = 0 ∨ n then (0xFF, flagNV)
    else
      let b := bitLen m - 1
      let k : Int := b + e
      let exact := m == 2 ^ b
      -- compare x with 1.5 * 2^k
      let up := match r with
        | .rtz | .rdn => false
        | .rup => !exact
        | .rne => decide (3 * 2 ^ b < 2 * m) || (2 * m == 3 * 2 ^ b && (k + 127) % 2 != 0)
        | .rna => decide (3 * 2 ^ b ≤ 2 * m)
      let c : Int := (if up then k + 1 else k) + 127
      if c < 0 then (0, flagUF ||| flagNX)
      else if 254 < c then (if sat then 0xFE else 0xFF, flagOF ||| flagNX)
      else (c.toNat, flagIf (!exact || up) flagNX)

/-- The mode a CVT names (R166). -/
def selMode (q : RndSel) (t : Thread) : RMode :=
  match q with
  | .csr => t.mode | .rne => .rne | .rtz => .rtz | .rup => .rup | .rdn => .rdn | .rna => .rna

/-- R166: the word written and the flags. -/
def convert (t u : CvtType) (r : RMode) (sat : Bool) (w : Word) : Word × Fpf :=
  let x := cvtRead u w
  match cvtFmt t with
  | some f => let (n, fl) := f.deliver r sat x; (w64 n, fl)
  | none =>
    if t = .e8m0 then let (n, fl) := toE8m0 r sat x; (w64 n, fl)
    else let (v, fl) := toInt t r x; (i64 v, fl)

/-- CVT (R165, R166). -/
def execCvt (d a : Reg) (sat : Bool) (r : RndSel) (t u : CvtType) (s : State) : Host.Outcome State Fault Refusal :=
  floatOp (.cvt d a sat r t u) d (fun th =>
    let (w, fl) := convert t u (selMode r th) sat (th.rd a.toNat)
    (w.toNat, fl)) s

end Sys2Proof.Machine
end

