-- ==== Sys2Proof/Machine/Mx.lean ====
section
/-! DEFINITION. MXPACK, MXUNPACK and MXSCALE (07 R167 to R171). -/
namespace Sys2Proof.Machine

/-- The element format of an MX instruction (R167). -/
def MxType.fmt : MxType → Fmt
  | .e4m3 => Machine.e4m3 | .e5m2 => Machine.e5m2 | .e3m2 => Machine.e3m2 | .e2m3 => Machine.e2m3 | .e2m1 => Machine.e2m1

/-- emax of R169. -/
def MxType.emax : MxType → Int
  | .e4m3 => 8 | .e5m2 => 15 | .e3m2 => 4 | .e2m3 => 2 | .e2m1 => 2

/-- Lane k of a four-register group of FP32 values. -/
def Thread.groupLane (t : Thread) (a : Reg) (k : Nat) : Nat := elemOf (t.rd (a.toNat + k / 2)).toNat 32 (k % 2)

/-- The mode of a control word (R168). -/
def ctlMode (c : Nat) (t : Thread) : RMode :=
  let k := bits c 10 8
  if 1 ≤ k ∧ k ≤ 5 then RMode.ofCode k else t.mode

/-- A value times 2^k. -/
def Val.scale (k : Int) : Val → Val
  | .fin n m e => .fin n m (e + k)
  | v => v

/-- One element of MXPACK (R170). -/
def packElem (f : Fmt) (r : RMode) (sat : Bool) (x v : Nat) : Nat × Fpf :=
  if x = 0xFF then ((f.deliver r sat (.nan false)).1, flagNV)
  else f.deliver r sat ((f32.decode v).scale (127 - (x : Int)))

/-- MXPACK (R170). -/
def execMxpack (d a b : Reg) (ty : MxType) (s : State) : Host.Outcome State Fault Refusal :=
  floatOp (.mxpack d a b ty) d (fun t =>
    let c := (t.rd b.toNat).toNat
    let l := (upto 0 8).map (fun k => packElem (MxType.fmt ty) (ctlMode c t) (bit c 11) (bits c 7 0) (t.groupLane a k))
    (packElems (MxType.fmt ty).width (l.map (·.1)), l.foldl (fun a x => a ||| x.2) 0)) s

/-- One element of MXUNPACK (R171). An infinite element stays infinite, without a flag, with SAT 1 as well: R171's prose, where the
.sat column of R97 would give the largest finite value with NX (log 89: DEDUCED). -/
def unpackElem (f : Fmt) (r : RMode) (sat : Bool) (x e : Nat) : Nat × Fpf :=
  let v := f.decode e
  if x = 0xFF ∨ v.isNan then (f32.nan, 0)
  else match v with
    | .inf n => (f32.inf n, 0)
    | _ => f32.deliver r sat (v.scale ((x : Int) - 127))

/-- MXUNPACK (R171). -/
def execMxunpack (d a b : Reg) (ty : MxType) (s : State) : Host.Outcome State Fault Refusal :=
  word (.mxunpack d a b ty) s (fun s t =>
    let c := (t.rd b.toNat).toNat
    let f := MxType.fmt ty
    let l := (upto 0 8).map (fun k => unpackElem f (ctlMode c t) (bit c 11) (bits c 7 0) (elemOf (t.rd a.toNat).toNat f.width k))
    let t1 := t.raise (l.foldl (fun a x => a ||| x.2) 0)
    let v := fun k => (l.getD k (0, 0)).1
    .ok (s.retire ((upto 0 4).foldl (fun t k => t.wr (d.toNat + k) (w64 (v (2 * k) + 2 ^ 32 * v (2 * k + 1)))) t1)))

/-- The NaN-propagating maximum of magnitudes of R169: none is NaN. -/
def maxMag (l : List Nat) : Option Nat :=
  l.foldl (fun a v => match a with
    | none => none
    | some m => if (f32.decode v).isNan then none else some (max m (v % 2 ^ 31))) (some 0)

/-- The scale code of a block maximum (R169): the bits of m are an FP32 magnitude. -/
def scaleOf (ty : MxType) (m : Nat) : Nat :=
  match f32.decode m with
  | .fin _ k e =>
    if k = 0 then 0x7F
    else
      let x := ((bitLen k : Int) - 1 + e) - MxType.emax ty
      ((if x < -127 then -127 else x) + 127).toNat
  | _ => 0xFF

/-- MXSCALE (R169). -/
def execMxscale (d a b : Reg) (ty : MxType) (s : State) : Host.Outcome State Fault Refusal :=
  floatOp (.mxscale d a b ty) d (fun t =>
    let c := (t.rd b.toNat).toNat
    let l := bits c 63 32 :: (upto 0 8).map (t.groupLane a)
    let nv := flagIf (l.any (fun v => (f32.decode v).isInvalid)) flagNV
    let (m, x) := match maxMag l with
      | none => (f32.nan, 0xFF)
      | some m => (m, scaleOf ty m)
    (m * 2 ^ 32 + bits c 31 8 * 2 ^ 8 + x, nv)) s

end Sys2Proof.Machine
end

