-- ==== Sys2Proof/Machine/Matrix.lean ====
section
/-! DEFINITION. Matrix operations (08 R176 to R185; 09 R201 to R203; 04 R102 to R107; 18 R418): the engine registers' fields, the
check at the start of an operation, operands in the scratchpads, and what a unit computes. -/
namespace Sys2Proof.Machine

/-- OFF of an engine register (R176). -/
def engOff (w : Word) : Nat := wbits w 17 0
/-- STRIDE of an engine register (R176). -/
def engStride (w : Word) : Nat := wbits w 41 24

/-- The engine registers of an operation (R176), by name. -/
structure Eng where
  regs : List Word
  deriving DecidableEq, Repr

def Eng.reg (e : Eng) (k : Nat) : Word := e.regs.getD k 0
def Eng.m (e : Eng) : Nat := wbits (e.reg 3) 6 0
def Eng.n (e : Eng) : Nat := wbits (e.reg 4) 6 0
def Eng.k (e : Eng) : Nat := wbits (e.reg 5) 15 0
def Eng.ta (e : Eng) : Nat := wbits (e.reg 6) 3 0
def Eng.tb (e : Eng) : Nat := wbits (e.reg 6) 7 4
def Eng.sca (e : Eng) : Bool := bit (e.reg 6).toNat 8
def Eng.scb (e : Eng) : Bool := bit (e.reg 6).toNat 9
def Eng.tile (e : Eng) : Nat := wbits (e.reg 7) 3 0
def Eng.zero (e : Eng) : Bool := bit (e.reg 7).toNat 4

/-- The option bits of a GANG.MMA fn (R201). -/
def fnSparse (fn : Nat) : Bool := bit fn 0
def fnGather (fn : Nat) : Bool := bit fn 1

/-- The floating-point format of a matrix type code (R76). -/
def matFmt : Nat → Fmt
  | 2 => Machine.bf16 | 3 => Machine.f16 | 4 => Machine.e4m3 | 5 => Machine.e5m2 | 6 => Machine.e3m2 | 7 => Machine.e2m3
  | _ => Machine.e2m1

/-- Element width in bits of a matrix type (R178). -/
def matWidth (t : Nat) : Nat := if t = 12 then 8 else if t = 13 then 4 else (matFmt t).width

/-- R177: the rate of an operation. -/
def Eng.rate (e : Eng) (sparse : Bool) : Nat :=
  let r := if matWidth e.ta = 16 then 1
    else if e.ta = 4 ∨ e.ta = 5 ∨ e.ta = 12 ∨ e.tb = 4 ∨ e.tb = 5 ∨ e.tb = 12 then 2 else 4
  if sparse then 2 * r else r

/-- R177: a legal pair of types, and scales only in the third family. -/
def Eng.typesOk (e : Eng) : Bool :=
  let mx := decide (4 ≤ e.ta) && decide (e.ta ≤ 8) && decide (4 ≤ e.tb) && decide (e.tb ≤ 8)
  let int := decide (12 ≤ e.ta) && decide (e.ta ≤ 13) && decide (12 ≤ e.tb) && decide (e.tb ≤ 13)
  mx || (((e.ta == 2 && e.tb == 2) || (e.ta == 3 && e.tb == 3) || int) && !e.sca && !e.scb)

/-- Rows of half h, and columns of half c (R180). -/
def Eng.rows (e : Eng) (h : Nat) : Nat := min 32 (e.m - 32 * h)
def Eng.cols (e : Eng) (c : Nat) : Nat := min 32 (e.n - 32 * c)

/-- ceil(a / b). -/
def ceilDiv (a b : Nat) : Nat := (a + b - 1) / b
/-- rb of R178: the bytes of n elements of a type. -/
def rowBytes (t n : Nat) : Nat := ceilDiv (n * matWidth t) 8

/-- The scratchpads of a row half and of a column half (R180). -/
def Gang.rowPad (g : Gang) (h : Nat) : Nat := if g.quad then g.cores.getD (3 * h) 0 else g.home
def Gang.colPad (g : Gang) (c : Nat) : Nat := if g.quad then g.cores.getD (2 - c) 0 else g.home

/-- The 16-bit little-endian number at an offset of a core's scratchpad. -/
def State.padHalf (s : State) (core off : Nat) : Nat :=
  ofBytes ((upto (physAddr (padUnit core) off) 2).map s.rawByte)

/-- The index entries of a row half (R181, R182). -/
def State.indexEntries (s : State) (g : Gang) (e : Eng) (h : Nat) : List Nat :=
  (upto 0 (e.rows h)).map (fun i => s.padHalf (g.rowPad h) (engOff (e.reg 2) + 2 * i))

/-- The size of a scratchpad. -/
def padSize : Nat := 262144

/-- The last row number a row half of a form reads (R178). -/
def State.lastRow (s : State) (g : Gang) (e : Eng) (fn h : Nat) : Nat :=
  if fnGather fn then (s.indexEntries g e h).foldl max 0 else e.rows h - 1

/-- R178, condition 5 for one row half. -/
def State.rowsFit (s : State) (g : Gang) (e : Eng) (fn h : Nat) : Bool :=
  e.rows h == 0 ||
  ((!fnGather fn || decide (engOff (e.reg 2) + 2 * e.rows h ≤ padSize)) &&
   (let r := s.lastRow g e fn h
    decide (engOff (e.reg 0) + r * engStride (e.reg 0) + rowBytes e.ta e.k ≤ padSize) &&
    (!e.sca || decide (engOff (e.reg 9) + r * engStride (e.reg 9) + ceilDiv e.k 32 ≤ padSize))))

/-- R178, condition 5 for one column half. -/
def Eng.colsFit (e : Eng) (fn c : Nat) : Bool :=
  e.cols c == 0 ||
  (let r := e.cols c - 1
   let k := if fnSparse fn then 4 * ceilDiv e.k 8 else e.k
   decide (engOff (e.reg 1) + r * engStride (e.reg 1) + rowBytes e.tb k ≤ padSize) &&
   (!fnSparse fn || decide (engOff (e.reg 8) + r * engStride (e.reg 8) + ceilDiv e.k 8 ≤ padSize)) &&
   (!e.scb || decide (engOff (e.reg 10) + r * engStride (e.reg 10) + ceilDiv e.k 32 ≤ padSize)))

/-- R456: while FEAT_MXFP6FP4 is 0, types 6 to 8 make a set invalid. -/
def State.typeFeature (s : State) (e : Eng) : Bool :=
  s.featen.getLsbD 4 || !((decide (6 ≤ e.ta) && decide (e.ta ≤ 8)) || (decide (6 ≤ e.tb) && decide (e.tb ≤ 8)))

/-- R178: a valid set for a form. -/
def State.setValid (s : State) (g : Gang) (e : Eng) (fn : Nat) : Bool :=
  let side := if g.quad then 64 else 32
  let even := fun w => decide (engOff w % 2 = 0) && decide (engStride w % 2 = 0)
  decide (1 ≤ e.m) && decide (e.m ≤ side) && decide (1 ≤ e.n) && decide (e.n ≤ side) && e.typesOk && s.typeFeature e &&
  decide (1 ≤ e.k) && decide (e.k ≤ 4096 * e.rate (fnSparse fn)) &&
  (decide (matWidth e.ta ≠ 16) || (even (e.reg 0) && even (e.reg 1))) &&
  (!fnGather fn || decide (engOff (e.reg 2) % 2 = 0)) &&
  [0, 1].all (fun h => s.rowsFit g e fn h) && [0, 1].all (fun c => e.colsFit fn c)

/-! Operands. -/

/-- R183: byte at pa of an operand for one read: of a word that was stored to since the start, the word as it stood then, after one of
the stores, or now. -/
def State.operandByte (s : State) (op : MatOp) (read pa : Nat) : Byte :=
  let w := alignDown pa 8
  let start := (upto w 8).map (Sparse.get emptyByte op.snap)
  let now := (upto w 8).map s.rawByte
  let later := (op.seen.filter (fun x => x.1 == w)).map (·.2)
  if later.isEmpty && start == now then s.rawByte pa
  else
    let l := start :: later ++ [now]
    (l.getD (Config.raced s.draws w read % l.length) now).getD (pa - w) 0

/-- Bits lo to lo + w - 1 from a byte of a scratchpad on (R181, 03 R88). -/
def State.operandBits (s : State) (op : MatOp) (read core off lo w : Nat) : Nat :=
  let first := off + lo / 8
  let n := ceilDiv (lo % 8 + w) 8
  ofBytes ((upto (physAddr (padUnit core) first) n).map (s.operandByte op read)) / 2 ^ (lo % 8) % 2 ^ w

/-- What one unit of an operation reads by: its row and column half, its scratchpads, rows and registers. -/
structure Quadrant where
  h : Nat
  c : Nat
  eng : Eng
  fn : Nat
  op : MatOp
  rowPad : Nat
  colPad : Nat
  latch : List Nat
  deriving DecidableEq, Repr

/-- rho of R181 for row i of the half. -/
def Quadrant.rho (q : Quadrant) (i : Nat) : Nat := if fnGather q.fn then q.latch.getD i 0 else i
/-- The number of a read of an element, for R183. -/
def readNo (i j k side : Nat) : Nat := ((i * 32 + j) * 2 ^ 16 + k) * 4 + side
/-- Byte offset of A's row i and of B's column j. -/
def Quadrant.aRow (q : Quadrant) (i : Nat) : Nat := engOff (q.eng.reg 0) + q.rho i * engStride (q.eng.reg 0)
def Quadrant.bCol (q : Quadrant) (j : Nat) : Nat := engOff (q.eng.reg 1) + j * engStride (q.eng.reg 1)

/-- The encoding of A(i, k) (R181). -/
def State.aElem (s : State) (q : Quadrant) (i j k : Nat) : Nat :=
  let w := matWidth q.eng.ta
  s.operandBits q.op (readNo i j k 0) q.rowPad (q.aRow i) (k * w) w

/-- The kept positions of a mask group (R184): its four lowest set bits. -/
def keptBits (mask : Nat) : List Nat := (setBitsOf mask 8).take 4

/-- The encoding of B(k, j), none where a sparse form has no value (R181, R184). -/
def State.bElem (s : State) (q : Quadrant) (i j k : Nat) : Option Nat :=
  let w := matWidth q.eng.tb
  let get := fun x => s.operandBits q.op (readNo i j k 1) q.colPad (q.bCol j) (x * w) w
  if fnSparse q.fn then
    let off := engOff (q.eng.reg 8) + j * engStride (q.eng.reg 8)
    let mask := s.operandBits q.op (readNo i j k 2) q.colPad off (8 * (k / 8)) 8
    let l := keptBits mask
    match l.findIdx? (· == k % 8) with
    | some x => some (get (4 * (k / 8) + x))
    | none => none
  else some (get k)

/-- The scale of a row or column for a group (R181, R102): 1 when the operand carries none. -/
def State.scaleOfGroup (s : State) (q : Quadrant) (on : Bool) (reg pad line grp read : Nat) : Val :=
  if on then e8m0Val (s.operandBits q.op read pad (engOff (q.eng.reg reg) + line * engStride (q.eng.reg reg)) (8 * grp) 8)
  else .fin false 1 0

/-- The product at k (R103 to R105): +0 where B has no value. -/
def State.product (s : State) (q : Quadrant) (i j k : Nat) : Val :=
  match s.bElem q i j k with
  | none => .fin false 0 0
  | some b => Val.mul ((matFmt q.eng.ta).decode (s.aElem q i j k)) ((matFmt q.eng.tb).decode b)

/-- One group added into the accumulator (R103, R104, R106). -/
def State.addGroup (s : State) (q : Quadrant) (i j size acc grp : Nat) : Nat :=
  let ks := upto (size * grp) (min size (q.eng.k - size * grp))
  let sum := Val.sum .rne (ks.map (s.product q i j))
  let x := if size = 32 then
      Val.mul (Val.mul (s.scaleOfGroup q q.eng.sca 9 q.rowPad (q.rho i) grp (readNo i j grp 3))
        (s.scaleOfGroup q q.eng.scb 10 q.colPad j grp (readNo i j (grp + 2 ^ 15) 3))) sum
    else sum
  (f32.deliver .rne false (Val.sum .rne [f32.decode acc, x])).1

/-- The integer product at k (R107). -/
def State.intProduct (s : State) (q : Quadrant) (i j k : Nat) : Int :=
  match s.bElem q i j k with
  | none => 0
  | some b => sval (s.aElem q i j k) (matWidth q.eng.ta) * sval b (matWidth q.eng.tb)

/-- Element (i, j) of a quadrant after the operation (R202). -/
def State.matElem (s : State) (q : Quadrant) (i j old : Nat) : Nat :=
  let acc := if q.eng.zero then 0 else old
  if 12 ≤ q.eng.ta then
    (((acc : Int) + ((upto 0 q.eng.k).map (s.intProduct q i j)).sum) % 2 ^ 32).toNat
  else
    let size := if matWidth q.eng.ta = 16 then 8 else 32
    (upto 0 (ceilDiv q.eng.k size)).foldl (s.addGroup q i j size) acc

/-! Poisoned operands (18 R418). -/

/-- The first poisoned word of n bytes at an offset of a core's scratchpad, as an offset. -/
def State.padPoison (s : State) (core off n : Nat) : Option Nat :=
  if n = 0 then none else (s.poisonedIn (physAddr (padUnit core) off) n).map physOff

/-- Poisoned words that row i reads: its elements, its scales, its index entry. -/
def State.rowPoison (s : State) (q : Quadrant) (i : Nat) : List Nat :=
  ([s.padPoison q.rowPad (q.aRow i) (rowBytes q.eng.ta q.eng.k),
    if q.eng.sca then s.padPoison q.rowPad (engOff (q.eng.reg 9) + q.rho i * engStride (q.eng.reg 9)) (ceilDiv q.eng.k 32)
    else none,
    if fnGather q.fn then s.padPoison q.rowPad (engOff (q.eng.reg 2) + 2 * i) 2 else none]).filterMap id

/-- Poisoned words that column j reads: its elements, its masks, its scales. -/
def State.colPoison (s : State) (q : Quadrant) (j : Nat) : List Nat :=
  let k := if fnSparse q.fn then 4 * ceilDiv q.eng.k 8 else q.eng.k
  ([s.padPoison q.colPad (q.bCol j) (rowBytes q.eng.tb k),
    if fnSparse q.fn then s.padPoison q.colPad (engOff (q.eng.reg 8) + j * engStride (q.eng.reg 8)) (ceilDiv q.eng.k 8)
    else none,
    if q.eng.scb then s.padPoison q.colPad (engOff (q.eng.reg 10) + j * engStride (q.eng.reg 10)) (ceilDiv q.eng.k 32)
    else none]).filterMap id

/-- The key of a tile element (R185). -/
def tileKey (tile i j : Nat) : Nat := tile * 1024 + i * 32 + j

/-- The tiles of a unit after its part of an operation (R202, R418). -/
def State.quadrantResult (s : State) (q : Quadrant) (tiles : List (Nat × Nat)) : List (Nat × Nat) :=
  (upto 0 (q.eng.rows q.h)).foldl (fun ts i =>
    (upto 0 (q.eng.cols q.c)).foldl (fun ts j =>
      let key := tileKey q.eng.tile i j
      let v := if !(s.rowPoison q i).isEmpty || !(s.colPoison q j).isEmpty then 0x7FC00000
        else s.matElem q i j (Sparse.get 0 tiles key)
      Sparse.set 0 ts key v) ts) tiles

/-- The window address of an offset of a scratchpad as a gang's leader names it (10 R218, R219). -/
def Gang.padAddr (g : Gang) (core off : Nat) : Nat :=
  if g.quad then 0xFFFFFFFFFFE00000 + quadPos core * 2 ^ 18 + off else 0xFFFFFFFFFFFC0000 + off

/-- The lowest poisoned word that a quadrant read. -/
def State.quadrantPoison (s : State) (g : Gang) (q : Quadrant) : Option Nat :=
  let l := (upto 0 (q.eng.rows q.h)).flatMap (fun i => (s.rowPoison q i).map (g.padAddr q.rowPad)) ++
    (upto 0 (q.eng.cols q.c)).flatMap (fun j => (s.colPoison q j).map (g.padAddr q.colPad))
  leastBy id l

/-- The quadrant a core of a gang computes (R180). -/
def State.quadrantOf (s : State) (g : Gang) (op : MatOp) (core : Nat) : Quadrant :=
  let pos := if g.quad then quadPos core else 0
  { h := pos / 2, c := pos % 2, eng := { regs := g.active }, fn := op.fn, op := op, rowPad := g.rowPad (pos / 2)
    colPad := g.colPad (pos % 2), latch := (s.core core).unit.latch }

end Sys2Proof.Machine
end

