-- ==== Sys2Proof/Machine/Gang.lean ====
section
/-! DEFINITION. Gang and matrix instructions (09 R194 to R215), and the steps of a gang's life (09 R199 to R203, R212, R214;
08 R190, R191). -/
namespace Sys2Proof.Machine

/-- The frame of the instructions that need a convened gang (R195). -/
def gangWord (i : Instr) (s : State) (k : State → Thread → Gang → Except Stop State) : Host.Outcome State Fault Refusal :=
  word i s (fun s t => match s.myGang t with
    | none => failWith .gangAbsent 0
    | some g => k s t g)

/-- Whether a thread is a member of a forming or convened gang (R196). -/
def State.inGang (s : State) (t : Thread) : Bool := s.gangs.any (fun g => (g.indexOf t.id).isSome)

/-- R196: the limits of a gang descriptor. -/
def descOk (d : Nat) : Bool :=
  decide (1 ≤ bits d 7 0) && decide (bits d 7 0 ≤ if bit d 8 then 128 else 32) && bits d 15 9 == 0 &&
  canonical (d / 2 ^ 16 * 2 ^ 16)

/-- R196: a gang can be placed with the thread as leader. -/
def State.placeOk (s : State) (t : Thread) (quad : Bool) : Bool :=
  !quad || (quadPos t.core == 0 && [0, 1, 2, 3].all (fun q => s.coreOn (quadCore t.core q)))

/-- The gang a GANG.FORM makes (R196). -/
def newGang (t : Thread) (record d : Nat) (leaf : Option Word) (pa : Nat) : Gang :=
  { id := { sdom := t.id.sdom, record := record }, quad := bit d 8, m := bits d 7 0, members := [(0, t.id)], gstate := 1
    home := if bit d 8 then quadOf t.core else t.core, frameb := d / 2 ^ 16 * 2 ^ 16, ops := 0, arrived := []
    shadow := resetShadow (bit d 8), active := resetShadow (bit d 8), op := none, resident := false, first := true
    marked := false, places := [leaf], pad := if leaf.isNone then some pa else none, saving := false, breaking := false
    since := 0 }

/-- GANG.FORM after its record access (R196). -/
def State.formGang (s : State) (t : Thread) (w : Nat) (d : Reg) (desc : Nat) (pa : Nat) (leaf : Option Word) : State :=
  let record := t.waitarg.toNat
  let g := newGang t record desc leaf pa
  let s1 := s.goWait { t with iword := w } .gang (.gang g.id d.toNat 0) (w64 record) (w64 (2 ^ 64 - 1))
  let s2 := State.recPut { s1 with gangs := s1.gangs ++ [g] } g [0, 1, 2, 128]
  (if g.m = 1 then s2.convene g else s2).checkWatches

/-- The access of GANG.FORM and GANG.JOIN to a record (R196, R197): the data-access faults of an ATOM.D on it, and the first poisoned
word of those it reads (18 R418). It meets no data breakpoint (log 108: DESIGN CHOICE). -/
def State.recordAccess (s : State) (t : Thread) (rec' : Nat) : Except Stop (Target × Option Nat) :=
  match s.access t.core t.id.sdom 8 { ea := rec', n := 8, kind := .atomic, write := true } with
  | .error e => .error e
  | .ok g =>
    if s.ctlLine g.pa then failAcc .controlLineWrite rec' .atomic 0
    else .ok (g, (s.poisonedIn g.pa 16).map (vaOfWord rec' g.pa))

/-- GANG.FORM (R196). -/
def execGangForm (d a b : Reg) (s : State) : Host.Outcome State Fault Refusal :=
  word (.gangForm d a b) s (fun s t =>
    let rec' := (t.rd a.toNat).toNat
    let desc := (t.rd b.toNat).toNat
    let quad := bit desc 8
    if s.inGang t then failWith .gangState (t.rd a.toNat)
    else if rec' % 2048 ≠ 0 || !descOk desc || (quad && !s.featen.getLsbD 3) then failWith .gangRecord (w64 rec')
    else if !s.placeOk t quad then failWith .gangPlacement (w64 rec')
    else match s.recordAccess t rec' with
      | .error e => .error e
      | .ok (_, some w) => .ok (s.retire (t.produce (badFill [d.toNat] .atomic w)))
      | .ok (g, none) =>
        let s := s.landWords (dieOf t.core) g.pa 2048
        if bits (s.numAs t.id.sdom (g.pa + 8) 8) 25 24 ≠ 0 then failWith .gangRecord (w64 rec')
        else .ok (s.formGang { t with waitarg := w64 rec' } (wordOf (.gangForm d a b)) d desc g.pa g.leaf?))

/-- GANG.JOIN (R197): the thread waits, armed on word 0x008, and the test is made; a poisoned word of the record ends it (18 R418). -/
def execGangJoin (d a : Reg) (s : State) : Host.Outcome State Fault Refusal :=
  word (.gangJoin d a) s (fun s t =>
    let rec' := (t.rd a.toNat).toNat
    if s.inGang t then failWith .gangState (t.rd a.toNat)
    else if rec' % 2048 ≠ 0 then failWith .gangRecord (w64 rec')
    else match s.recordAccess t rec' with
      | .error e => .error e
      | .ok (_, some w) => .ok (s.retire (t.produce (badFill [d.toNat] .atomic w)))
      | .ok (g, none) =>
        let id : GangId := { sdom := t.id.sdom, record := rec' }
        let s1 := (s.landWords (dieOf t.core) g.pa 2048).goWait { t with iword := wordOf (.gangJoin d a) } .gang (.gangTest id (g.pa + 8) g.leaf? d.toNat) (w64 rec')
          (w64 (2 ^ 64 - 1))
        match s1.joinTest (s1.again t) id (g.pa + 8) g.leaf? d.toNat with
        | .ok s2 => .ok s2.checkWatches
        | .error f => .error (.fault f))

/-- R199: a member's collective counts it in ARRIVED; it waits at its word, WAITARG 0 (log 107: DESIGN CHOICE). -/
def State.arrive (s : State) (t : Thread) (g : Gang) (w fn : Nat) : State :=
  match g.indexOf t.id with
  | none => s
  | some k =>
    (s.setGang { g with arrived := Sparse.put g.arrived k fn }).goWait { t with iword := w } .gang (.coll g.id) 0
      (w64 (2 ^ 64 - 1))

/-- GANG.LEAVE (R199, R200). -/
def execGangLeave (s : State) : Host.Outcome State Fault Refusal :=
  gangWord .gangLeave s (fun s t g => .ok (s.arrive t g (wordOf .gangLeave) 2))

/-- GANG.MMA (R199, R201). -/
def execGangMma (q g x : Bool) (s : State) : Host.Outcome State Fault Refusal :=
  gangWord (.gangMma q g x) s (fun s t c =>
    if q ≠ c.quad then failWith .gangShape (w64 c.id.record)
    else .ok (s.arrive t c (wordOf (.gangMma q g x)) (8 + b2n q * 4 + b2n g * 2 + b2n x)))

/-- MXBURST (R205, R188). -/
def execMxburst (a : Reg) (s : State) : Host.Outcome State Fault Refusal :=
  gangWord (.mxburst a) s (fun s t g =>
    let n := min (t.rd a.toNat).toNat 0xFFFFF
    let s1 := g.cores.foldl (fun s c =>
      let s' := s.modUnit c (fun u => { u with burst := n })
      if n = 0 then s' else s'.rampUp c) s
    .ok (s1.retire t))

/-- MXWAIT (R206). -/
def execMxwait (s : State) : Host.Outcome State Fault Refusal :=
  gangWord .mxwait s (fun s t g => if g.op.isSome then .error .lock else .ok (s.retire t))

/-- The bits of an engine register that are not reserved (R176). -/
def engMask (k : Nat) : Word :=
  match k with
  | 2 => 0x3FFFF
  | 3 => 0x7F
  | 4 => 0x7F
  | 5 => 0xFFFF
  | 6 => 0x3FF
  | 7 => 0x1F
  | _ => 0x3FFFF + 0x3FFFF * 0x1000000

/-- MXCFG (R204). -/
def execMxcfg (a b : Reg) (s : State) : Host.Outcome State Fault Refusal :=
  gangWord (.mxcfg a b) s (fun s t g =>
    let sel := (t.rd a.toNat).toNat
    if 0x0A < sel then failWith .engineSelector (t.rd a.toNat)
    else .ok ((s.setGang { g with shadow := g.shadow.set sel (t.rd b.toNat &&& engMask sel) }).retire t))

/-! Accumulator access. -/

/-- The word of element (I, J + t) of a tile (R185). -/
def State.tileWord (s : State) (g : Gang) (tile : Tile) (w : Word) (t : Nat) : Nat :=
  Sparse.get 0 (s.core (g.elemCore w)).unit.tiles (tileKey tile.toNat (wbits w 5 0 % 32) (wbits w 13 8 % 32 + t))

/-- R186, R207: an access of a tile by an index word: the index, then the lock. -/
def State.tileAccess (s : State) (g : Gang) (tile : Tile) (w : Word) (n : Nat) (cvt : Bool) : Except Stop Unit :=
  if !indexOk g w n cvt then failWith .accumulatorIndex w
  else if s.tileLocked (g.elemCore w) tile then .error .lock
  else .ok ()

/-- ACC.LD (R208). -/
def execAccLd (d : Reg) (tile : Tile) (b : Reg) (s : State) : Host.Outcome State Fault Refusal :=
  gangWord (.accLd d tile b) s (fun s t g =>
    let w := t.rd b.toNat
    match s.tileAccess g tile w 2 false with
    | .error e => .error e
    | .ok _ => .ok (s.retire (t.produce (regFill d.toNat (w64 (s.tileWord g tile w 0 + s.tileWord g tile w 1 * 2 ^ 32))))))

/-- ACC.ST (R208). -/
def execAccSt (v : Reg) (tile : Tile) (b : Reg) (s : State) : Host.Outcome State Fault Refusal :=
  gangWord (.accSt v tile b) s (fun s t g =>
    let w := t.rd b.toNat
    match s.tileAccess g tile w 2 false with
    | .error e => .error e
    | .ok _ =>
      let key := tileKey tile.toNat (wbits w 5 0 % 32) (wbits w 13 8 % 32)
      let x := t.rd v.toNat
      .ok ((s.modUnit (g.elemCore w) (fun u =>
        { u with tiles := Sparse.set 0 (Sparse.set 0 u.tiles key (wbits x 31 0)) (key + 1) (wbits x 63 32) })).retire t))

/-- R209: an instruction that rewrites a whole tile of every unit of the gang. -/
def State.wholeTile (s : State) (t : Thread) (g : Gang) (tile : Tile) (f : List (Nat × Nat) → List (Nat × Nat)) :
    Except Stop State :=
  if g.cores.any (fun c => s.tileLocked c tile) then failWith .accumulatorBusy (tile.setWidth 64)
  else .ok ((g.cores.foldl (fun s c => s.modUnit c (fun u => { u with tiles := f u.tiles })) s).retire t)

/-- ACC.ZERO (R209). -/
def execAccZero (tile : Tile) (s : State) : Host.Outcome State Fault Refusal :=
  gangWord (.accZero tile) s (fun s t g =>
    s.wholeTile t g tile (fun l => l.filter (fun x => x.1 / 1024 ≠ tile.toNat)))

/-- A product rounded into FP32 by RNE (R209). -/
def f32Mul (x y : Nat) : Nat := (f32.deliver .rne false (Val.mul (f32.decode x) (f32.decode y))).1

/-- ACC.SCALE (R209): every element, those that are 0 included. -/
def execAccScale (tile : Tile) (b : Reg) (s : State) : Host.Outcome State Fault Refusal :=
  gangWord (.accScale tile b) s (fun s t g =>
    let f := wbits (t.rd b.toNat) 31 0
    s.wholeTile t g tile (fun l => (upto (tile.toNat * 1024) 1024).foldl
      (fun a k => Sparse.set 0 a k (f32Mul (Sparse.get 0 l k) f)) l))

/-- One element of ACC.CVT (R210): its encoding in the destination's width, and flags. -/
def accElem (u : CvtType) (r : RMode) (sat : Bool) (x : Nat) : Nat × Fpf :=
  match cvtFmt u with
  | some f => f.deliver r sat (f32.decode x)
  | none =>
    let (v, fl) := toInt u r (Val.ofInt (sval x 32))
    ((v % (2 ^ (if u = .i4 then 4 else 8) : Nat)).toNat, fl)

/-- The width of a destination of ACC.CVT. -/
def accWidth (n : Nat) : Nat := 64 / n

/-- The bits of an element of a destination type. -/
def accBits (u : CvtType) : Nat :=
  match cvtFmt u with | some f => f.width | none => if u = .i4 then 4 else 8

/-- ACC.CVT (R210). -/
def execAccCvt (d : Reg) (tile : Tile) (b : Reg) (s : State) : Host.Outcome State Fault Refusal :=
  gangWord (.accCvt d tile b) s (fun s t g =>
    let w := t.rd b.toNat
    match accType (wbits w 19 16) with
    | none => failWith .accumulatorIndex w
    | some (u, n) => match s.tileAccess g tile w n true with
      | .error e => .error e
      | .ok _ =>
        let rm := wbits w 22 20
        let r := if rm = 0 then t.mode else RMode.ofCode rm
        let l := (upto 0 n).map (fun k => accElem u r (bit w.toNat 23) (s.tileWord g tile w k))
        .ok (s.retire (t.produce { regs := [(d.toNat, w64 (packElems (accBits u) (l.map (·.1))))]
                                   flags := l.foldl (fun a x => a ||| x.2) 0, float := true, req := none, bad := none })))

/-! Steps. -/

/-- Park a member at its collective's word (R199). -/
def State.parkMember (s : State) (g : Gang) (k : Nat) (c : Cause) : State :=
  match (g.members.find? (fun x => x.1 == k)).bind (fun x => s.find x.2) with
  | none => s
  | some t => s.park t (.plain c (w64 g.id.record)) false false t.iword

/-- R199: every waiting member's collective completes. -/
def State.completeColl (s : State) (g : Gang) : State :=
  (s.gangThreads g).foldl (fun s t => match t.st, t.cond with
    | .waiting .gang, some (.coll _) => s.completeWait t []
    | _, _ => s) s

/-- The start of an operation on one unit (R179, R182, R186, R203): the index latch, the lock, its cycles, the ramp. -/
def State.startUnit (s : State) (g : Gang) (fn core : Nat) : State :=
  let e : Eng := { regs := g.active }
  let pos := if g.quad then quadPos core else 0
  let s1 := s.rampUp core
  let s2 := s1.modUnit core (fun u => { u with latch := if fnGather fn then s.indexEntries g e (pos / 2) else [] })
  if e.rows (pos / 2) = 0 ∨ e.cols (pos % 2) = 0 then s2
  else
    let steps := ceilDiv e.k (e.rate (fnSparse fn))
    s2.modUnit core (fun u => { u with
      lock := 2 ^ e.tile, steps := steps, run := some (176 + steps - if s.unitsUp g then 1 else 0) })

/-- Members' buffered stores are performed before an operation checks and reads (R178, R183), and before a dissolution (R200). -/
def State.drainMembers (s : State) (g : Gang) : State :=
  g.members.foldl (fun s x => match s.find x.2 with | some t => s.drainAll t | none => s) s

/-- The start cycle of an operation (R179). -/
def State.startOp (s : State) (g : Gang) (fn : Nat) : State :=
  let snap := s.mem.filter (fun x => g.cores.any (fun c => decide (physUnit x.1 = padUnit c)))
  let g1 := { g with active := g.shadow, op := some { fn := fn, snap := snap, seen := [] }, ops := g.ops + 1, arrived := [] }
  let s2 := g1.cores.foldl (fun s c => s.startUnit g1 fn c) (s.setGang g1)
  (s2.noteUp (some g.id)).completeColl g1

/-- R199: resolution. -/
def State.resolve (s : State) (g : Gang) : State :=
  let fn := Sparse.get 0 g.arrived 0
  let wrong := g.arrived.filter (fun a => a.2 ≠ fn)
  if wrong ≠ [] then wrong.foldl (fun s a => s.parkMember g a.1 .matrixForm) s
  else if fn = 2 then
    (s.dissolve g).completeColl g
  else if !s.setValid g { regs := g.shadow } fn then s.parkMember g 0 .matrixConfiguration
  else s.startOp g fn

/-- Whether a gang resolves now (R199, R190). -/
def Gang.resolves (g : Gang) : Bool :=
  g.gstate == 2 && g.resident && g.arrived.length == g.m && g.op.isNone && !g.saving && !g.breaking

/-- Whether the buffered stores of a gang's members can be performed now. -/
def State.membersDrain (s : State) (g : Gang) : Bool := !(s.gangThreads g).any s.stuck

/-- Step GANG_RESOLUTION (R199), once the members' stores are performed. -/
def execGangResolution (i : GangId) (s : State) : Host.Outcome State Fault Refusal :=
  event (match s.gang i with
    | some g =>
      if g.resolves && s.membersDrain g && !(Sparse.get 0 g.arrived 0 == 2 && s.gangWaits g 1) then
        let s1 := s.drainMembers g
        match s1.gang i with
        | some h => (s1.resolve h).checkWatches
        | none => s1
      else s
    | none => s)

/-- A thread BLOCKED LOCK stands before issue again where the lock it met holds no more (R32, R186, R206). -/
def State.relock (s : State) (t : Thread) : State :=
  if t.st = .blocked .lock then
    match s.turnView { t with st := .resident } with
    | .stops .lock _ => s
    | _ => s.put { t with st := .resident }
  else s

/-- The members of a gang that the end of a unit's part releases (R186, R206). -/
def State.releaseLocks (s : State) (g : Gang) : State := (s.gangThreads g).foldl State.relock s

/-- Step MATRIX_OPERATION_COMPLETION (R202, R203, R186): a unit writes its elements and clears the lock; a poisoned operand
raises a class A fault of the leader (18 R418). -/
def State.completeUnit (s : State) (core : Nat) (g : Gang) (op : MatOp) : State :=
  let q := s.quadrantOf g op core
  let s1 := s.modUnit core (fun u => { u with
    tiles := s.quadrantResult q u.tiles, lock := 0, run := none, idle := 0 })
  let done := g.cores.all (fun c => (s1.core c).unit.run.isNone)
  let s2 := (if done then s1.setGang { g with op := none } else s1).releaseLocks g
  match s.quadrantPoison g q, g.leader with
  | some a, some l => s2.raiseAsync l .poisonedData .none 0 (w64 a)
  | _, _ => s2

/-- Step MATRIX_OPERATION_COMPLETION. -/
def execMatrixOperationCompletion (core : Nat) (s : State) : Host.Outcome State Fault Refusal :=
  let u := (s.core core).unit
  event (match u.gang.bind s.gang with
    | some g => match g.op with
      | some op => if u.opDue then s.completeUnit core g op else s
      | none => s
    | none => s)

/-- A unit's tiles as the lines of its gang frame (R175): 4 pieces of 16 KiB. -/
def tileLines (tiles : List (Nat × Nat)) (piece : Nat) : List (Nat × List Byte) :=
  (upto 0 128).map (fun l => (128 * l,
    (upto (4096 * piece + 32 * l) 32).flatMap (fun k => toBytes 4 (Sparse.get 0 tiles k))))

/-- R190 step 3: write the tiles to the frames and the record, under the recorded placements (R478). -/
def State.saveState (s : State) (g : Gang) : State × Bool :=
  let frames := (upto 0 g.cores.length).flatMap (fun q => (upto 0 4).map (fun p => (q, p)))
  let r := frames.foldl (fun (x : State × Bool) qp =>
    let tiles := (s.core (g.cores.getD qp.1 0)).unit.tiles
    let k := 1 + 4 * qp.1 + qp.2
    let (s1, b) := x.1.gangWrites g k (tileLines tiles qp.2)
    (s1.gangDropped g k b, x.2 || b)) (s, false)
  let (s2, b) := r.1.gangWrites g 0 (Gang.recLines { g with resident := false } false)
  (s2.gangDropped g 0 b, r.2 || b)

/-- Whether a gang can be saved now (R190, R33): resident, no operation in flight, no member within an issued instruction but its own
TLBINV, which may wait for this save (R192; 13 R299 bounds it), no buffered store of a member and no write of the save that waits. -/
def State.canSave (s : State) (g : Gang) : Bool :=
  g.saving && g.resident && g.op.isNone && !s.gangWaits g (1 + 4 * g.cores.length) &&
  (s.gangThreads g).all (fun t => (t.pend.isNone || t.invalidating) && !s.stuck t)

/-- R190 step 4: a member gives up its slot; one that waits for its own TLBINV at the boundary after it (13 R299). -/
def State.evictMember (s : State) (i : Tid) : State :=
  match s.find i with
  | none => s
  | some t =>
    if !t.holdsSlot then s
    else if t.invalidating then s.put { t with preempt := true }
    else s.evict t

/-- R190: save a gang. A gang that a dropped write marks stays marked: every later reactivation faults, where R478 speaks of its next
one, since the bytes that were dropped are lost (log 91: DESIGN CHOICE). -/
def State.saveGang (s : State) (g : Gang) : State :=
  let (s1, b) := s.saveState g
  let s2 := (g.members.map (·.2)).foldl State.evictMember s1
  let s3 := s2.freeUnits g
  match s3.gang g.id with
  | none => s3
  | some g1 => (s3.setGang { g1 with resident := false, saving := false, first := false, marked := g1.marked || b, since := s.tick
                                     claim := none }).checkWatches

/-- Step GANG_SAVE (R190). -/
def execGangSave (i : GangId) (s : State) : Host.Outcome State Fault Refusal :=
  event (match s.gang i with
    | some g => if s.canSave g && !g.breaking then s.saveGang g else s
    | none => s)

/-! Reactivation (08 R191; 02 R55). -/

/-- The fault of a record that does not match its gang (R191). -/
def recordFlt (g : Gang) : Flt := { cause := .gangRecord, addr := w64 g.id.record, kind := .none, detail := 0, fetch := false }

/-- R191: whether the record in memory holds the gang's own LEADER, SHAPE, MEMBERS, HOME, FRAMEB and member handles, and no member is
DONE. The handle words of k from MEMBERS on, which name no member, are not compared (log 92: DESIGN CHOICE). -/
def State.recordMatches (s : State) (g : Gang) : Except Flt Bool :=
  let rd := fun k => s.devGet g.die g.id.sdom (g.id.record + 8 * k) 8
  match rd 0, rd 1, rd 2 with
  | .error f, _, _ => .error f
  | _, .error f, _ => .error f
  | _, _, .error f => .error f
  | .ok a, .ok b, .ok c =>
    .ok (bits a 46 0 == bits (g.recWord 0).toNat 46 0 && bit b 0 == g.quad && bits b 15 8 == g.m && bits b 42 32 == g.home &&
      c == g.frameb && g.members.all (fun x => (s.find x.2).isSome) && (upto 0 g.m).all (fun k => match rd (128 + k) with
        | .ok v => bits v 46 0 == bits (g.recWord (128 + k)).toNat 46 0
        | .error _ => false))

/-- Bytes of a gang frame piece, line by line (R175), with the fault it meets. -/
def State.pieceBytes (s : State) (g : Gang) (k : Nat) : Except Flt (List Byte) :=
  (upto 0 128).foldl (fun r l => match r with
    | .error f => .error f
    | .ok bs => match s.devGet g.die g.id.sdom (g.pieceVa k (128 * l)) 128 with
      | .ok n => .ok (bs ++ toBytes 128 n)
      | .error f => .error f) (.ok [])

/-- Tiles a gang frame holds (R175). -/
def State.loadTiles (s : State) (g : Gang) (q : Nat) : Except Flt (List (Nat × Nat)) :=
  (upto 0 4).foldl (fun r p => match r with
    | .error f => .error f
    | .ok ts => match s.pieceBytes g (1 + 4 * q + p) with
      | .error f => .error f
      | .ok bs => .ok ((upto 0 4096).foldl (fun a i =>
          Sparse.set 0 a (4096 * p + i) (ofBytes ((bs.drop (4 * i)).take 4))) ts)) (.ok [])

/-- The tiles of every unit of a gang at its reactivation: 0 the first time after convening (R198). -/
def State.gangTiles (s : State) (g : Gang) : Except Flt (List (List (Nat × Nat))) :=
  (upto 0 g.cores.length).foldl (fun r q => match r with
    | .error f => .error f
    | .ok l => if g.first then .ok (l ++ [[]]) else match s.loadTiles g q with
      | .error f => .error f
      | .ok ts => .ok (l ++ [ts])) (.ok [])

/-- The shadow set a record holds (R174, R191). -/
def State.gangShadow (s : State) (g : Gang) : List Word :=
  (upto 0 11).map (fun k => match s.devGet g.die g.id.sdom (g.id.record + 128 + 8 * k) 8 with
    | .ok v => w64 v &&& engMask k
    | .error _ => 0)

/-- The first fault in reading the lines of a record (R191, 18 R418). -/
def State.recordFault (s : State) (g : Gang) : Option Flt :=
  (upto 0 16).findSome? (fun l => match s.devGet g.die g.id.sdom (g.id.record + 128 * l) 128 with
    | .ok _ => none
    | .error f => some f)

/-- R191: what the device finds when it reads a gang's record and frames. The mark comes first, as the rule says; of the others the
rule names no order: they are taken as the steps read, the record's page, what it holds, the frames' pages (log 93: DEDUCED). -/
def State.gangFinding (s : State) (g : Gang) : Except Flt (List (List (Nat × Nat))) :=
  if g.marked then .error (recordFlt g)
  else match s.recordFault g with
  | some f => .error f
  | none => match s.recordMatches g with
    | .error f => .error f
    | .ok ok => if ok then s.gangTiles g else .error (recordFlt g)

/-- Whether the reads and writes of a reactivation wait (10 R233, R235; 13 R303). -/
def State.gangReadWaits (s : State) (g : Gang) : Bool :=
  (upto 0 (1 + 4 * g.cores.length)).any (fun k => (upto 0 (if k = 0 then 8 else 64)).any (fun l =>
    s.devWaits g.die g.id.sdom (g.pieceVa k (256 * l)) true))

/-- Seat a member (R32, R191): WAITING members keep their wait. -/
def State.seatMember (s : State) (x : Tid × (Nat × Nat) × Option Tid) : State :=
  let s1 := match x.2.2.bind s.find with | some v => s.evict v | none => s
  match s1.find x.1 with
  | none => s1
  | some t =>
    let s2 := s1.activate t x.2.1
    match t.st, s2.find x.1 with
    | .waiting k, some u => if u.st = .resident then s2.put { u with st := .waiting k, waitSince := t.waitSince } else s2
    | _, _ => s2

/-- Load the units of a gang that takes its slots (R191). -/
def State.loadUnits (s : State) (g : Gang) (tiles : List (List (Nat × Nat))) : State :=
  (upto 0 g.cores.length).foldl (fun s q => s.modUnit (g.cores.getD q 0) (fun u => { u with tiles := tiles.getD q [] }))
    (s.takeUnits g)

/-- R191: reactivate a gang at the seats found. -/
def State.reactivate (s : State) (g : Gang) (seats : List (Tid × (Nat × Nat) × Option Tid)) : State :=
  match s.gangFinding g with
  | .error f => match g.leader.bind s.find with
    | some t => s.park t f false true 0 (own := false)
    | none => s
  | .ok tiles =>
    let g1 := { g with resident := true, first := false, shadow := s.gangShadow g, places := s.gangPlaces g, pad := none }
    let s1 := (((s.loadUnits g1 tiles).setGang g1).touchPieces g1).recPut g1 [4]
    (seats.foldl State.seatMember s1).checkWatches

/-- Step GANG_REACTIVATION (R191, R55). -/
def execGangReactivation (i : GangId) (s : State) : Host.Outcome State Fault Refusal :=
  event (match s.gang i with
    | some g =>
      if s.gangMayReturn g && !s.gangReadWaits g then
        match s.gangRoom g with
        | .seats l => s.reactivate g l
        | .holder h => s.gangSaveReq (some h)
        | .none => s
      else s
    | none => s)

/-- Step GANG_BREAK (R214): the members that wait at a gang instruction fault. -/
def State.breakGang (s : State) (g : Gang) : State :=
  let waiting := (s.gangThreads g).filter (fun t => t.st == .waiting .gang)
  let s1 := s.dissolve g
  waiting.foldl (fun s t => s.raiseAsync t.id .gangDissolved .none 0 (w64 g.id.record)) s1

/-- Step GANG_BREAK (R214). -/
def execGangBreak (i : GangId) (s : State) : Host.Outcome State Fault Refusal :=
  event (match s.gang i with
    | some g =>
      if g.breaking && g.op.isNone && s.membersDrain g && !s.gangWaits g 1 then
        let s1 := s.drainMembers g
        match s1.gang i with
        | some h => (s1.breakGang h).checkWatches
        | none => s1
      else s
    | none => s)

end Sys2Proof.Machine
end

