-- ==== Sys2Proof/Machine/Mgmt.lean ====
section
/-! DEFINITION. The words of the management window's tables and registers (19 R436, R438; 20 R444; 14 R308; 15 R330; 18 R408). -/
namespace Sys2Proof.Machine

/-- The SDT entry of a domain (20 R444), with a given CMDSEQ. -/
def Domain.words (d : Domain) (seq : Nat) : List Word :=
  [d.rootptr, w64 (b2n d.v + 2 * b2n d.hostap), w64 seq, 0] ++ (upto 0 4).map (fun k => w64 (d.tkey.toNat / 2 ^ (64 * k)))

/-- The two words of an EDT entry (14 R308). -/
def Edt.words (e : Edt) : List Word := [e.dva, w64 (e.sdom % 2 ^ 16 + e.owner % 8 * 2 ^ 16 + b2n e.v * 2 ^ 19)]

/-- The four words of an FDT entry (18 R408). -/
def Fdt.words (f : Fdt) : List Word :=
  [w64 (f.fdom % 2 ^ 16 + f.sdom % 2 ^ 16 * 2 ^ 16 + b2n f.v * 2 ^ 32 + b2n f.brkdbg * 2 ^ 33 + b2n f.dbgen * 2 ^ 34),
   w64 f.mcregion, w64 f.dbgregion, 0]

/-- Word k of aperture n (19 R438). -/
def State.aper (s : State) (n k : Nat) : Word := (Sparse.get [] s.apertures n).getD k 0
def State.aperV (s : State) (n : Nat) : Bool := bit (s.aper n 2).toNat 16
def State.aperDom (s : State) (n : Nat) : Nat := wbits (s.aper n 2) 15 0

/-- ENCORES word w of a die (R436). -/
def State.encoresWord (s : State) (d w : Nat) : Word := w64 (s.encores / 2 ^ (256 * d + 64 * w))
/-- NCORES (R436). -/
def State.ncores (s : State) : Nat := ((upto 0 2048).filter s.coreOn).length

/-- VERSION (20 R453): ISA 3.0, the stepping and the SVN. -/
def State.version (s : State) : Nat := 0x0300 + Config.stepping.toNat * 2 ^ 16 + s.silicon.svn % 2 ^ 16 * 2 ^ 32

/-- The bytes of words. -/
def bytesOf (l : List Word) : List Byte := l.flatMap wordBytes

/-- A digest or key as the bytes of its number. -/
def digestBytes (d : BitVec 256) : List Byte := toBytes 32 d.toNat

end Sys2Proof.Machine
end

