-- ==== Sys2Proof/Machine/Launch.lean ====
section
/-! DEFINITION. From launch record to thread (15 R329 to R338; 02 R36 to R39; 16 R354, R355): notices, takes, materialisation, and the
threads a task queue makes. -/
namespace Sys2Proof.Machine

/-! Launch queues. -/

/-- Word k of an LQD (R329), as the device reads it. -/
def State.lqdWord (s : State) (q : QueueEnt) (k : Nat) : Except Flt Nat := s.devRead 0 q.sdom (q.lqd + 8 * k) 8

/-- Store a word of an LQD; a store that cannot be performed is dropped. -/
def State.lqdPut (s : State) (q : QueueEnt) (k v : Nat) : State :=
  match s.devWrite 0 q.sdom (q.lqd + 8 * k) (toBytes 8 v) with
  | .ok s1 => s1.checkWatches
  | .error _ => s

/-- The LQD as read: its ring, LOG2N, TAIL and HEAD (R329), or the ERR of R331. -/
structure Lqd where
  ring : Nat
  size : Nat
  tail : Nat
  head : Nat
  deriving DecidableEq, Repr

/-- Entries of the ring a producer has written and the device not taken. -/
def Lqd.waiting (l : Lqd) : Nat := (l.tail + 2 ^ 64 - l.head) % 2 ^ 64

/-- Whether an access of the device to an LQD waits: for its tables or its place, or for a held write of it (13 R303, 10 R233). -/
def State.lqdWaits (s : State) (q : QueueEnt) : Bool :=
  s.devWaits 0 q.sdom q.lqd true || s.devq.any (fun o => o.sdom == q.sdom && o.va / 64 == q.lqd / 64)

/-- R329, R331: read an LQD, every word of it. Of word 0x08 only LOG2N counts. -/
def State.readLqd (s : State) (q : QueueEnt) : Except Nat Lqd :=
  if (upto 4 4).any (fun k => match s.lqdWord q k with | .ok _ => false | .error _ => true) then .error 3
  else match s.lqdWord q 0, s.lqdWord q 1, s.lqdWord q 2, s.lqdWord q 3 with
  | .ok ring, .ok w, .ok tail, .ok head =>
    let n := bits w 4 0
    if ring % 128 ≠ 0 || !canonical ring || n == 0 || decide (17 ≤ n) then .error 2
    else
      let l : Lqd := { ring := ring, size := 2 ^ n, tail := tail, head := head }
      if l.size < l.waiting then .error 1 else .ok l
  | _, _, _, _ => .error 3

/-- Change a queue's entry. -/
def State.setQueue (s : State) (k : Nat) (q : QueueEnt) : State := { s with queues := Sparse.set QueueEnt.init s.queues k q }

/-- R331: the device reads TAIL: ERR follows what it finds, and the records up to it are noticed. -/
def State.noticeTail (s0 : State) (k : Nat) : State :=
  let q := s0.queue k
  let s := s0.touch 0 q.sdom q.lqd false
  if !q.v || s0.lqdWaits q then s0
  else match s.readLqd q with
    | .error e => s.lqdPut q 7 e
    | .ok l =>
      let s1 := match s.lqdWord q 7 with | .ok 0 => s | _ => s.lqdPut q 7 0
      s1.setQueue k { q with noticed := l.tail }

/-- R336: the device acts on CANCEL. -/
def State.actCancel (s : State) (k : Nat) : State :=
  let q := s.queue k
  match s.lqdWord q 4, s.lqdWord q 3 with
  | .ok c, .ok head =>
    if !q.v || c == 0 || s.lqdWaits q then s
    else
      let x := c - 1
      let s1 := s.lqdPut q 4 0
      if s1.launches.any (fun l => l.queue == k && l.index == x) then
        State.endLaunches { s1 with launches := s1.launches.map (fun (l : Launch) =>
          if l.queue = k ∧ l.index = x then { l with cancelled := true } else l) }
      else if (x + 2 ^ 64 - head) % 2 ^ 64 < 2 ^ 63 then s1.setQueue k { q with cancels := SSet.add q.cancels x }
      else s1
  | _, _ => s

/-- Step LAUNCH_DOORBELL (R331, 19 R437): ignored for a queue that is not an enabled host queue. -/
def execLaunchDoorbell (q : Nat) (s : State) : Host.Outcome State Fault Refusal :=
  event (if s.stage = .running ∧ (s.queue q).v = true ∧ (s.queue q).device = false then s.noticeTail q else s)

/-- Step LAUNCH_TAIL_NOTICE (R331): the armed watch of a device queue. -/
def execLaunchTailNotice (q : Nat) (s : State) : Host.Outcome State Fault Refusal :=
  event (if (s.queue q).v = true ∧ (s.queue q).device = true then s.noticeTail q else s)

/-- Step LAUNCH_QUEUE_POLL (R331): TAIL and CANCEL are read. -/
def execLaunchQueuePoll (q : Nat) (s : State) : Host.Outcome State Fault Refusal :=
  event ((s.noticeTail q).actCancel q)

/-! The take. -/

/-- Word k of a launch record (R332). -/
def recWord (n k : Nat) : Nat := entWord n k
def lrCount (n : Nat) : Nat := bits (recWord n 1) 40 0
def lrLines (n : Nat) : Nat := bits (recWord n 1) 42 41 + 1
def lrDies (n : Nat) : Nat := bits (recWord n 1) 51 44
def lrPack (n : Nat) : Bool := bit (recWord n 1) 52
def lrShape (n : Nat) : Nat := bits (recWord n 1) 54 53
def lrGm (n : Nat) : Nat := bits (recWord n 1) 62 56 + 1

/-- R37: the enabled cores of a die mask. -/
def State.maskCores (s : State) (m : Nat) : List Nat := (upto 0 2048).filter (fun c => s.coreOn c && bit m (dieOf c))
/-- R37: the quads of a die mask whose four cores are enabled. -/
def State.maskQuads (s : State) (m : Nat) : List Nat :=
  (upto 0 512).filter (fun q => bit m (q / 64) && [0, 1, 16, 17].all (fun k => s.coreOn (quadBase q + k)))

/-- The cores or quads a launch's threads are assigned over (R37). -/
def State.launchPlaces (s : State) (n : Nat) : List Nat :=
  if lrShape n = 2 then s.maskQuads (lrDies n) else s.maskCores (lrDies n)

/-- A range canonical and outside the window area (R333). -/
def plainRange (a n : Nat) : Bool := n == 0 || (rangeCanonical a n && !inWindow (a + n - 1))

/-- R333, status 20. -/
def lrClean (f : Word) (n : Nat) : Bool :=
  !bit (recWord n 1) 43 && !bit (recWord n 1) 55 && !bit (recWord n 1) 63 && (upto 8 8).all (fun k => recWord n k == 0) &&
  (match lrShape n with
   | 0 => lrGm n == 1
   | 1 => decide (lrGm n ≤ 32) && lrCount n % lrGm n == 0
   | 2 => f.getLsbD 3 && lrCount n % lrGm n == 0
   | _ => false)

/-- R333, status 23. -/
def lrGangOk (n : Nat) : Bool :=
  let k := if lrShape n = 0 then 0 else lrCount n / lrGm n
  recWord n 5 % 2048 == 0 && recWord n 6 % 65536 == 0 && plainRange (recWord n 5) (2048 * k) &&
  plainRange (recWord n 6) (65536 * (if lrShape n = 2 then 4 else 1) * k)

/-- The status a record's checks give (R333): 0 when none rejects it. A region of a domain with V = 0 gives 16 (20 R460), as does one
whose ancestor's RCB is invalid (02 R42; log 110). -/
def State.checkRecord (s : State) (q : QueueEnt) (n : Nat) : Nat :=
  if !lrClean s.featen n then 20
  else if 2 ^ 40 < lrCount n then 19
  else if recWord n 0 % 4 ≠ 0 || !canonical (recWord n 0) then 18
  else if recWord n 2 % 128 ≠ 0 || !canonical (recWord n 2) then 16
  else match s.chain 0 q.sdom (recWord n 2) with
    | .error _ => 16
    | .ok l => match l.getLast? with
      | none => 16
      | some (root, r) =>
        if (s.domain (effSdom l)).v = false then 16
        else if root ≠ q.root ∨ r.sdom ≠ q.sdom then 17
        else if (s.launchPlaces n).isEmpty then 21
        else if recWord n 4 % 1024 ≠ 0 || (recWord n 4 == 0 && lrCount n != 0) || !plainRange (recWord n 4) (1024 * lrCount n) then 22
        else if !lrGangOk n then 23
        else 0

/-- The launch a record opens (R334). -/
def State.launchOf (s : State) (k : Nat) (q : QueueEnt) (x n : Nat) : Launch :=
  { id := s.nextLaunch, queue := k, index := x, pc := w64 (recWord n 0), count := lrCount n, lines := lrLines n
    cores := s.launchPlaces n, pack := lrPack n, gshape := lrShape n, gm := lrGm n, region := recWord n 2, home := q.sdom
    args := w64 (recWord n 3), frames := recWord n 4, grecb := recWord n 5, gframeb := recWord n 6, doneaddr := recWord n 7, lqd := q.lqd
    next := 0, live := 0, cancelled := q.cancels.contains x, taken := s.tick }

/-- After a record is read: HEAD moves, and the record is rejected, ended at once, or opened (R333, R336). -/
def State.takeRecord (s : State) (k x n : Nat) (status : Nat) : State :=
  let q := s.queue k
  let s1 : State := { (s.lqdPut q 3 ((x + 1) % 2 ^ 64)).setQueue k { q with cancels := SSet.del q.cancels x } with
    tookLaunch := true, takeTurn := k + 1 }
  if status ≠ 0 then (s1.lqdAdd q 0x30 8 1).storeStatus 0 q.sdom (recWord n 7) x status
  else
    let l := s.launchOf k q x n
    if l.count = 0 ∨ l.cancelled = true then s1.storeStatus 0 q.sdom l.doneaddr x (if l.cancelled then 2 else 1)
    else { (s1.lqdAdd q 0x28 1 1) with launches := s1.launches ++ [l], nextLaunch := s.nextLaunch + 1 }

/-- A record whose read failed: no status is stored (R333). -/
def State.dropRecord (s : State) (k x : Nat) : State :=
  let q := s.queue k
  let s1 : State := { (s.lqdPut q 3 ((x + 1) % 2 ^ 64)).setQueue k { q with cancels := SSet.del q.cancels x } with
    tookLaunch := true, takeTurn := k + 1 }
  s1.lqdAdd q 0x30 8 1

/-- Take the record at HEAD (R333). -/
def State.takeAt (s : State) (k : Nat) (l : Lqd) : State :=
  let q := s.queue k
  let va := l.ring + 128 * (l.head % l.size)
  match s.agentAt { die := 0, core := none, sdom := q.sdom } va false with
  | .error .held => s
  | .error _ => s.dropRecord k l.head
  | .ok (s1, g) =>
    let n := s1.numAt q.sdom g.pa 128
    let done := recWord n 7
    if s1.chainWaits 0 q.sdom 9 (recWord n 2) then s
    else if (s1.poisonedIn (g.pa + 0x38) 8).isSome || (done != 0 && (done % 8 != 0 || !canonical done)) then s1.dropRecord k l.head
    else s1.takeRecord k l.head n (if (s1.poisonedIn g.pa 128).isSome then 24 else s1.checkRecord q n)

/-- R333: whether a queue has a record the device may take. -/
def State.canTake (s : State) (k : Nat) : Option Lqd :=
  let q := s.queue k
  if !q.v || s.lqdWaits q then none
  else match s.readLqd q, s.lqdWord q 7, s.lqdWord q 5 with
    | .ok l, .ok err, .ok opened =>
      if err % 4 = 0 ∧ q.noticed ≠ l.head ∧ (q.noticed + 2 ^ 64 - l.head) % 2 ^ 64 ≤ l.size ∧ opened % 32 < 16 ∧ s.launches.length < 4096
      then some l else none
    | _, _, _ => none

/-- The queue served next: in ascending index, one record per queue per pass (R333). -/
def State.nextQueue (s : State) : Option Nat :=
  let ready := (s.queues.map (·.1)).filter (fun k => (s.canTake k).isSome)
  match ready.find? (fun k => decide (s.takeTurn ≤ k)) with
  | some k => some k
  | none => ready.head?

/-- Step LAUNCH_TAKE (R333). -/
def execLaunchTake (q : Nat) (s : State) : Host.Outcome State Fault Refusal :=
  event (if s.nextQueue = some q then
      match s.canTake q with
      | some l => s.takeAt q l
      | none => s
    else s)

/-! Materialisation. -/

/-- R37: the core of thread i of a launch. -/
def Launch.coreOf (l : Launch) (i : Nat) : Nat :=
  let c := l.cores.length
  let j := i / l.unit
  match l.gshape with
  | 0 => l.cores.getD ((if l.pack then i / 512 else i) % c) 0
  | 1 => l.cores.getD ((if l.pack then j / (512 / l.gm) else j) % c) 0
  | _ =>
    let b := quadBase (l.cores.getD ((if l.pack then j / (2048 / l.gm) else j) % c) 0)
    b + [0, 1, 16, 17].getD (i % l.gm % 4) 0

/-- READY threads of a core (R38). -/
def State.readyCount (s : State) (core : Nat) : Nat := (s.threads.filter (fun t => t.core == core && t.st == .ready)).length

/-- The name of thread i of a launch (R36). -/
def Launch.tid (l : Launch) (sdom i : Nat) : Tid := { sdom := sdom, handle := handleOf l.frames + i }

/-- Where the k-th member of the next group stands now: the core its launch assigned, or its refuge when that core was retired (19
R433); a gang moves whole. The refuge of an UNBORN thread is chosen when it materialises (log 112). -/
def State.memberCore (s : State) (l : Launch) (i : Nat) : Nat :=
  let c := l.coreOf i
  if l.gshape = 2 then
    let q := quadOf c
    let r := if [0, 1, 16, 17].all (fun k => s.coreOn (quadBase q + k)) then q else s.quadRefuge q
    quadBase r + (c - quadBase q)
  else s.refuge (l.coreOf (i / l.unit * l.unit))

/-- Whether the creation of a launch's next thread finds its domain, or that of its tree, with V = 0 (20 R460). -/
def State.domainGone (s : State) (l : Launch) : Bool :=
  !(s.domain l.home).v || (match s.chain 0 l.home l.region with | .ok p => !(s.domain (effSdom p)).v | .error _ => false)

/-- R38: whether the next group of a launch may materialise: not suspended, admitted, room on its cores, no live thread of its
names, and nothing it writes waits (13 R303, 10 R233). -/
def State.mayMaterialise (s : State) (l : Launch) : Bool :=
  let m := l.unit
  let cs := (upto l.next m).map (s.memberCore l)
  let die := dieOf (s.memberCore l l.next)
  !l.cancelled && decide (l.next < l.count) && !s.domainGone l &&
  (match s.regionView 0 l.home l.region with
   | .ok path => admits .ctx m path && cs.all (fun c => decide (s.readyCount c + (cs.filter (· == c)).length ≤ 1024)) &&
       (upto l.next m).all (fun i => (s.find (l.tid (effSdom path) i)).isNone && !s.frameWaits die (l.tid (effSdom path) i)) &&
       (l.gshape == 0 || !s.devWaits die (effSdom path) (l.grecb + 2048 * (l.next / m)) true)
   | _ => false)

/-- The effective priority of a launch's region. -/
def State.launchPrio (s : State) (l : Launch) : Nat := match s.chain 0 l.home l.region with | .ok p => effPrio p | .error _ => 0

/-- R334: the launch a die serves next, among those whose next thread it may materialise. -/
def State.nextLaunchOn (s : State) (die : Nat) : Option Launch :=
  let cand := s.launches.filter (fun l => dieOf (s.memberCore l l.next) == die && s.mayMaterialise l)
  let best := cand.filter (fun l => cand.all (fun x => decide (s.launchPrio x ≤ s.launchPrio l)))
  leastBy2 (fun l => l.taken) (fun l => l.queue) best

/-- A thread as it starts (R39, 05 R113). -/
def State.freshThread (s : State) (i : Tid) (home core lines region : Nat) (pc : Word) (regs : List (Nat × Word)) (prio : Nat) : Thread :=
  { id := i, home := home, core := core, st := .ready, slot := none, pc := pc, pred := 1, lines := lines
    g := Vector.ofFn (fun n : Fin 64 => if 1 ≤ n.val ∧ n.val < 16 * lines then Sparse.get 0 regs n.val else 0)
    fe := w64 (2 ^ (16 * lines) - 1), emt := 0, fpf := 0, rnd := 1, stkp := 0, prio := prio, priol := false, hnd := false, upv := 0
    fcause := 0, region := region, waitarg := 0, deadline := w64 (2 ^ 64 - 1), incnt := 0, inhead := 0
    msgs := Vector.replicate 4 { payload := 0, src := 0, tag := 0 }, age := 0, aged := 0, readySince := s.tick
    slotSince := 0, waitSince := 0, ctl := false, linesIn := [], placed := none, snap := [], stores := [], fills := []
    walk := none, retryAt := 0, killed := false, asyncs := [], stepped := false, preempt := false, launch := none
    gang := none, pend := none, iword := 0, cond := none, pool := none, served := none }

/-- Enter a new thread with its frame's placement; a frame page that is not present or not of class CTX makes it FAULTED
(R335, R355). -/
def State.birth (s : State) (t : Thread) : State :=
  let s0 := s.settleHeld t.id
  let s1 : State := { s0 with threads := s0.threads ++ [t] }
  let s2 := s1.charge (dieOf t.core) t.home .ctx 1 (s1.path (dieOf t.core) t.home t.region)
  match s2.framePlaces (dieOf t.core) t.id t.lineList with
  | .ok l => ((s2.freshFrame t.lineList l).touch (dieOf t.core) t.id.sdom (frameAddr t.id.handle) true).put { t with placed := some l }
  | .error f => s2.park t f false true 0

/-- Thread i of a launch (R39). -/
def State.launchThread (s : State) (l : Launch) (sdom prio i : Nat) : Thread :=
  { s.freshThread (l.tid sdom i) l.home (s.memberCore l i) l.lines l.region l.pc
      [(1, w64 i), (2, l.args), (3, w64 l.count), (4, w64 (if l.gshape = 0 then 0 else i % l.gm))] prio with launch := some (l.id, i) }

/-- The gang of a launch's group (R39, R334): its record and frame, convened. -/
def State.launchGang (s : State) (l : Launch) (sdom first : Nat) : State :=
  let j := first / l.gm
  let core := s.memberCore l first
  let rec' := l.grecb + 2048 * j
  let loc := s.devLoc (dieOf core) sdom rec' true
  let g : Gang :=
    { id := { sdom := sdom, record := rec' }, quad := l.gshape == 2, m := l.gm
      members := (upto 0 l.gm).map (fun k => (k, l.tid sdom (first + k))), gstate := 1
      home := if l.gshape = 2 then quadOf core else core
      frameb := l.gframeb + j * (if l.gshape = 2 then 0x40000 else 0x10000), ops := 0, arrived := []
      shadow := resetShadow (l.gshape == 2), active := resetShadow (l.gshape == 2), op := none, resident := false, first := true
      marked := false, places := [match loc with | .ok x => some x.leaf | .error _ => none], pad := none, saving := false
      breaking := false, since := s.tick }
  let s1 := (State.recPut { s with gangs := s.gangs ++ [g] } g ([0, 1, 2] ++ upto 128 l.gm)).convene g
  match loc with
  | .ok _ => s1
  | .error f => match s1.find (l.tid sdom first) with
    | some t => if t.st = .faulted then s1 else s1.park t f false true 0
    | none => s1

/-- Materialise the next group of a launch (R38, R39). -/
def State.materialise (s : State) (l : Launch) : State :=
  match s.chain 0 l.home l.region with
  | .error _ => s
  | .ok path =>
    let sdom := effSdom path
    let s1 := (upto l.next l.unit).foldl (fun s i => s.birth (s.launchThread l sdom (effPrio path) i)) s
    let s2 : State := { s1 with launches := s1.launches.map (fun (x : Launch) =>
      if x.id = l.id then { x with next := x.next + l.unit, live := x.live + l.unit } else x) }
    if l.gshape = 0 then s2 else s2.launchGang l sdom l.next

/-- A launch none of whose threads is live is rejected with status 16 as its creation finds V = 0 (20 R460). -/
def State.rejectLaunch (s : State) (l : Launch) : State :=
  let s1 := { s with launches := s.launches.filter (fun x : Launch => x.id ≠ l.id) }
  let q := { QueueEnt.init with lqd := l.lqd, sdom := l.home }
  ((s1.storeStatus 0 l.home l.doneaddr l.index 16).lqdAdd q 0x28 1 (-1)).lqdAdd q 0x30 8 1

/-- Step MATERIALISATION (R38, R334). -/
def execMaterialisation (l : Nat) (s : State) : Host.Outcome State Fault Refusal :=
  event (match s.launches.find? (fun x => x.id == l) with
    | none => s
    | some x =>
      if !x.cancelled && decide (x.next < x.count) && s.domainGone x then (if x.live = 0 then s.rejectLaunch x else s)
      else match s.nextLaunchOn (dieOf (s.memberCore x x.next)) with
      | some y => if y.id = l then s.materialise x else s
      | none => match s.regionView 0 x.home x.region with
        | .invalid b => s.regionFault (s.memberCore x x.next) x.home b
        | _ => s)

/-! Task queues. -/

/-- R338: the oldest entry of a core that may become a thread: no older entry of its region remains. -/
def State.taskFrom (s : State) (core : Nat) : List TaskEnt → List (Nat × Nat) → Nat → Option (Nat × TaskEnt)
  | [], _, _ => none
  | e :: l, seen, k =>
    let key := (e.home, e.region)
    let ok := !e.parked && !seen.contains key &&
      (match s.regionView (dieOf core) e.home e.region with | .ok path => admits .ctx 1 path | _ => false)
    if ok then some (k, e) else s.taskFrom core l (key :: seen) (k + 1)

/-- The state of the frame a task names (R355): the STATE of its control line, a live thread's by whatever name, or its fault. -/
def State.frameState (s : State) (core : Nat) (i : Tid) : Except Flt Nat :=
  match s.framePlaces (dieOf core) i [0] with
  | .error f => .error f
  | .ok l => .ok (bits (s.numAt i.sdom (l.getD 0 0 + 8) 8) 18 16)

/-- The thread of a task-queue entry (R354). -/
def State.taskThread (s : State) (core : Nat) (e : TaskEnt) : Thread :=
  let prio := match s.chain (dieOf core) e.home e.region with | .ok p => effPrio p | .error _ => 0
  s.freshThread { sdom := e.sdom, handle := e.handle } e.home core e.lines e.region e.pc
    ([(1, e.caller)] ++ (upto 0 4).map (fun k => (8 + k, e.args.getD k 0))) prio

/-- An entry leaves a core's task queue (R338, R339). -/
def State.dropTask (s : State) (core k : Nat) : State :=
  let c := s.core core
  s.setCore core { c with taskq := removeNth k c.taskq, taskRes := c.taskRes.freed s.tick, lastTask := some c.cycle }

/-- The entry with its thread's domain: its region's effective SDOM at the creation (02 R46). -/
def State.taskDom (s : State) (core : Nat) (e : TaskEnt) : TaskEnt :=
  match s.chain (dieOf core) e.home e.region with
  | .ok p => { e with sdom := effSdom p }
  | .error _ => e

/-- R355: create the thread of entry k; it waits while its frame's place does. An entry whose creation finds its domain, or its tree's,
with V = 0 is discarded and counted (20 R460; log 113). -/
def State.createTask (s : State) (core k : Nat) (e0 : TaskEnt) : State :=
  let e := s.taskDom core e0
  let i : Tid := { sdom := e.sdom, handle := e.handle }
  let s0 := s.settleHeld i
  if s0.frameWaits (dieOf core) i then s0
  else if (s0.find i).isSome || !(s0.domain e.sdom).v || !(s0.domain e.home).v then (s0.dropTask core k).countErr (dieOf core) 8
  else match s0.frameState core i with
    | .ok 0 => (s0.dropTask core k).birth (s0.taskThread core e)
    | .ok _ => (s0.dropTask core k).countErr (dieOf core) 8
    | .error _ =>
      let c := s0.core core
      (s0.setCore core { c with taskq := modifyNth (fun _ => { e with parked := true }) k c.taskq, lastTask := some c.cycle }).birth
        (s0.taskThread core e)

/-- The first region of a core's entries whose chain is invalid (R42). -/
def State.taskInvalid (s : State) (core : Nat) : Option (Nat × Nat) :=
  (s.core core).taskq.findSome? (fun e => match s.regionView (dieOf core) e.home e.region with
    | .invalid b => some (e.home, b)
    | _ => none)

/-- Step TASK_CREATION (R355, R338). -/
def execTaskCreation (core : Nat) (s : State) : Host.Outcome State Fault Refusal :=
  event (
    let c := s.core core
    if s.coreOn core = true ∧ s.readyCount core < 1024 ∧ (match c.lastTask with | none => true | some n => decide (n + 4 ≤ c.cycle)) = true then
      match s.taskFrom core c.taskq [] 0 with
      | some (k, e) => s.createTask core k e
      | none => match s.taskInvalid core with
        | some (home, b) => s.regionFault core home b
        | none => s
    else s)

end Sys2Proof.Machine
end

