-- ==== Sys2Proof/Machine/Sys.lean ====
section
/-! DEFINITION. Major 0x34 (18 R409, R414 to R416; 20 R452 to R455): UPRET, ERET, HALT, FEAT, ATTEST, DBG.RD, DBG.WR, DBG.STEP. -/
namespace Sys2Proof.Machine

/-- The FDT entry of a region's fault domain (R408). -/
def State.fdtFor (s : State) (die home region : Nat) : Option Fdt :=
  match s.chain die home region with
  | .ok l => s.fdtOf (effFdom l)
  | .error _ => none

/-- DBGEN of a thread's fault domain (R414). -/
def State.dbgen (s : State) (t : Thread) : Bool :=
  match s.fdtFor (dieOf t.core) t.home t.region with | some f => f.dbgen | none => false

/-- UPRET (R409): RESUME of the thread it serves, when asked, then the end of the handler. -/
def execUpret (a : Reg) (s : State) : Host.Outcome State Fault Refusal :=
  word (.upret a) s (fun s t =>
    let g := t.rd a.toNat
    if !t.hnd then failWith .privilege 0
    else if wbits g 63 1 ≠ 0 then failWith .debugOperand g
    else
      let s1 := if bit g.toNat 0 ∧ t.upv ≠ 0 then
          match s.named { sdom := t.id.sdom, handle := t.upv } with
          | some u => if u.st = .faulted ∧ s.entitled t u = true then
              match s.ensureFrame u with
              | .ok s' => s'.resumeThread (s'.again u)
              | .error _ => s.resumeThread u
            else s
          | none => s
        else s
      .ok (s1.makeDone { s1.again t with pc := t.pc + 4 }))

/-- The record an ERET passes on (R409): ESC set, routed by the pool that served the handler (R405). -/
def passOn (t : Thread) (r : Rec) : Rec := { r with esc := true, pool := t.pool.map (fun p => (p.1, p.2.1)), mcDom := none }

/-- ERET (R409). -/
def execEret (s : State) : Host.Outcome State Fault Refusal :=
  word .eret s (fun s t =>
    if !t.hnd then failWith .privilege 0
    else
      let s1 := match t.served with
        | some r => s.pushRec (dieOf r.core) (passOn t r)
        | none => s
      .ok (s1.makeDone { s1.again t with pc := t.pc + 4 }))

/-- HALT (R416): it completes, and debug halt begins once the issue group has executed. -/
def execHalt (s : State) : Host.Outcome State Fault Refusal :=
  word .halt s (fun s t =>
    if t.id.sdom ≠ 0 ∨ s.dbgen t = false then failWith .privilege 0
    else .ok { s.retire t with halted := true })

/-- FEAT (20 R453). -/
def execFeat (d a : Reg) (s : State) : Host.Outcome State Fault Refusal :=
  word (.feat d a) s (fun s t =>
    .ok (s.retireReg t d.toNat (match (t.rd a.toNat).toNat with
      | 0 => w64 s.version
      | 1 => s.featen
      | 2 => Config.featAvail
      | _ => 0)))

/-! ATTEST. -/

/-- R455: CFGMEAS of a domain. -/
def State.cfgmeas (s : State) (n : Nat) : BitVec 256 :=
  sm3 (wordBytes s.featen ++ bytesOf ((s.domain n).words 0) ++
    ((upto 0 64).filter (fun k => s.aperV k && s.aperDom k == n)).flatMap (fun k => bytesOf ((upto 0 4).map (s.aper k))) ++
    ((s.edt.filter (fun x => x.2.v && x.2.sdom == n)).flatMap (fun x => bytesOf x.2.words)) ++
    ((s.fdt.filter (fun x => x.2.v && x.2.sdom == n)).flatMap (fun x => bytesOf x.2.words)))

/-- Package block 0x300 to 0x317 (19 R436). -/
def State.enWords (s : State) : List Word :=
  [w64 (s.endies + s.engdies * 2 ^ 8), w64 s.enstacks, w64 s.ncores]

/-- R455: ENMEAS. -/
def State.enmeas (s : State) : BitVec 256 :=
  sm3 (bytesOf s.enWords ++ (upto 0 8).flatMap (fun d => (upto 0 4).flatMap (fun w => wordBytes (s.encoresWord d w))))

/-- An RCB's bytes with its counts as 0 (R455). -/
def rcbPlain (n : Nat) : List Byte :=
  toBytes 128 (setBits (setBits (setBits (setBits n (64 * 2 + 32) 32 0) (64 * 4) 64 0) (64 * 7 + 16) 16 0) (64 * 11) 64 0)

/-- R455: RMEAS of a region. -/
def State.rmeas (s : State) (die home region : Nat) : BitVec 256 :=
  sm3 ((s.path die home region).reverse.flatMap (fun a => match s.devRead die home a 128 with
    | .ok n => rcbPlain n
    | .error _ => []))

/-- R455: the 448 bytes a report's signature covers. -/
def State.reportBody (s : State) (t : Thread) (nonce : List Byte) : List Byte :=
  let fdom := match s.chain (dieOf t.core) t.home t.region with | .ok l => effFdom l | .error _ => 0xFFFF
  toBytes 8 (1 + s.version * 2 ^ 16) ++ toBytes 8 (s.tick % 2 ^ 64) ++ toBytes 8 (t.id.sdom + fdom * 2 ^ 16) ++
  toBytes 8 (t.id.handle % 2 ^ 47) ++ nonce ++ toBytes 64 Config.deviceKey.toNat ++ digestBytes s.silicon.meas ++
  digestBytes (s.cfgmeas t.id.sdom) ++ digestBytes s.enmeas ++
  toBytes 8 (s.endies + s.engdies * 2 ^ 8 + s.enstacks * 2 ^ 16 + s.ncores * 2 ^ 32) ++ wordBytes s.featen ++
  digestBytes (s.domain t.id.sdom).dmeas ++ digestBytes (s.rmeas (dieOf t.core) t.home t.region) ++ List.replicate 144 0

/-- R455: a report. -/
def State.report (s : State) (t : Thread) (nonce : List Byte) : List Byte :=
  let b := s.reportBody t nonce
  b ++ toBytes 64 (Config.sm2Sign b).toNat

/-- The places of a range by 128-byte lines, with the faults of ST.D (R454): R and, for a report, W. -/
def State.attestLines (s : State) (t : Thread) (write : Bool) (n : Nat) : List Nat → Except Stop (List Target)
  | [] => .ok []
  | va :: l =>
    match s.access t.core t.id.sdom 1 { ea := va, n := n, kind := if write then .atomic else .load, write := write } with
    | .error (.fault f) => .error (.fault { f with kind := .store })
    | .error (.walk w) => .error (.walk { w with kind := .store })
    | .error e => .error e
    | .ok g => match s.attestLines t write n l with
      | .error e => .error e
      | .ok r => .ok (g :: r)

/-- ATTEST after its checks, an acquiring access (R454): `places` are the range's lines. -/
def State.attest (s0 : State) (t : Thread) (d : Reg) (va : Nat) (extend : Bool) (places : List Target) : Except Stop State :=
  let dom := t.id.sdom
  let first := (places.head?.map Target.pa).getD 0
  let s := places.foldl (fun s g => (s.landOwn t.id g.pa 128).landWords (dieOf t.core) g.pa 128) s0
  let fill := { regFill d.toNat 0 with mem := true, acq := true }
  let readPa := if extend then first else first + 0x20
  let readVa := if extend then va else va + 0x20
  match s.poisonedIn readPa 32 with
  | some w => .ok (s.retire ((s.again t).produce { fill with bad := some (.poisonedData, .load, w64 (vaOfWord readVa readPa w)) }))
  | none =>
    let bs := s.bytesAt dom readPa 32
    if extend then
      let x := s.domain dom
      let s1 := s.setDomain dom { x with dmeas := sm3 (digestBytes x.dmeas ++ bs) }
      .ok (s1.retire ((s1.again t).produce fill))
    else if places.any (fun g => match s.lineAt g.pa with | some (_, i) => decide (i = 0 ∨ i = 5) | none => false) then
      failAcc .controlLineWrite va .store 0
    else
      let r := s.report t bs
      let s1 := ((upto 0 4).zip places).foldl (fun s x => s.performAt dom x.2 ((r.drop (128 * x.1)).take 128)) s
      .ok (s1.retire ((s1.again t).produce fill))

/-- ATTEST (20 R454, R455). -/
def execAttest (d a b : Reg) (s : State) : Host.Outcome State Fault Refusal :=
  word (.attest d a b) s (fun s t =>
    let c := t.rd b.toNat
    let va := (t.rd a.toNat).toNat
    let extend := wbits c 1 0 == 1
    let n := if extend then 32 else 512
    let acc : Access := { ea := va, n := n, kind := .store, write := true }
    if wbits c 63 2 ≠ 0 ∨ 1 < wbits c 1 0 then .ok (s.retire (t.produce (regFill d.toNat 1)))
    else if !check1 acc then failAcc .nonCanonical va .store 0
    else if !check2 s t.core acc then failAcc .windowAccess va .store 0
    else if va % (if extend then 32 else 128) ≠ 0 then failAcc .misaligned va .store 0
    else match s.attestLines t (!extend) (if extend then 32 else 128)
        (if extend then [va] else (upto 0 4).map (fun k => va + 128 * k)) with
      | .error e => .error e
      | .ok l => s.attest t d va extend l)

/-! Debug addresses (R414). -/

/-- A debug address within its limits: core, space, offset. -/
def dbgAddr (a : Word) : Option (Nat × Nat × Nat) :=
  let space := wbits a 14 12
  let off := wbits a 35 16
  let ok := !bit a.toNat 11 && !bit a.toNat 15 && wbits a 63 36 == 0 && off % 8 == 0 &&
    (match space with
     | 0 => decide (off ≤ 0xFFF8) | 1 => decide (off ≤ 0x3FFF8) | 2 => decide (off ≤ 0x78) | 3 => decide (off ≤ 0xF8)
     | _ => false)
  if ok then some (wbits a 10 0, space, off) else none

/-- The control word of a counter (17 R393). -/
def Perf.control (p : Perf) : Word := w64 (p.owner + p.event * 2 ^ 16 + b2n p.en * 2 ^ 24)

/-- The tile word of an accumulator offset (08 R175, 10 R222). -/
def Core.tileWord (c : Core) (off : Nat) : Word :=
  w64 (Sparse.get 0 c.unit.tiles (off / 4) + Sparse.get 0 c.unit.tiles (off / 4 + 1) * 2 ^ 32)

/-- R414, space 0: the unit is held by a resident gang of the domain, and the tile is not locked. -/
def State.dbgTile (s : State) (t : Thread) (core off : Nat) : Except Stop Unit :=
  let u := (s.core core).unit
  match u.gang.bind s.gang with
  | some g => if g.resident && g.id.sdom == t.id.sdom then
      (if bit u.lock (off / 4096) then .error .block else .ok ()) else failWith .privilege 0
  | none => failWith .privilege 0

/-- R414, space 1: the segment is owned by the issuer's domain; a segment being zeroed waits (10 R234). -/
def State.dbgPad (s : State) (t : Thread) (core off : Nat) : Except Stop Unit :=
  if (s.core core).zeroing.contains (off / 8192) then .error .block
  else if s.spdom core (off / 8192) = t.id.sdom then .ok () else failWith .privilege 0

/-- OWNER of a debug slot (R412). -/
def State.dbgOwner (s : State) (core n : Nat) : Nat := bits (s.dbgWord core n 1) 15 0
/-- EN of a debug slot. -/
def State.dbgEn (s : State) (core n : Nat) : Bool := bit (s.dbgWord core n 1) 16

/-- DBG.RD of an allowed word (R414). -/
def State.dbgRead (s : State) (t : Thread) (core space off : Nat) : Except Stop Word :=
  match space with
  | 0 => match s.dbgTile t core off with
    | .error e => .error e
    | .ok _ => .ok ((s.core core).tileWord off)
  | 1 => match s.dbgPad t core off with
    | .error e => .error e
    | .ok _ => .ok (w64 (s.numAs t.id.sdom (physAddr (padUnit core) off) 8))
  | 2 =>
    let p := (s.core core).counter (off / 16)
    if p.owner = t.id.sdom then .ok (if off % 16 = 0 then p.control else p.val)
    else if p.owner = 0xFFFF then .ok 0
    else failWith .privilege 0
  | _ => .ok (if s.dbgOwner core (off / 32) = t.id.sdom then Sparse.get 0 (s.core core).dbg off else 0)

/-- DBG.RD (R414). -/
def execDbgRd (d a : Reg) (s : State) : Host.Outcome State Fault Refusal :=
  word (.dbgRd d a) s (fun s t =>
    let x := t.rd a.toNat
    if !s.dbgen t then failWith .privilege 0
    else match dbgAddr x with
      | none => failWith .debugOperand x
      | some (core, space, off) => match s.dbgRead t core space off with
        | .error e => .error e
        | .ok v =>
          if space = 1 ∧ (s.poisonedIn (physAddr (padUnit core) off) 8).isSome then
            .ok (s.retire (t.produce { regFill d.toNat 0 with bad := some (.poisonedData, .load, x) }))
          else .ok (s.retire (t.produce (regFill d.toNat v))))

/-- The word a write leaves in a debug slot (R412, R414): reserved bits 0, OWNER the issuer's domain. -/
def slotWord (off : Nat) (v : Word) (owner : Nat) : Word :=
  match off % 32 with
  | 0 => v
  | 8 => w64 (bits v.toNat 21 16 * 2 ^ 16 + owner)
  | 16 => w64 (bits v.toNat 46 0)
  | _ => 0

/-- Every write of a slot sets its OWNER (R414). -/
def State.writeSlot (s : State) (core off owner : Nat) (v : Word) : State :=
  let c := s.core core
  let w1 := off / 32 * 32 + 8
  let d1 := Sparse.set 0 c.dbg off (slotWord off v owner)
  let old := (Sparse.get 0 d1 w1).toNat
  s.setCore core { c with dbg := Sparse.set 0 d1 w1 (w64 (setBits old 0 16 owner)) }

/-- DBG.WR of an allowed word (R414). It writes tile words, as space 0 gives, though 08 R193 lists no debug instruction among the agents
that change a tile (log 109: DESIGN CHOICE). -/
def State.dbgWrite (s : State) (t : Thread) (core space off : Nat) (v : Word) : Except Stop State :=
  match space with
  | 0 => match s.dbgTile t core off with
    | .error e => .error e
    | .ok _ => .ok (s.modUnit core (fun u => { u with
        tiles := Sparse.set 0 (Sparse.set 0 u.tiles (off / 4) (wbits v 31 0)) (off / 4 + 1) (wbits v 63 32) }))
  | 1 => match s.dbgPad t core off with
    | .error e => .error e
    | .ok _ => .ok (s.perform t.id.sdom (physAddr (padUnit core) off) none (wordBytes v))
  | 2 =>
    let p := (s.core core).counter (off / 16)
    if p.owner = t.id.sdom then
      .ok (s.setCounter core (off / 16) (if off % 16 = 0 then { p with event := wbits v 23 16, en := bit v.toNat 24 } else { p with val := v }))
    else failWith .privilege 0
  | _ =>
    if s.dbgEn core (off / 32) = false ∨ s.dbgOwner core (off / 32) = t.id.sdom then .ok (s.writeSlot core off t.id.sdom v)
    else failWith .privilege 0

/-- DBG.WR (R414). -/
def execDbgWr (a b : Reg) (s : State) : Host.Outcome State Fault Refusal :=
  word (.dbgWr a b) s (fun s t =>
    let x := t.rd a.toNat
    if !s.dbgen t then failWith .privilege 0
    else match dbgAddr x with
      | none => failWith .debugOperand x
      | some (core, space, off) => match s.dbgWrite t core space off (t.rd b.toNat) with
        | .error e => .error e
        | .ok s1 => .ok (s1.retire (s1.again t)))

/-- DBG.STEP (R415). -/
def execDbgStep (d a : Reg) (s : State) : Host.Outcome State Fault Refusal :=
  word (.dbgStep d a) s (fun s t =>
    if !s.dbgen t then failWith .privilege 0
    else match s.handleArg t a true with
      | .error e => .error e
      | .ok (s, h) => match s.find h with
        | none => .ok (s.retireReg (s.again t) d.toNat 1)
        | some u =>
          if !s.entitled t u then failWith .privilege 0
          else if u.st ≠ .faulted then .ok (s.retireReg (s.again t) d.toNat 1)
          else
            let c := s.core u.core
            if 8 ≤ c.steps.length then .ok (s.retireReg (s.again t) d.toNat 2)
            else
              let s1 := (s.resumeThread u).setCore u.core { (s.resumeThread u).core u.core with steps := c.steps ++ [u.id] }
              let s2 := s1.put { (s1.again u) with stepped := true }
              .ok (s2.retireReg (s2.again t) d.toNat 0))

end Sys2Proof.Machine
end

