-- ==== Sys2Proof/Machine/Window.lean ====
section
/-! DEFINITION. The management window (19 R435, R436): its registers as read, the writes firmware makes, and the changes of ownership
and of the carve they begin (10 R232 to R235; 17 R386, R396; 18 R408, R416; 19 R433). -/
namespace Sys2Proof.Machine

/-! Table entries from words. -/

/-- A security domain (20 R444). -/
def domOk (n : Nat) : Bool := decide (n < 1024)
/-- An owner: a domain or none (20 R450). -/
def ownerOk (n : Nat) : Bool := domOk n || n == 0xFFFF

/-- Word k of an entry, as a number. -/
def entWd (ws : List Word) (k : Nat) : Nat := (ws.getD k 0).toNat

/-- A Queue Table entry from its words (15 R330), and its limits. -/
def QueueEnt.ofWords (ws : List Word) : QueueEnt :=
  { lqd := entWd ws 0, root := entWd ws 1, v := bit (entWd ws 2) 0, device := bit (entWd ws 2) 1
    sdom := bits (entWd ws 3) 15 0, noticed := 0, cancels := [] }
def queueOk (ws : List Word) : Bool :=
  entWd ws 0 % 64 == 0 && canonical (entWd ws 0) && bits (entWd ws 2) 63 2 == 0 && domOk (entWd ws 3)
/-- The words of a Queue Table entry. -/
def QueueEnt.words (q : QueueEnt) : List Word :=
  [w64 q.lqd, w64 q.root, w64 (b2n q.v + 2 * b2n q.device), w64 q.sdom]

/-- An EDT entry from its words (14 R308), and its limits. -/
def Edt.ofWords (ws : List Word) : Edt :=
  { dva := ws.getD 0 0, sdom := bits (entWd ws 1) 15 0, owner := bits (entWd ws 1) 18 16, v := bit (entWd ws 1) 19
    due := 0, late := false, stalls := 0 }
def edtOk (ws : List Word) : Bool :=
  entWd ws 0 % 2 ^ 20 == 0 && canonical (entWd ws 0) && domOk (bits (entWd ws 1) 15 0) && bits (entWd ws 1) 63 20 == 0

/-- An FDT entry from its words (18 R408), and its limits. -/
def Fdt.ofWords (ws : List Word) : Fdt :=
  { fdom := bits (entWd ws 0) 15 0, sdom := bits (entWd ws 0) 31 16, v := bit (entWd ws 0) 32, brkdbg := bit (entWd ws 0) 33
    dbgen := bit (entWd ws 0) 34, mcregion := entWd ws 1, dbgregion := entWd ws 2 }
def fdtOk (ws : List Word) : Bool :=
  domOk (bits (entWd ws 0) 31 16) && bits (entWd ws 0) 63 35 == 0 && entWd ws 3 == 0

/-- An aperture's words with the bits R438 gives it, and its limits. -/
def aperWords (ws : List Word) : List Word := [ws.getD 0 0, ws.getD 1 0, w64 (bits (entWd ws 2) 17 0)]
def aperOk (ws : List Word) : Bool :=
  entWd ws 0 % 16384 == 0 && entWd ws 1 % 16384 == 0 && decide (entWd ws 1 ≤ 2 ^ 36) && domOk (bits (entWd ws 2) 15 0)

/-! Writes. Each answers the state after it, or none where the register's rule refuses it. -/

/-- A Queue Table entry (15 R330): at most 64 enabled queues of one kind for a root. -/
def State.writeQueue (s : State) (k : Nat) (q : QueueEnt) : Option State :=
  let others := s.queues.filter (fun x =>
    x.1 != k && x.2.v && x.2.root == q.root && x.2.sdom == q.sdom && x.2.device == q.device)
  if q.v && decide (64 ≤ others.length) then none else some (s.setQueue k q)

/-- An EDT entry takes a value (14 R308): the first evaluation is due one INTERVAL after the creation (R319). -/
def State.putEdt (s : State) (k : Nat) (x : Edt) : State :=
  let old := s.edtEnt k
  if !x.v then s.setEdt k x
  else if old.v then s.setEdt k { x with due := old.due, late := old.late, stalls := old.stalls }
  else match s.readInterval x with
    | some n => s.setEdt k { x with due := s.tick + n }
    | none => s.setEdt k { x with due := s.tick, late := true }

/-- A write of an EDT entry whose OWNER names a die that is not enabled is refused (14 R308). -/
def State.writeEdt (s : State) (k : Nat) (x : Edt) : Option State :=
  if !s.dieOn x.owner then none else some (s.putEdt k x)

/-- An FDT entry (18 R408). -/
def State.writeFdt (s : State) (k : Nat) (f : Fdt) : State := { s with fdt := Sparse.set Fdt.init s.fdt k f }

/-- An aperture (19 R438): one is bound only to a domain with HOSTAP (20 R444). -/
def State.writeAper (s : State) (k : Nat) (ws : List Word) : Option State :=
  let l := aperWords ws
  if bit (entWd l 2) 16 && !(s.domain (bits (entWd l 2) 15 0)).hostap then none
  else some { s with apertures := Sparse.set [] s.apertures k (if l.all (· == 0) then [] else l) }

/-- The owner of a scratchpad segment (10 R234): a change takes effect with the zeroing that follows. -/
def State.writeSpdom (s : State) (core seg owner : Nat) : State :=
  if s.spdom core seg = owner then s
  else
    let c := s.core core
    s.setCore core { c with spdom := Sparse.set 0xFFFF c.spdom seg owner, zeroing := SSet.add c.zeroing seg }

/-- The owner of a carve unit (10 R233). -/
def State.writeCarvedom (s : State) (d u owner : Nat) : State :=
  if s.carvedom d u = owner then s
  else
    let x := s.die d
    s.setDie d { x with carvedom := Sparse.set 0xFFFF x.carvedom u owner, unitZeroing := SSet.add x.unitZeroing u }

/-- TARGET (10 R235): refused above 128 or while a change runs. -/
def State.writeTarget (s : State) (d v : Nat) : State × Bool :=
  let x := s.die d
  if 128 < v ∨ x.busy = true then (s.setDie d { x with refused := true }, false)
  else (s.setDie d { x with target := v, refused := false, busy := x.count != v }, true)

/-- The word at 0x008 of an S-die block (10 R234). -/
def State.carveWord (s : State) (d : Nat) : Word :=
  let x := s.die d
  w64 (x.count + b2n x.busy * 2 ^ 8 + b2n x.refused * 2 ^ 9)

/-- COREOFF (19 R433): the enabled cores named leave the enabled set at once; their retirement is a step of its own. -/
def State.turnOff (s : State) (l : List Nat) : State :=
  l.foldl (fun s c => if s.coreOn c then { s with encores := s.encores - 2 ^ c, retiring := SSet.add s.retiring c } else s) s

/-- The cores a COREOFF word names (19 R436). -/
def offCores (d w : Nat) (v : Word) : List Nat := (setBitsOf v.toNat 64).map (fun k => 256 * d + 64 * w + k)

/-- Clear an error counter (17 R396). -/
def State.clearErr (s : State) (d k : Nat) : State :=
  let x := s.die d
  s.setDie d { x with errs := Sparse.set 0 x.errs k 0 }

/-- Clear HOLD of a machine-check record (18 R406). -/
def State.clearHold (s : State) (n : Nat) : State :=
  { s with mclog := s.mclog.map (fun (e : Nat × McRec) => if e.1 = n then (e.1, { e.2 with hold := false }) else e) }

/-- Leave debug halt (18 R416); refused once the package halted for good (19 R434). -/
def State.leaveHalt (s : State) : Option State := if s.fatal then none else some { s with halted := false }

/-! Reading. -/

/-- The status word of 19 R424. -/
def State.status (s : State) : Nat := match s.stage with | .running => 0x01 | .held k => k | _ => 0

/-- Four 16-bit registers in one word. -/
def pack16 (f : Nat → Nat) (k : Nat) : Word :=
  w64 (f (4 * k) + f (4 * k + 1) * 2 ^ 16 + f (4 * k + 2) * 2 ^ 32 + f (4 * k + 3) * 2 ^ 48)

/-- A record of the machine-check log as words (18 R416). -/
def McRec.word (r : McRec) (k : Nat) : Word :=
  if k < 6 then r.words.getD k 0 else if k = 6 then w64 (r.sdom + r.fdom * 2 ^ 16 + b2n r.hold * 2 ^ 32) else 0

/-- A record of the Restripe Table as words (13 R302). -/
def Restripe.word (r : Restripe) (k : Nat) : Word :=
  match k with
  | 0 => w64 r.vbase
  | 1 => w64 (r.nchunk + r.sdom * 2 ^ 32 + r.st * 2 ^ 48)
  | 2 => w64 r.newgidx
  | 3 => w64 r.newframe
  | 4 => w64 r.prog
  | 5 => w64 r.start
  | _ => 0

/-- A word of the package block (R436). -/
def State.pkgRead (s : State) (o : Nat) : Word :=
  if o = 0x140 then w64 (s.sol (8 * 64 + 32)).dom
  else if o = 0x200 then w64 (b2n s.halted)
  else if o = 0x208 then w64 s.reqto
  else if o = 0x210 then w64 s.hostto
  else if o = 0x218 then w64 s.mclogcnt
  else if o = 0x220 then s.gtbase
  else if o = 0x318 then w64 s.status
  else if o = 0x320 then w64 s.hostErr
  else if o = 0x328 then Config.featAvail
  else if o = 0x330 then s.featen
  else if o = 0x338 then w64 s.version
  else if 0x300 ≤ o ∧ o < 0x318 then s.enWords.getD ((o - 0x300) / 8) 0
  else if 0x1000 ≤ o ∧ o < 0x3000 then
    (Sparse.get Fdt.init s.fdt ((o - 0x1000) / 32)).words.getD (o % 32 / 8) 0
  else if 0x3000 ≤ o ∧ o < 0x3100 then (s.edtEnt ((o - 0x3000) / 16)).words.getD (o % 16 / 8) 0
  else if 0x4000 ≤ o ∧ o < 0x4800 then s.aper ((o - 0x4000) / 32) (o % 32 / 8)
  else if 0x4800 ≤ o ∧ o < 0x4820 then w64 (s.ownkey.toNat / 2 ^ (8 * (o - 0x4800)))
  else if o = 0x4820 then w64 s.ownseq
  else if 0x5000 ≤ o ∧ o < 0x6000 then
    match s.mclog.find? (fun e => e.1 == (o - 0x5000) / 64) with
    | some e => e.2.word (o % 64 / 8)
    | none => 0
  else if 0x8000 ≤ o ∧ o < 0x18000 then
    let d := s.domain ((o - 0x8000) / 64)
    (d.words d.cmdseq).getD (o % 64 / 8) 0
  else if 0x20000 ≤ o ∧ o < 0x40000 then (s.queue ((o - 0x20000) / 32)).words.getD (o % 32 / 8) 0
  else 0

/-- A word of a die block (R436; 17 R386; 18 R408; 13 R302). -/
def State.dieRead (s : State) (d o : Nat) : Word :=
  if 0x100 ≤ o ∧ o < 0x140 then pack16 (fun n => (s.sol (d * 64 + n)).dom) ((o - 0x100) / 8)
  else if o = 0x140 then w64 (s.sol (d * 64 + 32)).dom
  else if o = 0x180 then w64 (s.die d).upq.length
  else if 0x1C0 ≤ o ∧ o < 0x1E0 then s.encoresWord d ((o - 0x1C0) / 8)
  else if 0x1E0 ≤ o ∧ o < 0x200 then ~~~ s.encoresWord d ((o - 0x1E0) / 8)
  else if 0x300 ≤ o ∧ o < 0x358 then Sparse.get 0 (s.die d).errs ((o - 0x300) / 8)
  else if 0x1000 ≤ o ∧ o < 0x2000 then
    match s.restripeAt d ((o - 0x1000) / 64) with
    | some r => r.word (o % 64 / 8)
    | none => 0
  else 0

/-- A word of an S-die block (10 R234). -/
def State.sdieRead (s : State) (d o : Nat) : Word :=
  if o = 0 then w64 (s.die d).target
  else if o = 8 then s.carveWord d
  else if 0x100 ≤ o ∧ o < 0x200 then pack16 (s.carvedom d) ((o - 0x100) / 8)
  else 0

/-- Where an offset of the window lies (R435). -/
inductive Block where
  | pkg (o : Nat) | die (d o : Nat) | sdie (d o : Nat) | core (c o : Nat) | nothing
  deriving DecidableEq, Repr

def blockOf (a : Nat) : Block :=
  if a < 0x40000 then .pkg a
  else if 0x100000 ≤ a ∧ a < 0x180000 then .die ((a - 0x100000) / 0x10000) (a % 0x10000)
  else if 0x200000 ≤ a ∧ a < 0x280000 then .sdie ((a - 0x200000) / 0x10000) (a % 0x10000)
  else if 0x1000000 ≤ a ∧ a < 0x1000000 + 0x1000 * 2048 then .core ((a - 0x1000000) / 0x1000) (a % 0x1000)
  else .nothing

/-- The word at an aligned offset of the window. -/
def State.windowRead (s : State) (a : Nat) : Word :=
  match blockOf (alignDown a 8) with
  | .pkg o => s.pkgRead o
  | .die d o => s.dieRead d o
  | .sdie d o => s.sdieRead d o
  | .core c o => if o < 64 then pack16 (s.spdom c) (o / 8) else 0
  | .nothing => 0

/-! Firmware's writes. -/

/-- Four 16-bit registers written with one word: those whose new value is an owner (another value is not written; log 88: DESIGN CHOICE). -/
def write16 (s : State) (k : Nat) (v : Word) (f : State → Nat → Nat → State) : State :=
  (upto 0 4).foldl (fun s i =>
    let x := wbits v (16 * i + 15) (16 * i)
    if ownerOk x then f s (4 * k + i) x else s) s

/-- The words of an entry with one replaced. -/
def newWords (ws : List Word) (k : Nat) (v : Word) : List Word := ws.set k v

/-- A firmware write to the package block. Fields the device writes, and reserved ones, take nothing; the SDT is written by
mailbox commands alone (20 R444), and REQTO and HOSTTO take their values from SETMGMT alone once the package runs (20 R449). A word
of an entry that breaks its table's limits, a reserved bit that is not 0 among them, a GTBASE that is not 8 KiB aligned, and an owner that
names no domain are not written at all (R7; log 88: DESIGN CHOICE). -/
def State.pkgWrite (s : State) (o : Nat) (v : Word) : State :=
  let n := v.toNat
  if o = 0x140 then if ownerOk (wbits v 15 0) then s.setSoldom (8 * 64 + 32) (wbits v 15 0) else s
  else if o = 0x200 then if bit n 0 then s else s.leaveHalt.getD s
  else if o = 0x220 then if n % 8192 = 0 then { s with gtbase := v } else s
  else if 0x1000 ≤ o ∧ o < 0x3000 then
    let k := (o - 0x1000) / 32
    let ws := newWords (Sparse.get Fdt.init s.fdt k).words (o % 32 / 8) v
    if fdtOk ws then s.writeFdt k (.ofWords ws) else s
  else if 0x3000 ≤ o ∧ o < 0x3100 then
    let k := (o - 0x3000) / 16
    let ws := newWords (s.edtEnt k).words (o % 16 / 8) v
    if !edtOk ws then s
    else if o % 16 = 0 then s.putEdt k (.ofWords ws)
    else (s.writeEdt k (.ofWords ws)).getD s
  else if 0x4000 ≤ o ∧ o < 0x4800 then
    let k := (o - 0x4000) / 32
    let ws := newWords ((upto 0 4).map (s.aper k)) (o % 32 / 8) v
    if aperOk ws then (s.writeAper k ws).getD s else s
  else if 0x5000 ≤ o ∧ o < 0x6000 then
    if o % 64 = 48 ∧ !bit n 32 then s.clearHold ((o - 0x5000) / 64) else s
  else if 0x20000 ≤ o ∧ o < 0x40000 then
    let k := (o - 0x20000) / 32
    let ws := newWords (s.queue k).words (o % 32 / 8) v
    if queueOk ws then (s.writeQueue k (.ofWords ws)).getD s else s
  else s

/-- A firmware write to a die block. -/
def State.dieWrite (s : State) (d o : Nat) (v : Word) : State :=
  if 0x100 ≤ o ∧ o < 0x140 then write16 s ((o - 0x100) / 8) v (fun s n x => s.setSoldom (d * 64 + n) x)
  else if o = 0x140 then if ownerOk (wbits v 15 0) then s.setSoldom (d * 64 + 32) (wbits v 15 0) else s
  else if 0x1E0 ≤ o ∧ o < 0x200 then s.turnOff (offCores d ((o - 0x1E0) / 8) v)
  else if 0x300 ≤ o ∧ o < 0x358 then if v = 0 then s.clearErr d ((o - 0x300) / 8) else s
  else s

/-- A firmware write to an S-die block. -/
def State.sdieWrite (s : State) (d o : Nat) (v : Word) : State :=
  if o = 0 then (s.writeTarget d (wbits v 7 0)).1
  else if 0x100 ≤ o ∧ o < 0x200 then write16 s ((o - 0x100) / 8) v (fun s u x => s.writeCarvedom d u x)
  else s

/-- A firmware write of a word of the window. -/
def State.windowWrite (s : State) (a : Nat) (v : Word) : State :=
  match blockOf (alignDown a 8) with
  | .pkg o => s.pkgWrite o v
  | .die d o => s.dieWrite d o v
  | .sdie d o => s.sdieWrite d o v
  | .core c o => if o < 64 then write16 s (o / 8) v (fun s g x => s.writeSpdom c g x) else s
  | .nothing => s

/-- Step MANAGEMENT_WINDOW_WRITE (R435): the host reaches only the public page, where its writes are discarded (R437). -/
def execManagementWindowWrite (w : MgmtWrite) (s : State) : Host.Outcome State Fault Refusal :=
  event (if s.stage = .running ∧ w.fromHost = false then s.windowWrite w.off w.val else s)

/-! The ends of ownership and carve changes (10 R233 to R235). -/

/-- Every byte of a set of physical addresses is 0, its word full and unpoisoned. -/
def State.zeroWhere (s : State) (p : Nat → Bool) : State :=
  { s with
    mem := s.mem.filter (fun (x : Host.Cell) => !p x.1)
    feEmpty := s.feEmpty.filter (fun a => !p a)
    poison := s.poison.filter (fun a => !p a) }

/-- The bytes of a carve unit. -/
def unitBytes (d u pa : Nat) : Bool := physUnit pa == carveUnit d && physOff pa / 2 ^ 21 == u
/-- The bytes of a scratchpad segment. -/
def segBytes (core seg pa : Nat) : Bool := physUnit pa == padUnit core && physOff pa / 8192 == seg

/-- Where an instruction that waits for a reply will access memory. -/
def State.pendPa (s : State) (t : Thread) : Option Nat :=
  match t.pend with
  | some (.ret x) => some (s.srcPa t x)
  | some (.fe _ _ va leaf _) => match s.locOf (dieOf t.core) t.id.sdom va leaf true with
    | .ok l => some l.spot.pa
    | .error _ => none
  | _ => none

/-- Whether an access of a thread that was accepted and is not yet performed goes to a set of addresses: a buffered store, a load not
bound yet, or an instruction that waits for its reply. -/
def State.threadAimedAt (s : State) (p : Nat → Bool) (t : Thread) : Bool :=
  t.stores.any (fun e => match s.storePlace t.core t.id.sdom e with
    | some (pa, m) => p pa || m.any p
    | none => p e.pa) ||
  t.fills.any (fun f => f.src.any (fun x => p (s.srcPa t x))) || (s.pendPa t).any p

/-- Whether a store before its global point goes to a set of addresses (12 R273). -/
def State.earlyAimedAt (s : State) (p : Nat → Bool) (x : Early) : Bool :=
  match s.storePlace x.core x.tid.sdom x.ent with
  | some (pa, m) => p pa || m.any p
  | none => p x.ent.pa

/-- Whether an access accepted and not yet performed goes to a set of addresses: of a thread, a store before its global point, or an
engine's write that is not visible yet. -/
def State.aimedAt (s : State) (p : Nat → Bool) : Bool :=
  s.threads.any (s.threadAimedAt p) || s.early.any (s.earlyAimedAt p) || s.dies.any (fun d => d.2.landing.any (fun y => p y.pa || y.mirror.any p))

/-- Whether a matrix operation in flight reads the scratchpad of a core (08 R183). -/
def State.opReads (s : State) (core : Nat) : Bool := s.gangs.any (fun g => g.op.isSome && g.cores.contains core)

/-- The words of a set of addresses are zeroed, and the entries deferred on them, full now, performed (11 R252). -/
def State.zeroServe (s : State) (p : Nat → Bool) : State :=
  ((s.deferrals.map (·.pa)).filter p).foldl (fun s pa => s.serveDeferred pa none) (s.zeroWhere p)

/-- The context lines in a set of addresses are dropped, without write-back (10 R233). -/
def State.dropLines (s : State) (p : Nat → Bool) : State :=
  { s with threads := s.threads.map (fun t =>
      if t.placed.any (fun l => t.lineList.any (fun i => p (l.getD i 0))) then
        { t with placed := none, snap := t.frameWords, ctl := false, linesIn := [] } else t) }

/-- Whether an accepted engine command names a byte of a segment (16 R371, R343). -/
def State.cmdAimedAt (s : State) (core seg : Nat) : Bool :=
  s.dies.any (fun d => d.2.engq.any (fun c => c.ranges.any (fun r =>
    inWindow r.1 && (upto 0 (r.2 / 8192 + 2)).any (fun k =>
      match windowFixed c.core (min (r.1 + 8192 * k) (r.1 + r.2 - 1)) with
      | some (x, off) => x == core && off / 8192 == seg
      | none => false))))

/-- Step SEGMENT_ZEROING_END (10 R234). -/
def execSegmentZeroingEnd (core seg : Nat) (s : State) : Host.Outcome State Fault Refusal :=
  let p := segBytes core seg
  event (if (s.core core).zeroing.contains seg = true ∧ s.aimedAt p = false ∧ s.cmdAimedAt core seg = false ∧ s.opReads core = false then
      let c := s.core core
      ((s.zeroWhere p).setCore core { c with zeroing := SSet.del c.zeroing seg }).checkWatches
    else s)

/-- Step CARVE_UNIT_ZEROING_END (10 R233). -/
def execCarveUnitZeroingEnd (die u : Nat) (s : State) : Host.Outcome State Fault Refusal :=
  let p := unitBytes die u
  let s := s.landEarlyWhere (s.earlyAimedAt p)
  event (if (s.die die).unitZeroing.contains u = true ∧ s.aimedAt p = false then
      let x := s.die die
      (((s.dropLines p).zeroServe p).setDie die { x with unitZeroing := SSet.del x.unitZeroing u }).checkWatches
    else s)

/-- Step CARVE_CHANGE_END (10 R235): units gained are zeroed, those given up are lost; COUNT takes TARGET. -/
def execCarveChangeEnd (die : Nat) (s0 : State) : Host.Outcome State Fault Refusal :=
  let x := s0.die die
  let lo := min x.count x.target
  let hi := max x.count x.target
  let p := fun pa => physUnit pa == carveUnit die && decide (lo ≤ physOff pa / 2 ^ 21) && decide (physOff pa / 2 ^ 21 < hi)
  let s := s0.landEarlyWhere (s0.earlyAimedAt p)
  event (if x.busy = true ∧ s.aimedAt p = false then
      ((if x.count < x.target then s.zeroServe p else s.zeroWhere p).setDie die { x with count := x.target, busy := false }).checkWatches
    else s)

end Sys2Proof.Machine
end

