-- ==== Sys2Proof/Machine/Retire.lean ====
section
/-! DEFINITION. Retiring cores while the package runs (19 R433): once nothing is resident on them, their threads, gangs and task requests
move, Solstice episodes are abandoned and their scratchpads zeroed. -/
namespace Sys2Proof.Machine

/-- R433 step 1 is over for a core: no thread holds a slot on it and no gang its unit. -/
def State.coreEmpty (s : State) (c : Nat) : Bool :=
  !s.threads.any (fun t => t.core == c && t.holdsSlot) && !s.gangs.any (fun g => g.resident && g.cores.contains c)

/-- A forming gang that breaks (R433): its HOME is a core retired or a quad that holds one, or a member is assigned to one. -/
def State.formingBreaks (s : State) (l : List Nat) (g : Gang) : Bool :=
  g.gstate == 1 && (g.cores.any l.contains || (s.gangThreads g).any (fun t => l.contains t.core))

/-- A convened gang moves whole: HOME in its own state and in its record, and its members' cores (R433). -/
def State.moveGang (s : State) (g : Gang) : State :=
  let g1 := { g with home := if g.quad then s.quadRefuge g.home else s.refuge g.home }
  let s1 := (s.recPut g1 [1]).setGang g1
  g1.members.foldl (fun s x => match s.find x.2 with
    | some t => s.put { t with core := g1.cores.getD (if g1.quad then x.1 % 4 else 0) t.core }
    | none => s) s1

/-- Move every gang whose HOME is a core retired, or a quad that holds one. -/
def State.moveGangs (s : State) (l : List Nat) : State :=
  s.gangs.foldl (fun s g => if g.gstate = 2 ∧ g.cores.any l.contains = true then s.moveGang g else s) s

/-- Every other thread assigned to a retired core goes to its refuge, one after another (R433). -/
def State.moveThreads (s : State) (l : List Nat) : State :=
  s.threads.foldl (fun s t => match s.find t.id with
    | some u => if l.contains u.core then s.put { u with core := s.refuge u.core } else s
    | none => s) s

/-- R433 step 3: the task requests of a core follow, in their order; its reservations lapse in their time (15 R347). -/
def State.moveTasks (s : State) (core : Nat) : State :=
  let c := s.core core
  let r := s.refuge core
  if r = core then s
  else
    let s1 := s.setCore core { c with taskq := [] }
    let x := s1.core r
    s1.setCore r { x with taskq := x.taskq ++ c.taskq }

/-- R433 step 4: the open episodes of the networks whose span held the core are abandoned, and its endpoints leave. -/
def State.leaveNets (s : State) (core : Nat) : State :=
  [netOf 0 core, netOf 1 core, netOf 2 core, netOf 3 core].foldl (fun s net =>
    let s1 := s.endEpisode net true
    let x := s1.sol net
    let s2 := s1.setSol net { x with ends := Sparse.set EndPt.init x.ends core EndPt.init }
    State.checkEpisode { s2 with
      arrivals := s2.arrivals.filter (fun a => !(a.1 == net && a.2.1 == core)) } net 1) s

/-- R433 step 5: the scratchpad of a core is zeroed. -/
def State.zeroPad (s : State) (core : Nat) : State :=
  let s1 := s.zeroWhere (fun pa => physUnit pa == padUnit core)
  let c := s1.core core
  s1.setCore core { c with zeroing := [], tlb := [] }

/-- R433: retire cores that nothing is resident on any more. -/
def State.retireCores (s : State) (l : List Nat) : State :=
  let s1 := s.gangs.foldl (fun s g => if s.formingBreaks l g then s.breakGang g else s) s
  let s2 := ((l.foldl State.endsReach s1).moveGangs l).moveThreads l
  let s3 := l.foldl (fun s c => ((s.moveTasks c).leaveNets c).zeroPad c) s2
  State.checkWatches { s3 with retiring := s3.retiring.filter (fun c => !l.contains c) }

/-- Step CORE_RETIREMENT (R433). -/
def execCoreRetirement (cores : List Nat) (s : State) : Host.Outcome State Fault Refusal :=
  let l := s.retiring.filter cores.contains
  event (if l ≠ [] ∧ l.all s.coreEmpty = true then s.retireCores l else s)

end Sys2Proof.Machine
end

