-- ==== Sys2Proof/Machine/Mailbox.lean ====
section
/-! DEFINITION. The mailbox (20 R448 to R450): what every command shares, and one definition per command. -/
namespace Sys2Proof.Machine

/-- The signer rule of a command (R449). -/
inductive Signer where
  | anyone
  | owner
  /-- the tenant of every domain listed -/
  | tenant (l : List Nat)
  | ownerOrTenant (n : Nat)
  deriving DecidableEq, Repr

/-- Payload word k, as a number (R450). -/
def mailArg (c : MailCmd) (k : Nat) : Nat := (c.payload.getD k 0).toNat
/-- n payload words from word k. -/
def mailArgs (c : MailCmd) (k n : Nat) : List Word := (upto k n).map (fun i => c.payload.getD i 0)

/-- Bytes 0 to LEN - 1 of a command (R448). -/
def mailBytes (c : MailCmd) : List Byte :=
  (toBytes 8 (c.cmd % 2 ^ 16 + c.len * 2 ^ 16) ++ toBytes 8 c.signer ++ toBytes 8 c.seq ++ bytesOf c.payload).take c.len

/-- The key digest a signer answers for (R448): OWNKEY, or TKEY of a domain that exists. -/
def State.signerKey (s : State) (n : Nat) : Option (BitVec 256) :=
  if n = 0xFFFF then some s.ownkey
  else if domOk n && (s.domain n).v then some (s.domain n).tkey
  else none

/-- The highest sequence number accepted from a signer (R448). -/
def State.signerSeq (s : State) (n : Nat) : Nat := if n = 0xFFFF then s.ownseq else (s.domain n).cmdseq

/-- Acceptance sets CMDSEQ or OWNSEQ (R448). -/
def State.acceptSeq (s : State) (c : MailCmd) : State :=
  if c.signer = 0xFFFF then { s with ownseq := c.seq }
  else let d := s.domain c.signer; s.setDomain c.signer { d with cmdseq := c.seq }

/-- Whether a signer meets a rule (R449). -/
def Signer.admits : Signer → Nat → Bool
  | .anyone, _ => true
  | .owner, n => n == 0xFFFF
  | .tenant l, n => n != 0xFFFF && l.all (· == n)
  | .ownerOrTenant d, n => n == 0xFFFF || n == d

/-- Bytes zero-padded to a multiple of 8. -/
def pad8 (l : List Byte) : List Byte := l ++ List.replicate (alignUp l.length 8 - l.length) 0

/-- The response (R448): STATUS, SEQ, RLEN, the padded result, and the signature over every byte before it. -/
def State.respond (s : State) (status seq : Nat) (result : List Byte) : State :=
  let b := toBytes 8 status ++ toBytes 8 seq ++ toBytes 8 result.length ++ pad8 result
  { s with serving := false, response := b ++ toBytes 64 (Config.sm2Sign b).toNat }

/-- The STATUS of each rule a command breaks before it is accepted (R448, R450): 5 payload, 1 signature, 2 SEQ, 3 signer. -/
def State.mailFailures (s : State) (c : MailCmd) (words : Nat) (ok : Bool) (rule : Signer) : List Nat :=
  (if c.len ≠ 24 + 8 * words ∨ c.payload.length < words ∨ ok = false then [5] else []) ++
  (if rule = .anyone then []
   else match s.signerKey c.signer with
    | none => [1]
    | some k =>
      (if sm2Verify k (mailBytes c) c.sig = true then [] else [1]) ++
      (if s.signerSeq c.signer < c.seq then [] else [2]) ++
      (if rule.admits c.signer = true then [] else [3]))

/-- The command area holds the command that the host has submitted, with its signature at byte LEN (R448). -/
def State.commanded (s : State) (c : MailCmd) : State := { s with command := mailBytes c ++ c.sig }

/-- Serve a command (R448): `words` is its payload's length, `ok` its limits, and `act` its effect with the STATUS, 0 or 3, and
the result. Where several rules are broken the STATUS is one of theirs. -/
def State.mail (s : State) (c : MailCmd) (words : Nat) (ok : Bool) (rule : Signer) (act : State → State × Nat × List Byte) : State :=
  if s.stage ≠ .running then s
  else
    let l := s.mailFailures c words ok rule
    let s := s.commanded c
    if l ≠ [] then s.respond (l.getD (Config.free 22 s.draws % l.length) 0) c.seq []
    else
      let r := act (if rule = .anyone then s else s.acceptSeq c)
      r.1.respond r.2.1 c.seq r.2.2

/-- Done, with a result. -/
def mailDone (s : State) (result : List Byte) : State × Nat × List Byte := (s, 0, result)
/-- Refused by the target's rule. -/
def mailRefused (s : State) : State × Nat × List Byte := (s, 3, [])
/-- A write that its register may refuse. -/
def mailWrite (s : State) (r : Option State) : State × Nat × List Byte :=
  match r with
  | some s1 => mailDone s1 []
  | none => mailRefused s

/-- A command whose row is not that of its CMD and selector leaves the state as it is (00 R8). -/
def mailEvent (applies : Bool) (s : State) (s1 : State) : Host.Outcome State Fault Refusal := event (if applies then s1 else s)

/-- CERT (R450). -/
def execCert (c : MailCmd) (s : State) : Host.Outcome State Fault Refusal :=
  mailEvent (c.cmd == 0x01) s (s.mail c 0 true .anyone (fun s =>
    mailDone s (toBytes 8 Config.certificates.length ++
      Config.certificates.flatMap (fun b => toBytes 8 b.length ++ pad8 b))))

/-- TAKEOWN (R449): OWNKEY is the digest of the payload's key; refused once it is set. -/
def execTakeown (c : MailCmd) (s : State) : Host.Outcome State Fault Refusal :=
  mailEvent (c.cmd == 0x02) s (s.mail c 8 true .anyone (fun s =>
    if s.ownkey ≠ 0 then mailRefused s
    else
      let k := sm3 (bytesOf (mailArgs c 0 8))
      mailDone { s with ownkey := k } (digestBytes k)))

/-- SETFEAT (R449): bit 0 forced; refused once a launch record has been taken. -/
def execSetfeat (c : MailCmd) (s : State) : Host.Outcome State Fault Refusal :=
  mailEvent (c.cmd == 0x10) s (s.mail c 1 true .owner (fun s =>
    if s.tookLaunch then mailRefused s
    else
      let f := (c.payload.getD 0 0 &&& Config.featAvail) ||| 1
      mailDone { s with featen := f } (wordBytes f)))

/-- The 256-bit number four payload words hold. -/
def keyOf (l : List Word) : BitVec 256 := BitVec.ofNat 256 (ofBytes (bytesOf l))

/-- A new domain (R445): V, a fresh key pair, and DMEAS over its SDT entry with CMDSEQ 0 (R454). -/
def State.makeDomain (s : State) (n : Nat) (root : Word) (hostap : Bool) (tkey : BitVec 256) : State :=
  let d : Domain := { rootptr := root, v := true, hostap := hostap, cmdseq := 0, tkey := tkey, key := s.nextKey, dmeas := 0 }
  let d := { d with dmeas := sm3 (bytesOf (d.words 0)) }
  { s.setDomain n d with nextKey := s.nextKey + 1 }

/-- A ROOTPTR in the layout of 13 R286: LEAF 0, bits 15:2 zero (R444). -/
def rootOk (w : Nat) : Bool := !bit w 1 && bits w 15 2 == 0

/-- MKDOM (R445, R449). -/
def execMkdom (c : MailCmd) (s : State) : Host.Outcome State Fault Refusal :=
  let n := mailArg c 0
  mailEvent (c.cmd == 0x11) s (s.mail c 7 (decide (1 ≤ n) && domOk n && rootOk (mailArg c 1) && decide (mailArg c 2 < 2)) .owner (fun s =>
    if (s.domain n).v then mailRefused s
    else
      let s1 := s.makeDomain n (c.payload.getD 1 0) (bit (mailArg c 2) 0) (keyOf (mailArgs c 3 4))
      mailDone s1 (digestBytes (s1.domain n).dmeas)))

/-- What keeps a domain from being destroyed (R445). -/
def State.domainNamed (s : State) (n : Nat) : Bool :=
  s.threads.any (fun t => t.id.sdom == n || t.home == n) ||
  s.queues.any (fun q => q.2.v && q.2.sdom == n) || s.edt.any (fun e => e.2.v && e.2.sdom == n) ||
  s.fdt.any (fun f => f.2.v && f.2.sdom == n) || s.apertures.any (fun a => s.aperV a.1 && s.aperDom a.1 == n) ||
  s.endpoints.any (fun e => e.2.v && e.2.sdom == n)

/-- R445: the lines that caches held for a key are dropped without write-back: which of the lines stored under it had not been written
back, and what memory held of them before, are free values (log 6). -/
def State.loseLines (s : State) (key : Nat) : State :=
  ((s.lineKey.filter (fun e => e.2 == key)).map (·.1)).foldl (fun s a =>
    if bit (Config.free 6 (s.draws * 2 ^ 64 + a)) 0 then
      s.pokeBytes (128 * a) (toBytes 128 (Config.free 6 ((s.draws + 1) * 2 ^ 128 + a)))
    else s) s

/-- R445: a domain is destroyed: V cleared, its keys erased, its translations and lines dropped without write-back. -/
def State.destroyDomain (s : State) (n : Nat) : State :=
  let d := s.domain n
  let s1 := ((if d.key = 0 then s else s.loseLines d.key).setDomain n { d with v := false, key := 0 }).tlbDrop n [allExtent]
  { s1 with held := s1.held.filter (fun (t : Thread) => t.id.sdom ≠ n) }

/-- RMDOM (R445, R449). -/
def execRmdom (c : MailCmd) (s : State) : Host.Outcome State Fault Refusal :=
  let n := mailArg c 0
  mailEvent (c.cmd == 0x12) s (s.mail c 1 (domOk n) (.ownerOrTenant n) (fun s =>
    if !(s.domain n).v || s.domainNamed n then mailRefused s else mailDone (s.destroyDomain n) []))

/-- R449: ROOTPTR, and the invalidation of the domain's every translation begins, as for TLBINV (13 R299). -/
def State.setRoot (s : State) (n : Nat) (root : Word) : State :=
  let d := s.domain n
  (s.setDomain n { d with rootptr := root }).invalidate n [allExtent] none

/-- The input being made waits: it stays the next of the outside, and is made again (log 4). -/
def State.retryInput (s : State) : State := { s with waitsIn := true }

/-- SETROOT (R449): it is answered once its invalidation is over, like TLBINV. -/
def execSetroot (c : MailCmd) (s : State) : Host.Outcome State Fault Refusal :=
  let n := mailArg c 0
  let s1 := (s.commanded c).setRoot n (c.payload.getD 1 0)
  let ok := domOk n && rootOk (mailArg c 1)
  mailEvent (c.cmd == 0x13) s (
    if s.stage = .running ∧ s.mailFailures c 2 ok (.tenant [n]) = [] ∧ s1.invalidated n [allExtent] none = false then
      { s1.retryInput with serving := true }
    else s.mail c 2 ok (.tenant [n]) (fun s =>
      mailDone ((s.setRoot n (c.payload.getD 1 0)).dropFramesIn n [allExtent] none) []))

/-- The domains whose tenant must sign the write of an entry (R450): the one it names, and, when V is 1 now, the one named now. -/
def entrySigners (new : Nat) (v : Bool) (old : Nat) : Signer := .tenant (new :: (if v then [old] else []))

/-- SETAPER (R449; 19 R438). -/
def execSetaper (c : MailCmd) (s : State) : Host.Outcome State Fault Refusal :=
  let n := mailArg c 0
  let ws := mailArgs c 1 3
  mailEvent (c.cmd == 0x20) s (s.mail c 4 (decide (n < 64) && aperOk ws)
    (entrySigners (bits (entWd ws 2) 15 0) (s.aperV n) (s.aperDom n)) (fun s => mailWrite s (s.writeAper n ws)))

/-- SETQUEUE (R449; 15 R330). -/
def execSetqueue (c : MailCmd) (s : State) : Host.Outcome State Fault Refusal :=
  let k := mailArg c 0
  let ws := mailArgs c 1 4
  let q := QueueEnt.ofWords ws
  mailEvent (c.cmd == 0x21) s (s.mail c 5 (decide (k < 4096) && queueOk ws)
    (entrySigners q.sdom (s.queue k).v (s.queue k).sdom) (fun s => mailWrite s (s.writeQueue k q)))

/-- SETEDT (R449; 14 R308); returns 3 while FEAT_EXPERT is 0 (R456). -/
def execSetedt (c : MailCmd) (s : State) : Host.Outcome State Fault Refusal :=
  let k := mailArg c 0
  let ws := mailArgs c 1 2
  let x := Edt.ofWords ws
  mailEvent (c.cmd == 0x22) s (s.mail c 3 (decide (k < 16) && edtOk ws)
    (entrySigners x.sdom (s.edtEnt k).v (s.edtEnt k).sdom)
    (fun s => if !bit s.featen.toNat 7 then mailRefused s else mailWrite s (s.writeEdt k x)))

/-- SETFDT (R449; 18 R408). -/
def execSetfdt (c : MailCmd) (s : State) : Host.Outcome State Fault Refusal :=
  let k := mailArg c 0
  let ws := mailArgs c 1 4
  let f := Fdt.ofWords ws
  let old := Sparse.get Fdt.init s.fdt k
  mailEvent (c.cmd == 0x23) s (s.mail c 5 (decide (k < 256) && fdtOk ws)
    (entrySigners f.sdom old.v old.sdom) (fun s => mailDone (s.writeFdt k f) []))

/-- The endpoint of a port (19 R441). -/
def State.endpoint (s : State) (k : Nat) : Endpoint := Sparse.get Endpoint.init s.endpoints k
def State.setEndpoint (s : State) (k : Nat) (e : Endpoint) : State :=
  { s with endpoints := Sparse.set Endpoint.init s.endpoints k e }

/-- SETEP (R449; 19 R441): a port is bound only to a domain whose HOSTAP is 1, on an enabled G-die. -/
def execSetep (c : MailCmd) (s : State) : Host.Outcome State Fault Refusal :=
  let k := mailArg c 0
  let sdom := bits (mailArg c 1) 15 0
  let v := bit (mailArg c 1) 16
  let epd := mailArg c 2
  let old := s.endpoint k
  mailEvent (c.cmd == 0x24) s (s.mail c 3
    (decide (k < 16) && domOk sdom && bits (mailArg c 1) 63 17 == 0 && epd % 128 == 0 && canonical epd)
    (entrySigners sdom old.v old.sdom) (fun s =>
      if v && (!(s.domain sdom).hostap || !bit s.engdies (k / 4)) then mailRefused s
      else mailDone (s.setEndpoint k { sdom := sdom, v := v, epd := w64 epd, noticed := 0, work := old.work }) []))

/-- SETCARVE writing TARGET (R449; 10 R235): the result is the word at 0x008, also when it is refused (R450). -/
def execSetcarveTarget (c : MailCmd) (s : State) : Host.Outcome State Fault Refusal :=
  let d := mailArg c 0
  mailEvent (c.cmd == 0x30 && mailArg c 1 == 0) s (s.mail c 3 (decide (d < 8) && decide (mailArg c 2 < 256)) .owner (fun s =>
    let r := s.writeTarget d (mailArg c 2)
    (r.1, if r.2 then 0 else 3, wordBytes (r.1.carveWord d))))

/-- SETCARVE writing CARVEDOM (R449; 10 R233). -/
def execSetcarveCarvedom (c : MailCmd) (s : State) : Host.Outcome State Fault Refusal :=
  let d := mailArg c 0
  let w := mailArg c 2
  let owner := bits w 31 16
  mailEvent (c.cmd == 0x30 && mailArg c 1 != 0) s (s.mail c 3
    (decide (d < 8) && mailArg c 1 == 1 && bits w 15 7 == 0 && bits w 63 32 == 0 && ownerOk owner) .owner (fun s =>
      let s1 := s.writeCarvedom d (bits w 6 0) owner
      mailDone s1 (wordBytes (s1.carveWord d))))

/-- SETSPDOM (R449; 10 R234). -/
def execSetspdom (c : MailCmd) (s : State) : Host.Outcome State Fault Refusal :=
  mailEvent (c.cmd == 0x31) s (s.mail c 3
    (decide (mailArg c 0 < 2048) && decide (mailArg c 1 < 32) && ownerOk (mailArg c 2)) .owner (fun s =>
      mailDone (s.writeSpdom (mailArg c 0) (mailArg c 1) (mailArg c 2)) []))

/-- The network SETSOLDOM names (R450). -/
def solNetOf (d n : Nat) : Nat := if d = 8 then 8 * 64 + 32 else d * 64 + n

/-- SETSOLDOM (R449; 17 R386). -/
def execSetsoldom (c : MailCmd) (s : State) : Host.Outcome State Fault Refusal :=
  let d := mailArg c 0
  mailEvent (c.cmd == 0x32) s (s.mail c 3
    (decide (d ≤ 8) && (d == 8 || decide (mailArg c 1 ≤ 32)) && ownerOk (mailArg c 2)) .owner (fun s =>
      mailDone (s.setSoldom (solNetOf d (mailArg c 1)) (mailArg c 2)) []))

/-- SETGTBASE (R449; 13 R292). -/
def execSetgtbase (c : MailCmd) (s : State) : Host.Outcome State Fault Refusal :=
  mailEvent (c.cmd == 0x33) s (s.mail c 1 (mailArg c 0 % 8192 == 0) .owner (fun s =>
    mailDone { s with gtbase := c.payload.getD 0 0 } []))

/-- SETCOREOFF (R449; 19 R433): the cores leave the enabled set; CORE_RETIREMENT follows. -/
def execSetcoreoff (c : MailCmd) (s : State) : Host.Outcome State Fault Refusal :=
  let d := mailArg c 0
  mailEvent (c.cmd == 0x34) s (s.mail c 5 (decide (d < 8)) .owner (fun s =>
    let s1 := s.turnOff ((upto 0 4).flatMap (fun w => offCores d w (c.payload.getD (w + 1) 0)))
    mailDone s1 (bytesOf ((upto 0 4).map (s1.encoresWord d)))))

/-- SETMGMT of a register (R450): word 3 is 0 but for an error counter. -/
def State.setmgmt (s : State) (c : MailCmd) (ok : Bool) (act : State → State × Nat × List Byte) : State :=
  s.mail c 4 (ok && (mailArg c 0 == 3 || mailArg c 3 == 0)) .owner act

/-- SETMGMT clearing HALTED (R449; 18 R416); refused after 19 R434. -/
def execSetmgmtHalted (c : MailCmd) (s : State) : Host.Outcome State Fault Refusal :=
  mailEvent (c.cmd == 0x35 && mailArg c 0 == 0) s (s.setmgmt c (mailArg c 1 == 0) (fun s => mailWrite s s.leaveHalt))

/-- SETMGMT writing REQTO (R449; 18 R416). -/
def execSetmgmtReqto (c : MailCmd) (s : State) : Host.Outcome State Fault Refusal :=
  let v := mailArg c 1
  mailEvent (c.cmd == 0x35 && mailArg c 0 == 1) s (s.setmgmt c (decide (1000 ≤ v) && decide (v ≤ 1000000)) (fun s =>
    mailDone { s with reqto := v } []))

/-- SETMGMT writing HOSTTO (R449; 18 R416). -/
def execSetmgmtHostto (c : MailCmd) (s : State) : Host.Outcome State Fault Refusal :=
  let v := mailArg c 1
  mailEvent (c.cmd == 0x35 && mailArg c 0 == 2) s (s.setmgmt c (decide (10000 ≤ v) && decide (v < 2 ^ 32)) (fun s =>
    mailDone { s with hostto := v } []))

/-- SETMGMT clearing an error counter (R449; 17 R396). -/
def execSetmgmtErrorCounter (c : MailCmd) (s : State) : Host.Outcome State Fault Refusal :=
  mailEvent (c.cmd == 0x35 && mailArg c 0 == 3) s (s.setmgmt c
    (mailArg c 1 == 0 && decide (mailArg c 2 < 8) && decide (mailArg c 3 ≤ 10)) (fun s =>
      mailDone (s.clearErr (mailArg c 2) (mailArg c 3)) []))

/-- SETMGMT clearing HOLD (R449; 18 R406); a register above 4 is malformed. -/
def execSetmgmtHold (c : MailCmd) (s : State) : Host.Outcome State Fault Refusal :=
  mailEvent (c.cmd == 0x35 && decide (4 ≤ mailArg c 0)) s (s.setmgmt c
    (mailArg c 0 == 4 && mailArg c 1 == 0 && decide (mailArg c 2 < 64)) (fun s => mailDone (s.clearHold (mailArg c 2)) []))

/-- A submitted command with an unknown CMD (R448). -/
def execMailboxUnknownCommand (c : MailCmd) (s : State) : Host.Outcome State Fault Refusal :=
  mailEvent (!mailCodes.contains c.cmd) s (if s.stage = .running then (s.commanded c).respond 4 c.seq [] else s)

end Sys2Proof.Machine
end

