-- ==== Sys2Proof/Machine/Bringup.lean ====
section
/-! DEFINITION. Bring-up (19 R424 to R432, 20 R451), link failures (R434) and package reset. -/
namespace Sys2Proof.Machine

/-- Units reached from some over working links within a set of units. -/
def State.spread (s : State) (ok : Nat → Bool) (l : List Nat) : List Nat :=
  dieLinks.foldl (fun l k =>
    let e := linkEnds k
    if s.linkDown.contains k || !ok e.1 || !ok e.2 then l
    else if l.contains e.1 && !l.contains e.2 then l ++ [e.2]
    else if l.contains e.2 && !l.contains e.1 then l ++ [e.1]
    else l) l

/-- The units of a set that working links join to G0 (R429). -/
def State.joined (s : State) (ok : Nat → Bool) : List Nat :=
  if ok 8 then (upto 0 12).foldl (fun l _ => s.spread ok l) [8] else []

/-! Reset and the stages. -/

/-- What package reset keeps: the fuses (20 R448, R451), what the silicon is, host memory, the keys drawn so far, and what the
outside does next. -/
def State.afterReset (s : State) : State :=
  let host := fun pa => physUnit pa == hostUnit
  { State.reset with
    silicon := s.silicon, ownkey := s.ownkey, nextKey := s.nextKey, draws := s.draws, inputs := s.inputs
    mem := s.mem.filter (fun (x : Host.Cell) => host x.1), lineKey := s.lineKey.filter (fun x => host (128 * x.1)) }

/-- Step PACKAGE_RESET (R424 stage 1, 20 R451): the ROM verifies the image and raises the fused floor to its SVN. -/
def execPackageReset (s : State) : Host.Outcome State Fault Refusal :=
  let r := s.afterReset
  event (if s.silicon.imageOk = true ∧ s.silicon.floor ≤ s.silicon.svn then
      { r with stage := .discovery, silicon := { s.silicon with floor := s.silicon.svn } }
    else { r with stage := .held 0xE1 })

/-- Whether the die of a unit is trusted (R425): an S-die, a G-die, G0 itself, never the host die. -/
def State.trustedUnit (s : State) (u : Nat) : Bool :=
  if u < 8 then bit s.trusted u else if u = 8 then true else decide (u < 12) && bit s.trusted (u + 7)

/-- What the die at a position signs (R425): SM3 of the nonce and the position number, a byte (log 15: DEDUCED). -/
def challenge (pos nonce : Nat) : List Byte := toBytes 32 (sm3 (toBytes 32 nonce ++ toBytes 1 pos)).toNat

/-- Whether the die at a position is trusted (R425): the digest of the key it returns is the manifest's entry, and its signature over the
challenge verifies. The nonce, and the signature returned, are free values of the part (log 15). -/
def State.dieTrusted (s : State) (pos : Nat) : Bool :=
  let key := toBytes 64 (s.silicon.dieKeys.getD pos 0).toNat
  let nonce := (Config.nonce pos s.draws).toNat
  s.silicon.manifest[pos]? == some (sm3 key) && sm2Check key (challenge pos nonce) (toBytes 64 (Config.dieSig pos nonce).toNat)

/-- Step DISCOVERY (R425): a die that is not trusted is treated as one whose every link has failed. -/
def execDiscovery (s : State) : Host.Outcome State Fault Refusal :=
  event (if s.stage = .discovery then
      let s1 := { s with trusted := ((upto 0 19).filter s.dieTrusted).foldl (fun a k => a + 2 ^ k) 0 }
      { s1 with stage := .links, linkDown := dieLinks.filter (fun k => !(s1.trustedUnit (linkEnds k).1 && s1.trustedUnit (linkEnds k).2)) }
    else s)

/-- Step LINK_TRAINING (R426): a link with no module trained has failed. -/
def execLinkTraining (s : State) : Host.Outcome State Fault Refusal :=
  event (if s.stage = .links then
      { s with stage := .memory, linkDown := (upto 0 19).filter (fun k => s.linkDown.contains k || !bit s.silicon.links k) }
    else s)

/-- Step MEMORY_TRAINING (R424 stage 4): every word of HBM4 and LPDDR6 is 0, full and unpoisoned. -/
def execMemoryTraining (s : State) : Host.Outcome State Fault Refusal :=
  event (if s.stage = .memory then
      let p := fun pa => decide (physUnit pa < 20)
      { s.zeroWhere p with stage := .configuration, lineKey := s.lineKey.filter (fun x => !p (128 * x.1)) }
    else s)

/-- A compute stack or G-die that could be enabled (R429, R440). -/
def State.unitOk (s : State) (u : Nat) : Bool :=
  let x := s.silicon
  if u < 8 then bit s.trusted u && bit s.trusted (8 + u) && bit x.cdies u && bit x.hbm (2 * u) && bit x.hbm (2 * u + 1)
  else decide (u < 12) && s.trustedUnit u && bit x.gdies (u - 8) &&
    dieLinks.any (fun k => (linkEnds k).1 == u && !s.linkDown.contains k)

/-- A mask of numbers. -/
def maskOf (l : List Nat) : Nat := l.foldl (fun a k => a + 2 ^ k) 0

/-- A geometry entry (13 R292). -/
def geoEntry (tier ilv dies sts : Nat) : Word := w64 (1 + tier * 2 + ilv * 8 + dies * 2 ^ 8 + sts * 2 ^ 16)

/-- The standard entries (13 R295, R430). -/
def stdGeo (endies engdies enstacks low : Nat) : List (Nat × Word) :=
  (0, geoEntry 0 4 endies enstacks) ::
  ((setBitsOf endies 8).map (fun d => (d + 1, geoEntry 0 4 (2 ^ d) (3 * 4 ^ d)))) ++
  [(9, geoEntry 2 6 endies engdies), (10, geoEntry 3 6 (2 ^ low) 0)] ++
  ((setBitsOf endies 8).map (fun d => (d + 11, geoEntry 1 6 (2 ^ d) 0)))

/-- The package system domain, which firmware creates (20 R444): the spec states no ROOTPTR, HOSTAP or TKEY for it (log 25: free
values). -/
def State.makeSystem (s : State) : State :=
  s.makeDomain 0 (w64 (Config.free 25 0)) (bit (Config.free 25 1) 0) (BitVec.ofNat 256 (Config.free 25 2))

/-- Step CONFIGURATION (R429, R430): the enabled set, the standard geometries in every die, and domain 0. -/
def execConfiguration (s : State) : Host.Outcome State Fault Refusal :=
  event (if s.stage = .configuration then
      let l := s.joined s.unitOk
      let dies := l.filter (fun u => decide (u < 8))
      if !l.contains 8 || dies.isEmpty then { s with stage := .held 0xE2 }
      else
        let endies := maskOf dies
        let engdies := maskOf ((l.filter (fun u => decide (8 ≤ u))).map (· - 8))
        let enstacks := maskOf (dies.flatMap (fun d => [2 * d, 2 * d + 1]))
        let cores := maskOf ((upto 0 2048).filter (fun c => bit endies (dieOf c) && bit s.silicon.cores c))
        let std := stdGeo endies engdies enstacks ((setBitsOf endies 8).headD 0)
        let s1 := (upto 0 8).foldl (fun s d => let x := s.die d; s.setDie d { x with gcache := std }) s
        { s1.makeSystem with stage := .release, endies := endies, engdies := engdies, enstacks := enstacks, encores := cores }
    else s)

/-- Step RELEASE (R424 stage 6): every counter copy starts at 0, and cores accept work. -/
def execRelease (s : State) : Host.Outcome State Fault Refusal :=
  event (if s.stage = .release then { s with stage := .running, tick := 0 } else s)

/-! Links after release (R434). -/

/-- The requests in flight whose route uses a link (R434). -/
def State.onLink (s : State) (l : Nat) : List Packet :=
  s.net.filter (fun p => decide (p.op < 0x80) && (s.route p.src p.dst).any (crosses l p.src))

/-- Step LINK_FAILURE (R434): the link retrains, its traffic takes other routes, and the requests in flight on it are sent again with
their SEQ (R427). -/
def execLinkFailure (l : Nat) (s : State) : Host.Outcome State Fault Refusal :=
  event (if s.stage = .running ∧ l < 19 ∧ s.linkDown.contains l = false then
      { s with linkDown := SSet.add s.linkDown l, retraining := SSet.add s.retraining l, net := s.net ++ s.onLink l }
    else s)

/-- Whether the enabled units form one set joined to G0 (R434). -/
def State.whole (s : State) : Bool :=
  let l := s.joined s.enabledUnit
  ((upto 0 12).filter s.enabledUnit).all l.contains

/-- The machine-check notice of a split package (R434): P = 0, in every fault domain. -/
def State.splitCheck (s : State) : State :=
  let die := s.firstDie
  let r : Rec := { cause := .machineCheck, async := true, fetch := false, ctx := false, esc := false, kind := .none
                   detail := 0, tid := none, core := s.noticeCore die, pc := 0, word := 0, addr := 0, tick := s.tick
                   region := 0, home := 0, pool := none, mcDom := none }
  let l := (s.fdt.map (·.2)).filter (fun f => f.v && f.mcregion != 0)
  let s1 := l.foldl (fun s f => s.pushRec die { r with region := f.mcregion, home := f.sdom, mcDom := some f.sdom }) s
  s1.logRec r 0xFFFF 0xFFFF 0

/-- The state in which every link that still retrains counts as working: one that may yet come back splits nothing (R434). -/
def State.hopeful (s : State) : State := { s with linkDown := s.linkDown.filter (fun k => !s.retraining.contains k) }

/-- Step LINK_RETRAIN_END (R434): a package that is split then, with no link left to come back that joins it, halts for good. -/
def execLinkRetrainEnd (l : Nat) (ok : Bool) (s : State) : Host.Outcome State Fault Refusal :=
  event (if s.retraining.contains l = false then s
    else
      let s1 := { s with retraining := SSet.del s.retraining l, linkDown := if ok then SSet.del s.linkDown l else s.linkDown }
      if s1.hopeful.whole then s1 else { s1.splitCheck with halted := true, fatal := true })

end Sys2Proof.Machine
end

