-- ==== Sys2Proof/Machine/Control.lean ====
section
/-! DEFINITION. Control flow (06 R140 to R147) and the step RET_COMPLETION. -/
namespace Sys2Proof.Machine

/-- A target computed from a word displacement, on unbounded integers (R140). -/
def dispTarget (pc : Word) (disp : Int) : Int := (pc.toNat : Int) + disp * 4
/-- A displacement's target is canonical (R140). -/
def targetOk (v : Int) : Bool := decide (0 ≤ v) && canonical v.toNat
/-- A register or stack target: aligned and canonical (R140). -/
def regTargetOk (v : Word) : Bool := v.toNat % 4 == 0 && canonical v.toNat

/-- PC := a displacement's target, or the bad-target fault (R140). -/
def State.branch (s : State) (t : Thread) (disp : Int) : Except Stop State :=
  let v := dispTarget t.pc disp
  if targetOk v then .ok (s.put { t with pc := i64 v }) else failWith .badTarget (i64 v)

/-- BR (R141). -/
def execBr (i : BitVec 22) (s : State) : Host.Outcome State Fault Refusal :=
  word (.br i) s (fun s t => s.branch t i.toInt)

/-- BRP: taken when the predicate xor the sense (R141); untaken, it is an instruction that does not transfer (R140). -/
def execBrp (sense : Bool) (p : Pred) (i : BitVec 22) (s : State) : Host.Outcome State Fault Refusal :=
  word (.brp sense p i) s (fun s t =>
    if (t.rp p) ^^ sense then s.branch t i.toInt
    else if lastWord t.pc then failWith .badTarget (t.pc + 4)
    else .ok (s.retire t))

/-- JMP (R141). -/
def execJmp (i : BitVec 26) (s : State) : Host.Outcome State Fault Refusal :=
  word (.jmp i) s (fun s t => s.branch t i.toInt)

/-- The push of CALL and CALLR, then the transfer to v (R142). -/
def State.callTo (s : State) (t : Thread) (v : Word) : Except Stop State :=
  if t.stkp.toNat % 8 ≠ 0 then failWith .misalignedStack t.stkp
  else
    let sp := t.stkp - 8
    match s.reach t 8 { ea := sp.toNat, n := 8, kind := .store, write := true } with
    | .error e => .error e
    | .ok g =>
      let s1 := s.syncFrame t.id.sdom sp.toNat g
      match s1.storeBytes (s1.again t) sp.toNat g .store (wordBytes (t.pc + 4)) with
      | .error e => .error e
      | .ok s2 => .ok (s2.put { s2.again t with stkp := sp, pc := v })

/-- CALL (R141, R142). -/
def execCall (i : BitVec 26) (s : State) : Host.Outcome State Fault Refusal :=
  word (.call i) s (fun s t =>
    let v := dispTarget t.pc i.toInt
    if targetOk v then s.callTo t (i64 v) else failWith .badTarget (i64 v))

/-- NOP (R145). -/
def execNop (s : State) : Host.Outcome State Fault Refusal := word .nop s (fun s t => .ok (s.retire t))

/-- JMPR (R144). -/
def execJmpr (a : Reg) (s : State) : Host.Outcome State Fault Refusal :=
  word (.jmpr a) s (fun s t =>
    let v := t.rd a.toNat
    if regTargetOk v then .ok (s.put { t with pc := v }) else failWith .badTarget v)

/-- CALLR (R142, R144). -/
def execCallr (a : Reg) (s : State) : Host.Outcome State Fault Refusal :=
  word (.callr a) s (fun s t =>
    let v := t.rd a.toNat
    if regTargetOk v then s.callTo t v else failWith .badTarget v)

/-- RET issues its load, a plain one as LD.D's, and holds its thread BLOCKED EMPTY until it returns (R142, R143); the PC stays at the
RET. -/
def execRet (s : State) : Host.Outcome State Fault Refusal :=
  word .ret s (fun s t =>
    if t.stkp.toNat % 8 ≠ 0 then failWith .misalignedStack t.stkp
    else match s.reach t 8 { ea := t.stkp.toNat, n := 8, kind := .load, write := false } with
      | .error e => .error e
      | .ok g =>
        let va := t.stkp.toNat
        let s1 := s.syncFrame t.id.sdom va g
        let t1 := s1.again t
        match s1.loadBytes t1 va g 8 with
        | .error e => .error e
        | .ok x =>
          .ok (s1.put { t1 with
            st := .blocked .empty
            req := s1.loadReq t1 .load va x
            pend := some (.ret { va := va, pa := g.pa, n := 8, leaf := g.leaf?, conv := .zero 0, kind := .load, half := none }) }))

/-- Step RET_COMPLETION: the load of a RET returns, and RET completes or faults (R142, R143, 18 R418). The loads before it have their
places in the die order (12 R266). -/
def execRetCompletion (i : Tid) (s : State) : Host.Outcome State Fault Refusal :=
  event (match s.find i with
    | none => s
    | some t => match t.pend with
      | some (.ret x) =>
        let t1 := { s.bindLoads t with pend := none, req := none, st := .resident }
        let pa := s.srcPa t x
        if t.req.any s.reqLost then s
        else match s.loadPoison t x.va pa 8 with
        | some w => s.parkWhenFree t1 { cause := .poisonedData, addr := w64 w, kind := .load, detail := 0, fetch := false }
            false (wordOf .ret)
        | none =>
          let v := w64 (ofBytes (s.srcBytes t x))
          if regTargetOk v then (s.put { t1 with stkp := t.stkp + 8, pc := v }).boundary i (wordOf .ret)
          else s.parkWhenFree t1 (.plain .badTarget v) false (wordOf .ret)
      | _ => s)

/-- TRAP: never completes; the trap fault carries the code (R147). -/
def execTrap (c : BitVec 6) (s : State) : Host.Outcome State Fault Refusal :=
  word (.trap c) s (fun _ _ => failWith .trap (c.setWidth 64))

/-- BRK: never completes; the breakpoint fault carries the code (R147). -/
def execBrk (c : BitVec 6) (s : State) : Host.Outcome State Fault Refusal :=
  word (.brk c) s (fun _ _ => failWith .breakpoint (c.setWidth 64))

end Sys2Proof.Machine
end

