-- ==== Sys2Proof/Machine/Csr.lean ====
section
/-! DEFINITION. The control and status registers of a thread (05 R119, R120). -/
namespace Sys2Proof.Machine

/-- The value of a CSR (R119). -/
def State.readCsr (s : State) (t : Thread) (c : Nat) : Word :=
  match c with
  | 0x000 => w64 t.id.handle
  | 0x001 => w64 t.core
  | 0x002 => match t.slot with | some (p, k) => w64 (p % 16 + k % 32 * 16) | none => 0
  | 0x003 => w64 (t.prio % 64 + b2n t.priol * 64)
  | 0x004 => w64 t.region
  | 0x005 => w64 (frameAddr t.id.handle + (t.lines - 1))
  | 0x006 => t.emt &&& ~~~1
  | 0x007 => t.fpf.setWidth 64
  | 0x008 => t.rnd.setWidth 64
  | 0x009 => if t.hnd then w64 t.upv else 0
  | 0x00A => t.stkp
  | 0x00B => (t.pred ||| 1).setWidth 64
  | 0x00C => (t.fe &&& t.feMask) ||| 1
  | 0x010 => s.tsc
  | _ => 0

/-- The writable mask of a CSR (R119). -/
def Thread.csrMask (t : Thread) (c : Nat) : Word :=
  match c with
  | 0x006 => t.feMask &&& ~~~1
  | 0x007 => 0x1F
  | 0x008 => 7
  | 0x00A => w64 (2 ^ 64 - 1)
  | 0x00B => 0xFE
  | _ => 0

/-- A thread with a CSR set to a value (R119). -/
def Thread.setCsr (t : Thread) (c : Nat) (v : Word) : Thread :=
  match c with
  | 0x006 => { t with emt := v }
  | 0x007 => { t with fpf := v.setWidth 5 }
  | 0x008 => t.setRnd v.toNat
  | 0x00A => { t with stkp := v }
  | 0x00B => { t with pred := v.setWidth 8 ||| 1 }
  | _ => t

/-- CSRR (R120). -/
def execCsrr (d : Reg) (c : BitVec 12) (s : State) : Host.Outcome State Fault Refusal :=
  word (.csrr d c) s (fun s t => .ok (s.retireReg t d.toNat (s.readCsr t c.toNat)))

/-- A CSR write: the value from the old one, the source and the mask (R120). -/
def csrOp (i : Instr) (v : Reg) (c : BitVec 12) (f : Word → Word → Word → Word) (s : State) :
    Host.Outcome State Fault Refusal :=
  word i s (fun s t =>
    .ok (s.retire (t.setCsr c.toNat (f (s.readCsr t c.toNat) (t.rd v.toNat) (t.csrMask c.toNat)))))

/-- CSRW (R120). -/
def execCsrw (v : Reg) (c : BitVec 12) (s : State) : Host.Outcome State Fault Refusal :=
  csrOp (.csrw v c) v c (fun x g w => (x &&& ~~~w) ||| (g &&& w)) s
/-- CSRS (R120). -/
def execCsrs (v : Reg) (c : BitVec 12) (s : State) : Host.Outcome State Fault Refusal :=
  csrOp (.csrs v c) v c (fun x g w => x ||| (g &&& w)) s
/-- CSRC (R120). -/
def execCsrc (v : Reg) (c : BitVec 12) (s : State) : Host.Outcome State Fault Refusal :=
  csrOp (.csrc v c) v c (fun x g w => x &&& ~~~(g &&& w)) s

end Sys2Proof.Machine
end

