-- ==== Sys2Proof/Machine/Errors.lean ====
section
/-! DEFINITION. Errors of memory, flits and requests (18 R418 to R420; 17 R396). -/
namespace Sys2Proof.Machine

/-- The index of an element in a list, with its length: where it stands among the members of a mask. -/
def rankIn (l : List Nat) (x : Nat) : Option (Nat × Nat) := (l.findIdx? (· == x)).map (fun k => (k, l.length))

/-- The placement address that a geometry gives a physical place: the inverse of 13 R294. -/
def placeOf (e : Word) (pa : Nat) : Option Nat :=
  let u := physUnit pa
  let lo := physOff pa
  let i := 256 * 2 ^ Geo.ilv e
  let at' := fun (x : Nat × Nat) => (lo / i * x.2 + x.1) * i + lo % i
  match Geo.tier e with
  | 0 => if u < 16 then (rankIn (setBitsOf (Geo.stacks e) 16) u).map at' else none
  | 1 => if 20 ≤ u ∧ u < 28 then (rankIn (setBitsOf (Geo.dies e) 8) (u - 20)).map at' else none
  | 2 => if 16 ≤ u ∧ u < 20 then (rankIn (setBitsOf (Geo.stacks e % 16) 4) (u - 16)).map at' else none
  | _ => if u = hostUnit then some lo else none

/-- The homes that the package's geometries give a physical line (10 R227, R228), each with the placement word that names it (13
R297). -/
def State.homesOf (s : State) (pa : Nat) : List (Nat × Word) :=
  (s.dies.flatMap (fun d => d.2.gcache)).filterMap (fun x =>
    if s.geoValid x.2 then (placeOf x.2 pa).map (fun p => ((s.spot x.2 p).die, placeWord p x.1 false)) else none)

/-- The home of a line and the placement word that names it. A line that several geometries name has one of those homes, a free value
(log 18). -/
def State.homeOf (s : State) (pa : Nat) : Option (Nat × Word) :=
  let l := s.homesOf pa
  l[Config.free 18 (pa / 128) % l.length]?

/-- The domain tag of a line (20 R447): of the thread whose context line it is, of a carve unit's or segment's owner, or of the
domain under whose key it is stored. -/
def State.lineDom (s : State) (pa : Nat) : Nat :=
  match s.lineAt pa with
  | some (t, _) => t.id.sdom
  | none =>
    let u := physUnit pa
    if 20 ≤ u ∧ u < 28 then s.carvedom (u - 20) (physOff pa / 2 ^ 21)
    else if 32 ≤ u then s.spdom (u - 32) (physOff pa / 8192)
    else match s.domains.find? (fun d => d.2.v && d.2.key == s.keyOfLine pa) with
      | some d => d.1
      | none => 0

/-- Mark the word at a place poisoned; a line first poisoned is counted (R418). -/
def State.poisonWord (s : State) (die pa : Nat) : State :=
  let fresh := (s.poisonedIn (alignDown pa 128) 128).isNone
  let s1 := s.markPoison pa
  if fresh then s1.countErr die 1 else s1

/-- Step UNCORRECTABLE_ERROR (R418): the word read is poisoned. -/
def execUncorrectableError (die pa : Nat) (s : State) : Host.Outcome State Fault Refusal := event (s.poisonWord die pa)

/-- Step CORRECTED_ERROR (R418). -/
def execCorrectedError (die : Nat) (s : State) : Host.Outcome State Fault Refusal := event (s.countErr die 0)

/-- Step FLIT_CHECK_FAILURE (R419): the line's sharers are lost and its recall begins; a line that no placement names has no home. -/
def execFlitCheckFailure (line : Nat) (s : State) : Host.Outcome State Fault Refusal :=
  event (if (s.homeOf (128 * line)).isSome then { s with sharersLost := SSet.add s.sharersLost line } else s)

/-- R419 step 1: a context line is written back, and leaves its context cache. -/
def State.recallLine (s : State) (pa : Nat) : State :=
  match s.lineAt pa with
  | some (t, i) =>
    (s.writeOwned t.id.sdom (alignDown pa 128) ((t.lineWords i).flatMap wordBytes)).put
      { t with ctl := t.ctl && i != 0, linesIn := t.linesIn.filter (· ≠ i) }
  | none => s

/-- Step SHARERS_LOST_RECALL_END (R419). -/
def execSharersLostRecallEnd (line : Nat) (s : State) : Host.Outcome State Fault Refusal :=
  event (if s.sharersLost.contains line then
      let pa := 128 * line
      let home := (s.homeOf pa).getD (s.firstDie, 0)
      let die := home.1
      let s1 := s.recallLine pa
      let fresh := (s1.poisonedIn pa 128).isNone
      let s2 := (upto 0 16).foldl (fun s k => s.markPoison (pa + 8 * k)) s1
      let s3 := { s2 with sharersLost := SSet.del s2.sharersLost line }
      ((if fresh then s3.countErr die 1 else s3).countErr die 2).machineCheck die (s.lineDom pa) home.2
    else s)

/-- R420: the oldest buffered store of a thread is abandoned: its bytes are written or not, by a free value (log 19). -/
def State.abandonStore (s : State) (t0 : Thread) : State :=
  let t := s.bindBefore t0
  match t.stores with
  | [] => s
  | e :: _ => match s.storePlace t.core t.id.sdom e with
    | none => s
    | some (pa, m) =>
      let s1 := s.put (t.popStore s.tick)
      let s2 := if bit (Config.free 19 (2 * s.draws)) 0 then s1.perform t.id.sdom pa m e.bytes else s1
      (s2.countErr (dieOf t.core) 4).raiseAsync t.id .requestTimeOut .store 0 (w64 e.va)

/-- R420: an engine command ends at one of its requests that has had no reply within its bound: which one is a free value (log 19). A
write ends it with CODE 19, a read with CODE 20. -/
def State.abandonCmd (s : State) (die : Nat) (c : EngCmd) : State :=
  let due := c.asked.filterMap (fun x => (c.pieces[x.1]?).bind (fun p => (c.request s x.1 p).bind (fun r =>
    if !c.over x.1 && decide (x.2 + s.bound r.2.2 ≤ s.tick) then some (x.1, r) else none)))
  match due[Config.free 19 (2 * s.draws) % due.length]? with
  | none => s
  | some (k, w, va, _) =>
    if c.bad.isSome then s
    else (s.setCmd die { c.answered k with bad := some (if w then 19 else 20, va) }).countErr die 4

/-- R420: the copy of an RSTR's chunk has had no reply within its bound: a read of the old placement ends it with CODE 20, a write of the
new with CODE 19; where both cross a link, which is a free value (log 19). -/
def State.abandonRstr (s : State) (die k : Nat) (c : EngCmd) : State :=
  match s.restripeAt die k with
  | none => s
  | some r =>
    let x := s.chunkRemote die r
    if r.st = 1 ∧ c.bad = none ∧ (c.askedAt r.prog).any (fun t => decide (t + s.reqto ≤ s.tick)) = true then
      (s.failRstr die k r c (if x.2 && (!x.1 || bit (Config.free 19 (2 * s.draws)) 0) then 19 else 20, r.vbase + 16384 * r.prog)).countErr die 4
    else s

/-- R420: the access of an instruction that holds its thread is abandoned: RET stays at its word; a full/empty instruction, ATOM or CAS
ends with its destination empty (log 94: DEDUCED). -/
def State.abandonHeld (s : State) (t : Thread) (r : Req) : State :=
  let t1 := { s.bindLoads t with pend := none, req := none, st := .resident }
  let t2 := match t.pend with
    | some (.fe kind reg _ _ _) => { (if kind ≤ 1 then t1.clr reg else t1) with pc := t.pc + 4 }
    | some (.atomic reg) => { t1.clr reg with pc := t.pc + 4 }
    | _ => t1
  (((s.dropCredit t.id).put t2).countErr (dieOf t.core) 4).raiseAsync t.id .requestTimeOut r.kind 0 r.addr

/-- The k-th request still out of threads of a name that are DONE by now is abandoned: the event is logged (R402, R420). -/
def State.abandonOrphan (s : State) (i : Tid) (k : Nat) : State :=
  match (s.orphans.filter (fun x => x.1.tid == some i))[k]? with
  | some x =>
    if s.reqDue x.2 then State.logDone ({ s with orphans := s.orphans.erase x }.countErr (dieOf x.1.core) 4) { x.1 with tick := s.tick } else s
  | none => s

/-- Step REQUEST_TIMEOUT (R420): a request across a link is abandoned once its bound has passed; it waits while the upcall queue is full
(R403), and debug halt stops the counter (R416). -/
def execRequestTimeout (o : Outstanding) (s : State) : Host.Outcome State Fault Refusal :=
  event (if s.halted then s else match o with
    | .store i => match s.find i with
      | none => s
      | some t => if (s.storeReq t).any s.reqDue && !t.barred && !s.upqFull (dieOf t.core) then s.abandonStore t else s
    | .fill i k => match s.find i with
      | none => s.abandonOrphan i k
      | some t =>
        if t.fills.length < k then s.abandonOrphan i (k - t.fills.length - 1)
        else if s.upqFull (dieOf t.core) then s
        else match t.fills[k]? with
        | none => match t.req with
          | some r => if t.pend.isSome && s.reqDue r then s.abandonHeld t r else s
          | none => s
        | some f => match f.req with
          | none => s
          | some r =>
            if s.reqDue r then
              ((s.put (t.dropFill k s.tick)).countErr (dieOf t.core) 4).raiseAsync i .requestTimeOut r.kind 0 r.addr
            else s
    | .engine die id => match (s.die die).engq.find? (fun c => c.id == id) with
      | none => s
      | some c =>
        if !c.started then s
        else if c.kind = .rstr then match c.record with
          | some k => s.abandonRstr die k c
          | none => s
        else s.abandonCmd die c)

end Sys2Proof.Machine
end

