-- ==== Sys2Proof/Machine/Hint.lean ====
section
/-! DEFINITION. Hints (03 R67): no register, flag or memory location changes, and no fault of their own. The lines and
instruction lines that HCTX and HFETCH start to fetch change timing only (log 6). -/
namespace Sys2Proof.Machine

/-- HNOP (R67). -/
def execHnop (x : BitVec 20) (s : State) : Host.Outcome State Fault Refusal := word (.hnop x) s (fun s t => .ok (s.retire t))
/-- HCTX (R67): starts a fetch of a register line; the line arrives when an instruction needs it. -/
def execHctx (r : Reg) (x : BitVec 14) (s : State) : Host.Outcome State Fault Refusal :=
  word (.hctx r x) s (fun s t => .ok (s.retire t))
/-- HFETCH (R67). -/
def execHfetch (y : BitVec 6) (i : BitVec 14) (s : State) : Host.Outcome State Fault Refusal :=
  word (.hfetch y i) s (fun s t => .ok (s.retire t))
/-- A hint of a reserved class executes as HNOP (R67). -/
def execHintReserved (c : BitVec 6) (x : BitVec 20) (s : State) : Host.Outcome State Fault Refusal :=
  word (.hintReserved c x) s (fun s t => .ok (s.retire t))

end Sys2Proof.Machine
end

