-- ==== Sys2Proof/Machine/HostPort.lean ====
section
/-! DEFINITION. The host's apertures (19 R437, R438) and the Ethernet endpoints (R441, R442). -/
namespace Sys2Proof.Machine

/-- The host agent in a domain (12 R258): its translations are made on the lowest-numbered enabled die. -/
def State.hostAgent (s : State) (sdom : Nat) : Agent := { die := s.firstDie, core := none, sdom := sdom }

/-- What an outside access comes to: the state and bytes, a refusal, or a wait (13 R303, 10 R233). -/
inductive Served where
  | done (s : State) (bs : List Byte)
  | refused (code : Nat)
  | waits
  deriving DecidableEq, Repr

/-- Read for the host agent. -/
def State.hostRead (s : State) (sdom va n : Nat) : Served :=
  match s.agentRead (s.hostAgent sdom) va n with
  | .ok (s1, bs) => .done s1 bs
  | .error .held => .waits
  | .error (.code c _) => .refused c

/-- Write for the host agent. -/
def State.hostWrite (s : State) (sdom va : Nat) (bs : List Byte) : Served :=
  match s.agentWrites (s.hostAgent sdom) va bs with
  | .ok s1 => .done s1.checkWatches []
  | .error .held => .waits
  | .error (.code c _) => .refused c

/-! What the host reads without an aperture (R437; 20 R448). -/

/-- Byte o of the mailbox range (R448): the status word, the submit word, the command and the response; the rest reads 0. -/
def State.mailboxByte (s : State) (o : Nat) : Byte :=
  if o < 8 then (toBytes 8 s.status).getD o 0
  else if o < 16 then (toBytes 8 (b2n s.serving)).getD (o - 8) 0
  else if 0x100 ≤ o ∧ o < 0x1100 then s.command.getD (o - 0x100) 0
  else if 0x1100 ≤ o ∧ o < 0x2100 then s.response.getD (o - 0x1100) 0
  else 0

/-- The byte that the host reads at an offset of its ranges below the apertures (R437): doorbells read 0, the mailbox, and the public page,
in which a register stands at its offset in the package block. Until stage 6 it sees the status word alone (R424). What the table gives no
content reads 0 (log 100). -/
def State.hostSees (s : State) (off : Nat) : Byte :=
  if 0x8000 ≤ off ∧ off < 0x8008 then s.mailboxByte (off - 0x8000)
  else if s.stage ≠ .running then 0
  else if 0x8000 ≤ off ∧ off < 0x10000 then s.mailboxByte (off - 0x8000)
  else if 0x10300 ≤ off ∧ off < 0x10340 then (wordBytes (s.pkgRead (alignDown (off - 0x10000) 8))).getD (off % 8) 0
  else 0

/-! Apertures. -/

/-- HOSTERR counts a refusal (R438). -/
def State.refuseHost (s : State) : State := { s with hostErr := (s.hostErr + 1) % 2 ^ 64 }

/-- Whether an aperture admits an access at an offset (R438). -/
def State.aperAdmits (s : State) (n off : Nat) (write : Bool) : Bool :=
  s.aperV n && decide (off < (s.aper n 1).toNat) && (!write || bit (s.aper n 2).toNat 17)

/-- Whether an access of the host waits for its link, which retrains or has failed (R434). -/
def State.hostCut (s : State) : Bool := s.linkDown.contains 18

/-- Step HOST_APERTURE_READ (R438): a refused read returns all ones. -/
def execHostApertureRead (n off len : Nat) (s : State) : Host.Outcome State Fault Refusal :=
  event (
    if s.stage ≠ .running ∨ hostAligned off len = false then s
    else
      let ones := fun (s : State) => { s.refuseHost with hostData := List.replicate len 0xFF }
      if s.hostCut then s.retryInput
      else if !s.aperAdmits n off false then ones s
      else match s.hostRead (s.aperDom n) ((s.aper n 0).toNat + off) len with
        | .done s1 bs => { s1 with hostData := bs }
        | .refused _ => ones s
        | .waits => s.retryInput)

/-- Whether an access of the host meets a poisoned word (R438). -/
def State.hostPoisoned (s : State) (sdom va n : Nat) : Bool :=
  (wordPieces va n).any (fun p => match s.agentAt (s.hostAgent sdom) p.1 true with
    | .ok (s1, g) => (s1.poisonedIn g.pa 1).isSome
    | .error _ => false)

/-- Step HOST_APERTURE_WRITE (R438): a refused write is discarded. -/
def execHostApertureWrite (n off : Nat) (bs : List Byte) (s : State) : Host.Outcome State Fault Refusal :=
  event (
    if s.stage ≠ .running ∨ hostAligned off bs.length = false then s
    else if s.hostCut then s.retryInput
    else if !s.aperAdmits n off true || s.hostPoisoned (s.aperDom n) ((s.aper n 0).toNat + off) bs.length then s.refuseHost
    else match s.hostWrite (s.aperDom n) ((s.aper n 0).toNat + off) bs with
      | .done s1 _ => s1
      | .refused _ => s.refuseHost
      | .waits => s.retryInput)

/-! Endpoint descriptors (R442). -/

/-- An EPD as read. -/
structure Epd where
  ring : Nat
  size : Nat
  tail : Nat
  head : Nat
  keytab : Nat
  keycnt : Nat
  err : Nat
  fails : Nat
  deriving DecidableEq, Repr

/-- Entries written and not taken. -/
def Epd.waiting (d : Epd) : Nat := (d.tail + 2 ^ 64 - d.head) % 2 ^ 64

/-- The number n bytes of a domain hold, as the host agent reads them. -/
def State.hostNum (s : State) (sdom va n : Nat) : Option Nat :=
  match s.hostRead sdom va n with
  | .done _ bs => some (ofBytes bs)
  | _ => none

/-- The EPD of an endpoint, or its ERR (R442). -/
def State.readEpd (s : State) (e : Endpoint) : Except Nat Epd :=
  match s.hostNum e.sdom e.epd.toNat 128 with
  | none => .error 3
  | some n =>
    let w := entWord n
    let ring := w 0
    let log2n := bits (w 1) 4 0
    let keycnt := bits (w 5) 12 0
    if ring % 64 ≠ 0 || !canonical ring || log2n == 0 || decide (17 ≤ log2n) || w 4 % 32 != 0 || decide (4096 < keycnt) then .error 2
    else
      let d : Epd := { ring := ring, size := 2 ^ log2n, tail := w 2, head := w 3, keytab := w 4, keycnt := keycnt
                       err := w 6 % 4, fails := w 7 }
      if d.size < d.waiting then .error 1 else .ok d

/-- Whether the accesses of an endpoint to its EPD wait (13 R303, 10 R233, R235). -/
def State.epdWaits (s : State) (e : Endpoint) : Bool := s.devWaits s.firstDie e.sdom e.epd.toNat true

/-- A write of the device that waits is performed later (13 R303). -/
def State.hostLater (s : State) (sdom va : Nat) (act : DevAct) : State :=
  { s with devq := s.devq ++ [{ die := s.firstDie, sdom := sdom, va := va, act := act }] }

/-- Write a device field of an EPD; a write that cannot be performed is dropped. -/
def State.epdPut (s : State) (sdom epd k v : Nat) : State :=
  match s.hostWrite sdom (epd + 8 * k) (toBytes 8 v) with
  | .done s1 _ => s1
  | .waits => s.hostLater sdom (epd + 8 * k) (.put (toBytes 8 v))
  | .refused _ => s

/-- The endpoint reads TAIL: ERR follows what it finds (R442, 15 R331). -/
def State.noticeRing (s : State) (k : Nat) : State :=
  let e := s.endpoint k
  if !e.v || s.epdWaits e then s
  else match s.readEpd e with
    | .error c => s.epdPut e.sdom e.epd.toNat 6 c
    | .ok d => (if d.err = 0 then s else s.epdPut e.sdom e.epd.toNat 6 0).setEndpoint k { e with noticed := d.tail }

/-- Step ETHERNET_TAIL_NOTICE (R442). -/
def execEthernetTailNotice (ep : Nat) (s : State) : Host.Outcome State Fault Refusal :=
  event (if s.stage = .running then s.noticeRing ep else s)

/-- Step ETHERNET_POLL (R442). -/
def execEthernetPoll (ep : Nat) (s : State) : Host.Outcome State Fault Refusal :=
  event (if s.stage = .running then s.noticeRing ep else s)

/-- The work entry an endpoint may take now (R442): its EPD and the entry's words. -/
def State.nextWork (s : State) (k : Nat) : Option (Epd × List Word) :=
  let e := s.endpoint k
  if !e.v || decide (256 ≤ e.work.length) || s.epdWaits e then none
  else match s.readEpd e with
    | .error _ => none
    | .ok d =>
      if d.err = 0 ∧ e.noticed ≠ d.head ∧ (e.noticed + 2 ^ 64 - d.head) % 2 ^ 64 ≤ d.size then
        (s.hostNum e.sdom (d.ring + 64 * (d.head % d.size)) 64).map (fun n => (d, (upto 0 8).map (fun i => w64 (entWord n i))))
      else none

/-- A work entry is copied, and then HEAD moves (R442). -/
def State.takeWork (s : State) (k : Nat) (d : Epd) (ws : List Word) : State :=
  let e := s.endpoint k
  let s1 := s.setEndpoint k { e with work := e.work ++ [{ index := d.head, words := ws, sdom := e.sdom, epd := e.epd.toNat }] }
  s1.epdPut e.sdom e.epd.toNat 3 ((d.head + 1) % 2 ^ 64)

/-- Whether a work entry is a get (R441). -/
def isGet (ws : List Word) : Bool := ws.getD 0 0 == 2

/-- Step ETHERNET_PUT (R441): the next entry is taken, unless it is a get. -/
def execEthernetPut (ep : Nat) (s : State) : Host.Outcome State Fault Refusal :=
  event (if s.stage ≠ .running then s else match s.nextWork ep with
    | some (d, ws) => if isGet ws then s else s.takeWork ep d ws
    | none => s)

/-- Step ETHERNET_GET (R441). -/
def execEthernetGet (ep : Nat) (s : State) : Host.Outcome State Fault Refusal :=
  event (if s.stage ≠ .running then s else match s.nextWork ep with
    | some (d, ws) => if isGet ws then s.takeWork ep d ws else s
    | none => s)

/-! Completion. -/

def EthWork.word (w : EthWork) (k : Nat) : Nat := (w.words.getD k 0).toNat

/-- A valid work entry (R442 status 21). -/
def EthWork.ok (w : EthWork) : Bool :=
  (w.word 0 == 1 || w.word 0 == 2) && decide (1 ≤ w.word 2) && decide (w.word 2 ≤ 2 ^ 32) && w.word 7 == 0

/-- The bytes a get brings: they come from outside (19 R441), so any may. -/
def State.netBytes (s : State) (n : Nat) : List Byte := (upto 0 n).map (fun k => BitVec.ofNat 8 (Config.free 23 (s.draws * 2 ^ 33 + k)))

/-- The local side of an entry whose remote side ended with a status (R442): what it leaves and the status, or none while an
access waits. -/
def State.localWork (s : State) (w : EthWork) (status : Nat) : Option (State × Nat) :=
  if !w.ok then some (s, 21)
  else if status ≠ 1 then some (s, status)
  else match (if isGet w.words then s.hostWrite w.sdom (w.word 1) (s.netBytes (w.word 2)) else s.hostRead w.sdom (w.word 1) (w.word 2)) with
    | .done s1 _ => some (s1, 1)
    | .refused c => some (s, if 16 ≤ c ∧ c ≤ 20 then c else 18)
    | .waits => none

/-- Write the completion word; one that cannot be written is dropped and counted (R442, 17 R396). -/
def State.writeCompletion (s : State) (w : EthWork) (status : Nat) : State :=
  if w.word 6 = 0 then s
  else match s.hostWrite w.sdom (w.word 6) (toBytes 8 ((w.index * 256 + status) % 2 ^ 64)) with
    | .done s1 _ => s1
    | .waits => s.hostLater w.sdom (w.word 6) (.put (toBytes 8 ((w.index * 256 + status) % 2 ^ 64)))
    | .refused _ => s.countErr (s.homeDie s.firstDie w.sdom (w.word 6)) 9

/-- FAILS counts a status of 16 or above (R442). -/
def State.countFail (s : State) (w : EthWork) (status : Nat) : State :=
  if status < 16 then s
  else match s.hostRead w.sdom (w.epd + 0x38) 8 with
    | .done _ bs => s.epdPut w.sdom w.epd 7 ((ofBytes bs + 1) % 2 ^ 64)
    | .waits => s.hostLater w.sdom (w.epd + 0x38) (.add 8 1)
    | .refused _ => s

/-- An outstanding entry ends: entries complete in any order (R442). While its local access waits the completion does (log 4). -/
def State.endWork (s : State) (k status : Nat) : State :=
  let e := s.endpoint k
  let i := Config.free 24 s.draws % e.work.length
  match e.work[i]? with
  | none => s
  | some w => match s.localWork w status with
    | none => s.retryInput
    | some (s1, st) =>
      ((s1.setEndpoint k { (s1.endpoint k) with work := removeNth i e.work }).writeCompletion w st).countFail w st

/-- Step ETHERNET_COMPLETION (R442): `status` is how the remote side ended, 1 or 32 to 34. -/
def execEthernetCompletion (ep status : Nat) (s : State) : Host.Outcome State Fault Refusal :=
  event (if s.stage = .running ∧ (status = 1 ∨ (32 ≤ status ∧ status ≤ 34)) then s.endWork ep status else s)

/-- Step ETHERNET_TRANSPORT_TIMEOUT (R442). -/
def execEthernetTransportTimeout (ep : Nat) (s : State) : Host.Outcome State Fault Refusal :=
  event (if s.stage = .running then s.endWork ep 35 else s)

/-! Inbound accesses. -/

/-- A key table entry admits an access (R442). -/
def keyAdmits (n tag addr len : Nat) (write : Bool) : Bool :=
  let w := entWord n
  bit (w 2) 0 && bits (w 2) 63 16 == tag && bit (w 2) (if write then 2 else 1) &&
  decide (w 0 ≤ addr) && decide (addr + len ≤ w 0 + w 1)

/-- Whether the key table of an endpoint admits an inbound access (R442): its four conditions, of KEYTAB and KEYCNT as the endpoint reads
them. -/
def State.inboundOk (s : State) (e : Endpoint) (a : Inbound) : Bool :=
  match s.hostNum e.sdom (e.epd.toNat + 0x20) 8, s.hostNum e.sdom (e.epd.toNat + 0x28) 8 with
  | some tab, some cnt =>
    let k := wbits a.key 15 0
    decide (k < bits cnt 12 0) && (match s.hostNum e.sdom (tab + 32 * k) 32 with
      | some n => keyAdmits n (wbits a.key 63 16) a.addr (match a.data with | some b => b.length | none => a.len) a.data.isSome
      | none => false)
  | _, _ => false

/-- An admitted access waits: it completes under the entry that admitted it (R442). -/
def State.admitLater (s : State) : State := { s.retryInput with admitted := true }

/-- Step ETHERNET_INBOUND_ACCESS (R442): a refused access writes and reads nothing. -/
def execEthernetInboundAccess (a : Inbound) (s : State) : Host.Outcome State Fault Refusal :=
  let e := s.endpoint a.ep
  event (if s.stage ≠ .running ∨ e.v = false then s
    else if s.epdWaits e then s.retryInput
    else if s.admitted = false ∧ s.inboundOk e a = false then s
    else match a.data with
      | some bs => match s.hostWrite e.sdom a.addr bs with
        | .done s1 _ => { s1 with admitted := false }
        | .refused _ => { s with admitted := false }
        | .waits => s.admitLater
      | none => match s.hostRead e.sdom a.addr a.len with
        | .done s1 bs => { s1 with hostData := bs, admitted := false }
        | .refused _ => { s with admitted := false }
        | .waits => s.admitLater)

end Sys2Proof.Machine
end

