-- ==== Sys2Proof/Machine/Int.lean ====
section
/-! DEFINITION. Major 0x01 and its kin: register-register integer instructions, MAD, SEL, CMP and CMPI (06 R130 to R134). -/
namespace Sys2Proof.Machine

/-- An instruction that writes one register with a value of its thread. -/
def regOp (i : Instr) (d : Reg) (f : Thread → Word) (s : State) : Host.Outcome State Fault Refusal :=
  word i s (fun s t => .ok (s.retireReg t d.toNat (f t)))

/-- A .w form acts on the low 32 bits and sign-extends; a 64-bit form on the whole word (R131). -/
def wForm (w : Bool) (f : (n : Nat) → BitVec n → BitVec n → BitVec n) (x y : Word) : Word :=
  if w then (f 32 (x.setWidth 32) (y.setWidth 32)).signExtend 64 else f 64 x y

/-- MULH.s (R131): floor of the signed product over 2^64. -/
def mulhS (x y : Word) : Word := BitVec.ofInt 64 (x.toInt * y.toInt / 2 ^ 64)
/-- MULH.n (R131). -/
def mulhN (x y : Word) : Word := w64 (x.toNat * y.toNat / 2 ^ 64)
/-- DIVS (R132). -/
def divS (n : Nat) (x y : BitVec n) : BitVec n :=
  if y = 0 then BitVec.allOnes n else BitVec.ofInt n (Int.tdiv x.toInt y.toInt)
/-- DIVN (R132). -/
def divN (n : Nat) (x y : BitVec n) : BitVec n := if y = 0 then BitVec.allOnes n else BitVec.ofNat n (x.toNat / y.toNat)
/-- REMS (R132). -/
def remS (n : Nat) (x y : BitVec n) : BitVec n :=
  if y = 0 then x else BitVec.ofInt n (Int.tmod x.toInt y.toInt)
/-- REMN (R132). -/
def remN (n : Nat) (x y : BitVec n) : BitVec n := if y = 0 then x else BitVec.ofNat n (x.toNat % y.toNat)
/-- The shift or rotate amount: the source modulo the width (R131). -/
def shAmt (n : Nat) (y : BitVec n) : Nat := y.toNat % n
/-- CLZ (R131). -/
def clz (n : Nat) (x : BitVec n) : BitVec n :=
  BitVec.ofNat n (if x = 0 then n else n - 1 - Nat.log2 x.toNat)
/-- POPC (R131). -/
def popc (n : Nat) (x : BitVec n) : BitVec n := BitVec.ofNat n ((upto 0 n).filter (fun k => x.getLsbD k)).length
/-- BREV (R131). -/
def brev (x : Word) : Word := w64 ((upto 0 64).foldl (fun a k => a + b2n (x.getLsbD k) * 2 ^ (63 - k)) 0)

/-- A condition of CMP and CMPI on two patterns (R134). -/
def condHolds (c : Cond) {n : Nat} (x y : BitVec n) : Bool :=
  match c with
  | .eq => x == y
  | .ne => x != y
  | .ltS => decide (x.toInt < y.toInt)
  | .leS => decide (x.toInt ≤ y.toInt)
  | .gtS => decide (y.toInt < x.toInt)
  | .geS => decide (y.toInt ≤ x.toInt)
  | .ltN => decide (x.toNat < y.toNat)
  | .geN => decide (y.toNat ≤ x.toNat)
  | .leN => decide (x.toNat ≤ y.toNat)
  | .gtN => decide (y.toNat < x.toNat)

/-- ADD: x + y (R131). -/
def execAdd (d a b : Reg) (w : Bool) (s : State) : Host.Outcome State Fault Refusal :=
  regOp (.add d a b w) d (fun t => wForm w (fun _ x y => x + y) (t.rd a.toNat) (t.rd b.toNat)) s

/-- SUB: x - y (R131). -/
def execSub (d a b : Reg) (w : Bool) (s : State) : Host.Outcome State Fault Refusal :=
  regOp (.sub d a b w) d (fun t => wForm w (fun _ x y => x - y) (t.rd a.toNat) (t.rd b.toNat)) s

/-- MUL: the low bits of x * y (R131). -/
def execMul (d a b : Reg) (w : Bool) (s : State) : Host.Outcome State Fault Refusal :=
  regOp (.mul d a b w) d (fun t => wForm w (fun _ x y => x * y) (t.rd a.toNat) (t.rd b.toNat)) s

/-- MULH.s (R131). -/
def execMulhS (d a b : Reg) (s : State) : Host.Outcome State Fault Refusal :=
  regOp (.mulhS d a b) d (fun t => mulhS (t.rd a.toNat) (t.rd b.toNat)) s

/-- MULH.n (R131). -/
def execMulhN (d a b : Reg) (s : State) : Host.Outcome State Fault Refusal :=
  regOp (.mulhN d a b) d (fun t => mulhN (t.rd a.toNat) (t.rd b.toNat)) s

/-- A producer that fills one register with a value bound at issue (R128, 05 R116). -/
def divOp (i : Instr) (d : Reg) (f : Thread → Word) (s : State) : Host.Outcome State Fault Refusal :=
  word i s (fun s t => .ok (s.retire (t.produce (regFill d.toNat (f t)))))

/-- DIVS (R132): an empty-bit producer (R128). -/
def execDivs (d a b : Reg) (w : Bool) (s : State) : Host.Outcome State Fault Refusal :=
  divOp (.divs d a b w) d (fun t => wForm w divS (t.rd a.toNat) (t.rd b.toNat)) s

/-- DIVN (R132): an empty-bit producer (R128). -/
def execDivn (d a b : Reg) (w : Bool) (s : State) : Host.Outcome State Fault Refusal :=
  divOp (.divn d a b w) d (fun t => wForm w divN (t.rd a.toNat) (t.rd b.toNat)) s

/-- REMS (R132): an empty-bit producer (R128). -/
def execRems (d a b : Reg) (w : Bool) (s : State) : Host.Outcome State Fault Refusal :=
  divOp (.rems d a b w) d (fun t => wForm w remS (t.rd a.toNat) (t.rd b.toNat)) s

/-- REMN (R132): an empty-bit producer (R128). -/
def execRemn (d a b : Reg) (w : Bool) (s : State) : Host.Outcome State Fault Refusal :=
  divOp (.remn d a b w) d (fun t => wForm w remN (t.rd a.toNat) (t.rd b.toNat)) s

/-- AND (R131). -/
def execAnd (d a b : Reg) (s : State) : Host.Outcome State Fault Refusal :=
  regOp (.and d a b) d (fun t => t.rd a.toNat &&& t.rd b.toNat) s

/-- OR (R131). -/
def execOr (d a b : Reg) (s : State) : Host.Outcome State Fault Refusal :=
  regOp (.or d a b) d (fun t => t.rd a.toNat ||| t.rd b.toNat) s

/-- XOR (R131). -/
def execXor (d a b : Reg) (s : State) : Host.Outcome State Fault Refusal :=
  regOp (.xor d a b) d (fun t => t.rd a.toNat ^^^ t.rd b.toNat) s

/-- ANDN: x & ~y (R131). -/
def execAndn (d a b : Reg) (s : State) : Host.Outcome State Fault Refusal :=
  regOp (.andn d a b) d (fun t => t.rd a.toNat &&& ~~~(t.rd b.toNat)) s

/-- ORN: x | ~y (R131). -/
def execOrn (d a b : Reg) (s : State) : Host.Outcome State Fault Refusal :=
  regOp (.orn d a b) d (fun t => t.rd a.toNat ||| ~~~(t.rd b.toNat)) s

/-- SHL (R131). -/
def execShl (d a b : Reg) (w : Bool) (s : State) : Host.Outcome State Fault Refusal :=
  regOp (.shl d a b w) d (fun t => wForm w (fun n x y => x <<< shAmt n y) (t.rd a.toNat) (t.rd b.toNat)) s

/-- SHR (R131). -/
def execShr (d a b : Reg) (w : Bool) (s : State) : Host.Outcome State Fault Refusal :=
  regOp (.shr d a b w) d (fun t => wForm w (fun n x y => x >>> shAmt n y) (t.rd a.toNat) (t.rd b.toNat)) s

/-- ASR (R131). -/
def execAsr (d a b : Reg) (w : Bool) (s : State) : Host.Outcome State Fault Refusal :=
  regOp (.asr d a b w) d (fun t => wForm w (fun n x y => x.sshiftRight (shAmt n y)) (t.rd a.toNat) (t.rd b.toNat)) s

/-- ROL (R131). -/
def execRol (d a b : Reg) (w : Bool) (s : State) : Host.Outcome State Fault Refusal :=
  regOp (.rol d a b w) d (fun t => wForm w (fun n x y => x.rotateLeft (shAmt n y)) (t.rd a.toNat) (t.rd b.toNat)) s

/-- ROR (R131). -/
def execRor (d a b : Reg) (w : Bool) (s : State) : Host.Outcome State Fault Refusal :=
  regOp (.ror d a b w) d (fun t => wForm w (fun n x y => x.rotateRight (shAmt n y)) (t.rd a.toNat) (t.rd b.toNat)) s

/-- MIN.s (R131). -/
def execMinS (d a b : Reg) (s : State) : Host.Outcome State Fault Refusal :=
  regOp (.minS d a b) d (fun t => if (t.rd a.toNat).toInt ≤ (t.rd b.toNat).toInt then t.rd a.toNat else t.rd b.toNat) s

/-- MIN.n (R131). -/
def execMinN (d a b : Reg) (s : State) : Host.Outcome State Fault Refusal :=
  regOp (.minN d a b) d (fun t => if (t.rd a.toNat).toNat ≤ (t.rd b.toNat).toNat then t.rd a.toNat else t.rd b.toNat) s

/-- MAX.s (R131). -/
def execMaxS (d a b : Reg) (s : State) : Host.Outcome State Fault Refusal :=
  regOp (.maxS d a b) d (fun t => if (t.rd b.toNat).toInt ≤ (t.rd a.toNat).toInt then t.rd a.toNat else t.rd b.toNat) s

/-- MAX.n (R131). -/
def execMaxN (d a b : Reg) (s : State) : Host.Outcome State Fault Refusal :=
  regOp (.maxN d a b) d (fun t => if (t.rd b.toNat).toNat ≤ (t.rd a.toNat).toNat then t.rd a.toNat else t.rd b.toNat) s

/-- CLZ (R131). -/
def execClz (d a : Reg) (w : Bool) (s : State) : Host.Outcome State Fault Refusal :=
  regOp (.clz d a w) d (fun t => wForm w (fun n x _ => clz n x) (t.rd a.toNat) 0) s

/-- POPC (R131). -/
def execPopc (d a : Reg) (w : Bool) (s : State) : Host.Outcome State Fault Refusal :=
  regOp (.popc d a w) d (fun t => wForm w (fun n x _ => popc n x) (t.rd a.toNat) 0) s

/-- BREV (R131). -/
def execBrev (d a : Reg) (s : State) : Host.Outcome State Fault Refusal :=
  regOp (.brev d a) d (fun t => brev (t.rd a.toNat)) s

/-- LEA.x1: g[a] + g[b] * 1 (R131). -/
def execLeaX1 (d a b : Reg) (s : State) : Host.Outcome State Fault Refusal :=
  regOp (.leaX1 d a b) d (fun t => t.rd a.toNat + (t.rd b.toNat) * 1) s

/-- LEA.x2: g[a] + g[b] * 2 (R131). -/
def execLeaX2 (d a b : Reg) (s : State) : Host.Outcome State Fault Refusal :=
  regOp (.leaX2 d a b) d (fun t => t.rd a.toNat + (t.rd b.toNat) * 2) s

/-- LEA.x4: g[a] + g[b] * 4 (R131). -/
def execLeaX4 (d a b : Reg) (s : State) : Host.Outcome State Fault Refusal :=
  regOp (.leaX4 d a b) d (fun t => t.rd a.toNat + (t.rd b.toNat) * 4) s

/-- LEA.x8: g[a] + g[b] * 8 (R131). -/
def execLeaX8 (d a b : Reg) (s : State) : Host.Outcome State Fault Refusal :=
  regOp (.leaX8 d a b) d (fun t => t.rd a.toNat + (t.rd b.toNat) * 8) s

/-- MAD: g[a] * g[b] + g[c] (R133). -/
def execMad (d a b c : Reg) (s : State) : Host.Outcome State Fault Refusal :=
  regOp (.mad d a b c) d (fun t => t.rd a.toNat * t.rd b.toNat + t.rd c.toNat) s

/-- SEL: g[a] if the predicate xor the sense, else g[b] (R133). -/
def execSel (d a b : Reg) (sense : Bool) (p : Pred) (s : State) : Host.Outcome State Fault Refusal :=
  regOp (.sel d a b sense p) d (fun t => if (t.rp p) ^^ sense then t.rd a.toNat else t.rd b.toNat) s

/-- CMP (R134). -/
def execCmp (p : Pred) (a b : Reg) (w : Bool) (c : Cond) (s : State) : Host.Outcome State Fault Refusal :=
  word (.cmp p a b w c) s (fun s t =>
    let x := t.rd a.toNat
    let y := t.rd b.toNat
    .ok (s.retire (t.wp p (if w then condHolds c (x.setWidth 32) (y.setWidth 32) else condHolds c x y))))

/-- CMPI: g[a] against the sign-extended immediate (R134). -/
def execCmpi (c : Cond) (p : Pred) (a : Reg) (imm : BitVec 14) (s : State) : Host.Outcome State Fault Refusal :=
  word (.cmpi c p a imm) s (fun s t => .ok (s.retire (t.wp p (condHolds c (t.rd a.toNat) (sext imm)))))

end Sys2Proof.Machine
end

