-- ==== Sys2Proof/Machine/Imm.lean ====
section
/-! DEFINITION. The immediate forms (06 R135 to R139). -/
namespace Sys2Proof.Machine

/-- ADDI, with a signed immediate (R135). -/
def execAddi (d a : Reg) (i : BitVec 14) (s : State) : Host.Outcome State Fault Refusal :=
  regOp (.addi d a i) d (fun t => t.rd a.toNat + sext i) s

/-- ANDI, with a zero-extended immediate (R135). -/
def execAndi (d a : Reg) (i : BitVec 14) (s : State) : Host.Outcome State Fault Refusal :=
  regOp (.andi d a i) d (fun t => t.rd a.toNat &&& i.setWidth 64) s

/-- ORI, with a zero-extended immediate (R135). -/
def execOri (d a : Reg) (i : BitVec 14) (s : State) : Host.Outcome State Fault Refusal :=
  regOp (.ori d a i) d (fun t => t.rd a.toNat ||| i.setWidth 64) s

/-- XORI, with a zero-extended immediate (R135). -/
def execXori (d a : Reg) (i : BitVec 14) (s : State) : Host.Outcome State Fault Refusal :=
  regOp (.xori d a i) d (fun t => t.rd a.toNat ^^^ i.setWidth 64) s

/-- SHI operation 0: SHL by a constant (R136). -/
def execShli (d a : Reg) (n : BitVec 6) (s : State) : Host.Outcome State Fault Refusal :=
  regOp (.shli d a n) d (fun t => t.rd a.toNat <<< n.toNat) s

/-- SHI operation 1: SHR by a constant (R136). -/
def execShri (d a : Reg) (n : BitVec 6) (s : State) : Host.Outcome State Fault Refusal :=
  regOp (.shri d a n) d (fun t => t.rd a.toNat >>> n.toNat) s

/-- SHI operation 2: ASR by a constant (R136). -/
def execAsri (d a : Reg) (n : BitVec 6) (s : State) : Host.Outcome State Fault Refusal :=
  regOp (.asri d a n) d (fun t => (t.rd a.toNat).sshiftRight n.toNat) s

/-- SHI operation 3: ROR by a constant (R136). -/
def execRori (d a : Reg) (n : BitVec 6) (s : State) : Host.Outcome State Fault Refusal :=
  regOp (.rori d a n) d (fun t => (t.rd a.toNat).rotateRight n.toNat) s

/-- SHI operation 4: SHL.w by a constant (R136). -/
def execShliW (d a : Reg) (n : BitVec 5) (s : State) : Host.Outcome State Fault Refusal :=
  regOp (.shliW d a n) d (fun t => (((t.rd a.toNat).setWidth 32) <<< n.toNat).signExtend 64) s

/-- SHI operation 5: SHR.w by a constant (R136). -/
def execShriW (d a : Reg) (n : BitVec 5) (s : State) : Host.Outcome State Fault Refusal :=
  regOp (.shriW d a n) d (fun t => (((t.rd a.toNat).setWidth 32) >>> n.toNat).signExtend 64) s

/-- SHI operation 6: ASR.w by a constant (R136). -/
def execAsriW (d a : Reg) (n : BitVec 5) (s : State) : Host.Outcome State Fault Refusal :=
  regOp (.asriW d a n) d (fun t => (((t.rd a.toNat).setWidth 32).sshiftRight n.toNat).signExtend 64) s

/-- SHI operation 7: ROR.w by a constant (R136). -/
def execRoriW (d a : Reg) (n : BitVec 5) (s : State) : Host.Outcome State Fault Refusal :=
  regOp (.roriW d a n) d (fun t => (((t.rd a.toNat).setWidth 32).rotateRight n.toNat).signExtend 64) s

/-- MOVI (R137). -/
def execMovi (d : Reg) (i : BitVec 20) (s : State) : Host.Outcome State Fault Refusal :=
  regOp (.movi d i) d (fun _ => sext i) s

/-- A register with halfword h replaced (R137). -/
def putHalf (x : Word) (h : BitVec 2) (i : BitVec 16) : Word := w64 (setBits x.toNat (16 * h.toNat) 16 i.toNat)

/-- MOVHI: replaces halfword h of g[d] (R137). -/
def execMovhi (d : Reg) (h : BitVec 2) (i : BitVec 16) (s : State) : Host.Outcome State Fault Refusal :=
  regOp (.movhi d h i) d (fun t => putHalf (t.rd d.toNat) h i) s

/-- BFX.s: a field, sign-extended (R138). -/
def execBfxS (d a : Reg) (l p : BitVec 6) (s : State) : Host.Outcome State Fault Refusal :=
  regOp (.bfxS d a l p) d (fun t => i64 (sval (wbits (t.rd a.toNat) (p.toNat + l.toNat) p.toNat) (l.toNat + 1))) s

/-- BFX.n: a field, zero-extended (R138). -/
def execBfxN (d a : Reg) (l p : BitVec 6) (s : State) : Host.Outcome State Fault Refusal :=
  regOp (.bfxN d a l p) d (fun t => w64 (wbits (t.rd a.toNat) (p.toNat + l.toNat) p.toNat)) s

/-- BFI: replaces a field of g[d] by the low bits of g[a] (R138). -/
def execBfi (d a : Reg) (l p : BitVec 6) (s : State) : Host.Outcome State Fault Refusal :=
  regOp (.bfi d a l p) d (fun t => w64 (setBits (t.rd d.toNat).toNat p.toNat (l.toNat + 1) (t.rd a.toNat).toNat)) s

/-- LEA.PC: PC + sext64(imm20) * 4 (R139). -/
def execLeaPc (d : Reg) (i : BitVec 20) (s : State) : Host.Outcome State Fault Refusal :=
  regOp (.leaPc d i) d (fun t => t.pc + sext i * 4) s

end Sys2Proof.Machine
end

