-- ==== Sys2Proof/Machine/Packets.lean ====
section
/-! DEFINITION. Lazokel packets (19 R427, R428; 15 R345; 11 R248): what the arrival of each does at a home, at a holder, at the
die of a frame, at G0 and at a requester. The threads' own accesses are steps of their own (log 5), so a reply to one is consumed. -/
namespace Sys2Proof.Machine

/-! The words of a packet (R427). -/

/-- The two header words of a packet: SRC in 3:0, DST in 7:4, OP in 15:8, SDOM in 31:16 and SEQ in 63:32 of word 0; P in 51:0 and NWORDS
in 56:52 of word 1. -/
def headerOf (p : Packet) : List Word :=
  [w64 (p.src % 16 + p.dst % 16 * 2 ^ 4 + p.op % 256 * 2 ^ 8 + p.sdom % 2 ^ 16 * 2 ^ 16 + p.seq % 2 ^ 32 * 2 ^ 32),
   w64 (p.p % 2 ^ 52 + p.payload.length % 32 * 2 ^ 52)]

/-- A packet as it travels: its header, then its payload. -/
def wireOf (p : Packet) : List Word := headerOf p ++ p.payload

/-- The packet that words carry: none where the reserved bits are not 0 or NWORDS does not count the payload. -/
def ofWire : List Word → Option Packet
  | h0 :: h1 :: l =>
    if wbits h1 63 57 = 0 ∧ wbits h1 56 52 = l.length then
      some { src := wbits h0 3 0, dst := wbits h0 7 4, op := wbits h0 15 8, sdom := wbits h0 31 16, seq := wbits h0 63 32
             p := wbits h1 51 0, payload := l }
    else none
  | _ => none

/-- The directory key of a line at a home. -/
def dirKey (p : Packet) : Nat := p.dst * 2 ^ 52 + p.p / 128
/-- The physical place a packet's P names at its destination (log 16). -/
def pktPa (p : Packet) : Nat := Config.packetPlace p.dst p.p
/-- Word k of a payload. -/
def pktW (p : Packet) (k : Nat) : Nat := (p.payload.getD k 0).toNat

def State.dir (s : State) (k : Nat) : DirEnt := Sparse.get DirEnt.init s.directory k
def State.setDir (s : State) (k : Nat) (d : DirEnt) : State := { s with directory := Sparse.set DirEnt.init s.directory k d }

/-- A packet leaves. -/
def State.send (s : State) (p : Packet) : State := { s with net := s.net ++ [p] }

/-- The reply to a request: SRC and DST swapped, its SEQ and P (R428). -/
def replyTo (p : Packet) (op : Nat) (l : List Word) : Packet :=
  { src := p.dst, dst := p.src, op := op, sdom := p.sdom, seq := p.seq, p := p.p, payload := l }

def dataOf (p : Packet) (l : List Word) : Packet := replyTo p 0x81 l
def ackOf (p : Packet) : Packet := replyTo p 0x82 []
def nackOf (p : Packet) (reason : Nat) : Packet := replyTo p 0x83 [w64 reason]
def deferOf (p : Packet) : Packet := replyTo p 0x84 []
def oldOf (p : Packet) (v : Nat) : Packet := replyTo p 0x85 [w64 v]
def iackOf (p : Packet) : Packet := replyTo p 0x86 []
def statOf (p : Packet) (v : Nat) : Packet := replyTo p 0x87 [w64 v]

/-- n data words from a place in a domain, with their sideband (R428). -/
def State.dataWords (s : State) (sdom pa n : Nat) : List Word :=
  let as := (upto 0 n).map (fun k => pa + 8 * k)
  as.map (fun a => w64 (s.numAs sdom a 8)) ++
    [w64 ((upto 0 n).foldl (fun x k =>
      x + b2n (s.isFull (pa + 8 * k)) * 2 ^ k + b2n (s.poisonedIn (pa + 8 * k) 8).isSome * 2 ^ (16 + k)) 0)]

/-- A home or holder sends a request of its own: it carries the next SEQ of its pair (R427). -/
def State.sendReq (s : State) (p : Packet) : State :=
  let k := pairKey p.src p.dst
  let n := Sparse.get 0 s.seqs k
  { s.send { p with seq := n } with seqs := Sparse.set 0 s.seqs k ((n + 1) % 2 ^ 32) }

/-! Requests at a home. -/

/-- A performed request is answered, and its SEQ recorded (15 R345). -/
def State.answer (s : State) (p r : Packet) : State :=
  let k := pairKey p.src p.dst
  let s1 := { s.send r with performed := Sparse.set [] s.performed k (performedWith (Sparse.get [] s.performed k) p.seq) }
  if takesEntry p then { s1 with replies := s1.replies ++ [r] } else s1

/-- A request that takes an entry waits in its source's link queue while the 128 credits of its pair are spent, behind those that wait
there already (15 R345). -/
def State.waitsCredit (s : State) (p : Packet) : Bool := takesEntry p && !s.creditFor p.src p.dst (.packet p.seq)

/-- A request waits for a credit, and keeps its place. -/
def State.queueCredit (s : State) (p : Packet) : State := (s.awaitCredit p.src p.dst (.packet p.seq)).send p

/-- A request waits for a credit no more. -/
def State.takesTurn (s : State) (p : Packet) : State :=
  { s with credq := s.credq.erase (pairKey p.src p.dst, .packet p.seq) }

/-- Whether a request was performed before (11 R248). -/
def State.seenSeq (s : State) (p : Packet) : Bool := (Sparse.get [] s.performed (pairKey p.src p.dst)).contains p.seq

/-- The status word in the answer to a retry of a thread operation, which no reply cache keeps: a free value (log 114). -/
def State.statAgain (s : State) : Nat := Config.free 114 s.draws % 2

/-- The answer to a retry of a performed request (11 R248, 15 R345): the held reply; else one of the kind that R428 gives the request,
where what is read is read again. -/
def State.retryReply (s : State) (p : Packet) : Packet :=
  match s.replies.find? (fun r => r.dst == p.src && r.src == p.dst && r.seq == p.seq) with
  | some r => r
  | none =>
    if p.op ≤ 0x03 then dataOf p (s.dataWords p.sdom (pktPa p) 16)
    else if p.op = 0x0D then iackOf p
    else if p.op = 0x0E ∧ pktW p 0 = 1 then dataOf p (s.dataWords p.sdom (alignDown (physAddr hostUnit p.p) 128) 16)
    else if p.op = 0x0F ∧ pktW p 0 = 0 then dataOf p [s.windowRead p.p, 0]
    else if p.op = 0x0B ∧ (3 ≤ pktW p 0 ∧ pktW p 0 ≤ 5 ∨ pktW p 0 = 1 ∧ s.statAgain = 1) then statOf p s.statAgain
    else ackOf p

/-- The function of an ATOM by its code (03 R78, 11 R246). -/
def atomFun (op n x y : Nat) : Nat :=
  match op with
  | 0 => x + y
  | 1 => x &&& y
  | 2 => x ||| y
  | 3 => x ^^^ y
  | 4 => if sval x (8 * n) ≤ sval y (8 * n) then x else y
  | 5 => min x y
  | 6 => if sval x (8 * n) ≤ sval y (8 * n) then y else x
  | 7 => max x y
  | 8 => y
  | 9 => (f32.add .rne (f32.decode x) (f32.decode y)).1
  | 10 => (f64.add .rne (f64.decode x) (f64.decode y)).1
  | _ => (f32.minmax true x y).1

/-- The size of an ATM and the value it writes, if any (R428, 11 R246). -/
def atmWrite (p : Packet) (old : Nat → Nat) : Nat × Option Nat :=
  let y := pktW p 1
  match bits (pktW p 0) 9 8 with
  | 0 => let n := 2 ^ bits (pktW p 0) 3 2; (n, some (atomFun (bits (pktW p 0) 7 4) n (old n) (y % 2 ^ (8 * n))))
  | 1 => (4, if old 4 = pktW p 2 % 2 ^ 32 then some (y % 2 ^ 32) else none)
  | _ => (8, if old 8 = pktW p 2 then some y else none)

/-- Write the words of a masked write (R428): bit 8w + b of the mask enables byte b of data word w. A word written whole takes
the sideband's poison mark. Nothing is written where the packet's domain may use no byte (10 R232, R233; log 16). -/
def State.maskedWrite (s : State) (sdom pa mask : Nat) (data : List Word) (side : Nat) : State :=
  if !s.placeAdmits sdom pa then s else
  ((upto 0 data.length).zip data).foldl (fun s x =>
    let a := pa + 8 * x.1
    let s1 := (upto 0 8).foldl (fun s b =>
      if bit mask (8 * x.1 + b) then s.writeRaw sdom (a + b) [BitVec.ofNat 8 (x.2.toNat / 2 ^ (8 * b))] else s) s
    if bits mask (8 * x.1 + 7) (8 * x.1) = 0xFF then
      if bit side (16 + x.1) then s1.markPoison a else s1.unpoison a 8
    else s1) s

/-- A full/empty request at its home (R428, 11 R250, R251). -/
def State.feRequest (s : State) (p : Packet) (pa : Nat) : State × Packet :=
  let kind := bits (pktW p 0) 1 0
  let full := s.isFull pa
  if !s.placeAdmits p.sdom pa then (s, nackOf p 3)
  else if kind ≤ 1 then
    if full then (((s.takeWord pa none (kind == 1)).serveDeferred pa none), dataOf p (s.dataWords p.sdom pa 1))
    else if s.deferralsOf p.dst (homeSlice p.p) < 64 then
      let e : Deferral := { die := p.dst, slice := homeSlice p.p, pa := pa, va := Config.free 26 s.draws
                            tid := some { sdom := p.sdom, handle := bits (pktW p 1) 46 0 }, reg := bits (pktW p 0) 21 16, keep := kind == 1 }
      ({ s with deferrals := s.deferrals ++ [e] }, deferOf p)
    else (s, nackOf p 2)
  else if kind = 3 ∨ full = false then
    ((((s.perform p.sdom pa none (toBytes 8 (pktW p 2))).setFe pa none true).serveDeferred pa none), ackOf p)
  else (s, nackOf p 3)

/-- Perform an ATM, whose words are q's, on the word at pa (R428): of a poisoned word nothing is written, and the answer carries its
mark (18 R418). -/
def State.atmAt (s : State) (p q : Packet) (pa : Nat) : State :=
  match s.poisonedIn (alignDown pa 8) 8 with
  | some _ => s.answer p (dataOf p (s.dataWords p.sdom (alignDown pa 8) 1))
  | none =>
    let old := fun n => s.numAs p.sdom pa n
    let (n, v) := atmWrite q old
    let s1 := match v with | some x => if s.placeAdmits p.sdom pa then s.perform p.sdom pa none (toBytes n x) else s | none => s
    s1.answer p (oldOf p (old n))

/-- Perform a request at its home and answer it (R428). A negative acknowledgement performs nothing. -/
def State.performReq (s : State) (p : Packet) : State :=
  let pa := (pktPa p)
  let k := dirKey p
  let d := s.dir k
  match p.op with
  | 0x01 => (s.setDir k { d with sharers := SSet.add d.sharers p.src }).answer p (dataOf p (s.dataWords p.sdom pa 16))
  | 0x02 => (s.setDir k { d with sharers := [], owner := some p.src }).answer p (dataOf p (s.dataWords p.sdom pa 16))
  | 0x03 => s.answer p (dataOf p (s.dataWords p.sdom pa 16))
  | 0x04 =>
    let s1 := s.maskedWrite p.sdom pa (2 ^ 128 - 1) (p.payload.take 16) (pktW p 16)
    let s2 := (upto 0 16).foldl (fun s w => s.setFull (pa + 8 * w) (bit (pktW p 16) w)) s1
    (s2.checkWatches.setDir k { d with owner := if d.owner = some p.src then none else d.owner, sharers := SSet.del d.sharers p.src }).answer
      p (ackOf p)
  | 0x05 =>
    let n := p.payload.length - 2
    ((s.maskedWrite p.sdom pa (pktW p 0) ((p.payload.drop 1).take n) (pktW p (n + 1))).checkWatches).answer p (ackOf p)
  | 0x06 => s.atmAt p p pa
  | _ =>
    let (s1, r) := s.feRequest p pa
    if r.op = 0x83 then s1.send r else s1.answer p r

/-- The holders a home must hear from before it performs a request: the owner, and for a request that writes or takes the line
every sharer (R428, 11 R247). -/
def holdersOf (d : DirEnt) (p : Packet) : List (Nat × Nat) :=
  (match d.owner with | some o => if o = p.src ∨ p.op = 0x04 then [] else [(o, 0x09)] | none => []) ++
  (if p.op = 0x02 ∨ 0x05 ≤ p.op then (d.sharers.filter (fun x => x ≠ p.src)).map (fun x => (x, 0x08)) else [])

/-- A request reaches its home: a retry of one performed is answered from what was kept; one for a line whose home waits for
holders waits too, as does one without a credit; the rest is performed once the holders have answered. -/
def State.atHome (s : State) (p : Packet) : State :=
  let k := dirKey p
  let d := s.dir k
  if s.seenSeq p then s.send (s.retryReply p)
  else if d.req.isSome then s.send p
  else if s.waitsCredit p then s.queueCredit p
  else match holdersOf d p with
    | [] => (s.takesTurn p).performReq p
    | l =>
      let s1 := (s.takesTurn p).setDir k { d with waits := l.map (·.1), req := some p }
      l.foldl (fun s x => s.sendReq { src := p.dst, dst := x.1, op := x.2, sdom := p.sdom, seq := 0, p := alignDown p.p 128, payload := [] }) s1

/-- A holder has answered INV or RCL: it holds the line no more, and once all have the request is performed. -/
def State.holderAnswered (s : State) (p : Packet) : State :=
  let k := dirKey p
  let d := s.dir k
  if !d.waits.contains p.src then s
  else
    let s1 := if p.op = 0x81 then s.maskedWrite p.sdom (alignDown (pktPa p) 128) (2 ^ 128 - 1) (p.payload.take 16) (pktW p 16) else s
    let w := d.waits.filter (fun x => x ≠ p.src)
    let d1 := { d with waits := w, sharers := SSet.del d.sharers p.src, owner := if d.owner = some p.src then none else d.owner }
    match w, d.req with
    | [], some r => (s1.setDir k { d1 with req := none }).performReq r
    | _, _ => s1.setDir k d1

/-! Arrival. -/

/-- NWORDS matches OP (R428). -/
def wordsMatch (p : Packet) : Bool :=
  let n := p.payload.length
  match p.op with
  | 0x01 | 0x02 | 0x03 | 0x08 | 0x09 | 0x82 | 0x84 | 0x86 | 0x8F => n == 0
  | 0x04 => n == 17
  | 0x05 | 0x0A => decide (3 ≤ n) && decide (n ≤ 10)
  | 0x06 => n == 3
  | 0x07 => if bits (pktW p 0) 1 0 ≤ 1 then n == 2 else n == 3
  | 0x0B => decide (1 ≤ n) && decide (n ≤ 17)
  | 0x0C => decide (0 < n) && n % 2 == 0 && decide (n ≤ 16)
  | 0x0D => n == 4
  | 0x0E => match pktW p 0 with | 1 => n == 1 | 2 => decide (4 ≤ n) && decide (n ≤ 11) | 3 => n == 4 | _ => false
  | 0x0F => n == 2
  | 0x81 => decide (2 ≤ n) && decide (n ≤ 17)
  | 0x83 | 0x85 | 0x87 => n == 1
  | _ => false

/-- A malformed packet is discarded, and counted on the die that receives it, a G-die too (R428, 17 R396). -/
def State.discardPacket (s : State) (p : Packet) : State := State.countErr { s with net := s.net.erase p } p.dst 3

/-- A packet arrives, if a route joins its ends (R431): it is in flight no more. -/
def packetEvent (op : Nat) (p : Packet) (s : State) (f : State → State) : Host.Outcome State Fault Refusal :=
  event (if s.stage ≠ .running ∨ p.op ≠ op ∨ s.linked p.src p.dst = false then s
    else if !wordsMatch p then s.discardPacket p
    else f { s with net := s.net.erase p })

/-- RDS (R428). -/
def execRds (p : Packet) (s : State) : Host.Outcome State Fault Refusal := packetEvent 0x01 p s (fun s => s.atHome p)
/-- RDX (R428). -/
def execRdx (p : Packet) (s : State) : Host.Outcome State Fault Refusal := packetEvent 0x02 p s (fun s => s.atHome p)
/-- RDU (R428). -/
def execRdu (p : Packet) (s : State) : Host.Outcome State Fault Refusal := packetEvent 0x03 p s (fun s => s.atHome p)
/-- WBL (R428). -/
def execWbl (p : Packet) (s : State) : Host.Outcome State Fault Refusal := packetEvent 0x04 p s (fun s => s.atHome p)
/-- WRM (R428). -/
def execWrm (p : Packet) (s : State) : Host.Outcome State Fault Refusal := packetEvent 0x05 p s (fun s => s.atHome p)
/-- ATM (R428). -/
def execAtm (p : Packet) (s : State) : Host.Outcome State Fault Refusal := packetEvent 0x06 p s (fun s => s.atHome p)
/-- FEO (R428). -/
def execFeo (p : Packet) (s : State) : Host.Outcome State Fault Refusal := packetEvent 0x07 p s (fun s => s.atHome p)

/-- INV at a holder (R428): its copy goes. -/
def execInv (p : Packet) (s : State) : Host.Outcome State Fault Refusal := packetEvent 0x08 p s (fun s => s.send (iackOf p))

/-- RCL at an owner (R428): a context line its context caches hold is modified; every other line is clean here (log 6). -/
def execRcl (p : Packet) (s : State) : Host.Outcome State Fault Refusal :=
  packetEvent 0x09 p s (fun s => match s.lineAt (pktPa p) with
    | some (t, i) =>
      if dieOf t.core = p.dst ∧ t.holdsSlot then s.send (dataOf p (t.lineWords i ++ [w64 0xFFFF])) else s.send (iackOf p)
    | none => s.send (iackOf p))

/-- CTX at the holder of a frame line (R428): the bytes its mask enables. -/
def execCtx (p : Packet) (s : State) : Host.Outcome State Fault Refusal :=
  packetEvent 0x0A p s (fun s =>
    if s.seenSeq p then s.send (s.retryReply p)
    else
      let n := p.payload.length - 2
      (s.maskedWrite p.sdom (pktPa p) (pktW p 0) ((p.payload.drop 1).take n) (pktW p (n + 1))).checkWatches.answer p (ackOf p))

/-! Thread operations. -/

/-- Operands of a message (16 R356): the target word, then the payload; the sender's handle follows. -/
def State.thrMessage (s : State) (p : Packet) (u : Thread) : State × Packet :=
  if u.incnt < 4 then
    (s.deliver u { payload := p.payload.getD 2 0, src := bits (pktW p 3) 46 0, tag := bits (pktW p 1) 63 48 }, ackOf p)
  else (s, nackOf p 1)

/-- The caller that a task request names, and its core: the lowest of the sending die where no such thread lives (log 16). -/
def taskCaller (p : Packet) : Tid := { sdom := p.sdom, handle := bits (pktW p 8) 46 0 }
def State.taskSource (s : State) (p : Packet) : Nat :=
  match s.find (taskCaller p) with
  | some t => t.core
  | none => p.src * 256

/-- Whether a task request may arrive in this cycle (15 R338, R346). -/
def State.taskArrives (s : State) (p : Packet) : Bool :=
  let c := s.core (s.refuge (bits (pktW p 1) 60 50))
  orderedArrival c.arrived c.cycle (s.taskSource p)

/-- A task request (16 R353): the task word, the entry PC, the arguments, REGION and the caller. -/
def State.thrTask (s : State) (p : Packet) : State × Packet :=
  let task := pktW p 1
  let core := s.refuge (bits task 60 50)
  let c0 := s.core core
  let c := { c0 with arrived := some (c0.cycle, s.taskSource p) }
  let from' := taskCaller p
  let e : TaskEnt :=
    { pc := p.payload.getD 2 0, args := (upto 3 4).map (fun k => p.payload.getD k 0), region := pktW p 7
      home := (match s.find from' with | some t => t.home | none => p.sdom), sdom := p.sdom, lines := bits task 48 47 + 1
      handle := bits task 46 0, caller := p.payload.getD 8 0, from' := from', parked := false }
  if c.taskRes.admits c.taskq.length 64 from' then
    (s.setCore core { c with taskq := c.taskq ++ [e], taskRes := c.taskRes.accepted from' }, ackOf p)
  else (s.setCore core { c with taskRes := c.taskRes.nacked c.taskq.length 64 from' }, nackOf p 1)

/-- A thread operation on a live thread (R428; 16 R356, R363, R367; 11 R252). -/
def State.thrOn (s : State) (p : Packet) (u : Thread) : State × Packet :=
  match pktW p 0 with
  | 1 => s.thrMessage p u
  | 3 => if u.st = .waiting .wait then (s.endWaitKind u, statOf p 1) else (s, statOf p 0)
  | 4 => if u.st = .faulted then (s.resumeThread u, statOf p 0) else (s, statOf p 1)
  | 5 => (if s.mayLeave u then s.killNow u none else s.put { u with killed := true }, statOf p 0)
  | 6 => (s.put (u.wr (bits (pktW p 1) 5 0) (p.payload.getD 2 0)), ackOf p)
  | _ => (s, ackOf p)

/-- A thread operation: what it does where the frame names no live thread. -/
def State.thrNone (s : State) (p : Packet) : State × Packet :=
  match pktW p 0 with
  | 1 => (s, statOf p 1)
  | 3 => (s, statOf p 0)
  | 4 => (s, statOf p 1)
  | 5 => (s, statOf p 1)
  | _ => (s, ackOf p)

/-- The live thread whose control line is at a place and whose frame the device dropped (05 R125): its page is present again. -/
def State.droppedAt (s : State) (pa : Nat) : Option Thread :=
  s.threads.find? (fun u => u.placed.isNone && (match s.framePlaces (dieOf u.core) u.id with
    | .ok l => l.getD 0 0 == alignDown pa 128
    | .error _ => false))

/-- A thread operation on the frame at a place: what it does to the live thread there, its held writes performed first (22 R471). -/
def State.thrAt (s : State) (p : Packet) (pa : Nat) : State × Packet :=
  match s.lineAt pa, s.droppedAt pa with
  | some (u, 0), _ => s.thrOn p u
  | some _, _ => s.thrNone p
  | none, some u => match s.ensureFrame u with
    | .ok s1 => s1.thrOn p (s1.again u)
    | .error _ => s.thrNone p
  | none, none => s.thrNone p

/-- Whether a thread operation waits: for its turn among the arrivals of a cycle, or for the lines of the frame (13 R303). -/
def State.thrWaits (s : State) (p : Packet) : Bool :=
  if pktW p 0 = 2 then !s.taskArrives p
  else match s.droppedAt (pktPa p) with
    | some u => s.frameWaits (dieOf u.core) u.id
    | none => false

/-- THR (R428). -/
def execThrPacket (p : Packet) (s : State) : Host.Outcome State Fault Refusal :=
  packetEvent 0x0B p s (fun s =>
    if s.seenSeq p then s.send (s.retryReply p)
    else if s.thrWaits p then s.send p
    else
      let (s1, r) := if pktW p 0 = 2 then s.thrTask p else s.thrAt p (pktPa p)
      if r.op = 0x83 then s1.send r else s1.answer p r)

/-- The deferral entries a DMV carries (R428, 11 R254): two words each, the first with the kind in 0, the register in 21:16 and the
word of the line in 27:24, the second the thread's handle. -/
def movedEntries (p : Packet) (va : Nat) : List Deferral :=
  (upto 0 (p.payload.length / 2)).map (fun k =>
    let a := pktW p (2 * k)
    { die := p.dst, slice := homeSlice p.p, pa := Config.packetPlace p.dst (p.p + 8 * bits a 27 24), va := va
      tid := some { sdom := p.sdom, handle := bits (pktW p (2 * k + 1)) 46 0 }, reg := bits a 21 16, keep := bit a 0 })

/-- DMV (R428, 11 R254): the new home takes the entries even when its own are in use. -/
def execDmv (p : Packet) (s : State) : Host.Outcome State Fault Refusal :=
  packetEvent 0x0C p s (fun s =>
    if s.seenSeq p then s.send (s.retryReply p)
    else
      let l := movedEntries p (Config.free 26 s.draws)
      let s1 := { s with deferrals := s.deferrals ++ l }
      (l.foldl (fun s e => s.serveDeferred e.pa none) s1).answer p (ackOf p))

/-- The cores of a die drop translations, and the die walk-cache entries (13 R299). -/
def State.tlbDropOn (s : State) (die : Nat) (f : TlbEnt → Bool) (h : WalkEnt → Bool) : State :=
  let x := s.die die
  let s1 := s.setDie die { x with walks := x.walks.filter (fun e => !h e) }
  { s1 with cores := s1.cores.map (fun (c : Nat × Core) =>
      if dieOf c.1 = die then (c.1, { c.2 with
        tlb := c.2.tlb.filter (fun (e : TlbEnt) => !f e)
        fresh := c.2.fresh.filter (fun (x : Fresh) => !f x.ent) }) else c) }

/-- TLBINV on one die (13 R299, 05 R125, 08 R192): as `State.invalidate`, for what stands on the die. -/
def State.invalidateOn (s : State) (die sdom : Nat) (l : List (Nat × Nat)) : State :=
  let s1 := (s.flushExtents sdom l).tlbDropOn die (fun e => e.sdom == sdom && meetsAny l (e.base, e.size))
    (fun e => e.sdom == sdom && meetsAny l (e.base, e.size))
  let s2 := { s1 with threads := s1.threads.map (fun (t : Thread) =>
    if dieOf t.core == die && t.frameIn sdom l && t.holdsSlot then { t with preempt := true } else t) }
  let s3 := s2.dropFramesIn sdom l none
  { s3 with gangs := s3.gangs.map (fun (g : Gang) =>
      if g.inExtents sdom l && g.cores.any (fun c => dieOf c == die) then { g with saving := true } else g) }

/-- Whether that is done: nothing of the range stands on the die any more. -/
def State.invalidatedOn (s : State) (die sdom : Nat) (l : List (Nat × Nat)) : Bool :=
  !s.threads.any (fun t => dieOf t.core == die &&
    (t.accessIn sdom l || (t.frameIn sdom l && t.holdsSlot && t.preempt && !t.invalidating))) &&
  !s.gangs.any (fun g => g.inExtents sdom l && g.saving && g.cores.any (fun c => dieOf c == die)) &&
  !s.early.any (fun x => dieOf x.core == die && x.inExtents sdom l)

/-- GTSYNC on one die (13 R300): the entry is read again, and the translations that name it go. -/
def State.gtsyncOn (s : State) (die idx : Nat) : State :=
  match s.devRead die 0 (s.gtbase.toNat + 8 * idx) 8 with
  | .error _ => s
  | .ok v =>
    let x := s.die die
    (s.setDie die { x with gcache := Sparse.set 0 x.gcache idx (w64 v) }).tlbDropOn die (fun e => Leaf.gidx e.leaf == idx) (fun _ => false)

/-- INVT (R428): TLBINV or GTSYNC on the receiving die (13 R299, R300), answered once it is done there. -/
def execInvt (p : Packet) (s : State) : Host.Outcome State Fault Refusal :=
  packetEvent 0x0D p s (fun s =>
    if s.seenSeq p then s.send (s.retryReply p)
    else if pktW p 0 = 0 then
      let l := s.tlbExtents (pktW p 1) (if pktW p 3 = 0 then allExtent else (alignDown (pktW p 2) 16384, 16384 * pktW p 3))
      let s1 := s.invalidateOn p.dst (pktW p 1) l
      if s1.invalidatedOn p.dst (pktW p 1) l then s1.answer p (iackOf p) else s1.send p
    else (s.gtsyncOn p.dst (pktW p 2 % 1024)).answer p (iackOf p))

/-- HST (R428): a host-tier request at G0, on host physical addresses; it waits while the host link retrains or has failed, and one beyond
them names no byte (R439; log 16). -/
def execHst (p : Packet) (s : State) : Host.Outcome State Fault Refusal :=
  packetEvent 0x0E p s (fun s =>
    let pa := physAddr hostUnit p.p
    let q := { p with payload := p.payload.drop 1 }
    if s.seenSeq p then s.send (s.retryReply p)
    else if 2 ^ 48 ≤ p.p then s
    else if !s.linked p.dst 12 then s.send p
    else if s.waitsCredit p then s.queueCredit p
    else match pktW p 0 with
      | 1 => s.answer p (dataOf p (s.dataWords p.sdom (alignDown pa 128) 16))
      | 2 =>
        let n := q.payload.length - 2
        (s.maskedWrite p.sdom pa (pktW q 0) ((q.payload.drop 1).take n) (pktW q (n + 1))).checkWatches.answer p (ackOf p)
      | _ => (s.takesTurn p).atmAt p q pa)

/-- MGT (R428): a management-window access of G0 at a die. -/
def execMgt (p : Packet) (s : State) : Host.Outcome State Fault Refusal :=
  packetEvent 0x0F p s (fun s =>
    if s.seenSeq p then s.send (s.retryReply p)
    else if pktW p 0 = 0 then s.answer p (dataOf p [s.windowRead p.p, 0])
    else (s.windowWrite p.p (p.payload.getD 1 0)).answer p (ackOf p))

/-! Replies. -/

/-- DATA (R428): the answer to a home's RCL brings the modified line; any other is consumed by its requester. -/
def execData (p : Packet) (s : State) : Host.Outcome State Fault Refusal := packetEvent 0x81 p s (fun s => s.holderAnswered p)
/-- ACK (R428). -/
def execAck (p : Packet) (s : State) : Host.Outcome State Fault Refusal := packetEvent 0x82 p s (fun s => s)
/-- NACK (R428). -/
def execNack (p : Packet) (s : State) : Host.Outcome State Fault Refusal := packetEvent 0x83 p s (fun s => s)
/-- DEFER (R428). -/
def execDefer (p : Packet) (s : State) : Host.Outcome State Fault Refusal := packetEvent 0x84 p s (fun s => s)
/-- OLD (R428). -/
def execOld (p : Packet) (s : State) : Host.Outcome State Fault Refusal := packetEvent 0x85 p s (fun s => s)
/-- IACK (R428): a holder's answer to INV, or to RCL of a clean line. -/
def execIack (p : Packet) (s : State) : Host.Outcome State Fault Refusal := packetEvent 0x86 p s (fun s => s.holderAnswered p)
/-- STAT (R428). -/
def execStat (p : Packet) (s : State) : Host.Outcome State Fault Refusal := packetEvent 0x87 p s (fun s => s)

/-- CACK (R428, 15 R345): the reply-cache entries of the pair up to SEQ are freed. -/
def execCack (p : Packet) (s : State) : Host.Outcome State Fault Refusal :=
  packetEvent 0x8F p s (fun s =>
    { s with replies := s.replies.filter (fun r => !(r.dst == p.src && r.src == p.dst &&
        decide ((p.seq + 2 ^ 32 - r.seq) % 2 ^ 32 < 2 ^ 31))) })

/-- Step LAZOKEL_FLIT_RETRY (17 R396). -/
def execLazokelFlitRetry (die : Nat) (s : State) : Host.Outcome State Fault Refusal := event (s.countErr die 3)

/-- Step UNASSIGNED_OP_PACKET (R428). -/
def execUnassignedOpPacket (p : Packet) (s : State) : Host.Outcome State Fault Refusal :=
  event (if s.stage = .running ∧ wordsMatch p = false then s.discardPacket p else s)

end Sys2Proof.Machine
end

