-- ==== Sys2Proof/Machine/Upcall.lean ====
section
/-! DEFINITION. Upcalls (18 R403 to R407): where a record goes, which record is served next, and the handler thread. -/
namespace Sys2Proof.Machine

/-- Where a record is delivered (R405, R406): a region of a home domain, or the machine-check log, holding the tree of a root. -/
inductive Dest where
  | region (home rcb : Nat)
  | log (sdom fdom root : Nat)
  deriving DecidableEq, Repr

/-- R406: an escalation at a root. -/
def State.rootDest (s : State) (die home root : Nat) : Dest :=
  match s.rcb die home root with
  | none => .log home 0xFFFF root
  | some r => match s.fdtOf r.fdom with
    | some f => if f.mcregion = 0 then .log f.sdom f.fdom root else .region f.sdom f.mcregion
    | none => .log home r.fdom root

/-- R405: an escalation from a region: its parent, or the root's destination. -/
def State.parentDest (s : State) (die home rcb : Nat) : Dest :=
  match s.rcb die home rcb with
  | none => .log home 0xFFFF rcb
  | some r => if r.parent = 0 then s.rootDest die home rcb else .region home r.parent

/-- R405: the destination of a record. -/
def State.dest (s : State) (die : Nat) (r : Rec) : Dest :=
  if r.mcDom.isSome then .region r.home r.region
  else if r.esc then
    match r.pool with
    | some (home, rcb) => s.parentDest die home rcb
    | none => s.rootDest die r.home r.addr.toNat
  else
    let fd := match s.chain die r.home r.region with
      | .ok l => s.fdtOf (effFdom l)
      | .error _ => none
    match fd with
    | some f =>
      if (r.cause = .breakpoint ∨ r.cause = .step) ∧ f.brkdbg = true ∧ f.dbgregion ≠ 0 then .region f.sdom f.dbgregion
      else .region r.home r.region
    | none => if r.region = 0 then s.rootDest die r.home r.addr.toNat else .region r.home r.region

/-- R403: whether a record comes before another. -/
def recBefore (a b : Rec) : Bool :=
  let k := fun (r : Rec) => [r.tick, r.core, b2n r.async, match r.tid with | some i => i.handle | none => 0]
  let rec lt : List Nat → List Nat → Bool
    | x :: l, y :: m => decide (x < y) || (x == y && lt l m)
    | _, _ => false
  lt (k a) (k b)

/-- Whether a handler serves a record's thread now (R403). -/
def State.beingServed (s : State) (r : Rec) : Bool :=
  match r.tid with
  | none => false
  | some i => s.threads.any (fun t => match t.served with | some q => q.tid == some i | none => false)

/-- The pool of a region's chain (R404): its owner, base, size and busy bits. -/
structure Pool where
  owner : Nat
  base : Nat
  size : Nat
  busy : Nat
  deriving DecidableEq, Repr

/-- The pool a chain's region uses (R41, R404). -/
def poolFor (l : List (Nat × Rcb)) : Option Pool :=
  (poolOwner l).map (fun x => { owner := x.1, base := x.2.hpool, size := effHcount l, busy := x.2.hbusy })

/-- The lowest clear bit below the count (R404). -/
def Pool.free (p : Pool) : Option Nat := (upto 0 p.size).find? (fun k => !bit p.busy k)
/-- More than half of the frames are free (R407). -/
def Pool.mostlyFree (p : Pool) : Bool :=
  decide (p.size < 2 * ((upto 0 p.size).filter (fun k => !bit p.busy k)).length)

/-- What serving a record does. -/
inductive Service where
  /-- it waits (R403) -/
  | wait
  /-- a page request without room is dropped (R407) -/
  | drop
  /-- it goes to the log (R406) -/
  | log (sdom fdom root : Nat)
  /-- the destination region's chain holds an invalid RCB (R42) -/
  | invalid (home bad : Nat)
  /-- a handler of a region, with its chain, in a frame of its pool -/
  | handler (home rcb : Nat) (chain : List (Nat × Rcb)) (pool : Pool) (k : Nat)
  deriving DecidableEq, Repr

/-- An invalid RCB found in serving a record raises a region fault, unless one was raised within 100 us (R42). -/
def State.invalidNow (s : State) (core home bad : Nat) : Service :=
  if (s.core core).faultTimes.any (fun x => x.1 == bad && decide (s.tick < x.2 + 100000)) then .wait else .invalid home bad

/-- R403, R405, R407: what can be done with a record now; a record whose region's counts or whose frame waits waits (13 R303, 10 R233). -/
def State.service (s : State) (die : Nat) (r : Rec) : Service :=
  if s.beingServed r then .wait
  else match s.dest die r with
    | .log a b c => .log a b c
    | .region home rcb => if s.chainWaits die home 9 rcb then .wait else match s.chain die home rcb with
      | .error b => s.invalidNow r.core home b
      | .ok l => match poolFor l with
        | none => s.invalidNow r.core home rcb
        | some p =>
          if r.cause = .pageRequest ∧ p.mostlyFree = false then .drop
          else match p.free with
            | none => .wait
            | some k =>
              if s.pathWaits die home (p.owner :: l.map (·.1)) ||
                s.frameWaits die { sdom := effSdom l, handle := handleOf (p.base + 1024 * k) } then .wait
              else .handler home rcb l p k

/-- The next record to serve, with its place in the queue (R403). -/
def State.nextRec (s : State) (die : Nat) : Option (Nat × Rec) :=
  let q := (s.die die).upq
  (((upto 0 q.length).zip q).filter (fun x => s.service die x.2 != .wait)).foldl (fun (a : Option (Nat × Rec)) x => match a with
    | none => some x
    | some y => if recBefore x.2 y.2 then some x else some y) none

/-- The handler thread of a record (R404). -/
def State.handlerThread (s : State) (i : Tid) (home rcb : Nat) (l : List (Nat × Rcb)) (p : Pool) (k core : Nat) (r : Rec)
    (places : List Nat) : Thread :=
  let args := r.words
  { id := i, home := home, core := core, st := .ready, slot := none, pc := w64 (effUpcall l), pred := 1, lines := 4
    g := Vector.ofFn (fun n : Fin 64 => if 1 ≤ n.val ∧ n.val ≤ 6 then args.getD (n.val - 1) 0 else 0)
    fe := w64 (2 ^ 64 - 1), emt := 0, fpf := 0, rnd := 1, stkp := 0, prio := effPrio l, priol := false, hnd := true
    upv := match r.tid with | some j => j.handle | none => 0
    fcause := 0, region := rcb, waitarg := 0, deadline := w64 (2 ^ 64 - 1), incnt := 0, inhead := 0
    msgs := Vector.replicate 4 { payload := 0, src := 0, tag := 0 }, age := 0, aged := 0, readySince := s.tick
    slotSince := 0, waitSince := 0, ctl := false, linesIn := [], placed := some places, snap := [], stores := [], fills := []
    walk := none, retryAt := 0, killed := false, asyncs := [], stepped := false, preempt := false, launch := none
    gang := none, pend := none, iword := 0, cond := none, pool := some (home, p.owner, k), served := some r }

/-- R404, R406: the pool frame is unusable: an escalation from the region. -/
def escalated (r : Rec) (home rcb : Nat) : Rec :=
  { r with cause := .regionFault, esc := true, detail := r.cause.code, addr := w64 rcb, pool := some (home, rcb), mcDom := none }

/-- R404: create the handler thread of a record, or escalate: also where the creation finds its domain with V = 0 (20 R460; log 113). -/
def State.serve (s : State) (die : Nat) (r : Rec) (home rcb : Nat) (l : List (Nat × Rcb)) (p : Pool) (k : Nat) : State :=
  let i : Tid := { sdom := effSdom l, handle := handleOf (p.base + 1024 * k) }
  let s0 := s.settleHeld i
  match s0.framePlaces die i [0, 1, 2, 3, 4, 5] with
  | .error _ => s0.pushRec die (escalated r home rcb)
  | .ok places =>
    if (s0.find i).isSome || !(s0.domain i.sdom).v then s0.pushRec die (escalated r home rcb)
    else
      let s1 := match s0.devWrite die home (p.owner + 0x58) (toBytes 8 (p.busy ||| 2 ^ k)) with
        | .ok s' => s'
        | .error _ => s0
      let t := s1.handlerThread i home rcb l p k (s1.refuge r.core) r places
      let s1 := s1.freshFrame [0, 1, 2, 3, 4, 5] places
      let s2 := { s1.touch die i.sdom (frameAddr i.handle) true with threads := s1.threads ++ [t] }
      (s2.charge die home .ctx 1 (s2.path die home rcb)).touchPath die home (l.map (·.1))

/-- Step UPCALL_SERVE (R404). -/
def execUpcallServe (die : Nat) (s : State) : Host.Outcome State Fault Refusal :=
  event (match s.nextRec die with
    | none => s
    | some (n, r) =>
      let x := s.die die
      let s1 := s.setDie die { x with upq := removeNth n x.upq }
      match s.service die r with
      | .wait => s
      | .drop => s1
      | .log sdom fdom root => s1.logRec r sdom fdom root
      | .invalid home bad => s.regionFault r.core home bad
      | .handler home rcb l p k => s1.serve die r home rcb l p k)

end Sys2Proof.Machine
end

