-- ==== Sys2Proof/Machine/Dispatch.lean ====
section
/-! DEFINITION. The dispatch of every instruction and step to its meaning. -/
namespace Sys2Proof.Machine

/-- The meaning of one instruction word or step. -/
def exec (i : Instr) (s : State) : Host.Outcome State Fault Refusal :=
  match i with
  | .add d a b w => Sys2Proof.Machine.execAdd d a b w s
  | .sub d a b w => Sys2Proof.Machine.execSub d a b w s
  | .mul d a b w => Sys2Proof.Machine.execMul d a b w s
  | .mulhS d a b => Sys2Proof.Machine.execMulhS d a b s
  | .mulhN d a b => Sys2Proof.Machine.execMulhN d a b s
  | .divs d a b w => Sys2Proof.Machine.execDivs d a b w s
  | .divn d a b w => Sys2Proof.Machine.execDivn d a b w s
  | .rems d a b w => Sys2Proof.Machine.execRems d a b w s
  | .remn d a b w => Sys2Proof.Machine.execRemn d a b w s
  | .and d a b => Sys2Proof.Machine.execAnd d a b s
  | .or d a b => Sys2Proof.Machine.execOr d a b s
  | .xor d a b => Sys2Proof.Machine.execXor d a b s
  | .andn d a b => Sys2Proof.Machine.execAndn d a b s
  | .orn d a b => Sys2Proof.Machine.execOrn d a b s
  | .shl d a b w => Sys2Proof.Machine.execShl d a b w s
  | .shr d a b w => Sys2Proof.Machine.execShr d a b w s
  | .asr d a b w => Sys2Proof.Machine.execAsr d a b w s
  | .rol d a b w => Sys2Proof.Machine.execRol d a b w s
  | .ror d a b w => Sys2Proof.Machine.execRor d a b w s
  | .minS d a b => Sys2Proof.Machine.execMinS d a b s
  | .minN d a b => Sys2Proof.Machine.execMinN d a b s
  | .maxS d a b => Sys2Proof.Machine.execMaxS d a b s
  | .maxN d a b => Sys2Proof.Machine.execMaxN d a b s
  | .clz d a w => Sys2Proof.Machine.execClz d a w s
  | .popc d a w => Sys2Proof.Machine.execPopc d a w s
  | .brev d a => Sys2Proof.Machine.execBrev d a s
  | .leaX1 d a b => Sys2Proof.Machine.execLeaX1 d a b s
  | .leaX2 d a b => Sys2Proof.Machine.execLeaX2 d a b s
  | .leaX4 d a b => Sys2Proof.Machine.execLeaX4 d a b s
  | .leaX8 d a b => Sys2Proof.Machine.execLeaX8 d a b s
  | .mad d a b c => Sys2Proof.Machine.execMad d a b c s
  | .sel d a b s' p => Sys2Proof.Machine.execSel d a b s' p s
  | .cmp p a b w c => Sys2Proof.Machine.execCmp p a b w c s
  | .cmpi c p a imm => Sys2Proof.Machine.execCmpi c p a imm s
  | .addi d a imm => Sys2Proof.Machine.execAddi d a imm s
  | .andi d a imm => Sys2Proof.Machine.execAndi d a imm s
  | .ori d a imm => Sys2Proof.Machine.execOri d a imm s
  | .xori d a imm => Sys2Proof.Machine.execXori d a imm s
  | .shli d a n => Sys2Proof.Machine.execShli d a n s
  | .shri d a n => Sys2Proof.Machine.execShri d a n s
  | .asri d a n => Sys2Proof.Machine.execAsri d a n s
  | .rori d a n => Sys2Proof.Machine.execRori d a n s
  | .shliW d a n => Sys2Proof.Machine.execShliW d a n s
  | .shriW d a n => Sys2Proof.Machine.execShriW d a n s
  | .asriW d a n => Sys2Proof.Machine.execAsriW d a n s
  | .roriW d a n => Sys2Proof.Machine.execRoriW d a n s
  | .movi d imm => Sys2Proof.Machine.execMovi d imm s
  | .movhi d h imm => Sys2Proof.Machine.execMovhi d h imm s
  | .bfxS d a l p => Sys2Proof.Machine.execBfxS d a l p s
  | .bfxN d a l p => Sys2Proof.Machine.execBfxN d a l p s
  | .bfi d a l p => Sys2Proof.Machine.execBfi d a l p s
  | .leaPc d imm => Sys2Proof.Machine.execLeaPc d imm s
  | .br imm => Sys2Proof.Machine.execBr imm s
  | .brp s' p imm => Sys2Proof.Machine.execBrp s' p imm s
  | .jmp imm => Sys2Proof.Machine.execJmp imm s
  | .call imm => Sys2Proof.Machine.execCall imm s
  | .nop => Sys2Proof.Machine.execNop s
  | .jmpr a => Sys2Proof.Machine.execJmpr a s
  | .callr a => Sys2Proof.Machine.execCallr a s
  | .ret => Sys2Proof.Machine.execRet s
  | .exit => Sys2Proof.Machine.execExit s
  | .trap c => Sys2Proof.Machine.execTrap c s
  | .brk c => Sys2Proof.Machine.execBrk c s
  | .yield => Sys2Proof.Machine.execYield s
  | .fadd d a b t => Sys2Proof.Machine.execFadd d a b t s
  | .fsub d a b t => Sys2Proof.Machine.execFsub d a b t s
  | .fmul d a b t => Sys2Proof.Machine.execFmul d a b t s
  | .fdiv d a b t => Sys2Proof.Machine.execFdiv d a b t s
  | .fsqrt d a t => Sys2Proof.Machine.execFsqrt d a t s
  | .fmin d a b t => Sys2Proof.Machine.execFmin d a b t s
  | .fmax d a b t => Sys2Proof.Machine.execFmax d a b t s
  | .fabs d a t => Sys2Proof.Machine.execFabs d a t s
  | .fneg d a t => Sys2Proof.Machine.execFneg d a t s
  | .fcpys d a b t => Sys2Proof.Machine.execFcpys d a b t s
  | .fclass d a t => Sys2Proof.Machine.execFclass d a t s
  | .fcmpEq p a b t => Sys2Proof.Machine.execFcmpEq p a b t s
  | .fcmpLt p a b t => Sys2Proof.Machine.execFcmpLt p a b t s
  | .fcmpLe p a b t => Sys2Proof.Machine.execFcmpLe p a b t s
  | .fcmpUn p a b t => Sys2Proof.Machine.execFcmpUn p a b t s
  | .frcp d a => Sys2Proof.Machine.execFrcp d a s
  | .frsq d a => Sys2Proof.Machine.execFrsq d a s
  | .fexp2 d a => Sys2Proof.Machine.execFexp2 d a s
  | .flog2 d a => Sys2Proof.Machine.execFlog2 d a s
  | .fma t d a b c => Sys2Proof.Machine.execFma t d a b c s
  | .fms t d a b c => Sys2Proof.Machine.execFms t d a b c s
  | .fnma t d a b c => Sys2Proof.Machine.execFnma t d a b c s
  | .fnms t d a b c => Sys2Proof.Machine.execFnms t d a b c s
  | .padd d a b t => Sys2Proof.Machine.execPadd d a b t s
  | .psub d a b t => Sys2Proof.Machine.execPsub d a b t s
  | .pmul d a b t => Sys2Proof.Machine.execPmul d a b t s
  | .pmin d a b t => Sys2Proof.Machine.execPmin d a b t s
  | .pmax d a b t => Sys2Proof.Machine.execPmax d a b t s
  | .pdot d a b t => Sys2Proof.Machine.execPdot d a b t s
  | .pfma d a b c t => Sys2Proof.Machine.execPfma d a b c t s
  | .cvt d a s' r t u => Sys2Proof.Machine.execCvt d a s' r t u s
  | .mxpack d a b t => Sys2Proof.Machine.execMxpack d a b t s
  | .mxunpack d a b t => Sys2Proof.Machine.execMxunpack d a b t s
  | .mxscale d a b t => Sys2Proof.Machine.execMxscale d a b t s
  | .ldB d a o => Sys2Proof.Machine.execLdB d a o s
  | .ldH d a o => Sys2Proof.Machine.execLdH d a o s
  | .ldW d a o => Sys2Proof.Machine.execLdW d a o s
  | .ldD d a o => Sys2Proof.Machine.execLdD d a o s
  | .ldBS d a o => Sys2Proof.Machine.execLdBS d a o s
  | .ldHS d a o => Sys2Proof.Machine.execLdHS d a o s
  | .ldWS d a o => Sys2Proof.Machine.execLdWS d a o s
  | .ldP d a o => Sys2Proof.Machine.execLdP d a o s
  | .stB v a o => Sys2Proof.Machine.execStB v a o s
  | .stH v a o => Sys2Proof.Machine.execStH v a o s
  | .stW v a o => Sys2Proof.Machine.execStW v a o s
  | .stD v a o => Sys2Proof.Machine.execStD v a o s
  | .stP v a o => Sys2Proof.Machine.execStP v a o s
  | .ldAcq d a s' wd => Sys2Proof.Machine.execLdAcq d a s' wd s
  | .stRel v a s' wd => Sys2Proof.Machine.execStRel v a s' wd s
  | .ldfe d a s' => Sys2Proof.Machine.execLdfe d a s' s
  | .ldfeK d a s' => Sys2Proof.Machine.execLdfeK d a s' s
  | .stfe v a s' => Sys2Proof.Machine.execStfe v a s' s
  | .stfeF v a s' => Sys2Proof.Machine.execStfeF v a s' s
  | .pref a l => Sys2Proof.Machine.execPref a l s
  | .fence s' => Sys2Proof.Machine.execFence s' s
  | .fenceAcq s' => Sys2Proof.Machine.execFenceAcq s' s
  | .fenceRel s' => Sys2Proof.Machine.execFenceRel s' s
  | .atomAdd d a b wd o => Sys2Proof.Machine.execAtomAdd d a b wd o s
  | .atomAnd d a b wd o => Sys2Proof.Machine.execAtomAnd d a b wd o s
  | .atomOr d a b wd o => Sys2Proof.Machine.execAtomOr d a b wd o s
  | .atomXor d a b wd o => Sys2Proof.Machine.execAtomXor d a b wd o s
  | .atomMinS d a b wd o => Sys2Proof.Machine.execAtomMinS d a b wd o s
  | .atomMinN d a b wd o => Sys2Proof.Machine.execAtomMinN d a b wd o s
  | .atomMaxS d a b wd o => Sys2Proof.Machine.execAtomMaxS d a b wd o s
  | .atomMaxN d a b wd o => Sys2Proof.Machine.execAtomMaxN d a b wd o s
  | .atomSwap d a b wd o => Sys2Proof.Machine.execAtomSwap d a b wd o s
  | .atomFaddF32 d a b o => Sys2Proof.Machine.execAtomFaddF32 d a b o s
  | .atomFaddF64 d a b o => Sys2Proof.Machine.execAtomFaddF64 d a b o s
  | .atomFmaxF32 d a b o => Sys2Proof.Machine.execAtomFmaxF32 d a b o s
  | .casW d a b c o => Sys2Proof.Machine.execCasW d a b c o s
  | .casD d a b c o => Sys2Proof.Machine.execCasD d a b c o s
  | .gangForm d a b => Sys2Proof.Machine.execGangForm d a b s
  | .gangJoin d a => Sys2Proof.Machine.execGangJoin d a s
  | .gangLeave => Sys2Proof.Machine.execGangLeave s
  | .gangMma q g s' => Sys2Proof.Machine.execGangMma q g s' s
  | .mxburst a => Sys2Proof.Machine.execMxburst a s
  | .mxwait => Sys2Proof.Machine.execMxwait s
  | .accLd d t b => Sys2Proof.Machine.execAccLd d t b s
  | .accSt v t b => Sys2Proof.Machine.execAccSt v t b s
  | .accZero t => Sys2Proof.Machine.execAccZero t s
  | .accScale t b => Sys2Proof.Machine.execAccScale t b s
  | .accCvt d t b => Sys2Proof.Machine.execAccCvt d t b s
  | .mxcfg a b => Sys2Proof.Machine.execMxcfg a b s
  | .cpy a b s' q r f => Sys2Proof.Machine.execCpy a b s' q r f s
  | .cpy2d a b s' q r f => Sys2Proof.Machine.execCpy2d a b s' q r f s
  | .deal a b s' q r f => Sys2Proof.Machine.execDeal a b s' q r f s
  | .rstr a b s' q r f => Sys2Proof.Machine.execRstr a b s' q r f s
  | .mred a b s' q r f => Sys2Proof.Machine.execMred a b s' q r f s
  | .esync s' => Sys2Proof.Machine.execEsync s' s
  | .spawn d a b => Sys2Proof.Machine.execSpawn d a b s
  | .callat d a b => Sys2Proof.Machine.execCallat d a b s
  | .send d a b => Sys2Proof.Machine.execSend d a b s
  | .recv d a => Sys2Proof.Machine.execRecv d a s
  | .wait d a b => Sys2Proof.Machine.execWait d a b s
  | .wake d a => Sys2Proof.Machine.execWake d a s
  | .migr a => Sys2Proof.Machine.execMigr a s
  | .sleep a => Sys2Proof.Machine.execSleep a s
  | .prio a => Sys2Proof.Machine.execPrio a s
  | .resume d a => Sys2Proof.Machine.execResume d a s
  | .kill d a => Sys2Proof.Machine.execKill d a s
  | .thr d a => Sys2Proof.Machine.execThr d a s
  | .fillInit d a b => Sys2Proof.Machine.execFillInit d a b s
  | .fillAdd d a b => Sys2Proof.Machine.execFillAdd d a b s
  | .fillWait d a b => Sys2Proof.Machine.execFillWait d a b s
  | .sbarArrive d a => Sys2Proof.Machine.execSbarArrive d a s
  | .sbarWait p a b => Sys2Proof.Machine.execSbarWait p a b s
  | .tscr d => Sys2Proof.Machine.execTscr d s
  | .xcnt d a => Sys2Proof.Machine.execXcnt d a s
  | .pcnt d a b => Sys2Proof.Machine.execPcnt d a b s
  | .route d a b => Sys2Proof.Machine.execRoute d a b s
  | .placeq d a => Sys2Proof.Machine.execPlaceq d a s
  | .tlbinv a b => Sys2Proof.Machine.execTlbinv a b s
  | .gtsync a => Sys2Proof.Machine.execGtsync a s
  | .csrr d c => Sys2Proof.Machine.execCsrr d c s
  | .csrw v c => Sys2Proof.Machine.execCsrw v c s
  | .csrs v c => Sys2Proof.Machine.execCsrs v c s
  | .csrc v c => Sys2Proof.Machine.execCsrc v c s
  | .upret a => Sys2Proof.Machine.execUpret a s
  | .eret => Sys2Proof.Machine.execEret s
  | .halt => Sys2Proof.Machine.execHalt s
  | .feat d a => Sys2Proof.Machine.execFeat d a s
  | .attest d a b => Sys2Proof.Machine.execAttest d a b s
  | .dbgRd d a => Sys2Proof.Machine.execDbgRd d a s
  | .dbgWr a b => Sys2Proof.Machine.execDbgWr a b s
  | .dbgStep d a => Sys2Proof.Machine.execDbgStep d a s
  | .hnop x => Sys2Proof.Machine.execHnop x s
  | .hctx r x => Sys2Proof.Machine.execHctx r x s
  | .hfetch y imm => Sys2Proof.Machine.execHfetch y imm s
  | .hintReserved c x => Sys2Proof.Machine.execHintReserved c x s
  | .phaseTurn core => Sys2Proof.Machine.execPhaseTurn core s
  | .registerFill t k => Sys2Proof.Machine.execRegisterFill t k s
  | .registerLineArrival t => Sys2Proof.Machine.execRegisterLineArrival t s
  | .controlLineArrival t => Sys2Proof.Machine.execControlLineArrival t s
  | .walkEnd t => Sys2Proof.Machine.execWalkEnd t s
  | .retCompletion t => Sys2Proof.Machine.execRetCompletion t s
  | .feretryReissue t => Sys2Proof.Machine.execFeretryReissue t s
  | .storeBufferDrain t => Sys2Proof.Machine.execStoreBufferDrain t s
  | .waitDeadline t => Sys2Proof.Machine.execWaitDeadline t s
  | .instructionReply t => Sys2Proof.Machine.execInstructionReply t s
  | .engineAcceptanceReply t => Sys2Proof.Machine.execEngineAcceptanceReply t s
  | .fullEmptyReply t => Sys2Proof.Machine.execFullEmptyReply t s
  | .tlbinvCompletion t => Sys2Proof.Machine.execTlbinvCompletion t s
  | .gtsyncCompletion t => Sys2Proof.Machine.execGtsyncCompletion t s
  | .materialisation l => Sys2Proof.Machine.execMaterialisation l s
  | .activation core => Sys2Proof.Machine.execActivation core s
  | .priorityAging t => Sys2Proof.Machine.execPriorityAging t s
  | .preemption t => Sys2Proof.Machine.execPreemption t s
  | .gangResolution g => Sys2Proof.Machine.execGangResolution g s
  | .matrixOperationCompletion core => Sys2Proof.Machine.execMatrixOperationCompletion core s
  | .rampUpEnd core => Sys2Proof.Machine.execRampUpEnd core s
  | .rampDownStart core => Sys2Proof.Machine.execRampDownStart core s
  | .rampDownEnd core => Sys2Proof.Machine.execRampDownEnd core s
  | .gangSave g => Sys2Proof.Machine.execGangSave g s
  | .gangReactivation g => Sys2Proof.Machine.execGangReactivation g s
  | .gangBreak g => Sys2Proof.Machine.execGangBreak g s
  | .launchDoorbell q => Sys2Proof.Machine.execLaunchDoorbell q s
  | .launchTailNotice q => Sys2Proof.Machine.execLaunchTailNotice q s
  | .launchQueuePoll q => Sys2Proof.Machine.execLaunchQueuePoll q s
  | .launchTake q => Sys2Proof.Machine.execLaunchTake q s
  | .taskCreation core => Sys2Proof.Machine.execTaskCreation core s
  | .reservationLapse p => Sys2Proof.Machine.execReservationLapse p s
  | .killMessageRetry k => Sys2Proof.Machine.execKillMessageRetry k s
  | .engineCommandStart die => Sys2Proof.Machine.execEngineCommandStart die s
  | .engineCommandCompletion die id => Sys2Proof.Machine.execEngineCommandCompletion die id s
  | .rstrChunkComplete die r => Sys2Proof.Machine.execRstrChunkComplete die r s
  | .rstrAbort die r => Sys2Proof.Machine.execRstrAbort die r s
  | .carveChangeEnd die => Sys2Proof.Machine.execCarveChangeEnd die s
  | .carveUnitZeroingEnd die u => Sys2Proof.Machine.execCarveUnitZeroingEnd die u s
  | .segmentZeroingEnd core seg => Sys2Proof.Machine.execSegmentZeroingEnd core seg s
  | .equinoxEvaluation die => Sys2Proof.Machine.execEquinoxEvaluation die s
  | .equinoxCopyCompletion die k ok => Sys2Proof.Machine.execEquinoxCopyCompletion die k ok s
  | .sbarArrivalCount n => Sys2Proof.Machine.execSbarArrivalCount n s
  | .sbarEpisodeEndDelivery n core => Sys2Proof.Machine.execSbarEpisodeEndDelivery n core s
  | .sbarDeadline t => Sys2Proof.Machine.execSbarDeadline t s
  | .tscTick => Sys2Proof.Machine.execTscTick s
  | .upcallServe die => Sys2Proof.Machine.execUpcallServe die s
  | .uncorrectableError die pa => Sys2Proof.Machine.execUncorrectableError die pa s
  | .correctedError die => Sys2Proof.Machine.execCorrectedError die s
  | .flitCheckFailure line => Sys2Proof.Machine.execFlitCheckFailure line s
  | .sharersLostRecallEnd line => Sys2Proof.Machine.execSharersLostRecallEnd line s
  | .requestTimeout o => Sys2Proof.Machine.execRequestTimeout o s
  | .packageReset => Sys2Proof.Machine.execPackageReset s
  | .discovery => Sys2Proof.Machine.execDiscovery s
  | .linkTraining => Sys2Proof.Machine.execLinkTraining s
  | .memoryTraining => Sys2Proof.Machine.execMemoryTraining s
  | .configuration => Sys2Proof.Machine.execConfiguration s
  | .release => Sys2Proof.Machine.execRelease s
  | .linkFailure l => Sys2Proof.Machine.execLinkFailure l s
  | .linkRetrainEnd l ok => Sys2Proof.Machine.execLinkRetrainEnd l ok s
  | .coreRetirement cores => Sys2Proof.Machine.execCoreRetirement cores s
  | .hostApertureRead n off len => Sys2Proof.Machine.execHostApertureRead n off len s
  | .hostApertureWrite n off bs => Sys2Proof.Machine.execHostApertureWrite n off bs s
  | .managementWindowWrite w => Sys2Proof.Machine.execManagementWindowWrite w s
  | .cert c => Sys2Proof.Machine.execCert c s
  | .takeown c => Sys2Proof.Machine.execTakeown c s
  | .setfeat c => Sys2Proof.Machine.execSetfeat c s
  | .mkdom c => Sys2Proof.Machine.execMkdom c s
  | .rmdom c => Sys2Proof.Machine.execRmdom c s
  | .setroot c => Sys2Proof.Machine.execSetroot c s
  | .setaper c => Sys2Proof.Machine.execSetaper c s
  | .setqueue c => Sys2Proof.Machine.execSetqueue c s
  | .setedt c => Sys2Proof.Machine.execSetedt c s
  | .setfdt c => Sys2Proof.Machine.execSetfdt c s
  | .setep c => Sys2Proof.Machine.execSetep c s
  | .setcarveTarget c => Sys2Proof.Machine.execSetcarveTarget c s
  | .setcarveCarvedom c => Sys2Proof.Machine.execSetcarveCarvedom c s
  | .setspdom c => Sys2Proof.Machine.execSetspdom c s
  | .setsoldom c => Sys2Proof.Machine.execSetsoldom c s
  | .setgtbase c => Sys2Proof.Machine.execSetgtbase c s
  | .setcoreoff c => Sys2Proof.Machine.execSetcoreoff c s
  | .setmgmtHalted c => Sys2Proof.Machine.execSetmgmtHalted c s
  | .setmgmtReqto c => Sys2Proof.Machine.execSetmgmtReqto c s
  | .setmgmtHostto c => Sys2Proof.Machine.execSetmgmtHostto c s
  | .setmgmtErrorCounter c => Sys2Proof.Machine.execSetmgmtErrorCounter c s
  | .setmgmtHold c => Sys2Proof.Machine.execSetmgmtHold c s
  | .mailboxUnknownCommand c => Sys2Proof.Machine.execMailboxUnknownCommand c s
  | .ethernetTailNotice ep => Sys2Proof.Machine.execEthernetTailNotice ep s
  | .ethernetPoll ep => Sys2Proof.Machine.execEthernetPoll ep s
  | .ethernetPut ep => Sys2Proof.Machine.execEthernetPut ep s
  | .ethernetGet ep => Sys2Proof.Machine.execEthernetGet ep s
  | .ethernetCompletion ep status => Sys2Proof.Machine.execEthernetCompletion ep status s
  | .ethernetInboundAccess a => Sys2Proof.Machine.execEthernetInboundAccess a s
  | .ethernetTransportTimeout ep => Sys2Proof.Machine.execEthernetTransportTimeout ep s
  | .rds p => Sys2Proof.Machine.execRds p s
  | .rdx p => Sys2Proof.Machine.execRdx p s
  | .rdu p => Sys2Proof.Machine.execRdu p s
  | .wbl p => Sys2Proof.Machine.execWbl p s
  | .wrm p => Sys2Proof.Machine.execWrm p s
  | .atm p => Sys2Proof.Machine.execAtm p s
  | .feo p => Sys2Proof.Machine.execFeo p s
  | .inv p => Sys2Proof.Machine.execInv p s
  | .rcl p => Sys2Proof.Machine.execRcl p s
  | .ctx p => Sys2Proof.Machine.execCtx p s
  | .thrPacket p => Sys2Proof.Machine.execThrPacket p s
  | .dmv p => Sys2Proof.Machine.execDmv p s
  | .invt p => Sys2Proof.Machine.execInvt p s
  | .hst p => Sys2Proof.Machine.execHst p s
  | .mgt p => Sys2Proof.Machine.execMgt p s
  | .data p => Sys2Proof.Machine.execData p s
  | .ack p => Sys2Proof.Machine.execAck p s
  | .nack p => Sys2Proof.Machine.execNack p s
  | .defer p => Sys2Proof.Machine.execDefer p s
  | .old p => Sys2Proof.Machine.execOld p s
  | .iack p => Sys2Proof.Machine.execIack p s
  | .stat p => Sys2Proof.Machine.execStat p s
  | .cack p => Sys2Proof.Machine.execCack p s
  | .lazokelFlitRetry die => Sys2Proof.Machine.execLazokelFlitRetry die s
  | .unassignedOpPacket p => Sys2Proof.Machine.execUnassignedOpPacket p s

end Sys2Proof.Machine
end

