-- ==== Sys2Proof/Machine/Enabled.lean ====
section
/-! DEFINITION. The steps of the part that can come next by themselves (00 R8), as data: the rows of the opcode table that are no words,
and the moves of one agent that no row names, and when each may come. A step listed whose condition does not hold leaves the state as it is. -/
namespace Sys2Proof.Machine

/-- A step the part makes by itself: a row of the opcode table, or one of the moves at the end of the list. -/
inductive Event where
  | phaseTurn (core : Nat)
  | rampUpEnd (core : Nat)
  | rampDownStart (core : Nat)
  | rampDownEnd (core : Nat)
  | matrixOperationCompletion (core : Nat)
  | activation (core : Nat)
  | taskCreation (core : Nat)
  | segmentZeroingEnd (core seg : Nat)
  | registerFill (t : Tid) (k : Nat)
  | registerLineArrival (t : Tid)
  | controlLineArrival (t : Tid)
  | walkEnd (t : Tid)
  | retCompletion (t : Tid)
  | feretryReissue (t : Tid)
  | storeBufferDrain (t : Tid)
  | waitDeadline (t : Tid)
  | instructionReply (t : Tid)
  | fullEmptyReply (t : Tid)
  | engineAcceptanceReply (t : Tid)
  | tlbinvCompletion (t : Tid)
  | gtsyncCompletion (t : Tid)
  | priorityAging (t : Tid)
  | preemption (t : Tid)
  | sbarDeadline (t : Tid)
  | gangResolution (g : GangId)
  | gangSave (g : GangId)
  | gangReactivation (g : GangId)
  | gangBreak (g : GangId)
  | launchTailNotice (q : Nat)
  | launchQueuePoll (q : Nat)
  | launchTake (q : Nat)
  | materialisation (l : Nat)
  | reservationLapse (p : ResPlace)
  | killMessageRetry (k : Nat)
  | engineCommandStart (die : Nat)
  | engineCommandCompletion (die id : Nat)
  | rstrChunkComplete (die r : Nat)
  | carveChangeEnd (die : Nat)
  | carveUnitZeroingEnd (die u : Nat)
  | equinoxEvaluation (die : Nat)
  | equinoxCopyCompletion (die k : Nat)
  | upcallServe (die : Nat)
  | sbarArrivalCount (n : Nat)
  | sbarEpisodeEndDelivery (n core : Nat)
  | tscTick
  | sharersLostRecallEnd (line : Nat)
  | coreRetirement (cores : List Nat)
  | linkRetrainEnd (l : Nat) (ok : Bool)
  | ethernetTailNotice (ep : Nat)
  | ethernetPoll (ep : Nat)
  | ethernetPut (ep : Nat)
  | ethernetGet (ep : Nat)
  | packet (p : Packet)
  | packageReset
  | discovery
  | linkTraining
  | memoryTraining
  | configuration
  | release
  | requestTimeout (o : Outstanding)
  /-- the boundary of a thread without a slot at which a record waited for the upcall queue (18 R403, R411) -/
  | boundary (t : Tid)
  /-- a TLB or a walk cache drops its k-th entry (13 R298) -/
  | tlbLoss (core k : Nat)
  | walkLoss (die k : Nat)
  /-- an engine moves a piece of a command, or a write of one becomes visible (16 R371, 12 R279) -/
  | engineMove (die id : Nat)
  | engineLand (die : Nat)
  deriving DecidableEq, Repr

/-- The arrival of a packet in flight (19 R428). -/
def arrival (p : Packet) (s : State) : Host.Outcome State Fault Refusal :=
  match p.op with
  | 0x01 => execRds p s
  | 0x02 => execRdx p s
  | 0x03 => execRdu p s
  | 0x04 => execWbl p s
  | 0x05 => execWrm p s
  | 0x06 => execAtm p s
  | 0x07 => execFeo p s
  | 0x08 => execInv p s
  | 0x09 => execRcl p s
  | 0x0A => execCtx p s
  | 0x0B => execThrPacket p s
  | 0x0C => execDmv p s
  | 0x0D => execInvt p s
  | 0x0E => execHst p s
  | 0x0F => execMgt p s
  | 0x81 => execData p s
  | 0x82 => execAck p s
  | 0x83 => execNack p s
  | 0x84 => execDefer p s
  | 0x85 => execOld p s
  | 0x86 => execIack p s
  | 0x87 => execStat p s
  | 0x8F => execCack p s
  | _ => execUnassignedOpPacket p s

/-- The k-th entry of a core's TLB is dropped (13 R298). -/
def State.tlbLoss (s : State) (core k : Nat) : State :=
  let c := s.core core
  s.setCore core { c with tlb := removeNth k c.tlb }

/-- The k-th entry of a die's walk cache is dropped (13 R298). -/
def State.walkLoss (s : State) (die k : Nat) : State :=
  let x := s.die die
  s.setDie die { x with walks := removeNth k x.walks }

/-- The meaning of a step. -/
def Event.run : Event → State → Host.Outcome State Fault Refusal
  | .phaseTurn c => execPhaseTurn c
  | .rampUpEnd c => execRampUpEnd c
  | .rampDownStart c => execRampDownStart c
  | .rampDownEnd c => execRampDownEnd c
  | .matrixOperationCompletion c => execMatrixOperationCompletion c
  | .activation c => execActivation c
  | .taskCreation c => execTaskCreation c
  | .segmentZeroingEnd c g => execSegmentZeroingEnd c g
  | .registerFill t k => execRegisterFill t k
  | .registerLineArrival t => execRegisterLineArrival t
  | .controlLineArrival t => execControlLineArrival t
  | .walkEnd t => execWalkEnd t
  | .retCompletion t => execRetCompletion t
  | .feretryReissue t => execFeretryReissue t
  | .storeBufferDrain t => execStoreBufferDrain t
  | .waitDeadline t => execWaitDeadline t
  | .instructionReply t => execInstructionReply t
  | .fullEmptyReply t => execFullEmptyReply t
  | .engineAcceptanceReply t => execEngineAcceptanceReply t
  | .tlbinvCompletion t => execTlbinvCompletion t
  | .gtsyncCompletion t => execGtsyncCompletion t
  | .priorityAging t => execPriorityAging t
  | .preemption t => execPreemption t
  | .sbarDeadline t => execSbarDeadline t
  | .gangResolution g => execGangResolution g
  | .gangSave g => execGangSave g
  | .gangReactivation g => execGangReactivation g
  | .gangBreak g => execGangBreak g
  | .launchTailNotice q => execLaunchTailNotice q
  | .launchQueuePoll q => execLaunchQueuePoll q
  | .launchTake q => execLaunchTake q
  | .materialisation l => execMaterialisation l
  | .reservationLapse p => execReservationLapse p
  | .killMessageRetry k => execKillMessageRetry k
  | .engineCommandStart d => execEngineCommandStart d
  | .engineCommandCompletion d i => execEngineCommandCompletion d i
  | .rstrChunkComplete d r => execRstrChunkComplete d r
  | .carveChangeEnd d => execCarveChangeEnd d
  | .carveUnitZeroingEnd d u => execCarveUnitZeroingEnd d u
  | .equinoxEvaluation d => execEquinoxEvaluation d
  | .equinoxCopyCompletion d k => execEquinoxCopyCompletion d k true
  | .upcallServe d => execUpcallServe d
  | .sbarArrivalCount n => execSbarArrivalCount n
  | .sbarEpisodeEndDelivery n c => execSbarEpisodeEndDelivery n c
  | .tscTick => execTscTick
  | .sharersLostRecallEnd l => execSharersLostRecallEnd l
  | .coreRetirement l => execCoreRetirement l
  | .linkRetrainEnd l ok => execLinkRetrainEnd l ok
  | .ethernetTailNotice k => execEthernetTailNotice k
  | .ethernetPoll k => execEthernetPoll k
  | .ethernetPut k => execEthernetPut k
  | .ethernetGet k => execEthernetGet k
  | .packet p => arrival p
  | .packageReset => execPackageReset
  | .discovery => execDiscovery
  | .linkTraining => execLinkTraining
  | .memoryTraining => execMemoryTraining
  | .configuration => execConfiguration
  | .release => execRelease
  | .requestTimeout o => execRequestTimeout o
  | .boundary t => fun s => event (s.boundary t 0)
  | .tlbLoss c k => fun s => event (s.tlbLoss c k)
  | .walkLoss d k => fun s => event (s.walkLoss d k)
  | .engineMove d i => fun s => event (s.engineMove d i)
  | .engineLand d => fun s => event (s.engineLand d)

/-- Debug halt (18 R416): what goes on while the package is halted. Issue, activation, new work and whatever counts in ticks or
cycles stand still. -/
def Event.inHalt : Event → Bool
  | .registerFill _ _ | .registerLineArrival _ | .controlLineArrival _ | .walkEnd _ | .retCompletion _ | .storeBufferDrain _
  | .instructionReply _ | .fullEmptyReply _ | .engineAcceptanceReply _ | .tlbinvCompletion _ | .gtsyncCompletion _
  | .matrixOperationCompletion _ | .segmentZeroingEnd _ _ | .carveChangeEnd _ | .carveUnitZeroingEnd _ _
  | .sbarArrivalCount _ | .sbarEpisodeEndDelivery _ _ | .sharersLostRecallEnd _ | .linkRetrainEnd _ _ | .packet _ | .tlbLoss _ _ | .walkLoss _ _
  | .engineLand _ => true
  | _ => false

/-- A core's steps: a step its matrix unit is due for comes before its next cycle (08 R187, R203). -/
def State.coreEvents (s : State) (c : Nat) : List Event :=
  let u := (s.core c).unit
  let due := (if u.upDue then [Event.rampUpEnd c] else []) ++ (if u.downDue then [.rampDownEnd c] else []) ++
    (if u.idleDue then [.rampDownStart c] else []) ++ (if u.opDue then [.matrixOperationCompletion c] else [])
  (if due.isEmpty then [.phaseTurn c] else due) ++ [.activation c, .taskCreation c, .reservationLapse (.task c)] ++
  (s.core c).zeroing.map (fun g => .segmentZeroingEnd c g) ++
  (upto 0 (s.core c).tlb.length).map (fun k => .tlbLoss c k)

/-- A thread's steps. -/
def Thread.events (t : Thread) : List Event :=
  (upto 0 t.fills.length).map (fun k => .registerFill t.id k) ++
  (if t.stores.isEmpty then [] else [.storeBufferDrain t.id]) ++
  (if t.walk.isSome then [.walkEnd t.id] else []) ++
  (if t.holdsSlot && !t.ctl then [.controlLineArrival t.id] else []) ++
  (match t.st with
   | .blocked .line => [.registerLineArrival t.id]
   | .blocked .feretry => [.feretryReissue t.id]
   | .waiting .sbar => [.sbarDeadline t.id]
   | .waiting _ => [.waitDeadline t.id]
   | .ready => [.priorityAging t.id]
   | _ => []) ++
  (match t.pend with
   | some (.ret _) => [.retCompletion t.id]
   | some (.fe _ _ _ _ _) => [.fullEmptyReply t.id]
   | some (.engine _) => [.engineAcceptanceReply t.id]
   | some (.tlbinv _) => [.tlbinvCompletion t.id]
   | some (.gtsync _ _) => [.gtsyncCompletion t.id]
   | some (.atomic _) => []
   | some _ => [.instructionReply t.id]
   | none => []) ++
  (if t.holdsSlot then [.preemption t.id] else if t.killed || !t.asyncs.isEmpty then [.boundary t.id] else []) ++
  (if t.stores.isEmpty then [] else [.requestTimeout (.store t.id)]) ++
  (upto 0 (t.fills.length + 1)).map (fun k => .requestTimeout (.fill t.id k))

/-- A die's steps. -/
def State.dieEvents (s : State) (d : Nat) : List Event :=
  let x := s.die d
  [.engineCommandStart d, .equinoxEvaluation d, .upcallServe d, .reservationLapse (.engine d)] ++
  x.engq.flatMap (fun c => [.engineCommandCompletion d c.id, .engineMove d c.id, .requestTimeout (.engine d c.id)]) ++
  (if x.landing.isEmpty then [] else [.engineLand d]) ++
  (upto 0 x.walks.length).map (fun k => .walkLoss d k) ++
  x.restripe.map (fun r => .rstrChunkComplete d r.1) ++
  (if x.busy then [.carveChangeEnd d] else []) ++
  x.unitZeroing.map (fun u => .carveUnitZeroingEnd d u) ++
  (match x.eqRun with | some r => r.todo.map (fun a => .equinoxCopyCompletion d a.1) | none => [])

/-- Steps on what threads have left outside their slots: stores before their global point (12 R273), requests of threads that are DONE by now
(18 R402), numbered after the thread of the same name that lives now. -/
def State.leftEvents (s : State) : List Event :=
  (s.early.map (·.tid)).eraseDups.map (fun i => Event.storeBufferDrain i) ++
  (s.orphans.filterMap (·.1.tid)).eraseDups.flatMap (fun i =>
    let n := match s.find i with | some t => t.fills.length | none => 0
    let m := match s.find i with | some t => t.fills.length + 1 | none => 0
    (upto 0 s.orphans.length).flatMap (fun k => [Event.registerFill i (n + k), .requestTimeout (.fill i (m + k))]))

/-- Every step of a running package. -/
def State.runningEvents (s : State) : List Event :=
  [.tscTick] ++
  ((upto 0 2048).filter (fun c => s.coreOn c || s.retiring.contains c)).flatMap s.coreEvents ++
  s.threads.flatMap Thread.events ++
  s.leftEvents ++
  s.gangs.flatMap (fun g => [.gangResolution g.id, .gangSave g.id, .gangReactivation g.id, .gangBreak g.id]) ++
  (s.queues.map (·.1)).flatMap (fun q => [.launchTailNotice q, .launchQueuePoll q, .launchTake q]) ++
  s.launches.map (fun l => .materialisation l.id) ++
  (upto 0 s.killMsgs.length).map (fun k => .killMessageRetry k) ++
  (setBitsOf s.endies 8).flatMap s.dieEvents ++
  (upto 0 s.arrivals.length).map (fun n => .sbarArrivalCount n) ++
  ((upto 0 s.ends.length).zip s.ends).map (fun x => .sbarEpisodeEndDelivery x.1 x.2.2.1) ++
  s.sharersLost.map (fun l => .sharersLostRecallEnd l) ++
  (if s.retiring.isEmpty then [] else [.coreRetirement s.retiring]) ++
  s.retraining.flatMap (fun l => [.linkRetrainEnd l true, .linkRetrainEnd l false]) ++
  (s.endpoints.map (·.1)).flatMap (fun k => [.ethernetTailNotice k, .ethernetPoll k, .ethernetPut k, .ethernetGet k]) ++
  s.net.map (fun p => .packet p)

/-- An outcome with what follows every step at once. -/
def settled (o : Host.Outcome State Fault Refusal) : Host.Outcome State Fault Refusal :=
  match o with
  | .next s => .next s.settle
  | .fault f => .fault f
  | .refused r => .refused r

/-- The steps that may come next (19 R424; 18 R416). -/
def State.enabled (s : State) : List Event :=
  match s.stage with
  | .boot => [.packageReset]
  | .discovery => [.discovery]
  | .links => [.linkTraining]
  | .memory => [.memoryTraining]
  | .configuration => [.configuration]
  | .release => [.release]
  | .held _ => []
  | .running => if s.halted then s.runningEvents.filter Event.inHalt else s.runningEvents

end Sys2Proof.Machine
end

