-- ==== Sys2Proof/Machine/Probe.lean ====
section
/-! DEFINITION. Placing one instruction where the next step fetches it: the place the issuing thread fetches from, or, in
a state with no issuing thread, a package brought up with one thread of domain 0 resident on core 0 (log 20). -/
namespace Sys2Proof.Machine

/-- The page of the probe's code: mapped, readable, writable and executable, in HBM of geometry 0. -/
def probeLeaf : Word := w64 (0x7F + 1 * 2 ^ 26)
/-- Where the probe's code begins. -/
def probePc : Word := 0x10000
/-- Geometry 0 of the probe: stack 0 of die 0, tier HBM (13 R292). -/
def probeGeo : Word := w64 (1 + 1 * 2 ^ 8 + 1 * 2 ^ 16)

/-- The probe's thread: 64 registers, all full and all lines present, on core 0. -/
def probeThread : Thread :=
  { id := { sdom := 0, handle := 1 }, home := 0, core := 0, st := .resident, slot := some (0, 0), pc := probePc
    pred := 1, lines := 4, g := Vector.replicate 64 0, fe := w64 (2 ^ 64 - 1), emt := 0, fpf := 0, rnd := 1, stkp := 0
    prio := 0, priol := false, hnd := false, upv := 0, fcause := 0, region := 0, waitarg := 0
    deadline := w64 (2 ^ 64 - 1), incnt := 0, inhead := 0
    msgs := Vector.replicate 4 { payload := 0, src := 0, tag := 0 }, age := 0, aged := 0, readySince := 0
    slotSince := 0, waitSince := 0, ctl := true, linesIn := [1, 2, 3, 4], placed := none, snap := [], stores := [], fills := []
    walk := none, retryAt := 0, killed := false, asyncs := [], stepped := false, preempt := false, launch := none
    gang := none, pend := none, iword := 0, cond := none, pool := none, served := none }

/-- The state with the package running and the probe's thread about to issue. -/
def State.probeSetup (s : State) : State :=
  let s1 := { s with
    stage := .running, halted := false, endies := s.endies ||| 1, enstacks := s.enstacks ||| 1, encores := s.encores ||| 1
    threads := probeThread :: s.threads.filter (fun t => t.id ≠ probeThread.id), issue := [probeThread.id]
    fetched := none }
  let x := s1.die 0
  let s2 := s1.setDie 0 { x with gcache := Sparse.set 0 x.gcache 0 probeGeo }
  s2.tlbAdd 0 (tlbEntOf 0 probePc.toNat probeLeaf)

/-- The place the next step fetches from (03 R60). -/
def State.fetchPlace (s : State) : Option (Nat × Nat) :=
  match s.issue.head?.bind s.find with
  | none => none
  | some t =>
    if badPc t.pc || (s.fetchSlot t).isSome then none
    else match s.fetchWord t, s.tlbFind t.core t.id.sdom t.pc.toNat with
      | .ok _, some e => match s.locOf (dieOf t.core) t.id.sdom t.pc.toNat e.leaf false with
        | .ok l => some (t.id.sdom, l.spot.pa)
        | .error _ => none
      | _, _ => none

/-- Store a word where the next step fetches. -/
def State.placeWord (s : State) (w : Nat) : State :=
  match s.fetchPlace with
  | some (d, pa) => { s.writeAs d pa (toBytes 4 w) with fetched := none }
  | none => s

end Sys2Proof.Machine
end

