-- ==== Sys2Proof/Machine/Step.lean ====
section
/-! DEFINITION. One step of the machine: the next thread of the issue group executes the group's word (02 R53); when the
group is done, one of the steps that can happen next, chosen by a free value (log 4). -/
namespace Sys2Proof.Machine

/-- The execution of one thread of the issue group (R53): what comes before its instruction (18 R410), then the
instruction. -/
def State.issueOne (s : State) (i : Tid) : Host.Outcome State Fault Refusal :=
  match s.find i with
  | none => .next s
  | some t => match s.beforeExec t with
    | .error s1 => .next s1
    | .ok x => exec x s

/-- An input of the outside is made; one that waits is made again. -/
def State.inputStep (s : State) (x : Instr) : Host.Outcome State Fault Refusal :=
  match exec x s with
  | .next s1 => .next (if s1.waitsIn then { s1 with inputs := x :: s1.inputs, waitsIn := false } else s1)
  | o => o

/-- A step of another agent: the n-th of those enabled, the first input of the outside counting as the last of them. -/
def State.otherStep (s : State) (n : Nat) : Host.Outcome State Fault Refusal :=
  let l := s.enabled
  match s.inputs with
  | [] => match l[n % (l.length + (if l.isEmpty then 1 else 0))]? with
    | some e => e.run s
    | none => .next s
  | x :: rest =>
    match l[n % (l.length + 1)]? with
    | some e => e.run s
    | none => State.inputStep { s with inputs := rest } x

/-- One step; what every step is followed by at once comes after it: held writes of the device (13 R303) and the waits that a changed word
ends (16 R361). -/
def step (s : State) : Host.Outcome State Fault Refusal :=
  settled (match s.issue with
  | i :: rest => State.issueOne { s with issue := rest, cur := some i } i
  | [] => State.otherStep { s with cur := none, draws := s.draws + 1 } (Config.schedule s.draws))

/-- The state in which the next step fetches and executes the word w. -/
def State.withFetchWord (s : State) (_nbits w : Nat) : State :=
  match s.fetchPlace with
  | some _ => s.placeWord w
  | none => s.probeSetup.placeWord w

end Sys2Proof.Machine
end

