-- ==== Sys2Proof/Safety.lean ====
section
/-! DEFINITION. The terms claims about the machine are made in: a thread that executes a word with nothing queued for its
boundary, states that differ in one thread alone, memory read alike, and a package held in reset. -/
namespace Sys2Proof.Machine

/-- Nothing is queued for the next boundary of a thread: no KILL, no class A record, no step mark (18 R411). -/
def Thread.settled (t : Thread) : Bool := !t.killed && t.asyncs.isEmpty && !t.stepped

/-- The thread t executes i and passes orders 3 to 5 of R410, with nothing queued for its boundary. -/
abbrev Issues (s : State) (t : Thread) (i : Instr) : Prop :=
  s.cur.bind s.find = some t ∧ s.gate t i = .ok () ∧ t.settled = true

/-- The two states differ in their list of threads alone. -/
def ThreadsOnly (s s' : State) : Prop := s' = { s with threads := s'.threads }

/-- The two states hold the same value for every thread but one. -/
def OthersSame (s s' : State) (i : Tid) : Prop := ∀ j, j ≠ i → s'.find j = s.find j

/-- Every byte of memory, its full/empty bits, poison marks and line keys are the same. -/
def MemorySame (s s' : State) : Prop :=
  (∀ pa, s'.rawByte pa = s.rawByte pa) ∧ s'.feEmpty = s.feEmpty ∧ s'.poison = s.poison ∧ s'.lineKey = s.lineKey

/-- Registers that a frame names stay as they were, with their full bits. -/
def RegsSameBut (t u : Thread) (ds : List Nat) : Prop := ∀ n, n < t.count → n ∉ ds → u.rd n = t.rd n ∧ u.full n = t.full n

/-- Two threads alike in everything but their general registers with the full bits, PC, predicates, outstanding fills and
flags. -/
def SameBesides (t u : Thread) : Prop :=
  u = { t with g := u.g, fe := u.fe, pc := u.pc, pred := u.pred, fills := u.fills, fpf := u.fpf }

/-- The package is held in reset (19 R424): it issues no instruction. -/
def State.heldInReset (s : State) : Prop := (∃ k, s.stage = .held k) ∧ s.issue = []

/-- Instr constructors that are instruction words (spec/opcode_table.json rows with an encoding). -/
def isWord (i : Instr) : Bool := (encodeNat i).isSome

/-- Executed, i completes and leaves the state s', in which what was walked for it has been used: A and D are set, the TLB filled
(13 R307). Nothing was walked for a word that translated no address the TLB did not hold, and then it leaves s' itself. -/
abbrev Yields (s : State) (t : Thread) (i : Instr) (s' : State) : Prop :=
  Issues s t i → exec i s = .next (s'.commitFresh t.core t.id (s.freshOf t))

/-- Executed, i completes, writes v to general register d of its thread and changes nothing else but its PC (05 R116). -/
abbrev Writes (s : State) (t : Thread) (i : Instr) (d : Nat) (v : Word) : Prop :=
  Yields s t i (s.put { t.wr d v with pc := t.pc + 4 })

/-- Executed, i completes as an empty-bit producer of the fill f and changes nothing else but its PC (05 R116). -/
abbrev Fills (s : State) (t : Thread) (i : Instr) (f : Fill) : Prop :=
  Yields s t i (s.put { t.produce f with pc := t.pc + 4 })

/-- Executed, i completes, leaves its thread as u but for its PC, and changes nothing else. -/
abbrev Completes (s : State) (t : Thread) (i : Instr) (u : Thread) : Prop :=
  Yields s t i (s.put { u with pc := t.pc + 4 })

/-- Executed, i completes, writes the number r.1 to register d, raises the flags r.2 in FPF and changes nothing else but its PC
(07 R150, R151). -/
abbrev FloatWrites (s : State) (t : Thread) (i : Instr) (d : Nat) (r : Nat × Fpf) : Prop :=
  Yields s t i (s.put { t.wr d (BitVec.ofNat 64 r.1) with pc := t.pc + 4, fpf := t.fpf ||| r.2 })

/-- Executed, i completes as a floating-point empty-bit producer: the number r.1 for register d, the flags r.2 at the fill
(07 R151). -/
abbrev FloatFills (s : State) (t : Thread) (i : Instr) (d : Nat) (r : Nat × Fpf) : Prop :=
  Fills s t i { regs := [(d, BitVec.ofNat 64 r.1)], flags := r.2, float := true, req := none, bad := none }

/-- Executed, i takes the fault f: its thread is parked (18 R402). While a buffered store of the thread is held it stays BLOCKED EMPTY
instead, and meets the fault again at a later turn (12 R269). -/
abbrev Parks (s : State) (t : Thread) (i : Instr) (f : Flt) : Prop :=
  Issues s t i → exec i s = .next (if s.stuck t then s.put { t with st := .blocked .empty } else s.park t f false false (wordOf i))

/-- A thread whose wait ends with the registers rs written: past its instruction, RESIDENT with a slot and READY without one (02 R32,
16 R360). Of a dropped frame the words written are held until it is loaded again (22 R471). -/
def State.waitOver (s : State) (t : Thread) (rs : List Nat := []) : Thread :=
  { t.noted ([0, 6, 7] ++ rs.map (16 + ·)) with
    st := if t.slot.isSome then .resident else .ready, readySince := if t.slot.isSome then t.readySince else s.tick
    aged := if t.slot.isSome then t.aged else 0, pc := t.pc + 4, waitarg := 0, deadline := BitVec.allOnes 64, cond := none }

/-- No write of a completed engine command is still to become visible (12 R279). -/
def State.noLanding (s : State) : Prop := ∀ d ∈ s.dies, d.2.landing = []

/-- Nothing of a thread's store buffer, and no store of its die before its global point, is still to be performed (12 R269, R273). -/
def State.drained (s : State) (t : Thread) : Prop := t.stores = [] ∧ ∀ x ∈ s.early, dieOf x.core ≠ dieOf t.core

/-- A fill of one register. -/
abbrev oneFill (r : Nat) (v : Word) : Fill := { regs := [(r, v)], flags := 0, float := false, req := none, bad := none }

/-- The bytes from pa as a thread sees them, past its own buffered stores (11 R240), and the number they hold. -/
def State.seenBytes (s : State) (t : Thread) (pa n : Nat) : List Byte := (List.range n).map (fun k => s.viewByte t (pa + k))
def State.seen (s : State) (t : Thread) (pa n : Nat) : Nat := ofBytes (s.seenBytes t pa n)

/-- The request across a link of an access of a thread to a target (18 R420). -/
def Target.request (s : State) (t : Thread) (k : AccKind) (va : Nat) : Target → Option Req
  | .pad _ _ => none
  | .mem x => reqTo t.core k va x.spot s.tick

/-- The low n bytes of a register, least significant first (00 R2). -/
def lowBytes (w : Word) (n : Nat) : List Byte := (List.range n).map (fun k => w.extractLsb' (8 * k) 8)

/-- The checked access reaches the target g, which is no context line and no page of class CTX (11 R239). -/
def Reaches (s : State) (t : Thread) (al : Nat) (a : Access) (g : Target) : Prop :=
  s.reach t al a = .ok g ∧ s.lineAt g.pa = none ∧ (∀ l, g = .mem l → Leaf.cls l.leaf ≠ 3)

/-- What a load of n bytes at ea leaves: its destinations are emptied, and the fill outstanding says where its bytes lie, after which of
the thread's buffered stores it comes, and whether it acquires; its value is bound when it is filled (11 R240, R244; 12 R259). A load from
the own scratchpad writes its registers at once (02 R27), or meets a poisoned word (18 R418). -/
def Loads (s : State) (t : Thread) (i : Instr) (ea : Int) (n : Nat) (acq : Bool) (conv : LoadConv) : Prop :=
  ∀ g, Reaches s t n { ea := ea, n := n, kind := .load, write := false } g →
    let va := ea.toNat
    let fill : Fill := { regs := conv.regs [], flags := 0, float := false, req := g.request s t .load va, bad := none, mem := true, acq := acq }
    let awaits := Fills s t i { fill with pos := t.stores.length, src := some { va := va, pa := g.pa, n := n, leaf := g.leaf?, conv := conv
                                                                                kind := .load, half := none } }
    match g with
    | .mem _ => awaits
    | .pad c _ => if c = t.core then
        let u := s.bindLoads t
        match s.viewPoison t va g.pa n with
        | none => Completes s t i ((conv.regs (s.seenBytes t g.pa n)).foldl (fun t r => t.wr r.1 r.2) u)
        | some w => Completes s t i (u.produce { fill with bad := some (.poisonedData, .load, BitVec.ofNat 64 w) })
      else awaits

/-- The thread after ST.rel or FENCE.rel of a scope: stores that enter its buffer from now on drain after the loads outstanding now that
the scope covers, and after the stores of its die that it covers (11 R243; 12 R264, R265). -/
def State.released (s : State) (t : Thread) (q : Scope) : Thread :=
  { t with fills := t.fills.map (fun f => if s.awaits t q f && f.bar.isNone then { f with bar := some t.stores.length } else f)
           fenced := q :: t.fenced }

/-- A store enters the store buffer of u with its bytes, the place it will be performed at and the releases it comes after; memory is
unchanged (11 R241, R243). -/
def Buffers (s : State) (t u : Thread) (i : Instr) (ea : Int) (al : Nat) (bs : List Byte) : Prop :=
  ∀ g, Reaches s t al { ea := ea, n := bs.length, kind := .store, write := true } g → Completes s t i { u with
    fenced := [], stores := t.stores ++ [{ va := ea.toNat, pa := g.pa, bytes := bs, leaf := g.leaf?, rel := u.fenced
                                           since := if t.stores = [] then s.tick else 0 }] }

/-- The bytes bs stand at pa in domain d; every other byte reads in that domain as before, and every byte beyond the 128-byte line
of pa reads as before in every domain. -/
def Stored (s s' : State) (d pa : Nat) (bs : List Byte) : Prop :=
  (∀ k, (h : k < bs.length) → s'.byteAs d (pa + k) = bs[k]) ∧
  (∀ a, (a < pa ∨ pa + bs.length ≤ a) → s'.byteAs d a = s.byteAs d a) ∧
  (∀ a e, a / 128 ≠ pa / 128 → s'.byteAs e a = s.byteAs e a)

/-- No thread waits for a word of memory (16 R361, 17 R384, 09 R197). -/
def State.unwatched (s : State) : Prop := ∀ u ∈ s.threads, match u.cond with
  | some (.watch _ _ _) => False
  | some (.fill _ _ _) => False
  | some (.gangTest _ _ _ _) => False
  | _ => True

/-- No store of a die before its global point touches the aligned words of n bytes at pa (12 R273). -/
def State.noEarly (s : State) (die pa n : Nat) : Prop := ∀ x ∈ s.early, dieOf x.core = die →
  meets (alignDown pa 8, pa + n - alignDown pa 8) (alignDown x.ent.pa 8, 8) = false

/-- An ATOM or CAS of n bytes on an unpoisoned word. Where its request may leave at once, the loads before it are bound, the bytes of
`f old`, if it gives any, are performed at the target, across a link an entry of the home's reply cache holds the answer, and the old value
fills g[d] (11 R245, R246; 12 R266; 15 R345). Where it may not, for want of a credit or of a route to the host, its thread is held and joins
those that wait for a credit of the home (15 R345; 19 R439). -/
def Atomics (s : State) (t : Thread) (i : Instr) (d a : Reg) (n : Nat) (f : Nat → Option Nat) : Prop :=
  let va := (t.rd a.toNat).toNat
  ∀ g, Reaches s t n { ea := va, n := n, kind := .atomic, write := true } g →
    let home := (s.atomicHome t.core t.id.sdom va g).getD (dieOf t.core)
    s.viewPoison t va g.pa n = none → s.unwatched → s.noLanding → s.noEarly (dieOf t.core) g.pa n →
    let old := s.seen t g.pa n
    let u := { s.bindLoads t with req := none, pend := none }
    let s1 := match f old with
      | some v => (s.put u).performAt t.id.sdom g (toBytes n v)
      | none => s.put u
    (s.atomicGoes t home g = true →
      Yields s t i ((s1.takeEntry (.thread t.id) (dieOf t.core) home t.id.sdom g.pa old).put { u.produce
        { oneFill d.toNat (BitVec.ofNat 64 old) with req := s.atomicReq t va g, mem := true, acq := true } with pc := t.pc + 4 })) ∧
    (s.atomicGoes t home g = false → Issues s t i → exec i s = .next ((s.put { t with
      st := .blocked .empty, pend := some (.atomic d.toNat), iword := wordOf i
      req := match t.req with | some r => some r | none => s.atomicReq t va g }).awaitCredit (dieOf t.core) home (.thread t.id)))

/-- A packet of code op with the payload that code has, whose ends a working path joins, arrives in the running package, and leaves the
state s' (19 R428, R431). -/
abbrev Arrives (s : State) (i : Instr) (op : Nat) (p : Packet) (s' : State) : Prop :=
  s.stage = .running → p.op = op → wordsMatch p = true → s.linked p.src p.dst = true → exec i s = .next s'

/-- The state once a packet is in flight no more. -/
def State.took (s : State) (p : Packet) : State := { s with net := s.net.erase p }

/-- A well-formed mailbox command of a signer that exists, with a new SEQ, from a signer its rule admits: the command area holds it; when
the signature verifies, SEQ is recorded and `act` gives the effect with STATUS and result; otherwise the STATUS is 1 (20 R448). -/
abbrev Mail (s : State) (i : Instr) (c : MailCmd) (code words : Nat) (rule : Signer) (act : State → State × Nat × List Byte) : Prop :=
  s.stage = .running → c.cmd = code → c.len = 24 + 8 * words → words ≤ c.payload.length →
  ∀ k, s.signerKey c.signer = some k → s.signerSeq c.signer < c.seq → rule.admits c.signer = true →
  exec i s = .next (if sm2Verify k (mailBytes c) c.sig then
      let r := act ((s.commanded c).acceptSeq c)
      r.1.respond r.2.1 c.seq r.2.2
    else (s.commanded c).respond 1 c.seq [])

/-- The rows that come from outside the package, or from its memory and links, whatever the package does (19 R435 to R442, 20 R449,
18 R418, R419, 15 R331). -/
def isOutside : Instr → Bool
  | .cert _ | .takeown _ | .setfeat _ | .mkdom _ | .rmdom _ | .setroot _ | .setaper _ | .setqueue _ | .setedt _ | .setfdt _
  | .setep _ | .setcarveTarget _ | .setcarveCarvedom _ | .setspdom _ | .setsoldom _ | .setgtbase _ | .setcoreoff _
  | .setmgmtHalted _ | .setmgmtReqto _ | .setmgmtHostto _ | .setmgmtErrorCounter _ | .setmgmtHold _ | .mailboxUnknownCommand _
  | .hostApertureRead _ _ _ | .hostApertureWrite _ _ _ | .managementWindowWrite _ | .ethernetCompletion _ _
  | .ethernetInboundAccess _ | .ethernetTransportTimeout _ | .launchDoorbell _ | .linkFailure _ | .uncorrectableError _ _
  | .correctedError _ | .flitCheckFailure _ | .lazokelFlitRetry _ => true
  | _ => false

/-- A package held in reset with nothing to execute: no thread, none issuing, no write of the device held, memory in its canonical form,
and only what comes from outside still to happen (19 R424). -/
def State.heldForGood (s : State) : Prop :=
  s.heldInReset ∧ s.threads = [] ∧ s.devq = [] ∧ Memory.wf s.mem ∧ ∀ x ∈ s.inputs, isOutside x = true

end Sys2Proof.Machine
end

