-- ==== Sys2Proof/Certificates/Slice0/Obligations.lean ====
section
/-! DEFINITION. The statements for the provers: for every instruction and every step of another agent what it does when it
completes, what it leaves alone, where it faults; invariants of every step; decoding and encoding. `Writes`, `Fills`,
`Completes` and `Yields` (Sys2Proof/Safety.lean) say that exec answers a next state, and which. -/
open Sys2Proof Sys2Proof.Machine

/-- 06 R131: what each register-register integer instruction writes to g[d], in its 64-bit and .w forms.
06 R131: CLZ gives W for 0 and otherwise W - 1 - k with k the index of the highest 1 bit; POPC the number of 1 bits.
06 R133: MAD and SEL. -/
def Obligations.IntegerResults : Prop :=
  (∀ (s : State) (t : Thread) (d a b : Reg),
    let x := t.rd a.toNat
    let y := t.rd b.toNat
    let xw := x.setWidth 32
    let yw := y.setWidth 32
    let w := fun (v : BitVec 32) => v.signExtend 64
    Writes s t (.add d a b false) d.toNat (x + y) ∧ Writes s t (.add d a b true) d.toNat (w (xw + yw)) ∧
    Writes s t (.sub d a b false) d.toNat (x - y) ∧ Writes s t (.sub d a b true) d.toNat (w (xw - yw)) ∧
    Writes s t (.mul d a b false) d.toNat (x * y) ∧ Writes s t (.mul d a b true) d.toNat (w (xw * yw)) ∧
    Writes s t (.mulhS d a b) d.toNat (BitVec.ofInt 64 (x.toInt * y.toInt / 2 ^ 64)) ∧
    Writes s t (.mulhN d a b) d.toNat (BitVec.ofNat 64 (x.toNat * y.toNat / 2 ^ 64)) ∧
    Writes s t (.and d a b) d.toNat (x &&& y) ∧ Writes s t (.or d a b) d.toNat (x ||| y) ∧
    Writes s t (.xor d a b) d.toNat (x ^^^ y) ∧ Writes s t (.andn d a b) d.toNat (x &&& ~~~y) ∧
    Writes s t (.orn d a b) d.toNat (x ||| ~~~y) ∧
    Writes s t (.shl d a b false) d.toNat (x <<< (y.toNat % 64)) ∧ Writes s t (.shl d a b true) d.toNat (w (xw <<< (yw.toNat % 32))) ∧
    Writes s t (.shr d a b false) d.toNat (x >>> (y.toNat % 64)) ∧ Writes s t (.shr d a b true) d.toNat (w (xw >>> (yw.toNat % 32))) ∧
    Writes s t (.asr d a b false) d.toNat (BitVec.ofInt 64 (x.toInt / 2 ^ (y.toNat % 64))) ∧
    Writes s t (.asr d a b true) d.toNat (w (BitVec.ofInt 32 (xw.toInt / 2 ^ (yw.toNat % 32)))) ∧
    Writes s t (.rol d a b false) d.toNat (x <<< (y.toNat % 64) ||| x >>> (64 - y.toNat % 64)) ∧
    Writes s t (.rol d a b true) d.toNat (w (xw <<< (yw.toNat % 32) ||| xw >>> (32 - yw.toNat % 32))) ∧
    Writes s t (.ror d a b false) d.toNat (x >>> (y.toNat % 64) ||| x <<< (64 - y.toNat % 64)) ∧
    Writes s t (.ror d a b true) d.toNat (w (xw >>> (yw.toNat % 32) ||| xw <<< (32 - yw.toNat % 32))) ∧
    Writes s t (.minS d a b) d.toNat (if x.toInt ≤ y.toInt then x else y) ∧
    Writes s t (.maxS d a b) d.toNat (if x.toInt ≥ y.toInt then x else y) ∧
    Writes s t (.minN d a b) d.toNat (if x.toNat ≤ y.toNat then x else y) ∧
    Writes s t (.maxN d a b) d.toNat (if x.toNat ≥ y.toNat then x else y) ∧
    Writes s t (.brev d a) d.toNat x.reverse ∧
    Writes s t (.leaX1 d a b) d.toNat (x + y) ∧ Writes s t (.leaX2 d a b) d.toNat (x + y * 2) ∧
    Writes s t (.leaX4 d a b) d.toNat (x + y * 4) ∧ Writes s t (.leaX8 d a b) d.toNat (x + y * 8)) ∧
  (∀ (s : State) (t : Thread) (d a : Reg) (w : Bool) (k : Nat),
    let n := if w then 32 else 64
    let x := (t.rd a.toNat).toNat % 2 ^ n
    Writes s t (.popc d a w) d.toNat (BitVec.ofNat 64 ((List.range n).countP (fun j => x.testBit j))) ∧
    (x = 0 → Writes s t (.clz d a w) d.toNat (BitVec.ofNat 64 n)) ∧
    (2 ^ k ≤ x → x < 2 ^ (k + 1) → Writes s t (.clz d a w) d.toNat (BitVec.ofNat 64 (n - 1 - k)))) ∧
  (∀ (s : State) (t : Thread) (d a b c : Reg) (p : Pred),
    Writes s t (.mad d a b c) d.toNat (t.rd a.toNat * t.rd b.toNat + t.rd c.toNat) ∧
    Writes s t (.sel d a b false p) d.toNat (if t.rp p then t.rd a.toNat else t.rd b.toNat) ∧
    Writes s t (.sel d a b true p) d.toNat (if t.rp p then t.rd b.toNat else t.rd a.toNat))

/-- 06 R132: the quotient and remainder that DIVS, DIVN, REMS and REMN fill g[d] with, a zero divisor and the overflowing
quotient among them. -/
def Obligations.DivisionResults : Prop := ∀ (s : State) (t : Thread) (d a b : Reg) (w : Bool),
  let n := if w then 32 else 64
  let x := (t.rd a.toNat).setWidth n
  let y := (t.rd b.toNat).setWidth n
  let fill := fun (v : Int) => ({ regs := [(d.toNat, ((BitVec.ofInt n v).signExtend 64))], flags := 0, float := false,
                                  req := none, bad := none } : Fill)
  (y = 0 → Fills s t (.divs d a b w) (fill (-1)) ∧ Fills s t (.divn d a b w) (fill (2 ^ n - 1)) ∧
    Fills s t (.rems d a b w) (fill x.toInt) ∧ Fills s t (.remn d a b w) (fill x.toInt)) ∧
  (y ≠ 0 → x.toInt = -2 ^ (n - 1) → y.toInt = -1 →
    Fills s t (.divs d a b w) (fill x.toInt) ∧ Fills s t (.rems d a b w) (fill 0)) ∧
  (y ≠ 0 → ¬ (x.toInt = -2 ^ (n - 1) ∧ y.toInt = -1) →
    Fills s t (.divs d a b w) (fill (Int.tdiv x.toInt y.toInt)) ∧
    Fills s t (.rems d a b w) (fill (x.toInt - y.toInt * Int.tdiv x.toInt y.toInt))) ∧
  (y ≠ 0 → Fills s t (.divn d a b w) (fill (x.toNat / y.toNat)) ∧
    Fills s t (.remn d a b w) (fill ((x.toNat : Int) - y.toNat * (x.toNat / y.toNat))))

/-- 06 R134: the predicate CMP and CMPI write, for every condition; a compare that names p0 changes nothing but the PC. -/
def Obligations.CompareResults : Prop := ∀ (s : State) (t : Thread) (p : Pred) (a b : Reg) (w : Bool) (c : Cond) (imm : BitVec 14),
  let holds := fun (n : Nat) (x y : BitVec n) => match c with
    | .eq => decide (x = y) | .ne => decide (x ≠ y)
    | .ltS => x.slt y | .leS => x.sle y | .gtS => y.slt x | .geS => y.sle x
    | .ltN => x.ult y | .leN => x.ule y | .gtN => y.ult x | .geN => y.ule x
  let r := if w then holds 32 ((t.rd a.toNat).setWidth 32) ((t.rd b.toNat).setWidth 32) else holds 64 (t.rd a.toNat) (t.rd b.toNat)
  let ri := holds 64 (t.rd a.toNat) (imm.signExtend 64)
  (∀ u : Thread, (u = if p = 0 then t else { t with pred := t.pred &&& ~~~(1#8 <<< p.toNat) ||| (if r then 1#8 <<< p.toNat else 0) }) →
    Completes s t (.cmp p a b w c) u) ∧
  (∀ u : Thread, (u = if p = 0 then t else { t with pred := t.pred &&& ~~~(1#8 <<< p.toNat) ||| (if ri then 1#8 <<< p.toNat else 0) }) →
    Completes s t (.cmpi c p a imm) u)

/-- 06 R135 to R139: the immediate forms. -/
def Obligations.ImmediateResults : Prop := ∀ (s : State) (t : Thread) (d a : Reg) (i : BitVec 14) (n : BitVec 6) (m : BitVec 5)
    (j : BitVec 20) (h : BitVec 2) (k : BitVec 16) (l p : BitVec 6),
  let x := t.rd a.toNat
  let xw := x.setWidth 32
  let w := fun (v : BitVec 32) => v.signExtend 64
  let field := x.extractLsb' p.toNat (l.toNat + 1)
  Writes s t (.addi d a i) d.toNat (x + i.signExtend 64) ∧ Writes s t (.andi d a i) d.toNat (x &&& i.zeroExtend 64) ∧
  Writes s t (.ori d a i) d.toNat (x ||| i.zeroExtend 64) ∧ Writes s t (.xori d a i) d.toNat (x ^^^ i.zeroExtend 64) ∧
  Writes s t (.shli d a n) d.toNat (x <<< n.toNat) ∧ Writes s t (.shri d a n) d.toNat (x >>> n.toNat) ∧
  Writes s t (.asri d a n) d.toNat (x.sshiftRight n.toNat) ∧ Writes s t (.rori d a n) d.toNat (x.rotateRight n.toNat) ∧
  Writes s t (.shliW d a m) d.toNat (w (xw <<< m.toNat)) ∧ Writes s t (.shriW d a m) d.toNat (w (xw >>> m.toNat)) ∧
  Writes s t (.asriW d a m) d.toNat (w (xw.sshiftRight m.toNat)) ∧ Writes s t (.roriW d a m) d.toNat (w (xw.rotateRight m.toNat)) ∧
  Writes s t (.movi d j) d.toNat (j.signExtend 64) ∧
  Writes s t (.movhi d h k) d.toNat (t.rd d.toNat &&& ~~~(0xFFFF#64 <<< (16 * h.toNat)) ||| k.zeroExtend 64 <<< (16 * h.toNat)) ∧
  Writes s t (.leaPc d j) d.toNat (t.pc + j.signExtend 64 * 4) ∧
  (p.toNat + l.toNat < 64 →
    Writes s t (.bfxS d a l p) d.toNat (field.signExtend 64) ∧ Writes s t (.bfxN d a l p) d.toNat (field.zeroExtend 64) ∧
    Writes s t (.bfi d a l p) d.toNat (t.rd d.toNat &&& ~~~(((BitVec.allOnes (l.toNat + 1)).zeroExtend 64) <<< p.toNat) |||
      (x.setWidth (l.toNat + 1)).zeroExtend 64 <<< p.toNat))

/-- 06 R140, R141, R144: BR, JMP, a taken BRP and JMPR go to their target, an untaken BRP goes on, and nothing else changes. Where the
target is not canonical, a register target is not a multiple of 4, or an untaken BRP stands at the last word of a canonical half, they take
the bad-target fault with that address; so do CALL and CALLR before they push. -/
def Obligations.BranchResults : Prop :=
  ∀ (s : State) (t : Thread) (i : BitVec 22) (j : BitVec 26) (sense : Bool) (p : Pred) (a : Reg),
    let ok := fun (v : Int) => 0 ≤ v ∧ (v < 2 ^ 56 ∨ (0xFF00000000000000 ≤ v ∧ v < 2 ^ 64))
    let target := fun (d : Int) => (t.pc.toNat : Int) + 4 * d
    let taken := fun (v : Int) => s.put { t with pc := BitVec.ofInt 64 v }
    let bad := fun (v : Int) => Flt.plain .badTarget (BitVec.ofInt 64 v)
    let w := t.rd a.toNat
    (ok (target i.toInt) → Yields s t (.br i) (taken (target i.toInt))) ∧
    (¬ ok (target i.toInt) → Parks s t (.br i) (bad (target i.toInt))) ∧
    (ok (target j.toInt) → Yields s t (.jmp j) (taken (target j.toInt))) ∧
    (¬ ok (target j.toInt) → Parks s t (.jmp j) (bad (target j.toInt)) ∧ Parks s t (.call j) (bad (target j.toInt))) ∧
    ((t.rp p ^^ sense) = true →
      (ok (target i.toInt) → Yields s t (.brp sense p i) (taken (target i.toInt))) ∧
      (¬ ok (target i.toInt) → Parks s t (.brp sense p i) (bad (target i.toInt)))) ∧
    ((t.rp p ^^ sense) = false →
      (lastWord t.pc = false → Completes s t (.brp sense p i) t) ∧
      (lastWord t.pc = true → Parks s t (.brp sense p i) (.plain .badTarget (t.pc + 4)))) ∧
    (w &&& 3 = 0 → ok w.toNat → Yields s t (.jmpr a) (s.put { t with pc := w })) ∧
    (w &&& 3 ≠ 0 ∨ ¬ ok w.toNat → Parks s t (.jmpr a) (.plain .badTarget w) ∧ Parks s t (.callr a) (.plain .badTarget w))

/-- 06 R145; 03 R67; 12 R276; 11 R243: NOP, every hint and every fence complete and change nothing but the PC; FENCE.rel of a scope from
core up also keeps later stores behind the loads outstanding and the stores of its die that it covers. A FENCE of a scope from core up
issues only once the store buffer is empty, no acquiring access is outstanding, and every access and every store of its die that the scope
covers is performed (12 R265); a FENCE.acq once every load has its value. -/
def Obligations.NopsHintsFences : Prop :=
  ∀ (s : State) (t : Thread) (a : Reg) (x : BitVec 20) (h : BitVec 14) (y c : BitVec 6) (q : Scope),
    Completes s t .nop t ∧ Completes s t (.hnop x) t ∧ Completes s t (.hctx a h) t ∧ Completes s t (.hfetch y h) t ∧
    Completes s t (.hintReserved c x) t ∧ Completes s t (.fence q) t ∧ Completes s t (.fenceAcq q) t ∧
    Completes s t (.fenceRel q) (if q = .thread then t else s.released t q) ∧
    (q ≠ .thread → Issues s t (.fence q) → t.stores = [] ∧ (∀ f ∈ t.fills, f.acq = false ∧ s.awaits t q f = false) ∧
      s.earlyIn (dieOf t.core) q = false) ∧
    (q ≠ .thread → Issues s t (.fenceAcq q) → ∀ f ∈ t.fills, f.mem = false ∧ f.acq = false)

/-- 07 R155, R161: the exact result of a scalar floating-point operation, rounded once in the thread's mode, and its flags;
FDIV and FSQRT fill. -/
def Obligations.FloatArithmetic : Prop := ∀ (s : State) (t : Thread) (d a b c : Reg) (ty : Bool),
  let f := if ty then f32 else f64
  let v := fun (r : Reg) => f.decode ((t.rd r.toNat).toNat % 2 ^ f.width)
  let sum := fun (l : List Val) => f.deliver t.mode false (Val.sum t.mode l)
  FloatWrites s t (.fadd d a b ty) d.toNat (sum [v a, v b]) ∧
  FloatWrites s t (.fsub d a b ty) d.toNat (sum [v a, (v b).neg]) ∧
  FloatWrites s t (.fmul d a b ty) d.toNat (f.deliver t.mode false ((v a).mul (v b))) ∧
  FloatWrites s t (.fma ty d a b c) d.toNat (sum [(v a).mul (v b), v c]) ∧
  FloatWrites s t (.fms ty d a b c) d.toNat (sum [(v a).mul (v b), (v c).neg]) ∧
  FloatWrites s t (.fnma ty d a b c) d.toNat (sum [(v a).neg.mul (v b), (v c).neg]) ∧
  FloatWrites s t (.fnms ty d a b c) d.toNat (sum [(v a).neg.mul (v b), v c]) ∧
  FloatFills s t (.fdiv d a b ty) d.toNat (f.div t.mode (v a) (v b)) ∧
  FloatFills s t (.fsqrt d a ty) d.toNat (f.sqrt t.mode (v a)) ∧
  FloatFills s t (.frcp d a) d.toNat (f32.div t.mode (.fin false 1 0) (f32.decode ((t.rd a.toNat).toNat % 2 ^ 32))) ∧
  FloatFills s t (.frsq d a) d.toNat (frsqVal t.mode (f32.decode ((t.rd a.toNat).toNat % 2 ^ 32)))

/-- 07 R160: FEXP2 and FLOG2 fill g[d] with the model's evaluation of the function (the number of terms of its series is the
model's: log 21); infinities, zeros, operands below -0 and NaN give what the rule lists. -/
def Obligations.ExponentialResults : Prop := ∀ (s : State) (t : Thread) (d a : Reg),
  let v := f32.decode ((t.rd a.toNat).toNat % 2 ^ 32)
  FloatFills s t (.fexp2 d a) d.toNat (fexp2Val t.mode v) ∧ FloatFills s t (.flog2 d a) d.toNat (flog2Val t.mode v) ∧
  (v = .inf false → fexp2Val t.mode v = (0x7F800000, 0) ∧ flog2Val t.mode v = (0x7F800000, 0)) ∧
  (v = .inf true → fexp2Val t.mode v = (0, 0) ∧ flog2Val t.mode v = (0x7FC00000, flagNV)) ∧
  (v.isZero = true → fexp2Val t.mode v = (0x3F800000, 0) ∧ flog2Val t.mode v = (0xFF800000, flagDZ)) ∧
  (∀ m e, v = .fin true m e → m ≠ 0 → flog2Val t.mode v = (0x7FC00000, flagNV)) ∧
  (v.isNan = true → fexp2Val t.mode v = (0x7FC00000, if v.isInvalid then flagNV else 0) ∧
    flog2Val t.mode v = (0x7FC00000, if v.isInvalid then flagNV else 0))

/-- 04 R94: an operation of scalar or packed lanes with a NaN operand gives the canonical NaN of its format, with NV when an
operand signals.
04 R95 to R97: an encoding that is no NaN is its own rounding, in every format and mode, without a flag. -/
def Obligations.RoundingAndNaN : Prop :=
  (∀ (f : Fmt) (r : RMode) (x y z : Val), f ∈ [f64, f32, bf16, f16] →
    let quiet := fun (l : List Val) => l.all (fun v => !v.isInvalid)
    let nan := fun (b : Bool) => (f.nan, if b then (0 : Fpf) else flagNV)
    (x.isNan = true ∨ y.isNan = true → f.add r x y = nan (quiet [x, y]) ∧ f.mul r x y = nan (quiet [x, y]) ∧
      f.div r x y = nan (quiet [x, y])) ∧
    (x.isNan = true → f.sqrt r x = nan (quiet [x])) ∧
    (z.isNan = true → quiet [x.mul y] = true → f.fma r x y z = nan (quiet [z]))) ∧
  (∀ (f : Fmt) (r : RMode) (n : Nat),
    f ∈ [f64, f32, bf16, f16, e5m2, e4m3, e3m2, e2m3, e2m1] → n < 2 ^ f.width → (f.decode n).isNan = false →
    f.deliver r false (f.decode n) = (n, 0))

/-- 07 R156 to R159: minimum, maximum, sign operations, class and the compares. -/
def Obligations.FloatSelection : Prop := ∀ (s : State) (t : Thread) (p : Pred) (d a b : Reg) (ty : Bool),
  let f := if ty then f32 else f64
  let n := fun (r : Reg) => (t.rd r.toNat).toNat % 2 ^ f.width
  let x := f.decode (n a)
  let y := f.decode (n b)
  let top := 2 ^ (f.width - 1)
  let anyNan := x.isNan || y.isNan
  let nv := fun (b : Bool) => if b then flagNV else (0 : Fpf)
  let signed := fun (neg : Bool) => if x.isNan then (f.nan, nv x.isInvalid) else (n a % top + (if neg then top else 0), 0)
  let cmp := fun (r : Bool) (fl : Fpf) => ({ t.wp p r with fpf := t.fpf ||| fl } : Thread)
  FloatWrites s t (.fmin d a b ty) d.toNat
    (if x.isNan && y.isNan then f.nan else if x.isNan then n b else if y.isNan then n a else if x.leZ y then n a else n b,
     nv (x.isInvalid || y.isInvalid)) ∧
  FloatWrites s t (.fmax d a b ty) d.toNat
    (if x.isNan && y.isNan then f.nan else if x.isNan then n b else if y.isNan then n a else if x.leZ y then n b else n a,
     nv (x.isInvalid || y.isInvalid)) ∧
  FloatWrites s t (.fabs d a ty) d.toNat (signed false) ∧
  FloatWrites s t (.fneg d a ty) d.toNat (signed (decide (n a < top))) ∧
  FloatWrites s t (.fcpys d a b ty) d.toNat (signed (decide (top ≤ n b))) ∧
  FloatWrites s t (.fclass d a ty) d.toNat (f.classify (n a), 0) ∧
  Completes s t (.fcmpEq p a b ty) (cmp (!anyNan && decide (x.cmp y = 0)) (nv (x.isInvalid || y.isInvalid))) ∧
  Completes s t (.fcmpLt p a b ty) (cmp (!anyNan && decide (x.cmp y < 0)) (nv (x.isInvalid || y.isInvalid || anyNan))) ∧
  Completes s t (.fcmpLe p a b ty) (cmp (!anyNan && decide (x.cmp y ≤ 0)) (nv (x.isInvalid || y.isInvalid || anyNan))) ∧
  Completes s t (.fcmpUn p a b ty) (cmp anyNan (nv (x.isInvalid || y.isInvalid)))

/-- 07 R162, R164: lane k of g[d] after a packed instruction is the scalar operation of lane k of its sources; the flags raised
are the union of the lanes' flags. -/
def Obligations.PackedResults : Prop := ∀ (s : State) (t : Thread) (d a b c : Reg) (ty : Lane3),
  let f := match ty with | .f32 => Machine.f32 | .bf16 => Machine.bf16 | .f16 => Machine.f16
  let n := 64 / f.width
  let bitsOf := fun (r : Reg) (k : Nat) => (t.rd r.toNat).toNat / 2 ^ (f.width * k) % 2 ^ f.width
  let v := fun (r : Reg) (k : Nat) => f.decode (bitsOf r k)
  let sum := fun (l : List Val) => f.deliver t.mode false (Val.sum t.mode l)
  let lanes := fun (i : Instr) (op : Nat → Nat × Fpf) => ∀ (w : Nat),
    (∀ j, j < n → w / 2 ^ (f.width * j) % 2 ^ f.width = (op j).1) → w < 2 ^ 64 →
    FloatWrites s t i d.toNat (w, ((List.range n).map (fun j => (op j).2)).foldl (· ||| ·) 0)
  lanes (.padd d a b ty) (fun k => sum [v a k, v b k]) ∧
  lanes (.psub d a b ty) (fun k => sum [v a k, (v b k).neg]) ∧
  lanes (.pmul d a b ty) (fun k => f.deliver t.mode false ((v a k).mul (v b k))) ∧
  lanes (.pmin d a b ty) (fun k => f.minmax false (bitsOf a k) (bitsOf b k)) ∧
  lanes (.pmax d a b ty) (fun k => f.minmax true (bitsOf a k) (bitsOf b k)) ∧
  lanes (.pfma d a b c ty) (fun k => sum [(v a k).mul (v b k), v c k])

/-- 07 R163, R166, R169 to R171: PDOT, CVT, MXPACK, MXUNPACK and MXSCALE, each lane from the lane of its sources: what is decoded, rounded
once in the mode and delivered. CVT of a number between two floating-point formats delivers its value; from a floating-point format to an
integer it delivers the value rounded, clamped where it saturates (R168); from an integer it delivers the integer. An infinite E5M2 element
that MXUNPACK scales stays infinite and raises no flag: the model's reading (log 89). -/
def Obligations.DotAndConversionResults : Prop := ∀ (s : State) (t : Thread) (d a b : Reg) (l5 : Lane5) (sat : Bool) (r : RndSel)
    (u v : CvtType) (ty : MxType),
  let f := match l5 with
    | .f32 => Machine.f32 | .bf16 => Machine.bf16 | .f16 => Machine.f16 | .e4m3 => Machine.e4m3 | .e5m2 => Machine.e5m2
  let lane := fun (r : Reg) (k : Nat) => f.decode ((t.rd r.toNat).toNat / 2 ^ (f.width * k) % 2 ^ f.width)
  let g := MxType.fmt ty
  let ctl := (t.rd b.toNat).toNat
  let x := ctl % 256
  let mode := if 1 ≤ ctl / 256 % 8 ∧ ctl / 256 % 8 ≤ 5 then RMode.ofCode (ctl / 256 % 8) else t.mode
  let in32 := fun (k : Nat) => (t.rd (a.toNat + k / 2)).toNat / 2 ^ (32 * (k % 2)) % 2 ^ 32
  let packed := fun (k : Nat) => if x = 255 then ((g.deliver mode (ctl.testBit 11) (.nan false)).1, flagNV)
    else g.deliver mode (ctl.testBit 11) ((f32.decode (in32 k)).scale (127 - (x : Int)))
  let opened := fun (k : Nat) => match g.decode ((t.rd a.toNat).toNat / 2 ^ (g.width * k) % 2 ^ g.width) with
    | .nan _ => (0x7FC00000, 0)
    | .inf neg => if x = 255 then (0x7FC00000, 0) else (if neg then 0xFF800000 else 0x7F800000, 0)
    | .fin neg k e => if x = 255 then (0x7FC00000, 0) else f32.deliver mode (ctl.testBit 11) (.fin neg k (e + ((x : Int) - 127)))
  let word := fun (k : Nat) => BitVec.ofNat 64 ((opened (2 * k)).1 + 2 ^ 32 * (opened (2 * k + 1)).1)
  let flags := fun (op : Nat → Nat × Fpf) => ((List.range 8).map (fun j => (op j).2)).foldl (· ||| ·) 0
  let bits := (t.rd a.toNat).toNat
  let num := fun (y : Int) => Val.fin (decide (y < 0)) y.natAbs 0
  let src := match cvtFmt v with
    | some fs => fs.decode (bits % 2 ^ fs.width)
    | none => match v with
      | .s => num (t.rd a.toNat).toInt
      | .n => num bits
      | .i8 => num (BitVec.ofNat 8 bits).toInt
      | .i4 => num (BitVec.ofNat 4 bits).toInt
      | _ => if bits % 256 = 255 then .nan false else .fin false 1 ((bits % 256 : Int) - 127)
  let m : RMode := match r with | .csr => t.mode | .rne => .rne | .rtz => .rtz | .rup => .rup | .rdn => .rdn | .rna => .rna
  let gives := fun (p : Nat × Fpf) => FloatWrites s t (.cvt d a sat r u v) d.toNat p
  let int := fun (y : Int) (fl : Fpf) => gives ((BitVec.ofInt 64 y).toNat, fl)
  let range : Int × Int := match u with | .n => (0, 2 ^ 64 - 1) | .i8 => (-128, 127) | .i4 => (-8, 7) | _ => (-2 ^ 63, 2 ^ 63 - 1)
  FloatWrites s t (.pdot d a b l5) d.toNat (f32.deliver t.mode false (Val.sum t.mode
    (f32.decode ((t.rd d.toNat).toNat % 2 ^ 32) :: (List.range (64 / f.width)).map (fun k => (lane a k).mul (lane b k))))) ∧
  (∀ fd, cvtFmt u = some fd → gives (fd.deliver m sat src)) ∧
  (u ∈ [CvtType.s, .n, .i8, .i4] →
    (src.isNan = true → int 0 flagNV) ∧
    (∀ neg, src = .inf neg → int (if neg then range.1 else range.2) flagNV) ∧
    (∀ neg k e, src = .fin neg k e →
      let den := 2 ^ (-e).toNat
      let kept := k * 2 ^ e.toNat / den
      let rem := k * 2 ^ e.toNat % den
      let up := match m with
        | .rtz => false
        | .rup => decide (rem ≠ 0) && !neg
        | .rdn => decide (rem ≠ 0) && neg
        | .rne => decide (den < 2 * rem) || (decide (2 * rem = den) && decide (kept % 2 = 1))
        | .rna => decide (den ≤ 2 * rem)
      let mag : Int := kept + (if up then 1 else 0)
      let y := if neg then -mag else mag
      (y < range.1 → int range.1 flagNV) ∧ (range.2 < y → int range.2 flagNV) ∧
      (range.1 ≤ y → y ≤ range.2 → int y (if rem = 0 then 0 else flagNX)))) ∧
  (u = .e8m0 →
    ((∀ k e, src = .fin false k e → k = 0) → gives (0xFF, flagNV)) ∧
    (∀ k e, src = .fin false k e → k ≠ 0 →
      let b := k.log2
      let up := match m with
        | .rtz | .rdn => false
        | .rup => decide (k ≠ 2 ^ b)
        | .rne => decide (3 * 2 ^ b < 2 * k) || (decide (2 * k = 3 * 2 ^ b) && decide ((b + e + 127) % 2 ≠ 0))
        | .rna => decide (3 * 2 ^ b ≤ 2 * k)
      let c : Int := b + e + (if up then 1 else 0) + 127
      (c < 0 → gives (0, flagUF ||| flagNX)) ∧ (254 < c → gives (if sat then 0xFE else 0xFF, flagOF ||| flagNX)) ∧
      (0 ≤ c → c ≤ 254 → gives (c.toNat, if k = 2 ^ b ∧ up = false then 0 else flagNX)))) ∧
  FloatWrites s t (.mxpack d a b ty) d.toNat
    (((List.range 8).map (fun k => (packed k).1 % 2 ^ g.width * 2 ^ (g.width * k))).sum, flags packed) ∧
  Completes s t (.mxunpack d a b ty) { ((((t.wr d.toNat (word 0)).wr (d.toNat + 1) (word 1)).wr (d.toNat + 2) (word 2)).wr
    (d.toNat + 3) (word 3)) with fpf := t.fpf ||| flags opened } ∧
  (∀ m, maxMag (ctl / 2 ^ 32 :: (List.range 8).map in32) = some m →
    FloatWrites s t (.mxscale d a b ty) d.toNat (m * 2 ^ 32 + ctl / 256 % 2 ^ 24 * 2 ^ 8 + scaleOf ty m, 0)) ∧
  (maxMag (ctl / 2 ^ 32 :: (List.range 8).map in32) = none →
    FloatWrites s t (.mxscale d a b ty) d.toNat (0x7FC00000 * 2 ^ 32 + ctl / 256 % 2 ^ 24 * 2 ^ 8 + 255,
      if (ctl / 2 ^ 32 :: (List.range 8).map in32).any (fun v => (f32.decode v).isInvalid) then flagNV else 0))

/-- 11 R240, R244; 12 R259, R266: every load form, LD.acq in all its widths: what it leaves outstanding, or writes; what the bytes of a load
become: zero-extended, sign-extended, or a pair; and REGISTER_FILL: the loads before it are bound, the bytes as they lie now, past the
thread's own earlier stores and those of its die, reach the registers. -/
def Obligations.LoadResults : Prop :=
  (∀ (s : State) (t : Thread) (d a : Reg) (dp : PairReg) (o : BitVec 14) (q : Scope),
    let ea := ((t.rd a.toNat).toNat : Int) + o.toInt
    let ra := ((t.rd a.toNat).toNat : Int)
    let z := LoadConv.zero d.toNat
    let x := LoadConv.sign d.toNat
    Loads s t (.ldB d a o) ea 1 false z ∧ Loads s t (.ldH d a o) ea 2 false z ∧ Loads s t (.ldW d a o) ea 4 false z ∧
    Loads s t (.ldD d a o) ea 8 false z ∧ Loads s t (.ldBS d a o) ea 1 false (x 1) ∧ Loads s t (.ldHS d a o) ea 2 false (x 2) ∧
    Loads s t (.ldWS d a o) ea 4 false (x 4) ∧ Loads s t (.ldP dp a o) ea 16 false (.pair (2 * dp.toNat)) ∧
    Loads s t (.ldAcq d a q .b) ra 1 true z ∧ Loads s t (.ldAcq d a q .h) ra 2 true z ∧ Loads s t (.ldAcq d a q .w) ra 4 true z ∧
    Loads s t (.ldAcq d a q .d) ra 8 true z ∧ Loads s t (.ldAcq d a q .bS) ra 1 true (x 1) ∧ Loads s t (.ldAcq d a q .hS) ra 2 true (x 2) ∧
    Loads s t (.ldAcq d a q .wS) ra 4 true (x 4) ∧ Loads s t (.ldAcq d a q .p) ra 16 true (.pair d.toNat)) ∧
  (∀ (r n : Nat) (bs : List Byte), bs.length = n → 1 ≤ n →
    (LoadConv.zero r).regs bs = [(r, BitVec.ofNat 64 (ofBytes bs))] ∧
    (n ≤ 4 → (LoadConv.sign r n).regs bs = [(r, (BitVec.ofNat (8 * n) (ofBytes bs)).signExtend 64)]) ∧
    (n = 16 → (LoadConv.pair r).regs bs = [(r, BitVec.ofNat 64 (ofBytes bs)), (r + 1, BitVec.ofNat 64 (ofBytes bs / 2 ^ 64))])) ∧
  (∀ (s : State) (t : Thread) (k : Nat) (f : Fill) (x : LoadSrc),
    let u := s.bindUpTo t k
    let before := { u with stores := u.stores.take f.pos }
    let regs := x.conv.regs (s.seenBytes before x.pa x.n)
    let v := (regs.foldl (fun (t : Thread) (r : Nat × Word) => t.wr r.1 r.2)
      ({ u.dropFill k s.tick with saw := s.sawWith u [f] } : Thread)).noted (regs.map (16 + ·.1))
    s.find t.id = some t → t.st = .resident → u.fills[k]? = some f → f.src = some x → f.bad = none → f.req.any s.reqLost = false →
    x.half = none → x.hostPair = false → (∀ e, x.leaf = some e → Leaf.trans e = false ∧ Leaf.cls e ≠ 3) → s.lineAt x.pa = none →
    s.recalling x.pa = false → s.viewPoison before x.va x.pa x.n = none →
    exec (.registerFill t.id k) s = .next ((s.clearMarks u regs).put { v with fpf := v.fpf ||| f.flags }))

/-- 11 R241, R243: every store form enters the store buffer with the low bytes of its registers and leaves memory as it was; ST.rel keeps
it behind the loads outstanding and the stores of its die that its scope covers. -/
def Obligations.StoreResults : Prop := ∀ (s : State) (t : Thread) (v a : Reg) (vp : PairReg) (o : BitVec 14) (q : Scope),
  let ea := ((t.rd a.toNat).toNat : Int) + o.toInt
  let ra := ((t.rd a.toNat).toNat : Int)
  let b := lowBytes (t.rd v.toNat)
  let p := fun (r : Nat) => lowBytes (t.rd r) 8 ++ lowBytes (t.rd (r + 1)) 8
  let u := s.released t q
  Buffers s t t (.stB v a o) ea 1 (b 1) ∧ Buffers s t t (.stH v a o) ea 2 (b 2) ∧ Buffers s t t (.stW v a o) ea 4 (b 4) ∧
  Buffers s t t (.stD v a o) ea 8 (b 8) ∧ Buffers s t t (.stP vp a o) ea 16 (p (2 * vp.toNat)) ∧
  Buffers s t u (.stRel v a q .b) ra 1 (b 1) ∧ Buffers s t u (.stRel v a q .h) ra 2 (b 2) ∧ Buffers s t u (.stRel v a q .w) ra 4 (b 4) ∧
  Buffers s t u (.stRel v a q .d) ra 8 (b 8) ∧ Buffers s t u (.stRel v a q .p) ra 16 (p v.toNat)

/-- 15 R341, 10 R230; 12 R266, R273: STORE_BUFFER_DRAIN performs the oldest buffered store: its bytes stand where the store's placement
lies, its entry leaves the buffer, and no other byte of memory and nothing else of the state changes, but that the loads before it are bound
and a matrix operation that reads its scratchpad may see it (08 R183); or, where it is a whole word that only its die need see at once, it
leaves the buffer and waits for its global point, and nothing else changes (which of the two is a free value: log 106). A store kept behind
an earlier load, or behind the stores of its die that a release covers, waits. -/
def Obligations.DrainPerforms : Prop := ∀ (s : State) (i : Tid) (t : Thread) (e : StoreEnt) (l : List StoreEnt) (pa : Nat),
  let left := (s.bindBefore t).popStore s.tick
  s.find i = some t → t.stores = e :: l → t.asyncs = [] → t.killed = false → s.noLanding → (∀ x ∈ s.early, x.tid ≠ i) →
  s.noEarly (dieOf t.core) e.pa e.bytes.length →
  (t.barred = true ∨ s.relDone t = false → exec (.storeBufferDrain i) s = .next s) ∧
  (t.barred = false → s.relDone t = true → s.storeLost t = false → e.hostPair = false →
    s.storePlace t.core t.id.sdom e = some (pa, none) → s.lineAt pa = none → pa % 128 + e.bytes.length ≤ 128 → s.unwatched →
    (∃ s', exec (.storeBufferDrain i) s = .next s' ∧ Stored s s' t.id.sdom pa e.bytes ∧
      s'.threads = (s.put left).threads ∧ (physUnit pa < 32 → s'.gangs = s.gangs) ∧
      s' = { s with mem := s'.mem, lineKey := s'.lineKey, poison := s'.poison, threads := s'.threads, gangs := s'.gangs }) ∨
    (e.bytes.length = 8 ∧ e.leaf.isSome = true ∧ physUnit e.pa < 32 ∧
      exec (.storeBufferDrain i) s = .next { s.put left with early := s.early ++ [{ tid := t.id, core := t.core, ent := e }] }))

/-- 11 R245, R246; 15 R345: ATOM and CAS: the old value fills g[d]; the new value of each operation is performed in one step; across a link
the request takes an entry of the home's reply cache, and waits where its pair has no credit. That the old value is had, and the write
performed, at issue, with the thread's earlier loads bound there, is the model's choice (log 43: DEDUCED).
11 R245, 10 R230: what an ATOM or CAS performs at its target changes the bytes of the word alone. -/
def Obligations.AtomicResults : Prop :=
  (∀ (s : State) (t : Thread) (d a b c : Reg) (wd : Width) (o : AtomOrder),
    let n := match wd with | .b => 1 | .h => 2 | .w => 4 | .d => 8
    let y := (t.rd b.toNat).toNat % 2 ^ (8 * n)
    let sv := fun (x : Nat) => (BitVec.ofNat (8 * n) x).toInt
    let low := fun (r : Reg) (k : Nat) => (t.rd r.toNat).toNat % 2 ^ k
    Atomics s t (.atomAdd d a b wd o) d a n (fun x => some (x + y)) ∧ Atomics s t (.atomAnd d a b wd o) d a n (fun x => some (x &&& y)) ∧
    Atomics s t (.atomOr d a b wd o) d a n (fun x => some (x ||| y)) ∧ Atomics s t (.atomXor d a b wd o) d a n (fun x => some (x ^^^ y)) ∧
    Atomics s t (.atomMinS d a b wd o) d a n (fun x => some (if sv x ≤ sv y then x else y)) ∧
    Atomics s t (.atomMaxS d a b wd o) d a n (fun x => some (if sv x ≤ sv y then y else x)) ∧
    Atomics s t (.atomMinN d a b wd o) d a n (fun x => some (min x y)) ∧ Atomics s t (.atomMaxN d a b wd o) d a n (fun x => some (max x y)) ∧
    Atomics s t (.atomSwap d a b wd o) d a n (fun _ => some y) ∧
    Atomics s t (.atomFaddF32 d a b o) d a 4 (fun x =>
      some (f32.deliver .rne false (Val.sum .rne [f32.decode x, f32.decode (low b 32)])).1) ∧
    Atomics s t (.atomFaddF64 d a b o) d a 8 (fun x =>
      some (f64.deliver .rne false (Val.sum .rne [f64.decode x, f64.decode (low b 64)])).1) ∧
    Atomics s t (.atomFmaxF32 d a b o) d a 4 (fun x => some (f32.minmax true x (low b 32)).1) ∧
    Atomics s t (.casW d a b c o) d a 4 (fun x => if x = low c 32 then some (low b 32) else none) ∧
    Atomics s t (.casD d a b c o) d a 8 (fun x => if x = low c 64 then some (low b 64) else none)) ∧
  (∀ (s : State) (d : Nat) (g : Target) (bs : List Byte), s.unwatched → s.lineAt g.pa = none →
    g.pa % 128 + bs.length ≤ 128 → (∀ l, g = .mem l → l.mirror = none) →
    let s' := s.performAt d g bs
    Stored s s' d g.pa bs ∧ (physUnit g.pa < 32 → s'.gangs = s.gangs) ∧
      s' = { s with mem := s'.mem, lineKey := s'.lineKey, poison := s'.poison, gangs := s'.gangs })

/-- 05 R122, R123: a store of a whole register word of a live thread's frame, its own or another's, writes that register at once
and makes it full; no byte of memory changes, and a poison mark on that word of memory goes (18 R418).
10 R225, 05 R122: a store to the control line of a live thread by any thread but the handler of a FAULTED one takes the
control-line-write fault. -/
def Obligations.FrameLineStores : Prop := ∀ (s : State) (t u : Thread) (v a : Reg) (o : BitVec 14) (l : Loc) (k n : Nat),
  let ea := ((t.rd a.toNat).toNat : Int) + o.toInt
  let b := s.bindLoads t
  let b' := s.bindLoads { t with fenced := [] }
  let pa := l.spot.pa
  s.reach t 8 { ea := ea, n := 8, kind := .store, write := true } = .ok (.mem l) →
  s.find { sdom := t.id.sdom, handle := handleOf ea.toNat } = some u → u.placed.isSome = true →
  (s.lineAt l.spot.pa = some (u, k) → 1 ≤ k → k ≤ 4 → l.spot.pa % 128 = 8 * n →
    (u.id ≠ t.id → t.stores = [] → t.barred = false → (∀ q ∈ t.fenced, s.earlyIn (dieOf t.core) q = false) →
      Yields s t (.stD v a o) ((((s.put b').unpoison pa 8).put (u.wr (16 * (k - 1) + n) (t.rd v.toNat))).put { b' with pc := t.pc + 4 })) ∧
    (u.id = t.id → Yields s t (.stD v a o) ((s.unpoison pa 8).put { b.wr (16 * (k - 1) + n) (t.rd v.toNat) with pc := t.pc + 4 }))) ∧
  (s.lineAt l.spot.pa = some (u, 0) → t.hnd = false → u.id ≠ t.id ∨ t.fills.any (·.float) = false →
    Parks s t (.stD v a o) { cause := .controlLineWrite, addr := BitVec.ofInt 64 ea, kind := .store, detail := 0, fetch := false })

/-- 06 R142, R143: CALL and CALLR push PC + 4 through the store buffer at STKP - 8 and transfer; RET issues its load and holds its
thread; RET_COMPLETION pops the word and transfers to it. A stack pointer that is not a multiple of 8 takes the misaligned-stack fault,
whose KIND 0 is the model's reading of 18 R401 (log 73: DEDUCED). -/
def Obligations.CallAndReturn : Prop := ∀ (s : State) (t : Thread) (j : BitVec 26) (a : Reg) (g : Target) (i : Tid) (x : LoadSrc),
  let ok := fun (v : Int) => 0 ≤ v ∧ (v < 2 ^ 56 ∨ (0xFF00000000000000 ≤ v ∧ v < 2 ^ 64))
  let target := (t.pc.toNat : Int) + 4 * j.toInt
  let w := t.rd a.toNat
  let sp := t.stkp - 8
  let pushed := fun (v : Word) => s.put { t with pc := v, stkp := sp, fenced := [], stores := t.stores ++
    [{ va := sp.toNat, pa := g.pa, bytes := lowBytes (t.pc + 4) 8, leaf := g.leaf?, rel := t.fenced
       since := if t.stores = [] then s.tick else 0 }] }
  let bad : Flt := .plain .misalignedStack t.stkp
  (t.stkp &&& 7 = 0 → Reaches s t 8 { ea := sp.toNat, n := 8, kind := .store, write := true } g →
    (ok target → Yields s t (.call j) (pushed (BitVec.ofInt 64 target))) ∧
    (w &&& 3 = 0 → ok w.toNat → Yields s t (.callr a) (pushed w))) ∧
  (t.stkp &&& 7 = 0 → Reaches s t 8 { ea := t.stkp.toNat, n := 8, kind := .load, write := false } g →
    let pop := t.stkp.toNat
    let load : LoadSrc := { va := pop, pa := g.pa, n := 8, leaf := g.leaf?, conv := .zero 0, kind := .load, half := none }
    Yields s t .ret (s.put { t with st := .blocked .empty, pend := some (.ret load), req := g.request s t .load pop })) ∧
  (t.stkp &&& 7 ≠ 0 → Parks s t .ret bad ∧ (ok target → Parks s t (.call j) bad) ∧ (w &&& 3 = 0 → ok w.toNat → Parks s t (.callr a) bad)) ∧
  (s.find i = some t → t.settled = true → t.pend = some (.ret x) → x.n = 8 → x.half = none → t.req.any s.reqLost = false →
    (∀ e, x.leaf = some e → Leaf.trans e = false) → s.viewPoison t x.va x.pa 8 = none → s.lineAt x.pa = none →
    let v := BitVec.ofNat 64 (s.seen t x.pa 8)
    let u := { s.bindLoads t with pend := none, req := none, st := .resident }
    (v &&& 3 = 0 → ok v.toNat → exec (.retCompletion i) s = .next (s.put { u with stkp := t.stkp + 8, pc := v })) ∧
    (v &&& 3 ≠ 0 ∨ ¬ ok v.toNat → s.stuck u = false →
      exec (.retCompletion i) s = .next (s.park u (.plain .badTarget v) false false (wordOf .ret))))

/-- 11 R250, R251, R253: a full/empty instruction on a sync page issues its request and holds its thread until the reply; so does a full/empty
store on another page, where a full/empty load acts as LD.acq of 8 bytes.
11 R250, R251, R252; 15 R345: FULL_EMPTY_REPLY. LDFE of a full word empties it and fills the register; LDFE.k leaves it full; either is deferred
on an empty word. STFE of an empty word and STFE.f store and set it full; STFE of a full word is turned away and re-issues 256 cycles later.
Without a credit of the home's reply cache the request waits.
02 R32: 256 cycles after a negative acknowledgement FERETRY_REISSUE makes the thread RESIDENT; before that nothing changes. -/
def Obligations.FullEmptyResults : Prop :=
  (∀ (s : State) (t : Thread) (x a : Reg) (q : Scope) (l : Loc),
    let va := (t.rd a.toNat).toNat
    let held := fun (i : Instr) (kind : Nat) (v : Word) => Yields s t i (s.put { t with
      st := .blocked .empty, iword := wordOf i, pend := some (.fe kind x.toNat va l.leaf v)
      req := match s.locOf (dieOf t.core) t.id.sdom va l.leaf true with
        | .ok m => reqTo t.core .fullEmpty va m.spot s.tick
        | .error _ => none })
    let loads := fun (i : Instr) => Fills s t i { regs := [(x.toNat, 0)], flags := 0, float := false, bad := none, mem := true, acq := true
                                                  req := (Target.mem l).request s t .fullEmpty va, pos := t.stores.length
                                                  src := some { va := va, pa := l.spot.pa, n := 8, leaf := some l.leaf, conv := .zero x.toNat
                                                                kind := .fullEmpty, half := none } }
    let sync := Leaf.sync l.leaf
    Leaf.cls l.leaf ≠ 3 → s.lineAt l.spot.pa = none →
    (s.reachFe t va 0 = .ok (.mem l) → (sync = true → held (.ldfe x a q) 0 0) ∧ (sync = false → loads (.ldfe x a q))) ∧
    (s.reachFe t va 1 = .ok (.mem l) → (sync = true → held (.ldfeK x a q) 1 0) ∧ (sync = false → loads (.ldfeK x a q))) ∧
    (s.reachFe t va 2 = .ok (.mem l) → held (.stfe x a q) (if sync then 2 else 4) (t.rd x.toNat)) ∧
    (s.reachFe t va 3 = .ok (.mem l) → held (.stfeF x a q) (if sync then 3 else 4) (t.rd x.toNat))) ∧
  (∀ (s : State) (i : Tid) (t : Thread) (kind reg va : Nat) (leaf val : Word) (die slice pa : Nat),
    s.find i = some t → t.settled = true → t.pend = some (.fe kind reg va leaf val) → s.fePlace t va leaf = some (die, slice, pa, none) →
    s.deferrals = [] → s.unwatched → s.noLanding → s.noEarly (dieOf t.core) pa 8 → s.poison = [] → s.lineAt pa = none → pa % 8 = 0 →
    physUnit pa < 32 → s.groupFirst t = true → t.req.any s.reqLost = false →
    let u := s.bindLoads t
    let done := { u with pend := none, req := none, st := .resident, pc := t.pc + 4 }
    let old := s.numAs t.id.sdom pa 8
    let ends := fun (s' : State) (v : Nat) =>
      exec (.fullEmptyReply i) s = .next (s'.takeEntry (.thread t.id) (dieOf t.core) die t.id.sdom va v)
    let filled := s.put (done.produce { oneFill reg (BitVec.ofNat 64 old) with mem := true, acq := true })
    let stored := (s.put done).writeAs t.id.sdom pa (lowBytes val 8)
    (s.creditFor (dieOf t.core) die (.thread t.id) = false →
      exec (.fullEmptyReply i) s = .next (s.awaitCredit (dieOf t.core) die (.thread t.id))) ∧
    (s.creditFor (dieOf t.core) die (.thread t.id) = true →
      (kind = 0 → s.isFull pa = true → ends (filled.setFull pa false) old) ∧
      (kind = 1 → s.isFull pa = true → ends filled old) ∧
      (kind ≤ 1 → s.isFull pa = false → ends { s.put (done.clr reg) with deferrals :=
          [{ die := die, slice := slice, pa := pa, va := va, tid := some t.id, reg := reg, keep := decide (kind = 1) }] } 0) ∧
      (kind = 4 → ends stored 0) ∧
      ((kind = 2 ∧ s.isFull pa = false) ∨ kind = 3 → ends (stored.setFull pa true) 0) ∧
      (kind = 2 → s.isFull pa = true → exec (.fullEmptyReply i) s = .next
        (((s.put { u with pend := none, req := none, st := .blocked .feretry, retryAt := (s.core t.core).cycle + 256 }).dropCredit t.id).tally
          t.core (some t.id.sdom) 0x07 1)))) ∧
  (∀ (s : State) (i : Tid) (t : Thread), s.find i = some t → t.st = .blocked .feretry →
    (t.retryAt ≤ (s.core t.core).cycle → exec (.feretryReissue i) s = .next (s.put { t with st := .resident })) ∧
    ((s.core t.core).cycle < t.retryAt → exec (.feretryReissue i) s = .next s))

/-- 05 R119, R120: what CSRR reads of each register, and what CSRW, CSRS and CSRC leave: the writable bits under the mask of R119,
every other bit and register as before. -/
def Obligations.CsrResults : Prop := ∀ (s : State) (t : Thread) (r : Reg) (c : BitVec 12),
  let read : Word := match c.toNat with
    | 0x000 => BitVec.ofNat 64 t.id.handle
    | 0x001 => BitVec.ofNat 64 t.core
    | 0x002 => match t.slot with | some (p, k) => BitVec.ofNat 64 (p % 16 + k % 32 * 16) | none => 0
    | 0x003 => BitVec.ofNat 64 (t.prio % 64 + if t.priol then 64 else 0)
    | 0x004 => BitVec.ofNat 64 t.region
    | 0x005 => BitVec.ofNat 64 (frameAddr t.id.handle + (t.lines - 1))
    | 0x006 => t.emt &&& ~~~1#64
    | 0x007 => t.fpf.zeroExtend 64
    | 0x008 => t.rnd.zeroExtend 64
    | 0x009 => if t.hnd then BitVec.ofNat 64 t.upv else 0
    | 0x00A => t.stkp
    | 0x00B => (t.pred ||| 1).zeroExtend 64
    | 0x00C => (t.fe &&& BitVec.ofNat 64 (2 ^ t.count - 1)) ||| 1
    | 0x010 => BitVec.ofNat 64 s.tick
    | _ => 0
  let mask : Word := match c.toNat with
    | 0x006 => BitVec.ofNat 64 (2 ^ t.count - 1) &&& ~~~1#64
    | 0x007 => 0x1F
    | 0x008 => 7
    | 0x00A => BitVec.allOnes 64
    | 0x00B => 0xFE
    | _ => 0
  let left : Word → Thread := fun v => match c.toNat with
    | 0x006 => { t with emt := v }
    | 0x007 => { t with fpf := v.setWidth 5 }
    | 0x008 => if 1 ≤ v.toNat % 8 ∧ v.toNat % 8 ≤ 5 then { t with rnd := v.setWidth 3 } else t
    | 0x00A => { t with stkp := v }
    | 0x00B => { t with pred := v.setWidth 8 ||| 1 }
    | _ => t
  let g := t.rd r.toNat
  Writes s t (.csrr r c) r.toNat read ∧
  Completes s t (.csrw r c) (left ((read &&& ~~~mask) ||| (g &&& mask))) ∧
  Completes s t (.csrs r c) (left (read ||| (g &&& mask))) ∧
  Completes s t (.csrc r c) (left (read &&& ~~~(g &&& mask)))

/-- 16 R350 to R356, R359, R367, R368: SPAWN, CALLAT, SEND, RESUME, KILL and EXIT with a return message issue their request and hold their
thread until the reply, and change nothing else but a frame that is loaded again for the access to it. A task word outside its limits, a
handle operand with a bit outside the handle, a message tag the rule forbids, and a target the issuer is not entitled to take their faults;
the entitlement is judged before the access to the target's frame. -/
def Obligations.RequestsIssue : Prop := ∀ (s s1 : State) (t u : Thread) (d a b : Reg) (k : BitVec 4) (h h1 : Tid),
  let held := fun (s : State) (t : Thread) (i : Instr) (p : Pend) => s.put { t with st := .blocked .empty, pend := some p, iword := wordOf i }
  let held1 := held s1 (s1.again t)
  let task := t.rd d.toNat
  let entry := fun (callat : Bool) =>
    ({ pc := t.rd a.toNat
       args := if k = 0 then [0, 0, 0, 0] else
         [t.rd (4 * k.toNat), t.rd (4 * k.toNat + 1), t.rd (4 * k.toNat + 2), t.rd (4 * k.toNat + 3)]
       region := t.region, home := t.home, sdom := t.id.sdom, lines := (task.extractLsb' 47 2).toNat + 1
       handle := (task.extractLsb' 0 47).toNat
       caller := BitVec.ofNat 64 (t.id.handle + if callat then 2 ^ 63 else 0), from' := t.id, parked := false } : TaskEnt)
  let core := if task.getLsbD 49 then t.core else (task.extractLsb' 50 11).toNat
  let w := t.rd a.toNat
  let back := t.rd 1
  let target : Tid := { sdom := t.id.sdom, handle := w.toNat }
  (s.taskOk t task (t.rd a.toNat) = true →
    Yields s t (.spawn d a k) (held s t (.spawn d a k) (.spawn core (entry false))) ∧
    Yields s t (.callat d a k) (held s t (.callat d a k) (.spawn core (entry true)))) ∧
  (s.taskOk t task (t.rd a.toNat) = false →
    Parks s t (.spawn d a k) (.plain .taskOperand task) ∧ Parks s t (.callat d a k) (.plain .taskOperand task)) ∧
  (w.extractLsb' 0 47 ≠ 0 → w.getLsbD 47 = false → (w.extractLsb' 48 16).toNat < 0xFFF0 →
    s.frameNamed t (w.extractLsb' 0 47).toNat true = .ok (s1, h) →
    Yields s t (.send d a b) (held1 (.send d a b) (.send h (w.extractLsb' 48 16).toNat (t.rd b.toNat) d.toNat))) ∧
  (w.extractLsb' 0 47 = 0 → Parks s t (.send d a b) (.plain .threadOperand w)) ∧
  (w.extractLsb' 0 47 ≠ 0 → w.getLsbD 47 = true ∨ 0xFFF0 ≤ (w.extractLsb' 48 16).toNat → Parks s t (.send d a b) (.plain .messageOperand w)) ∧
  ((∀ u, s.named target = some u → s.entitled t u = true) → s.handleArg t a true = .ok (s1, h) →
    Yields s t (.resume d a) (held1 (.resume d a) (.resume h d.toNat)) ∧
    Yields s t (.kill d a) (held1 (.kill d a) (.kill h d.toNat))) ∧
  (s.named target = some u → s.entitled t u = false → s.chainWaits (dieOf t.core) u.home 9 u.region = false →
    Parks s t (.resume d a) (.plain .privilege 0) ∧ Parks s t (.kill d a) (.plain .privilege 0)) ∧
  (w = 0 ∨ w.extractLsb' 47 17 ≠ 0 → (∀ u ∈ s.threads, u.id.handle ≠ 0 ∧ u.id.handle < 2 ^ 47) →
    Parks s t (.resume d a) (.plain .threadOperand w) ∧ Parks s t (.kill d a) (.plain .threadOperand w)) ∧
  (t.gang = none → back.getLsbD 63 = true → back.extractLsb' 0 47 ≠ 0 → s.frameNamed t (back.extractLsb' 0 47).toNat true = .ok (s1, h1) →
    Yields s t .exit (held1 .exit .exit))

/-- 16 R351, R353, R356, R359, R367, 15 R338 to R340: the replies. A task whose place the queue has enters the target core's queue; a
message enters the target's inbox and SEND completes with 0, or with 1 when no live thread has the handle; a queue that does not admit the
task or a full inbox gives a negative acknowledgement; RESUME makes a FAULTED thread READY; KILL ends a target at its boundary, and marks
one that has not reached it; EXIT ends its thread with g8 as it stands delivered to the live thread that g1 names. -/
def Obligations.RequestReplies : Prop := ∀ (s : State) (i h : Tid) (t u : Thread) (core tag reg : Nat) (e : TaskEnt) (val : Word),
  s.find i = some t → t.settled = true → s.groupFirst t = true → h ≠ i →
  let done := fun (regs : List (Nat × Word)) =>
    ({ regs.foldl (fun t x => t.wr x.1 x.2) t with pend := none, st := .resident, pc := t.pc + 4 } : Thread)
  let turned := { t with pend := none, st := .blocked .feretry, retryAt := (s.core t.core).cycle + 256 }
  let q := s.core core
  let took := fun (m : Msg) => { u with incnt := u.incnt + 1, msgs := u.msgs.setIfInBounds ((u.inhead + u.incnt) % 4) m }
  (t.pend = some (.spawn core e) → s.coreOn core = true → orderedArrival q.arrived q.cycle t.core = true →
    (q.taskRes.admits q.taskq.length 64 i = true → exec (.instructionReply i) s = .next ((s.setCore core { q with
      arrived := some (q.cycle, t.core), taskq := q.taskq ++ [e], taskRes := q.taskRes.accepted i }).put (done []))) ∧
    (q.taskRes.admits q.taskq.length 64 i = false →
      ∃ s', exec (.instructionReply i) s = .next s' ∧ s'.find i = some turned ∧ (s'.core core).taskq = q.taskq)) ∧
  (t.pend = some (.send h tag val reg) → s.find h = none →
    exec (.instructionReply i) s = .next (s.put (done [(reg, 1)]))) ∧
  (t.pend = some (.send h tag val reg) → s.find h = some u → u.incnt < 4 → u.cond = none →
    exec (.instructionReply i) s = .next ((s.put (took { payload := val, src := t.id.handle, tag := tag })).put (done [(reg, 0)]))) ∧
  (t.pend = some (.send h tag val reg) → s.find h = some u → 4 ≤ u.incnt →
    ∃ s', exec (.instructionReply i) s = .next s' ∧ s'.find i = some turned ∧ s'.find h = some u) ∧
  (t.pend = some (.resume h reg) → s.find h = some u → u.st = .faulted →
    ∃ s', exec (.instructionReply i) s = .next s' ∧ s'.find i = some (done [(reg, 0)]) ∧
      s'.find h = some { u with st := .ready, fcause := 0, readySince := s.tick, aged := 0 }) ∧
  (t.pend = some (.resume h reg) → (∀ u, s.find h = some u → u.st ≠ .faulted) →
    exec (.instructionReply i) s = .next (s.put (done [(reg, 1)]))) ∧
  (t.pend = some (.kill h reg) → s.find h = none → exec (.instructionReply i) s = .next (s.put (done [(reg, 1)]))) ∧
  (t.pend = some (.kill h reg) → s.find h = some u → s.mayLeave u = false →
    exec (.instructionReply i) s = .next (s.put { u with killed := true })) ∧
  (t.pend = some (.kill h reg) → s.find h = some u → s.mayLeave u = true → s.drained u → (u.rd 1).getLsbD 63 = false →
    t.slot.isSome = true → s.unwatched →
    ∃ s', exec (.instructionReply i) s = .next s' ∧ s'.find h = none ∧ s'.find i = some (done [(reg, 0)])) ∧
  (t.pend = some .exit → (t.rd 1).getLsbD 63 = true → h = { sdom := t.id.sdom, handle := ((t.rd 1).extractLsb' 0 47).toNat } →
    s.named h = some u → u.incnt < 4 → u.cond = none → s.drained t → s.stuck t = false → s.unwatched →
    ∃ s', exec (.instructionReply i) s = .next s' ∧ s'.find i = none ∧
      s'.find h = some (took { payload := t.rd 8, src := t.id.handle, tag := 0xFFFE }))

/-- 16 R357, R362: RECV takes the oldest message of the inbox, polls, or waits; SLEEP completes or waits.
16 R361: WAIT completes at once when the word differs from the expected value or the time-out is 0, and waits otherwise.
16 R360 to R362, 17 R377, R384: WAIT_DEADLINE does nothing before the deadline, which lies in the counter's round in which the wait began; at
it a SLEEP completes, a WAIT and a FILL.WAIT complete with the word as a load of the thread returns it, a RECV with the empty message. That
the word a WAIT compares and delivers is seen past the thread's own buffered stores is the model's reading of 12 R261 and R266 (log 48:
DEDUCED). -/
def Obligations.WaitingResults : Prop :=
  (∀ (s : State) (t : Thread) (d : PairReg) (a : Reg),
    let fill := fun (p q : Word) => ({ regs := [(2 * d.toNat, p), (2 * d.toNat + 1, q)], flags := 0, float := false, req := none
                                       bad := none } : Fill)
    let m := t.msgs.toList.getD (t.inhead % 4) { payload := 0, src := 0, tag := 0 }
    let limit := BitVec.ofNat 64 (min (2 ^ 64 - 1) (s.tick % 2 ^ 64 + (t.rd a.toNat).toNat))
    (0 < t.incnt → Completes s t (.recv d a) (Thread.produce { t with inhead := (t.inhead + 1) % 4, incnt := t.incnt - 1 }
      (fill m.payload (BitVec.ofNat 64 (m.tag % 2 ^ 16 * 2 ^ 48 + m.src))))) ∧
    (t.incnt = 0 → t.rd a.toNat = 0 → Completes s t (.recv d a) (t.produce (fill 0 (0xFFFF#64 <<< 48)))) ∧
    (t.incnt = 0 → t.rd a.toNat ≠ 0 → Yields s t (.recv d a) (s.put { s.bindLoads t with
      st := .waiting .recv, cond := some (.recv d.toNat), waitarg := 0, deadline := limit, waitSince := s.tick })) ∧
    (t.rd a.toNat = 0 → Completes s t (.sleep a) t) ∧
    (t.rd a.toNat ≠ 0 → Yields s t (.sleep a) (s.put { s.bindLoads t with
      st := .waiting .wait, cond := some .sleep, waitarg := 0, deadline := limit, waitSince := s.tick }))) ∧
  (∀ (s : State) (t : Thread) (d a : Reg) (b : PairReg) (g : Target),
    let addr := t.rd a.toNat
    let want := t.rd (2 * b.toNat)
    let limit := t.rd (2 * b.toNat + 1)
    let u := s.bindLoads t
    s.access t.core t.id.sdom 8 { ea := addr.toNat, n := 8, kind := .load, write := false } = .ok g → s.lineAt g.pa = none →
    (∀ l, g = .mem l → Leaf.cls l.leaf ≠ 3) → s.viewPoison t addr.toNat g.pa 8 = none →
    let v := BitVec.ofNat 64 (s.seen t g.pa 8)
    (v ≠ want ∨ limit = 0 → Completes s t (.wait d a b) (u.produce { oneFill d.toNat v with req := g.request s t .load addr.toNat })) ∧
    (v = want → limit ≠ 0 → Yields s t (.wait d a b) (s.put { u with
      st := .waiting .wait, cond := some (.watch g.pa want d.toNat), waitarg := addr
      deadline := BitVec.ofNat 64 (min (2 ^ 64 - 1) (s.tick % 2 ^ 64 + limit.toNat)), waitSince := s.tick }))) ∧
  (∀ (s : State) (i : Tid) (t : Thread) (pa reg pair : Nat) (val : Word),
    s.find i = some t →
    let ended := fun (u : Thread) (rs : List Nat) => exec (.waitDeadline i) s = .next (s.put (s.waitOver u rs))
    let due := t.waitSince / 2 ^ 64 * 2 ^ 64 + t.deadline.toNat
    (t.deadline = BitVec.allOnes 64 ∨ s.tick < due → exec (.waitDeadline i) s = .next s) ∧
    (t.deadline ≠ BitVec.allOnes 64 → due ≤ s.tick →
      (t.st = .waiting .wait → t.cond = some .sleep → ended t []) ∧
      (t.st = .waiting .wait → t.cond = some (.watch pa val reg) → ended (t.wr reg (s.viewWord t pa)) [reg]) ∧
      (t.st = .waiting .fill → t.cond = some (.fill pa val reg) → ended (t.wr reg (s.viewWord t pa)) [reg]) ∧
      (t.st = .waiting .recv → t.cond = some (.recv pair) →
        ended ((t.wr (2 * pair) 0).wr (2 * pair + 1) (0xFFFF#64 <<< 48)) [2 * pair, 2 * pair + 1])))

/-- 16 R363 to R366: WAKE ends the WAIT or SLEEP of the named thread, a WAIT with the word as a load of that thread returns it, its own
buffered stores included (log 48: DEDUCED), and says whether it did; MIGR moves its thread to the core named, READY; PRIO sets the base
priority within the region's, for which the thread's own stands while the region's chain cannot be read (log 99: the model's choice); THR
reads a thread's state. An operand that MIGR or PRIO does not admit, a handle with a bit outside the handle, and a member of a gang that would
migrate take their faults. -/
def Obligations.ThreadControlResults : Prop :=
  ∀ (s s1 : State) (t u : Thread) (d a : Reg) (h : Tid) (c w : Nat),
    let fill := fun (v : Word) => oneFill d.toNat v
    let filled := fun (i : Instr) (f : Fill) => Yields s t i (s1.put { (s1.again t).produce f with pc := (s1.again t).pc + 4 })
    let x := t.rd a.toNat
    let v := x.toNat
    let rp := match s.chain (dieOf t.core) t.home t.region with
      | .ok path => effPrio path
      | .error _ => t.prio
    (x = 0 ∨ x.extractLsb' 47 17 ≠ 0 → Parks s t (.wake d a) (.plain .threadOperand x)) ∧
    (s.handleArg t a true = .ok (s1, h) →
      (s1.find h = none → filled (.wake d a) (fill 0)) ∧
      (s1.find h = some u → u.st ≠ .waiting .wait → filled (.wake d a) (fill 0)) ∧
      (s1.find h = some u → u.st = .waiting .wait → h ≠ t.id →
        let ended := match u.cond with
          | some (.watch pa _ reg) => s1.waitOver (u.wr reg (s1.viewWord u pa)) [reg]
          | _ => s1.waitOver u
        Yields s t (.wake d a) ((s1.put ended).put { (s1.again t).produce (fill 1) with pc := (s1.again t).pc + 4 }))) ∧
    (s.migrTarget x = none → Parks s t (.migr a) (.plain .migrateOperand x)) ∧
    (s.migrTarget x = some c → t.gang.isSome = true → Parks s t (.migr a) (.plain .gangBound t.gangRecord)) ∧
    (s.migrTarget x = some c → t.gang = none → c = t.core → Completes s t (.migr a) t) ∧
    (s.migrTarget x = some c → t.gang = none → c ≠ t.core → s.drained t → s.stuck t = false → Issues s t (.migr a) →
      ∃ s', exec (.migr a) s = .next s' ∧ OthersSame s s' t.id ∧
        s'.find t.id = some { t with pc := t.pc + 4, core := c, st := .ready, readySince := s.tick, aged := 0, preempt := false, walk := none
                                     slot := none, ctl := false, linesIn := [], age := 0, claim := none }) ∧
    (v = 0xFF → Completes s t (.prio a) { t with prio := rp, priol := false }) ∧
    (v ≤ 63 → Completes s t (.prio a) { t with prio := min v rp, priol := decide (v < rp) }) ∧
    (63 < v → v ≠ 0xFF → Parks s t (.prio a) (.plain .prioOperand x)) ∧
    (x = 0 → Fills s t (.thr d a) (fill 0)) ∧
    (x.extractLsb' 47 17 ≠ 0 → Parks s t (.thr d a) (.plain .threadOperand x)) ∧
    (x ≠ 0 → s.handleArg t a false = .ok (s1, h) →
      (s1.ctlPoison t v = none → filled (.thr d a) (fill (match s1.find h with | some u => u.stateWord | none => 0))) ∧
      (s1.ctlPoison t v = some w → filled (.thr d a) { fill 0 with bad := some (.poisonedData, .load, BitVec.ofNat 64 w) }))

/-- 06 R145, R146; 16 R359: YIELD completes: a member of a gang, and a thread whose core has no READY thread in a package without gangs,
go on at the next word, of all registers only the priority following its region's; a thread whose core's candidate has no lower priority
gives up its slot and is READY at the next word. EXIT without a return message ends its thread: no live thread bears its name, and where
nothing waits for a word of memory every other thread is as it was. A member of a gang that exits takes the gang-bound fault. That g1 with bit
63 set and handle 0 sends no message is the model's choice (log 47), and so is that the priority compared is the one the region has as YIELD
executes (log 76). -/
def Obligations.YieldAndExit : Prop :=
  ∀ (s : State) (t c : Thread),
    let s1 := s.put { t with pc := t.pc + 4 }
    let seen := (s1.refreshCore t.core).surveyReady t.core
    (t.gang.isSome = true → Completes s t .yield t) ∧
    (t.gang = none → s.readyOf t.core = [] → s.gangs = [] → t.st = .resident → Issues s t .yield →
      ∃ s' u, exec .yield s = .next s' ∧ s'.find t.id = some u ∧
        u = { t with pc := t.pc + 4, prio := u.prio, priol := u.priol, reach := u.reach }) ∧
    (t.gang = none → s.gangs = [] → t.st = .resident → t.slot.isSome = true → t.pend = none → s.drained t → s.unwatched →
      seen.1.firstOf seen.2.1 = some c → (seen.1.again t).prio ≤ seen.1.prioOf c → Issues s t .yield →
      ∃ s' u, exec .yield s = .next s' ∧ s'.find t.id = some u ∧ u.pc = t.pc + 4 ∧ u.st = .ready ∧ u.slot = none) ∧
    (t.gang.isSome = true → Parks s t .exit (.plain .gangBound t.gangRecord)) ∧
    (t.gang = none → (t.rd 1).getLsbD 63 = false ∨ (t.rd 1).extractLsb' 0 47 = 0 → s.stuck t = false → Issues s t .exit →
      ∃ s', exec .exit s = .next s' ∧ s'.find t.id = none ∧ (s.drained t → s.unwatched → OthersSame s s' t.id))

/-- 17 R377, R380: TSCR reads the time-stamp counter and the core; TSC_TICK advances the counter alone, and debug halt stops it.
17 R393, R395: PCNT reads, takes over and gives up a performance counter of its core, and domain 0 reads an error counter; for the counter
of another domain, and for an error counter in another domain, it takes the privilege fault. -/
def Obligations.TimeAndCounters : Prop :=
  (∀ (s : State) (t : Thread) (d : PairReg),
    Completes s t (.tscr d) ((t.wr (2 * d.toNat) (BitVec.ofNat 64 s.tick)).wr (2 * d.toNat + 1) (BitVec.ofNat 64 t.core)) ∧
    (s.stage = .running → s.halted = false → exec .tscTick s = .next { s with tick := s.tick + 1 }) ∧
    (s.halted = true → exec .tscTick s = .next s)) ∧
  (∀ (s : State) (t : Thread) (d a b : Reg) (n : Nat),
    let c := (s.core t.core).counter n
    let v := t.rd b.toNat
    let mine := c.owner = t.id.sdom
    let old := if c.owner = t.id.sdom then c.val else 0
    (n ≤ 7 → (mine ∨ c.owner = 0xFFFF) →
      (t.rd a.toNat = BitVec.ofNat 64 n → Writes s t (.pcnt d a b) d.toNat old) ∧
      (t.rd a.toNat = BitVec.ofNat 64 (n + 0x100) → (v.extractLsb' 0 8).toNat ≤ 0x0F → v.extractLsb' 9 55 = 0 →
        Yields s t (.pcnt d a b) ((s.setCounter t.core n { owner := t.id.sdom, event := (v.extractLsb' 0 8).toNat, en := v.getLsbD 8, val := 0, new := true }).put
          { t.wr d.toNat old with pc := t.pc + 4 })) ∧
      (t.rd a.toNat = BitVec.ofNat 64 (n + 0x200) → mine → Yields s t (.pcnt d a b)
        ((s.setCounter t.core n { c with owner := 0xFFFF, en := false, val := 0 }).put { t.wr d.toNat old with pc := t.pc + 4 }))) ∧
    (n ≤ 7 → ¬ mine → c.owner ≠ 0xFFFF → (t.rd a.toNat = BitVec.ofNat 64 n ∨ t.rd a.toNat = BitVec.ofNat 64 (n + 0x100) ∨
      t.rd a.toNat = BitVec.ofNat 64 (n + 0x200)) → Parks s t (.pcnt d a b) (.plain .privilege 0)) ∧
    (n ≤ 10 → t.rd a.toNat = BitVec.ofNat 64 (n + 0x300) →
      (t.id.sdom = 0 → Fills s t (.pcnt d a b) (oneFill d.toNat (Sparse.get 0 (s.die (dieOf t.core)).errs n))) ∧
      (t.id.sdom ≠ 0 → Parks s t (.pcnt d a b) (.plain .privilege 0))))

/-- 17 R382, R383: FILL.INIT sets EXPECT and clears ARRIVED, keeping PHASE; FILL.ADD adds, and flips PHASE and carries the excess
over once EXPECT is reached; both fill g[d] with the old word, and perform the new one in the scratchpad. An operand beyond its limit takes
the counter-operand fault.
17 R384: FILL.WAIT completes with the counter when PHASE is the phase wanted or the time-out is 0, and waits otherwise. KIND 0 of these faults is
the model's reading of 18 R401 (log 73), and so is that FILL.WAIT sees the buffered stores of its own thread (log 48). -/
def Obligations.FillCounterResults : Prop :=
  (∀ (s : State) (t : Thread) (d a b : Reg) (g : Target),
    let addr := t.rd a.toNat
    let n := (t.rd b.toNat).toNat
    let u := s.bindLoads t
    s.counterPlace t.core t.id.sdom addr = .ok g → s.poisonedIn g.pa 8 = none → s.unwatched → s.noLanding → s.lineAt g.pa = none →
    let old := s.numAs t.id.sdom g.pa 8
    let arrived := old % 2 ^ 32 + n
    let expect := old / 2 ^ 32 % 2 ^ 31
    let phase := old / 2 ^ 63 % 2
    let left := fun (w : Nat) => ((s.put u).performAt t.id.sdom g (toBytes 8 w)).put
      { u.produce (oneFill d.toNat (BitVec.ofNat 64 old)) with pc := t.pc + 4 }
    (n < 2 ^ 31 → Yields s t (.fillInit d a b) (left (phase * 2 ^ 63 + n * 2 ^ 32))) ∧
    (n ≤ 2 ^ 32 → expect ≠ 0 → expect ≤ arrived → Yields s t (.fillAdd d a b)
      (left ((1 - phase) * 2 ^ 63 + expect * 2 ^ 32 + min (arrived - expect) (2 ^ 32 - 1)))) ∧
    (n ≤ 2 ^ 32 → (expect = 0 ∨ arrived < expect) → Yields s t (.fillAdd d a b)
      (left (phase * 2 ^ 63 + expect * 2 ^ 32 + min arrived (2 ^ 32 - 1)))) ∧
    (2 ^ 31 ≤ n → Parks s t (.fillInit d a b) (.plain .counterOperand addr)) ∧
    (2 ^ 32 < n → Parks s t (.fillAdd d a b) (.plain .counterOperand addr))) ∧
  (∀ (s : State) (t : Thread) (d a : Reg) (b : PairReg) (c off : Nat),
    let addr := t.rd a.toNat
    let want := t.rd (2 * b.toNat)
    let limit := t.rd (2 * b.toNat + 1)
    let pa := physAddr (padUnit c) off
    let u := s.bindLoads t
    s.counterPlace t.core t.id.sdom addr = .ok (.pad c off) → s.lineAt pa = none →
    (2 ≤ want.toNat → Parks s t (.fillWait d a b) (.plain .counterOperand addr)) ∧
    (want.toNat ≤ 1 → s.viewPoison t addr.toNat pa 8 = none →
      let v := BitVec.ofNat 64 (s.seen t pa 8)
      (v.getLsbD 63 = want.getLsbD 0 ∨ limit = 0 →
        Completes s t (.fillWait d a b) (u.produce { oneFill d.toNat v with mem := true, acq := true })) ∧
      (v.getLsbD 63 ≠ want.getLsbD 0 → limit ≠ 0 → Yields s t (.fillWait d a b) (s.put { u with
        st := .waiting .fill, cond := some (.fill pa want d.toNat), waitarg := addr
        deadline := BitVec.ofNat 64 (min (2 ^ 64 - 1) (s.tick % 2 ^ 64 + limit.toNat)), waitSince := s.tick }))))

/-- 17 R385, R388, R389: SBAR.ARRIVE joins the open episode of its network with its COUNT and answers EPI; where its endpoint has signalled
that episode it joins the next one, and where it has signalled both it is BLOCKED EMPTY. SBAR.WAIT of an ended episode reads how it ended, and
of the open one or the next waits or polls. Reserved bits, a COUNT beyond its limits or other than the episode's, and an episode out of
range take the counter-operand fault; on a network of another domain both take the privilege fault.
17 R387 to R391: an arrival is counted for its episode; once every core of the span has signalled the open one it ends and EPI and the history
advance; the end releases the waiters of its core, and no other thread; a deadline extends while every core that lags still has a thread that
may arrive, and abandons the episode otherwise. That an endpoint has signalled by the arrivals issued, for R388 and R390, and by those counted,
for the end, is the model's choice (log 65). -/
def Obligations.BarrierResults : Prop :=
  (∀ (s : State) (t : Thread) (p : Pred) (d a b : Reg),
    let w := t.rd a.toNat
    let v := t.rd b.toNat
    let count := (w.extractLsb' 2 10).toNat
    let net := netOf (w.extractLsb' 0 2).toNat t.core
    let x := s.sol net
    let e := x.endPt t.core
    let delta := (x.epi + 2 ^ 16 - (v.extractLsb' 0 16).toNat) % 2 ^ 16
    let limit := v.extractLsb' 32 32
    let ticks := if limit = BitVec.allOnes 32 then 2 ^ 64 - 1 else limit.toNat
    let counts := w.extractLsb' 12 52 = 0 ∧ 1 ≤ count ∧ count ≤ 512
    let joined := fun (y : EndPt) (ep : Nat) => Yields s t (.sbarArrive d a) (State.put
      { s.setSol net { x with ends := Sparse.set EndPt.init x.ends t.core y } with arrivals := s.arrivals ++ [(net, t.core, ep)] }
      { t.wr d.toNat (BitVec.ofNat 64 ep) with pc := t.pc + 4 })
    let refused := fun (i : Instr) => Parks s t i (.plain .counterOperand w)
    (¬ counts → refused (.sbarArrive d a)) ∧
    (counts → x.dom ≠ t.id.sdom → Parks s t (.sbarArrive d a) (.plain .privilege 0)) ∧
    (counts → x.dom = t.id.sdom →
      (e.full0 = false → (e.issued0 = 0 ∨ e.count0 = count) → joined { e with issued0 := e.issued0 + 1, count0 := count } x.epi) ∧
      (e.full0 = false → e.issued0 ≠ 0 → e.count0 ≠ count → refused (.sbarArrive d a)) ∧
      (e.full0 = true → e.full1 = true → Issues s t (.sbarArrive d a) →
        exec (.sbarArrive d a) s = .next (s.put { t with st := .blocked .empty })) ∧
      (e.full0 = true → e.full1 = false → (e.issued1 = 0 ∨ e.count1 = count) →
        joined { e with issued1 := e.issued1 + 1, count1 := count } ((x.epi + 1) % 2 ^ 16)) ∧
      (e.full0 = true → e.full1 = false → e.issued1 ≠ 0 → e.count1 ≠ count → refused (.sbarArrive d a))) ∧
    (w.extractLsb' 2 62 ≠ 0 ∨ v.extractLsb' 16 16 ≠ 0 → refused (.sbarWait p a b)) ∧
    (w.extractLsb' 2 62 = 0 → v.extractLsb' 16 16 = 0 → x.dom ≠ t.id.sdom → Parks s t (.sbarWait p a b) (.plain .privilege 0)) ∧
    (w.extractLsb' 2 62 = 0 → v.extractLsb' 16 16 = 0 → x.dom = t.id.sdom →
      (1 ≤ delta → delta ≤ 32 → Completes s t (.sbarWait p a b) (t.wp p (x.hist.testBit (delta - 1)))) ∧
      (32 < delta → delta < 0xFFFF → refused (.sbarWait p a b)) ∧
      (delta = 0 ∨ delta = 0xFFFF → limit = 0 → Completes s t (.sbarWait p a b) (t.wp p true)) ∧
      (delta = 0 ∨ delta = 0xFFFF → limit ≠ 0 → Yields s t (.sbarWait p a b) (s.put { s.bindLoads t with
        st := .waiting .sbar, cond := some (.sbar net (v.extractLsb' 0 16).toNat p limit.toNat), waitarg := w
        deadline := BitVec.ofNat 64 (min (2 ^ 64 - 1) (s.tick % 2 ^ 64 + ticks)), waitSince := s.tick })))) ∧
  (∀ (s : State) (n net core ep lim : Nat) (i : Tid) (t u : Thread) (p : Pred) (ab : Bool),
    let x := s.sol net
    let e := x.endPt core
    let counted := fun (y : EndPt) => { s.setSol net { x with ends := Sparse.set EndPt.init x.ends core y } with
      arrivals := removeNth n s.arrivals }
    let now := counted { e with counted0 := e.counted0 + 1 }
    let next := counted { e with counted1 := e.counted1 + 1 }
    let ready := fun (z : State) (c : Nat) => ((z.sol net).endPt c).signalled
    let lags := fun (c : Nat) => c ∈ s.span net ∧ (x.endPt c).full0 = false
    let due := t.waitSince / 2 ^ 64 * 2 ^ 64 + t.deadline.toNat
    (s.arrivals[n]? = some (net, core, x.epi) →
      (s.span net = [] ∨ (∃ c ∈ s.span net, ready now c = false) → exec (.sbarArrivalCount n) s = .next now) ∧
      (s.span net ≠ [] → (∀ c ∈ s.span net, ready now c = true) → (∀ a ∈ x.ends, a.2.count1 = 0) →
        ∃ s', exec (.sbarArrivalCount n) s = .next s' ∧ (s'.sol net).epi = (x.epi + 1) % 2 ^ 16 ∧ (s'.sol net).hist = 2 * x.hist % 2 ^ 32)) ∧
    (s.arrivals[n]? = some (net, core, ep) → ep ≠ x.epi → (∃ c ∈ s.span net, ready next c = false) →
      exec (.sbarArrivalCount n) s = .next next) ∧
    (s.ends[n]? = some (net, core, ep, ab) → (s.threads.map (·.id)).Nodup →
      ∃ s', exec (.sbarEpisodeEndDelivery n core) s = .next s' ∧ s'.ends = removeNth n s.ends ∧
        (s.find i = some t → t.cond = some (.sbar net ep p lim) → t.core = core → s'.find i = some (s.waitOver (t.wp p ab))) ∧
        (s.find i = some u → (∀ q l, u.cond ≠ some (.sbar net ep q l)) → s'.find i = some u)) ∧
    (s.find i = some t → t.st = .waiting .sbar → t.cond = some (.sbar net x.epi p lim) → t.deadline ≠ BitVec.allOnes 64 →
      (s.tick < due → exec (.sbarDeadline i) s = .next s) ∧
      (due ≤ s.tick → (∀ c, lags c → s.participant x.dom c = true) →
        exec (.sbarDeadline i) s = .next (s.put { t with deadline := BitVec.ofNat 64 (min (2 ^ 64 - 1) (t.deadline.toNat + lim)) })) ∧
      (due ≤ s.tick → (∃ c, lags c ∧ s.participant x.dom c = false) → (∀ a ∈ x.ends, a.2.count1 = 0) →
        ∃ s', exec (.sbarDeadline i) s = .next s' ∧ (s'.sol net).epi = (x.epi + 1) % 2 ^ 16 ∧ (s'.sol net).hist = (2 * x.hist + 1) % 2 ^ 32)))

/-- 18 R401, R402: taking a fault. The thread is FAULTED with FCAUSE the code, keeps its PC and registers and gives up its slot; one
record with the six words of R401 enters its die's upcall queue; no other thread changes. -/
def Obligations.FaultEntry : Prop := ∀ (s : State) (t : Thread) (f : Flt) (w : Nat), s.find t.id = some t → s.drained t →
  s.upqFull (dieOf t.core) = false →
  let s' := s.park t f false false w
  ∃ u r, s'.find t.id = some u ∧ u.st = .faulted ∧ u.fcause = f.cause.code ∧ u.pc = t.pc ∧ u.slot = none ∧ u.pend = none ∧
    (∀ n, u.rd n = t.rd n ∧ u.full n = t.full n) ∧ u.pred = t.pred ∧ u.fpf = t.fpf ∧ u.stkp = t.stkp ∧
    (s'.die (dieOf t.core)).upq = (s.die (dieOf t.core)).upq ++ [r] ∧
    r.words = [BitVec.ofNat 64 (f.cause.code + (if f.fetch then 2 ^ 9 else 0) + f.kind.code * 2 ^ 13 + f.detail % 256 * 2 ^ 16),
      BitVec.ofNat 64 (t.id.handle % 2 ^ 47 + t.core % 2048 * 2 ^ 48), t.pc, BitVec.ofNat 64 (w % 2 ^ 32), f.addr,
      BitVec.ofNat 64 s.tick] ∧
    OthersSame s s' t.id

/-- 06 R147: TRAP and BRK never complete: the trap fault, code 0x06, and the breakpoint fault, code 0x07, carry the operand as
ADDR. -/
def Obligations.TrapAndBreak : Prop := ∀ (s : State) (t : Thread) (c : BitVec 6),
  let flt := fun (cause : Cause) => ({ cause := cause, addr := c.zeroExtend 64, kind := .none, detail := 0, fetch := false } : Flt)
  Parks s t (.trap c) (flt .trap) ∧ Parks s t (.brk c) (flt .breakpoint) ∧ Cause.trap.code = 0x06 ∧ Cause.breakpoint.code = 0x07

/-- 03 R64, 05 R117, 20 R456, 18 R410; 02 R32; 06 R140; 08 R186: the outcomes before an instruction's own effect, in their order: a word
its feature bit turns illegal, a register beyond the count, an empty register whose EMT bit is set, an empty register that blocks, an
order that holds the instruction, an absent register line, a locked tile, and at the last word of a canonical half the bad target of an
instruction that does not transfer control. That the registers are judged before an absent line (log 40), and the place of the bad
target (log 9), are the model's choices. -/
def Obligations.OutcomeOrder : Prop := ∀ (s : State) (t : Thread) (i : Instr) (n : Nat), s.cur.bind s.find = some t →
  isWord i = true →
  let parked := fun (f : Flt) => exec i s = .next (if s.stuck t then s.put { t with st := .blocked .empty } else s.park t f false false (wordOf i))
  let blocked := fun (k : BlockReason) => s.put { t with st := .blocked k }
  let counts := fun (m : Nat) => decide (t.count ≤ m)
  let traps := fun (m : Nat) => !t.full m && t.emt.getLsbD m
  let present := fun (m : Nat) => m = 0 ∨ lineOf m ∈ t.linesIn
  (featureOk s.featen i = false → parked (.plain .illegal 0)) ∧
  (featureOk s.featen i = true →
    ((namedRegs i).find? counts = some n → parked { cause := .registerRange, addr := 0, kind := .none, detail := n, fetch := false }) ∧
    ((∀ m ∈ namedRegs i, m < t.count) →
      ((readRegs i).find? traps = some n → parked { cause := .emptyRegister, addr := 0, kind := .none, detail := n, fetch := false }) ∧
      ((∀ m ∈ readRegs i, traps m = false) → (∃ m ∈ readRegs i, t.full m = false) → exec i s = .next (blocked .empty)) ∧
      ((∀ m ∈ readRegs i, t.full m = true) →
        (s.eligible t (elig i) = false → exec i s = .next (blocked .empty)) ∧
        (s.eligible t (elig i) = true →
          ((∃ m ∈ namedRegs i, ¬ present m) → exec i s = .next ((blocked .line).tally t.core (some t.id.sdom) 0x05 1)) ∧
          ((∀ m ∈ namedRegs i, present m) →
            (s.lockHolds t (elig i) = true → exec i s = .next ((blocked .lock).tally t.core (some t.id.sdom) 0x06 1)) ∧
            (s.lockHolds t (elig i) = false → lastWord t.pc = true → isTransfer i = false → parked (.plain .badTarget (t.pc + 4))))))))

/-- 18 R404, R405: UPCALL_SERVE takes the record that is next out of the queue and creates the handler thread in the free frame of
the region's pool: its PC is UPCALL, g1 to g6 are the record, HND and UPV say whom it serves. -/
def Obligations.HandlerCreated : Prop := ∀ (s : State) (die n home rcb k : Nat) (r : Rec) (l : List (Nat × Rcb)) (p : Pool) (places : List Nat),
  let s1 := s.setDie die { s.die die with upq := removeNth n (s.die die).upq }
  let i : Tid := { sdom := effSdom l, handle := handleOf (p.base + 1024 * k) }
  s.nextRec die = some (n, r) → s.service die r = .handler home rcb l p k → s1.held = [] → s1.framePlaces die i [0, 1, 2, 3, 4, 5] = .ok places →
  s1.find i = none → (s1.domain i.sdom).v = true →
  ∃ s' u, exec (.upcallServe die) s = .next s' ∧ s'.find i = some u ∧ u.pc = BitVec.ofNat 64 (effUpcall l) ∧ u.st = .ready ∧
    u.hnd = true ∧ u.upv = (match r.tid with | some j => j.handle | none => 0) ∧ u.prio = effPrio l ∧ u.region = rcb ∧
    (∀ m, 1 ≤ m → m ≤ 6 → u.rd m = r.words.getD (m - 1) 0) ∧ (∀ m, 6 < m → u.rd m = 0) ∧
    (s'.die die).upq = removeNth n (s.die die).upq ∧ OthersSame s s' i

/-- 18 R409: UPRET ends its handler, and with bit 0 set resumes the FAULTED thread it serves; ERET ends it and passes the record on
with ESC set. Neither leaves anything else of another thread changed. Run by a thread that is no handler they take the privilege
fault, and UPRET with a reserved bit the debug-operand fault. -/
def Obligations.HandlerReturns : Prop := ∀ (s : State) (t u : Thread) (a : Reg) (r : Rec),
  (t.hnd = true → s.drained t → s.unwatched →
    (t.rd a.toNat = 0 → Issues s t (.upret a) →
      ∃ s', exec (.upret a) s = .next s' ∧ s'.find t.id = none ∧ OthersSame s s' t.id) ∧
    (t.rd a.toNat = 1 → t.upv ≠ 0 → s.named { sdom := t.id.sdom, handle := t.upv } = some u → u.placed.isSome = true → u.st = .faulted →
      u.id ≠ t.id →
      Issues s t (.upret a) →
      ∃ s', exec (.upret a) s = .next s' ∧ s'.find t.id = none ∧
        s'.find u.id = some { u with st := .ready, fcause := 0, readySince := s.tick, aged := 0 } ∧
        ∀ j, j ≠ t.id → j ≠ u.id → s'.find j = s.find j) ∧
    (t.served = some r → s.upqFull (dieOf r.core) = false → Issues s t .eret →
      ∃ s', exec .eret s = .next s' ∧ s'.find t.id = none ∧ OthersSame s s' t.id ∧
        ∃ r' l, (s'.die (dieOf r.core)).upq = (s.die (dieOf r.core)).upq ++ r' :: l ∧
        r'.esc = true ∧ r'.cause = r.cause ∧ r'.addr = r.addr ∧ r'.tid = r.tid)) ∧
  (t.hnd = true → (t.rd a.toNat).extractLsb' 1 63 ≠ 0 → Parks s t (.upret a) (.plain .debugOperand (t.rd a.toNat))) ∧
  (t.hnd = false → Parks s t (.upret a) (.plain .privilege 0) ∧ Parks s t .eret (.plain .privilege 0))

/-- 18 R414 to R416, 20 R453 to R455: HALT and FEAT; ATTEST, which extends the domain's measurement or writes a report; DBG.RD and DBG.WR of a
debug slot, of a scratchpad and a counter the domain owns, and of a tile its resident gang holds, where a locked tile blocks; DBG.STEP. Without
DBGEN, and for what another domain owns, the debug instructions take the privilege fault, and HALT takes it without DBGEN. That ATTEST and
DBG.STEP take effect at issue (log 69), and that DBG.WR writes tiles (log 109), are the model's choices. -/
def Obligations.SystemResults : Prop := ∀ (s s1 : State) (t u : Thread) (d a b : Reg) (core off : Nat) (g : Target) (h : Tid) (l : List Target)
  (gg : Gang),
  let fill := fun (v : Word) => oneFill d.toNat v
  let acquired := { fill 0 with mem := true, acq := true }
  let va := (t.rd a.toNat).toNat
  let dom := t.id.sdom
  let range := fun (n : Nat) => ({ ea := va, n := n, kind := .store, write := true } : Access)
  let seg := fun (o : Nat) => physAddr (padUnit core) o
  (dom = 0 → s.dbgen t = true → Yields s t .halt { s.put { t with pc := t.pc + 4 } with halted := true }) ∧
  (dom ≠ 0 ∨ s.dbgen t = false → Parks s t .halt (.plain .privilege 0)) ∧
  Writes s t (.feat d a) d.toNat (match va with | 0 => BitVec.ofNat 64 s.version | 1 => s.featen | 2 => Config.featAvail | _ => 0) ∧
  (2 ≤ (t.rd b.toNat).toNat → Fills s t (.attest d a b) (fill 1)) ∧
  (t.rd b.toNat = 1 → s.access t.core dom 1 { ea := va, n := 32, kind := .load, write := false } = .ok g →
    check1 (range 32) = true → check2 s t.core (range 32) = true → va % 32 = 0 → s.noLanding → s.noEarly (dieOf t.core) g.pa 128 → s.poisonedIn g.pa 32 = none →
    Yields s t (.attest d a b) ((s.setDomain dom { s.domain dom with
      dmeas := sm3 (digestBytes (s.domain dom).dmeas ++ s.bytesAt dom g.pa 32) }).put { t.produce acquired with pc := t.pc + 4 })) ∧
  (t.rd b.toNat = 0 → check1 (range 512) = true → check2 s t.core (range 512) = true → va % 128 = 0 → s.noLanding →
    s.attestLines t true 128 [va, va + 128, va + 256, va + 384] = .ok (g :: l) → s.poisonedIn (g.pa + 0x20) 32 = none →
    (∀ x ∈ g :: l, s.lineAt x.pa = none ∧ s.noEarly (dieOf t.core) x.pa 128) → s.unwatched →
    let bs := s.report t (s.bytesAt dom (g.pa + 0x20) 32)
    let wrote := ((List.range 4).zip (g :: l)).foldl (fun s x => s.performAt dom x.2 ((bs.drop (128 * x.1)).take 128)) s
    Yields s t (.attest d a b) (wrote.put { t.produce acquired with pc := t.pc + 4 })) ∧
  (s.dbgen t = false → Parks s t (.dbgRd d a) (.plain .privilege 0) ∧ Parks s t (.dbgWr a b) (.plain .privilege 0) ∧
    Parks s t (.dbgStep d a) (.plain .privilege 0)) ∧
  (s.dbgen t = true → core < 2048 → off % 8 = 0 → off ≤ 0xF8 → t.rd a.toNat = BitVec.ofNat 64 (core + 3 * 2 ^ 12 + off * 2 ^ 16) →
    Fills s t (.dbgRd d a) (fill (if s.dbgOwner core (off / 32) = dom then Sparse.get 0 (s.core core).dbg off else 0)) ∧
    (s.dbgEn core (off / 32) = false ∨ s.dbgOwner core (off / 32) = dom →
      Yields s t (.dbgWr a b) ((s.writeSlot core off dom (t.rd b.toNat)).put { t with pc := t.pc + 4 }))) ∧
  (s.dbgen t = true → core < 2048 → off % 8 = 0 → off < 2 ^ 18 → t.rd a.toNat = BitVec.ofNat 64 (core + 2 ^ 12 + off * 2 ^ 16) →
    off / 8192 ∉ (s.core core).zeroing →
    (s.spdom core (off / 8192) = dom →
      (s.poisonedIn (seg off) 8 = none → Fills s t (.dbgRd d a) (fill (BitVec.ofNat 64 (s.numAs dom (seg off) 8)))) ∧
      (s.unwatched → s.lineAt (seg off) = none →
        Yields s t (.dbgWr a b) ((s.performAt dom (.pad core off) (lowBytes (t.rd b.toNat) 8)).put { t with pc := t.pc + 4 }))) ∧
    (s.spdom core (off / 8192) ≠ dom → Parks s t (.dbgRd d a) (.plain .privilege 0) ∧ Parks s t (.dbgWr a b) (.plain .privilege 0))) ∧
  (s.dbgen t = true → core < 2048 → off % 8 = 0 → off < 2 ^ 16 → t.rd a.toNat = BitVec.ofNat 64 (core + off * 2 ^ 16) →
    let unit := (s.core core).unit
    let held := unit.gang.bind s.gang = some gg ∧ gg.resident = true ∧ gg.id.sdom = dom
    let locked := unit.lock.testBit (off / 4096)
    (¬ (∃ x, unit.gang.bind s.gang = some x ∧ x.resident = true ∧ x.id.sdom = dom) →
      Parks s t (.dbgRd d a) (.plain .privilege 0) ∧ Parks s t (.dbgWr a b) (.plain .privilege 0)) ∧
    (held → locked = true →
      (Issues s t (.dbgRd d a) → exec (.dbgRd d a) s = .next (s.put { t with st := .blocked .empty })) ∧
      (Issues s t (.dbgWr a b) → exec (.dbgWr a b) s = .next (s.put { t with st := .blocked .empty }))) ∧
    (held → locked = false →
      Fills s t (.dbgRd d a) (fill (BitVec.ofNat 64 (Sparse.get 0 unit.tiles (off / 4) + Sparse.get 0 unit.tiles (off / 4 + 1) * 2 ^ 32))) ∧
      Yields s t (.dbgWr a b) ((s.setCore core { s.core core with unit := { unit with
        tiles := Sparse.set 0 (Sparse.set 0 unit.tiles (off / 4) ((t.rd b.toNat).extractLsb' 0 32).toNat) (off / 4 + 1)
          ((t.rd b.toNat).extractLsb' 32 32).toNat } }).put { t with pc := t.pc + 4 }))) ∧
  (s.dbgen t = true → core < 2048 → off % 8 = 0 → off ≤ 0x78 → t.rd a.toNat = BitVec.ofNat 64 (core + 2 * 2 ^ 12 + off * 2 ^ 16) →
    let c := (s.core core).counter (off / 16)
    let v := t.rd b.toNat
    (c.owner = dom →
      Fills s t (.dbgRd d a) (fill (if off % 16 = 0 then BitVec.ofNat 64 (c.owner + c.event * 2 ^ 16 + (if c.en then 2 ^ 24 else 0)) else c.val)) ∧
      Yields s t (.dbgWr a b) ((s.setCounter core (off / 16)
        (if off % 16 = 0 then { c with event := (v.extractLsb' 16 8).toNat, en := v.getLsbD 24 } else { c with val := v })).put
          { t with pc := t.pc + 4 })) ∧
    (c.owner ≠ dom → Parks s t (.dbgWr a b) (.plain .privilege 0)) ∧
    (c.owner ≠ dom → c.owner = 0xFFFF → Fills s t (.dbgRd d a) (fill 0)) ∧
    (c.owner ≠ dom → c.owner ≠ 0xFFFF → Parks s t (.dbgRd d a) (.plain .privilege 0))) ∧
  (s.dbgen t = true → s.handleArg t a true = .ok (s1, h) → s1.find t.id = some t →
    let answers := fun (n : Nat) => Yields s t (.dbgStep d a) (s1.put { t.wr d.toNat (BitVec.ofNat 64 n) with pc := t.pc + 4 })
    (s1.find h = none → answers 1) ∧
    (s1.find h = some u → s1.entitled t u = false → Parks s t (.dbgStep d a) (.plain .privilege 0)) ∧
    (s1.find h = some u → s1.entitled t u = true →
      (u.st ≠ .faulted → answers 1) ∧
      (u.st = .faulted → 8 ≤ (s1.core u.core).steps.length → answers 2) ∧
      (u.st = .faulted → h ≠ t.id → (s1.core u.core).steps.length < 8 → Issues s t (.dbgStep d a) →
        ∃ s', exec (.dbgStep d a) s = .next s' ∧ s'.find t.id = some { t.wr d.toNat 0 with pc := t.pc + 4 } ∧
          s'.find u.id = some { u with st := .ready, fcause := 0, readySince := s.tick, aged := 0, stepped := true } ∧
          (s'.core u.core).steps = (s1.core u.core).steps ++ [u.id])))

/-- 13 R297: PLACEQ of a non-canonical address, of a window address, of an HBM page the TLB holds, and of an address whose walk finds no
present page, an invalid entry or an invalid geometry: the placement word and the attribute word. -/
def Obligations.PlaceQueries : Prop := ∀ (s : State) (t : Thread) (d : PairReg) (a : Reg) (e : TlbEnt) (f : Flt),
  let va := (t.rd a.toNat).toNat
  let fill := fun (p q : Word) => ({ regs := [(2 * d.toNat, p), (2 * d.toNat + 1, q)], flags := 0, float := false, req := none, bad := none } : Fill)
  let l := e.leaf
  let geo := s.geo (dieOf t.core) (Leaf.gidx l)
  let p := Leaf.frame l * 2 ^ 14 + va % Leaf.bytes l
  let spot := s.spot geo p
  let status := fun (n : Nat) => fill 0 (BitVec.ofNat 64 (n * 2 ^ 32 + f.detail % 5 * 2 ^ 40))
  (canonical va = false → Fills s t (.placeq d a) (fill 0 (1#64 <<< 32))) ∧
  (canonical va = true → inWindow va = true → Fills s t (.placeq d a) (fill 0 (2#64 <<< 32))) ∧
  (canonical va = true → inWindow va = false → s.tlbFind t.core t.id.sdom va = some e → Leaf.trans l = false → Geo.tier geo = 0 →
    spot.inRange = true → s.carveAdmits t.id.sdom spot = true →
    Fills s t (.placeq d a) (fill (BitVec.ofNat 64 (p % 2 ^ 52 + Leaf.gidx l % 1024 * 2 ^ 52 + 2 ^ 63))
      (BitVec.ofNat 64 (spot.die + homeSlice p * 2 ^ 3 + spot.unit % 16 * 2 ^ 9 + hbmChannel geo p * 2 ^ 13 + Leaf.cls l * 2 ^ 20 +
        Leaf.apl l * 2 ^ 22 + (if Leaf.sync l then 2 ^ 24 else 0) + ((if Leaf.r l then 1 else 0) + (if Leaf.w l then 2 else 0) +
        (if Leaf.x l then 4 else 0)) * 2 ^ 25 + Leaf.size l * 2 ^ 28 + (if Leaf.size l = 2 then 3 else 4) * 2 ^ 40)))) ∧
  (canonical va = true → inWindow va = false → s.tlbFind t.core t.id.sdom va = none → s.walkWaits (dieOf t.core) t.id.sdom va = false →
    s.walkOnce (dieOf t.core) t.id.sdom va .load = .error f →
    (f.cause = .pageNotPresent → Fills s t (.placeq d a) (status 3)) ∧ (f.cause = .pageInvalid → Fills s t (.placeq d a) (status 4)) ∧
    (f.cause = .geometry → Fills s t (.placeq d a) (status 5)))

/-- 13 R300: GTSYNC by domain 0 reads the table entry and holds its thread; its completion gives every die the entry, drops every TLB
entry that names the index, and completes the instruction. Another domain takes the privilege fault, an index beyond the table the
table-operand fault.
13 R299, 05 R125: TLBINV drops the translations of its range in every core and holds its thread; TLBINV_COMPLETION completes it once every
access of the range has been performed, every other thread told to leave has left its slot and no gang of the range is resident, and drops
the frame lines of threads without a slot. A range with a non-canonical byte takes its fault; a window address completes at once; g[b] = 0
names every address of the domain. The entries of the walk caches are dropped with those of the TLBs. That the completion does not wait for a
thread that stands in a TLBINV of its own is the model's choice (log 62). -/
def Obligations.TranslationUpkeep : Prop :=
  (∀ (s : State) (t : Thread) (a : Reg) (g : Target) (i : Tid) (idx die core : Nat) (e : Word),
    let va := s.gtbase.toNat + 8 * (t.rd a.toNat).toNat
    (t.id.sdom ≠ 0 → Parks s t (.gtsync a) (.plain .privilege 0)) ∧
    (t.id.sdom = 0 → 1024 ≤ (t.rd a.toNat).toNat → Parks s t (.gtsync a) (.plain .tableOperand (t.rd a.toNat))) ∧
    (t.id.sdom = 0 → (t.rd a.toNat).toNat < 1024 → Reaches s t 8 { ea := va, n := 8, kind := .load, write := false } g →
      s.viewPoison t va g.pa 8 = none →
      Yields s t (.gtsync a) (s.put { t with st := .blocked .empty, iword := wordOf (.gtsync a)
                                             pend := some (.gtsync (t.rd a.toNat).toNat (BitVec.ofNat 64 (s.seen t g.pa 8))) })) ∧
    (s.find i = some t → t.settled = true → t.pend = some (.gtsync idx e) → die < 8 →
      ∃ s', exec (.gtsyncCompletion i) s = .next s' ∧ s'.geo die idx = e ∧ (∀ k, k ≠ idx → s'.geo die k = s.geo die k) ∧
        (∀ x ∈ (s'.core core).tlb, Leaf.gidx x.leaf ≠ idx) ∧
        s'.find i = some { t with pend := none, st := .resident, pc := t.pc + 4 })) ∧
  (∀ (s : State) (t : Thread) (a b : Reg) (i : Tid) (l : List (Nat × Nat)) (core die : Nat),
    let r := if t.rd b.toNat = 0 then (0, 2 ^ 64) else (alignDown (t.rd a.toNat).toNat 16384, 16384 * (t.rd b.toNat).toNat)
    (t.rd b.toNat ≠ 0 → rangeCanonical r.1 r.2 = false → Parks s t (.tlbinv a b) (.plain .nonCanonical (t.rd a.toNat))) ∧
    (t.rd b.toNat ≠ 0 → rangeCanonical r.1 r.2 = true → inWindow r.1 = true → Completes s t (.tlbinv a b) t) ∧
    ((t.rd b.toNat ≠ 0 → rangeCanonical r.1 r.2 = true ∧ inWindow r.1 = false) → (∀ u ∈ s.threads, u.stores = []) → s.early = [] →
      s.freshOf t = [] → Issues s t (.tlbinv a b) →
      ∃ s' u, exec (.tlbinv a b) s = .next s' ∧ s'.find t.id = some u ∧ u.pc = t.pc ∧ u.st = .blocked .empty ∧
        (∀ x ∈ (s'.core core).tlb, x.sdom = t.id.sdom → meets (x.base, x.size) r = false) ∧
        (∀ x ∈ (s.core core).tlb, x.sdom ≠ t.id.sdom → x ∈ (s'.core core).tlb) ∧
        (∀ x ∈ (s'.die die).walks, x.sdom = t.id.sdom → meets (x.base, x.size) r = false) ∧
        (∀ x ∈ (s.die die).walks, x.sdom ≠ t.id.sdom → x ∈ (s'.die die).walks)) ∧
    (s.find i = some t → t.pend = some (.tlbinv l) → s.invalidated i.sdom l (some i) = false → exec (.tlbinvCompletion i) s = .next s) ∧
    (s.find i = some t → t.settled = true → t.pend = some (.tlbinv l) → s.invalidated i.sdom l (some i) = true → t.frameIn i.sdom l = false →
      ∃ s', exec (.tlbinvCompletion i) s = .next s' ∧ s'.find i = some { t with pend := none, st := .resident, pc := t.pc + 4 } ∧
        (∀ u ∈ s.threads, u.frameIn i.sdom l = false → u.id ≠ i → s.find u.id = some u → s'.find u.id = some u) ∧
        (∀ u, s'.find u.id = some u → u.frameIn i.sdom l = true → u.slot = none → u.placed = none)))

/-- 14 R314 to R316, 17 R392: ROUTE draws a replica slot by the token key, adds 1 to the expert's load counter and to the generation's drain
counter, and answers the slot's address word and the pair's second word; XCNT reads the generation and the load counter. A selector that
names no table of the domain or no expert takes the route-operand fault, an invalid table entry the replica-table fault; that both faults carry
KIND 0 is the model's reading (log 73). -/
def Obligations.RoutingResults : Prop := ∀ (s : State) (t : Thread) (d : PairReg) (r a b : Reg) (x : Edt) (head ent cnt : Target) (j slot : Nat),
  let sel := t.rd a.toNat
  let e := (sel.extractLsb' 0 12).toNat
  let va := x.dva.toNat
  let dom := t.id.sdom
  let u := s.bindLoads t
  let gen := s.numAt dom head.pa 2
  let off := 0x10 + 8 * (gen % 2)
  let entVa := va + 0x1000 + gen % 2 * 0x80000 + e * 128
  let n := s.numAt dom ent.pa 128
  let moved := match head with
    | .pad c o => Target.pad c (o + off)
    | .mem l => Target.mem { l with spot := { l.spot with pa := l.spot.pa + off }, mirror := l.mirror.map (· + off) }
  let s0 := s.put u
  let s1 := s0.performAt dom moved (toBytes 8 (s0.numAt dom (head.pa + off) 8 + 1))
  let s2 := s1.performAt dom cnt (toBytes 4 (min (s0.numAt dom cnt.pa 4 + 1) (2 ^ 32 - 1)))
  let pair := { oneFill 0 0 with mem := true, acq := true, req := head.request s2 t .atomic va }
  (s.routeDom t sel = none → Parks s t (.route d a b) (.plain .routeOperand sel) ∧ Parks s t (.xcnt r a) (.plain .routeOperand sel)) ∧
  (s.routeDom t sel = some x → s.poison = [] →
    (s.routeReach t va 8 8 true = .ok head →
      ((s.numAt dom (head.pa + 0x20) 8) % 2 ^ 13 ≤ e → Parks s t (.route d a b) (.plain .routeOperand sel)) ∧
      (e < (s.numAt dom (head.pa + 0x20) 8) % 2 ^ 13 → s.routeReach t entVa 8 8 false = .ok ent →
        (s.entValid n = false → Parks s t (.route d a b) (.plain .replicaTable (BitVec.ofNat 64 entVa))) ∧
        (s.entValid n = true → s.routeReach t (s.numAt dom (head.pa + 0x38) 8 + 4 * e) 4 4 true = .ok cnt →
          s.pickSlot (routeDraw (t.rd b.toNat) (s.entWeight n)) 0 0 (entSlots n) = some (j, slot) →
          Yields s t (.route d a b) (s2.put { (s2.again t).produce { pair with
            regs := [(2 * d.toNat, BitVec.ofNat 64 (slot / 2 ^ 16 * 2 ^ 16 + j * 8 + slot % 8)),
              (2 * d.toNat + 1, BitVec.ofNat 64 (j * 2 ^ 32 + (sel.extractLsb' 12 4).toNat * 2 ^ 28 + e * 2 ^ 16 + gen))] }
            with pc := (s2.again t).pc + 4 })))) ∧
    (s.reach t 4 { ea := va, n := 4, kind := .load, write := false } = .ok head →
      let base := s.numSeen t (head.pa + 0x38) 8
      (s.numSeen t (head.pa + 0x20) 8 % 2 ^ 13 ≤ e → Parks s t (.xcnt r a) (.plain .routeOperand sel)) ∧
      (e < s.numSeen t (head.pa + 0x20) 8 % 2 ^ 13 →
        s.reach t 4 { ea := (base + 4 * e : Nat), n := 4, kind := .load, write := false } = .ok cnt →
        Completes s t (.xcnt r a) (u.produce { oneFill r.toNat (BitVec.ofNat 64 (s.numSeen t head.pa 2 * 2 ^ 32 + s.numSeen t cnt.pa 4)) with
          req := head.request s t .load va, mem := true }))))

/-- 09 R196 to R198: GANG.FORM makes a forming gang of its shape with its thread as member 0, which waits; a gang of one member convenes
at once, and GANG.FORM completes with index 0. GANG.JOIN waits on a record with GSTATE 0 and takes the smallest free index of a forming
gang; the join that completes the gang convenes it and completes with its index. A member of a gang takes the gang-state fault, a record
address off its boundary and a record in use the gang-record fault, a join of a convened gang the gang-full fault. That a GSTATE of 3, for which
R197 has no row, is taken like 2 is the model's choice (log 80). -/
def Obligations.GangForming : Prop := ∀ (s : State) (t : Thread) (d a b : Reg) (g : Target) (h : Gang) (k : Nat),
  let rec' := (t.rd a.toNat).toNat
  let desc := (t.rd b.toNat).toNat
  let id : GangId := { sdom := t.id.sdom, record := rec' }
  let waits := fun (w : Nat) (c : WaitCond) => ({ s.bindLoads t with iword := w, st := .waiting .gang, cond := some c, waitarg := t.rd a.toNat
                                                                     deadline := BitVec.allOnes 64, waitSince := s.tick } : Thread)
  let form := Instr.gangForm d a b
  let join := Instr.gangJoin d a
  let gstate := s.numAs t.id.sdom (g.pa + 8) 8 / 2 ^ 24 % 4
  let convened := fun (s' : State) (k : Nat) => ∃ u h', s'.find t.id = some u ∧ u.gang = some id ∧ u.pc = t.pc + 4 ∧
    u.rd d.toNat = (t.wr d.toNat (BitVec.ofNat 64 k)).rd d.toNat ∧ u.st = (if u.slot.isSome then .resident else .ready) ∧
    s'.gang id = some h' ∧ h'.gstate = 2
  (s.inGang t = true → Parks s t form (.plain .gangState (t.rd a.toNat)) ∧ Parks s t join (.plain .gangState (t.rd a.toNat))) ∧
  (s.inGang t = false → rec' % 2048 ≠ 0 → Parks s t form (.plain .gangRecord (t.rd a.toNat)) ∧ Parks s t join (.plain .gangRecord (t.rd a.toNat))) ∧
  (s.inGang t = false → rec' % 2048 = 0 → s.unwatched →
    s.access t.core t.id.sdom 8 { ea := rec', n := 8, kind := .atomic, write := true } = .ok g → s.ctlLine g.pa = false →
    s.poisonedIn g.pa 16 = none → s.noEarly (dieOf t.core) g.pa 2048 →
    let found := s.joinPlace t id (g.pa + 8) g.leaf? = .ok (g.pa + 8)
    (descOk desc = true → (desc.testBit 8 = true → s.featen.getLsbD 3 = true) → s.placeOk t (desc.testBit 8) = true →
      (gstate ≠ 0 → Parks s t form (.plain .gangRecord (t.rd a.toNat))) ∧
      (gstate = 0 → desc % 2 ^ 8 ≠ 1 → Issues s t form →
        ∃ s' n, exec form s = .next s' ∧ s'.gangs = s.gangs ++ [n] ∧ n.id = id ∧ n.members = [(0, t.id)] ∧ n.gstate = 1 ∧
          n.m = desc % 2 ^ 8 ∧ n.quad = desc.testBit 8 ∧ n.home = (if desc.testBit 8 then quadOf t.core else t.core) ∧
          s'.find t.id = some (waits (wordOf form) (.gang id d.toNat 0)) ∧ OthersSame s s' t.id) ∧
      (gstate = 0 → desc % 2 ^ 8 = 1 → s.gang id = none → Issues s t form → ∃ s', exec form s = .next s' ∧ convened s' 0)) ∧
    (gstate = 0 → Yields s t join (s.put (waits (wordOf join) (.gangTest id (g.pa + 8) g.leaf? d.toNat)))) ∧
    (2 ≤ gstate → found → (∀ x, s.gang id = some x → x.breaking = false) →
      Parks s t join (.plain .gangFull (t.rd a.toNat))) ∧
    (gstate = 1 → found → s.gang id = some h → h.breaking = false → h.gstate = 1 →
      (∃ u, s.find { sdom := t.id.sdom, handle := s.numAs t.id.sdom g.pa 8 % 2 ^ 47 } = some u ∧ u.st = .waiting .gang ∧
        u.waitarg = t.rd a.toNat ∧ u.id ≠ t.id) →
      h.home = (if h.quad then quadOf t.core else t.core) → h.freeIndex (quadPos t.core) = some k → Issues s t join →
      ((Sparse.put h.members k t.id).length ≠ h.m → ∃ s', exec join s = .next s' ∧
        s'.gang id = some { h with members := Sparse.put h.members k t.id, places := [g.leaf?]
                                   pad := if g.leaf?.isNone then some g.pa else none } ∧
        s'.find t.id = some (waits (wordOf join) (.gang id d.toNat k)) ∧ OthersSame s s' t.id) ∧
      ((Sparse.put h.members k t.id).length = h.m → ∃ s', exec join s = .next s' ∧ convened s' k)))

/-- 09 R195, R199, R204 to R206, 08 R188: in a convened gang GANG.LEAVE and GANG.MMA count their member in ARRIVED, which then waits;
MXBURST sets BURST of every unit; MXWAIT completes without an operation in flight; MXCFG writes a shadow register. GANG.MMA of another
shape takes the gang-shape fault, an MXCFG selector beyond the registers the engine-selector fault; in no gang they, and the accumulator
instructions, take the gang-absent fault. -/
def Obligations.GangInstructions : Prop := ∀ (s : State) (t : Thread) (g : Gang) (k : Nat) (q ga sp : Bool) (a b : Reg) (tile : Tile),
  let waits := fun (i : Instr) (fn : Nat) =>
    let s1 := s.setGang { g with arrived := Sparse.put g.arrived k fn }
    s1.put { s1.bindLoads t with iword := wordOf i, st := .waiting .gang, cond := some (.coll g.id), waitarg := 0
                                 deadline := BitVec.allOnes 64, waitSince := s.tick }
  let sel := (t.rd a.toNat).toNat
  (s.myGang t = some g → g.indexOf t.id = some k →
    Yields s t .gangLeave (waits .gangLeave 2) ∧
    (q = g.quad → Yields s t (.gangMma q ga sp) (waits (.gangMma q ga sp) (8 + (if q then 4 else 0) + (if ga then 2 else 0) + if sp then 1 else 0))) ∧
    (q ≠ g.quad → Parks s t (.gangMma q ga sp) (.plain .gangShape (BitVec.ofNat 64 g.id.record)))) ∧
  (s.myGang t = some g → g.op = none → Completes s t .mxwait t) ∧
  (s.myGang t = some g → sel ≤ 10 →
    Yields s t (.mxcfg a b) ((s.setGang { g with shadow := g.shadow.set sel (t.rd b.toNat &&& engMask sel) }).put { t with pc := t.pc + 4 })) ∧
  (s.myGang t = some g → 10 < sel → Parks s t (.mxcfg a b) (.plain .engineSelector (t.rd a.toNat))) ∧
  (s.myGang t = some g → Issues s t (.mxburst a) →
    ∃ s', exec (.mxburst a) s = .next s' ∧ s'.threads = (s.put { t with pc := t.pc + 4 }).threads ∧
      ∀ c ∈ g.cores, (s'.core c).unit.burst = min sel 0xFFFFF ∧ (s'.core c).unit.tiles = (s.core c).unit.tiles ∧
        (sel ≠ 0 → (s.core c).unit.ramp = .down → (s'.core c).unit.ramp = .rampUp)) ∧
  (s.myGang t = none → ∀ i ∈ [Instr.gangLeave, .gangMma q ga sp, .mxwait, .mxcfg a b, .mxburst a, .accLd a tile b, .accSt a tile b,
      .accZero tile, .accScale tile b, .accCvt a tile b], Parks s t i (.plain .gangAbsent 0))

/-- 09 R207 to R210: the accumulator instructions on unlocked tiles: ACC.LD reads two elements, ACC.ST writes them, ACC.ZERO and ACC.SCALE
rewrite a tile of every unit, ACC.CVT converts elements; no other tile changes. An index word beyond its limits, for ACC.CVT also one that
names no type, takes the accumulator-index fault, ACC.ZERO and ACC.SCALE of a locked tile the accumulator-busy fault. -/
def Obligations.AccumulatorResults : Prop := ∀ (s : State) (t : Thread) (g : Gang) (d b : Reg) (tile : Tile) (c : Nat) (u : CvtType) (n : Nat),
  let w := t.rd b.toNat
  let row := (w.extractLsb' 0 6).toNat
  let col := (w.extractLsb' 8 6).toNat
  let core := g.cores.getD (row / 32 * 2 + col / 32) 0
  let key := tile.toNat * 1024 + row % 32 * 32 + col % 32
  let elem := fun (c k : Nat) => Sparse.get 0 (s.core c).unit.tiles k
  let mode := if w.extractLsb' 20 3 = 0 then t.mode else RMode.ofCode (w.extractLsb' 20 3).toNat
  let conv := fun (k : Nat) => accElem u mode (w.getLsbD 23) (elem core (key + k))
  (s.myGang t = some g → indexOk g w 2 false = false →
    Parks s t (.accLd d tile b) (.plain .accumulatorIndex w) ∧ Parks s t (.accSt d tile b) (.plain .accumulatorIndex w)) ∧
  (s.myGang t = some g → (accType (w.extractLsb' 16 4).toNat = none ∨
      (accType (w.extractLsb' 16 4).toNat = some (u, n) ∧ indexOk g w n true = false)) →
    Parks s t (.accCvt d tile b) (.plain .accumulatorIndex w)) ∧
  (s.myGang t = some g → s.tileLocked c tile = true → c ∈ g.cores → Parks s t (.accZero tile) (.plain .accumulatorBusy (tile.zeroExtend 64)) ∧
    Parks s t (.accScale tile b) (.plain .accumulatorBusy (tile.zeroExtend 64))) ∧
  (s.myGang t = some g → (∀ x ∈ g.cores, (s.core x).unit.lock = 0) →
  (indexOk g w 2 false = true → Fills s t (.accLd d tile b)
    { regs := [(d.toNat, BitVec.ofNat 64 (elem core key + elem core (key + 1) * 2 ^ 32))], flags := 0, float := false, req := none, bad := none }) ∧
  (indexOk g w 2 false = true → Yields s t (.accSt d tile b) ((s.modUnit core (fun m => { m with
    tiles := Sparse.set 0 (Sparse.set 0 m.tiles key ((t.rd d.toNat).toNat % 2 ^ 32)) (key + 1) ((t.rd d.toNat).toNat / 2 ^ 32) })).put
      { t with pc := t.pc + 4 })) ∧
  (accType (w.extractLsb' 16 4).toNat = some (u, n) → indexOk g w n true = true → Fills s t (.accCvt d tile b)
    { regs := [(d.toNat, BitVec.ofNat 64 (((List.range n).map (fun k => (conv k).1 % 2 ^ accBits u * 2 ^ (accBits u * k))).sum))]
      flags := ((List.range n).map (fun k => (conv k).2)).foldl (· ||| ·) 0, float := true, req := none, bad := none }) ∧
  (c ∈ g.cores → Issues s t (.accZero tile) → ∃ s', exec (.accZero tile) s = .next s' ∧
    s'.threads = (s.put { t with pc := t.pc + 4 }).threads ∧
    ∀ k, Sparse.get 0 (s'.core c).unit.tiles k = if k / 1024 = tile.toNat then 0 else elem c k) ∧
  (c ∈ g.cores → g.cores.Nodup → Issues s t (.accScale tile b) → ∃ s', exec (.accScale tile b) s = .next s' ∧
    s'.threads = (s.put { t with pc := t.pc + 4 }).threads ∧
    ∀ k, Sparse.get 0 (s'.core c).unit.tiles k = if k / 1024 = tile.toNat then
      (f32.deliver .rne false ((f32.decode (elem c k)).mul (f32.decode (w.toNat % 2 ^ 32)))).1 else elem c k))

/-- 08 R187, R188: the ends of ramps: UP once a ramp up has run its cycles, and an operation goes once all its units are UP; RAMPDOWN after
256 idle cycles, DOWN once that ramp has run; a unit not due is unchanged.
08 R190, R191, R478; 09 R214: GANG_SAVE makes a gang that can be saved not resident and frees its units, and does nothing to another;
GANG_REACTIVATION makes a gang that finds its seats resident again and takes them, or parks its leader with what it finds amiss; GANG_BREAK
dissolves a gang. -/
def Obligations.UnitAndGangLifecycle : Prop :=
  (∀ (s : State) (c : Nat),
    let u := (s.core c).unit
    (u.ramp = .rampUp → u.left = 0 → ∃ s', exec (.rampUpEnd c) s = .next s' ∧ (s'.core c).unit = { u with ramp := .up, idle := 0, stag := 0 } ∧
      (∀ x, x ≠ c → s'.core x = s.core x) ∧ s'.threads = s.threads ∧
      (∀ g op, u.gang = some g.id → s.gang g.id = some g → g.op = some op → op.going = false →
        (∀ x ∈ g.cores, x ≠ c → (s.core x).unit.ramp = .up) → s'.gang g.id = some { g with op := some { op with going := true } })) ∧
    (u.ramp ≠ .rampUp ∨ u.left ≠ 0 → exec (.rampUpEnd c) s = .next s) ∧
    (u.ramp = .up → 256 ≤ u.idle → exec (.rampDownStart c) s = .next (s.modUnit c (fun u => { u with ramp := .rampDown, left := 64, idle := 0 }))) ∧
    (u.ramp ≠ .up ∨ u.idle < 256 → exec (.rampDownStart c) s = .next s) ∧
    (u.ramp = .rampDown → u.left = 0 → exec (.rampDownEnd c) s = .next (s.modUnit c (fun u => { u with ramp := .down, idle := 0 }))) ∧
    (u.ramp ≠ .rampDown ∨ u.left ≠ 0 → exec (.rampDownEnd c) s = .next s)) ∧
  (∀ (s : State) (g : Gang) (c : Nat) (l : List (Tid × (Nat × Nat) × Option Tid)) (tiles : List (List (Nat × Nat))) (f : Flt) (t : Thread),
    s.gang g.id = some g →
    (s.canSave g = false ∨ g.breaking = true → exec (.gangSave g.id) s = .next s) ∧
    (s.unwatched → (∀ u ∈ s.threads, u.stores = []) → s.early = [] →
      (s.canSave g = true → g.breaking = false →
        ∃ s' g', exec (.gangSave g.id) s = .next s' ∧ s'.gang g.id = some g' ∧ g'.resident = false ∧ g'.saving = false ∧ g'.members = g.members ∧
          g'.shadow = g.shadow ∧ (c ∈ g.cores → (s.core c).unit.gang = some g.id → (s'.core c).unit.gang = none)) ∧
      (s.gangMayReturn g = true → s.gangReadWaits g = false → s.gangRoom g = .seats l →
        (s.gangFinding g = .ok tiles →
          ∃ s' g', exec (.gangReactivation g.id) s = .next s' ∧ s'.gang g.id = some g' ∧ g'.resident = true ∧ g'.first = false ∧
            (c ∈ g.cores → (s'.core c).unit.gang = some g.id)) ∧
        (s.gangFinding g = .error f → g.leader = some t.id → s.find t.id = some t →
          ∃ s' v, exec (.gangReactivation g.id) s = .next s' ∧ s'.find t.id = some v ∧ v.st = .faulted ∧ v.fcause = f.cause.code)) ∧
      (g.breaking = true → g.op = none → s.gangWaits g 1 = false → ∃ s', exec (.gangBreak g.id) s = .next s' ∧ s'.gang g.id = none ∧
        (c ∈ g.cores → (s.core c).unit.gang = some g.id → (s'.core c).unit.gang = none ∧ (s'.core c).unit.burst = 0))))

/-- 09 R199, R200, R203; 08 R178: GANG_RESOLUTION. When every member has executed GANG.LEAVE the gang dissolves and its members go on past
it; when every member has executed one GANG.MMA with a valid set, the operation starts with the shadow registers and OPS counts it; with an
invalid set member 0 is parked with the matrix-configuration fault, and members of another form than member 0's are parked with the
matrix-form fault. -/
def Obligations.GangResolution : Prop := ∀ (s : State) (g : Gang) (u : Thread) (fn c k : Nat),
  let e : Eng := { regs := g.shadow }
  let waiting := s.find u.id = some u ∧ u.id ∈ g.members.map (·.2) ∧ u.st = .waiting .gang ∧ u.cond = some (.coll g.id)
  let parked := fun (cause : Cause) => ∃ s' v, exec (.gangResolution g.id) s = .next s' ∧ s'.find u.id = some v ∧ v.st = .faulted ∧
    v.fcause = cause.code
  s.gang g.id = some g → g.resolves = true → s.unwatched → (∀ x ∈ g.members, ∀ v, s.find x.2 = some v → v.stores = []) → s.early = [] →
  ((∀ x ∈ g.arrived, x.2 = 2) → Sparse.get 0 g.arrived 0 = 2 → s.gangWaits g 1 = false →
    ∃ s', exec (.gangResolution g.id) s = .next s' ∧ s'.gang g.id = none ∧
      ((s.core c).unit.gang = some g.id → c ∈ g.cores → (s'.core c).unit.gang = none ∧ (s'.core c).unit.tiles = []) ∧
      (waiting → u.gang = some g.id → s'.find u.id = some (s.waitOver { u with gang := none }))) ∧
  ((∀ x ∈ g.arrived, x.2 = fn) → Sparse.get 0 g.arrived 0 = fn → 8 ≤ fn → s.setValid g e fn = true →
    ∃ s' g', exec (.gangResolution g.id) s = .next s' ∧ s'.gang g.id = some g' ∧ g'.active = g.shadow ∧ g'.ops = g.ops + 1 ∧ g'.arrived = [] ∧
      (∃ op, g'.op = some op ∧ op.fn = fn) ∧ (waiting → s'.find u.id = some (s.waitOver u))) ∧
  ((∀ x ∈ g.arrived, x.2 = fn) → Sparse.get 0 g.arrived 0 = fn → 8 ≤ fn → s.setValid g e fn = false →
    g.members.find? (fun x => x.1 == 0) = some (0, u.id) → s.find u.id = some u → parked .matrixConfiguration) ∧
  ((k, c) ∈ g.arrived → c ≠ Sparse.get 0 g.arrived 0 → (Sparse.get 0 g.arrived 0 = 2 → s.gangWaits g 1 = false) →
    g.members.find? (fun x => x.1 == k) = some (k, u.id) → s.find u.id = some u → parked .matrixForm)

/-- 09 R202, 08 R185, R186: MATRIX_OPERATION_COMPLETION of a unit whose cycles have run, on unpoisoned operands: every element of its
quadrant takes its sum, every other element keeps its value, and the lock clears.
04 R103 to R107, 09 R202: what one element of a matrix operation becomes: an integer sum modulo 2^32, or FP32 additions of groups of
32 (of 8 for the 16-bit types), each the exact sum of the group's products, scaled for the third family, rounded once to nearest. -/
def Obligations.MatrixOperation : Prop :=
  (∀ (s : State) (c : Nat) (g : Gang) (op : MatOp),
    let u := (s.core c).unit
    let q := s.quadrantOf g op c
    u.gang = some g.id → s.gang g.id = some g → g.op = some op → u.run = some 0 → s.poison = [] →
    ∃ s', exec (.matrixOperationCompletion c) s = .next s' ∧ (s'.core c).unit.lock = 0 ∧ (s'.core c).unit.run = none ∧
      (∀ i j, i < q.eng.rows q.h → j < q.eng.cols q.c → Sparse.get 0 (s'.core c).unit.tiles (q.eng.tile * 1024 + i * 32 + j) =
        s.matElem q i j (Sparse.get 0 u.tiles (q.eng.tile * 1024 + i * 32 + j))) ∧
      (∀ k, (∀ i j, i < q.eng.rows q.h → j < q.eng.cols q.c → k ≠ q.eng.tile * 1024 + i * 32 + j) →
        Sparse.get 0 (s'.core c).unit.tiles k = Sparse.get 0 u.tiles k) ∧
      (∀ c', c' ≠ c → (s'.core c').unit = (s.core c').unit)) ∧
  (∀ (s : State) (q : Quadrant) (i j old : Nat),
    let acc := if q.eng.zero then 0 else old
    let size := if matWidth q.eng.ta = 16 then 8 else 32
    let scale := fun (n : Nat) => (s.scaleOfGroup q q.eng.sca 9 q.rowPad (q.rho i) n (readNo i j n 3)).mul
      (s.scaleOfGroup q q.eng.scb 10 q.colPad j n (readNo i j (n + 2 ^ 15) 3))
    let sum := fun (n : Nat) => Val.sum .rne ((List.range (min size (q.eng.k - size * n))).map (fun k => s.product q i j (size * n + k)))
    let add := fun (a n : Nat) => (f32.deliver .rne false (Val.sum .rne
      [f32.decode a, if size = 32 then (scale n).mul (sum n) else sum n])).1
    (12 ≤ q.eng.ta → q.eng.ta ≤ 13 → ∃ v : Int, (s.matElem q i j old : Int) = v % 2 ^ 32 ∧
      v = acc + ((List.range q.eng.k).map (fun k => s.intProduct q i j k)).sum) ∧
    (q.eng.ta ≤ 8 → s.matElem q i j old = (List.range ((q.eng.k + size - 1) / size)).foldl add acc))

/-- 16 R369, R370, R375; 11 R255: an engine instruction with a well-formed descriptor, whose ranges pass their checks, issues its
command and holds its thread; a descriptor address that is not a multiple of 64 and a descriptor beyond its limits take the engine-operand
fault, a range that fails its check that check's fault; ESYNC completes; PREF writes nothing, fills the TLB with a page it may use, and requests
one that is not present. That the engine-operand fault carries KIND 0 is the model's reading (log 73). -/
def Obligations.EngineRequests : Prop := ∀ (s : State) (t : Thread) (a b : Reg) (q : Scope) (x y f : Bool) (bs : List Byte) (l : PrefLevel)
    (w : Walked) (e : Flt),
  let va := (t.rd a.toNat).toNat
  let n := fun (k : Nat) => ofBytes ((bs.drop (8 * k)).take 8)
  let cmd := fun (k : EngKind) => ({ id := 0, kind := k, tid := t.id, home := t.home, region := t.region, core := t.core, src := n 0, dst := n 1
                                     len := n 2, p1 := n 3, p2 := n 4, p3 := n 5, status := n 6, scope := q, acq := x, rel := y
                                     fill := if f then some (t.rd b.toNat).toNat else none, started := false, record := none, result := 0 } : EngCmd)
  let acc := ({ ea := va, n := 64, kind := .engine, write := false } : Access)
  let forms := fun (P : Instr → EngKind → Prop) => P (.cpy a b q x y f) .cpy ∧ P (.cpy2d a b q x y f) .cpy2d ∧ P (.deal a b q x y f) .deal ∧
    P (.rstr a b q x y f) .rstr ∧ P (.mred a b q x y f) .mred
  (check1 acc = true → check2 s t.core acc = true →
    (va % 64 ≠ 0 → forms (fun i _ => Parks s t i (.plain .engineOperand (t.rd a.toNat)))) ∧
    (va % 64 = 0 → s.descLoads (s.bindLoads t) va 4 = .ok bs →
      forms (fun i k => (cmd k).operandsOk (n 7) = false → Parks s t i (.plain .engineOperand (t.rd a.toNat))) ∧
      forms (fun i k => (cmd k).operandsOk (n 7) = true → s.rangesOk t (cmd k).ranges = .error (.fault e) → Parks s t i e) ∧
      forms (fun i k => (cmd k).operandsOk (n 7) = true → s.rangesOk t (cmd k).ranges = .ok () →
        Yields s t i (s.put { s.bindLoads t with st := .blocked .empty, iword := wordOf i, pend := some (.engine (cmd k)) })))) ∧
  Completes s t (.esync q) t ∧
  let die := dieOf t.core
  let usable := Leaf.r w.leaf = true ∧ ∃ p, s.locOf die t.id.sdom va w.leaf false = .ok p ∧ p.spot.inRange = true ∧
    s.carveAdmits t.id.sdom p.spot = true
  (canonical va = false ∨ inWindow va = true ∨ (s.tlbFind t.core t.id.sdom va).isSome = true ∨ s.walkWaits die t.id.sdom va = true →
    Completes s t (.pref a l) t) ∧
  (canonical va = true → inWindow va = false → s.tlbFind t.core t.id.sdom va = none → s.walkWaits die t.id.sdom va = false →
    (s.walk die t.id.sdom va .load false = .error e → e.cause ≠ .pageNotPresent → Completes s t (.pref a l) t) ∧
    (s.walk die t.id.sdom va .load false = .error e → e.cause = .pageNotPresent →
      Yields s t (.pref a l) ((s.pageRequest t va).put { t with pc := t.pc + 4 })) ∧
    (s.walk die t.id.sdom va .load false = .ok w → ¬ usable → Completes s t (.pref a l) t) ∧
    (s.walk die t.id.sdom va .load false = .ok w → usable →
      Yields s t (.pref a l) (((s.walkKeep die w.path).tlbAdd t.core (tlbEntOf t.id.sdom va w.leaf)).put { t with pc := t.pc + 4 })))

/-- 16 R370, R371, R373, R374; 13 R302 to R305; 15 R339, R343: the steps of copy engines. An accepted command enters its die's queue and its
instruction completes; a queue or a budget that does not admit it turns it away; a segment that has changed hands faults; the oldest waiting
command starts while fewer than 16 run; a command whose transfers are over leaves the queue, and one that waits stays; a transfer command
has pieces of exactly its bytes; an RSTR copies chunk after chunk, is finishing after the last, aborts, and frees its record at its end. A chunk
and an abort wait while the deferral entries they move do not fit the spill lists: 15 R342 says so of the pause before the next chunk, and
that the end of a chunk and an abort wait alike is the model's reading (log 70). -/
def Obligations.EngineSteps : Prop := ∀ (s : State) (i : Tid) (t : Thread) (c : EngCmd) (path : List (Nat × Rcb)) (die id k : Nat) (r : Restripe)
    (l m : List EngCmd) (f : Flt) (s1 : State) (c1 : EngCmd),
  let x := s.die die
  let accept := exec (.engineAcceptanceReply i) s
  let sa := s.setDie die { x with arrived := some (s.tick, t.core) }
  let turned := { t with pend := none, st := .blocked .feretry, retryAt := (s.core t.core).cycle + 256 }
  let refused := ∃ s', accept = .next s' ∧ (s'.die die).engq = x.engq ∧ s'.find i = some turned
  let bytes := (c.pieces.map (·.n)).sum
  let complete := exec (.engineCommandCompletion die id) s
  let gone := fun (s' : State) => ∀ y ∈ (s'.die die).engq, y.id ≠ id
  (s.find i = some t → t.settled = true → t.pend = some (.engine c) → die = dieOf t.core → s.groupFirst t = true →
    orderedArrival x.arrived s.tick t.core = true → s.chainWaits die t.home 9 t.region = false →
    s.pathWaits die t.home (s.path die t.home t.region) = false → (∀ e ∈ s.early, s.leadsCmd t c e = false) →
    (c.kind = .rstr → s.rangeWaits die t.id.sdom c.src (c.len / 16384) = false) →
    (sa.rangesOk t c.ranges = .error (.fault f) → accept = .next (sa.parkWhenFree { t with pend := none } f false t.iword)) ∧
    (sa.rangesOk t c.ranges = .ok () →
      (x.engRes.admits x.threadCmds.length 240 i = false → refused) ∧
      (x.engRes.admits x.threadCmds.length 240 i = true → sa.chain die t.home t.region = .ok path →
        (admits .eq 1 path = false → refused) ∧
        (admits .eq 1 path = true → c.kind ≠ .rstr → ∃ s', accept = .next s' ∧ (s'.die die).engq = x.engq ++ [{ c with id := s.nextCmd }] ∧
          s'.find i = some { t with pend := none, st := .resident, pc := t.pc + 4 } ∧ OthersSame s s' i) ∧
        (c.kind = .rstr → x.freeRecord = none → refused) ∧
        (admits .eq 1 path = true → c.kind = .rstr → x.freeRecord = some k → ∃ s' y, accept = .next s' ∧ (s'.die die).engq = x.engq ++ [y] ∧
          y.id = s.nextCmd ∧ (if sa.rstrOk die i.sdom { c with id := s.nextCmd } then y.record = some k else y.result = 3))))) ∧
  (x.engq = l ++ c :: m → (∀ y ∈ l, y.started = true) → c.started = false → ((x.engq.filter (·.started)).length < 16 →
      exec (.engineCommandStart die) s = .next (s.setDie die { x with engq := l ++ { c with started := true, since := s.tick } :: m })) ∧
    (16 ≤ (x.engq.filter (·.started)).length → exec (.engineCommandStart die) s = .next s)) ∧
  (x.engq.find? (fun y => y.id == id && y.eq.isNone) = some c →
    (s.endWaits die c = true → complete = .next s) ∧
    (c.kind ≠ .rstr → c.started = false ∨ c.run s = none → complete = .next s) ∧
    (s.endWaits die c = false → c.kind ≠ .rstr → c.started = true → c.run s = some (s1, c1) → ∃ s', complete = .next s' ∧ gone s') ∧
    (s.endWaits die c = false → c.kind = .rstr → c.result = 3 → ∃ s', complete = .next s' ∧ gone s') ∧
    (s.endWaits die c = false → c.kind = .rstr → c.result ≠ 3 → c.record = some k → s.restripeAt die k = some r → (r.st = 2 ∨ r.st = 3) →
      s.invalidated r.sdom [r.extent] none = true → ∃ s', complete = .next s' ∧ gone s' ∧ s'.restripeAt die k = none)) ∧
  ((c.kind = .cpy → bytes = c.len) ∧ (c.kind = .cpy2d → bytes = c.p1 * c.len) ∧
    (c.kind = .deal → 1 ≤ c.blk → c.len % c.blk = 0 → bytes = c.len) ∧
    (c.kind = .mred → c.len % mredSize (c.p1 % 16) = 0 → bytes = c.len)) ∧
  (s.restripeAt die k = some r → s.running die r.cmd = some c → r.st = 1 → s.invalidated r.sdom [r.extent] none = true →
    s.chunkWaits die r = false → c.bad = none → (∀ n, c.askedAt r.prog = some n → s.tick ≤ n + s.reqto) →
    let sc := (if r.prog = 0 then s.dropFramesIn r.sdom [r.extent] none else s).copyChunk die k r
    let tables := s.rangeWaits die r.sdom r.vbase r.nchunk
    let chunk := exec (.rstrChunkComplete die k) s
    (s.chunkBad die r = none →
      (sc.spillOk = false → chunk = .next s) ∧
      (sc.spillOk = true → r.prog + 1 < r.nchunk → ∃ s', chunk = .next s' ∧ s'.restripeAt die k = some { r with prog := r.prog + 1 }) ∧
      (sc.spillOk = true → r.prog + 1 = r.nchunk → tables = true → chunk = .next s) ∧
      (sc.spillOk = true → r.prog + 1 = r.nchunk → tables = false → ∃ s' o, chunk = .next s' ∧
        s'.restripeAt die k = some { r with prog := r.prog + 1, st := 2, old := o })) ∧
    (∀ b, s.chunkBad die r = some b →
      let sb := s.setCmd die { c with bad := some b }
      sb.rangeWaits die r.sdom r.vbase r.nchunk = false → (sb.abortRstr die k r).spillOk = true →
      ∃ s', chunk = .next s' ∧ s'.restripeAt die k = some { r with st := 3 })) ∧
  (s.restripeAt die k = some r →
    let tables := s.rangeWaits die r.sdom r.vbase r.nchunk
    (r.st = 1 → tables = false → (s.abortRstr die k r).spillOk = true → ∃ s', exec (.rstrAbort die k) s = .next s' ∧
      s'.restripeAt die k = some { r with st := 3 }) ∧
    (r.st ≠ 1 ∨ tables = true ∨ (s.abortRstr die k r).spillOk = false → exec (.rstrAbort die k) s = .next s))

/-- 02 R52, R53, R59: PHASE_TURN issues threads of one domain that share their PC; a running core without a thread counts its cycle and
issues none; nothing turns while threads still issue or the package is halted.
02 R32, R34, R45, R47, R48, R50; 12 R259; 13 R290, R307; 18 R417: the steps that release, activate and evict threads: a fill reaches its
registers once the loads before it are bound, and that of a thread that is DONE is dropped; a register line or a control line reaches its
thread where the cache has room, a walk for a fetch the TLB, another its thread, or its thread meets the walk's fault; an idle core gives its
READY thread slot 0 of phase 0; a thread that must leave its slot and may leaves it READY; a READY thread ages. -/
def Obligations.ThreadAndPhaseSteps : Prop :=
  (∀ (s : State) (c : Nat),
    (∃ s', exec (.phaseTurn c) s = .next s' ∧ (s.issue = [] → ∀ i ∈ s'.issue, ∀ j ∈ s'.issue, ∀ t u, s'.find i = some t → s'.find j = some u →
      t.pc = u.pc ∧ t.id.sdom = u.id.sdom)) ∧
    (s.issue ≠ [] ∨ s.halted = true ∨ s.stage ≠ .running → exec (.phaseTurn c) s = .next s) ∧
    (s.stage = .running → s.halted = false → s.issue = [] → s.threads = [] → s.coreOn c = true →
      ∃ s', exec (.phaseTurn c) s = .next s' ∧ s'.issue = [] ∧ (s'.core c).cycle = (s.core c).cycle + 1)) ∧
  (∀ (s : State) (i : Tid) (t : Thread) (f : Fill) (k n : Nat) (l : List Nat) (w : WalkReq) (x : Walked) (e : Flt),
    let die := dieOf t.core
    let room := (s.cachedLines t.core).length < 2048
    let left := { t with slot := none, ctl := false, linesIn := [], age := 0, claim := none, st := .ready, readySince := s.tick, aged := 0
                         preempt := false, walk := none }
    let sr := s.refreshCore t.core
    let ur := sr.again t
    s.find i = some t →
    (t.fills[k]? = some f →
      let u := s.bindUpTo t k
      (f.req.any s.reqLost = true → exec (.registerFill i k) s = .next s) ∧
      let v := (f.regs.foldl (fun (t : Thread) (r : Nat × Word) => t.wr r.1 r.2)
        ({ u.dropFill k s.tick with saw := s.sawWith u [f] } : Thread)).noted (f.regs.map (16 + ·.1))
      (f.req.any s.reqLost = false → f.src = none → f.bad = none → t.st = .resident →
        exec (.registerFill i k) s = .next ((s.clearMarks u f.regs).put { v with fpf := v.fpf ||| f.flags }))) ∧
    (t.fills[k]? = none → s.orphans = [] → exec (.registerFill i k) s = .next s) ∧
    (∀ o, t.fills = [] → (s.orphans.filter (fun x => x.1.tid == some i))[k]? = some o → s.reqLost o.2 = false →
      exec (.registerFill i k) s = .next { s with orphans := s.orphans.erase o }) ∧
    (t.st = .blocked .line → room → s.frameWaits die i = false → s.framePlaces die i [n] = .ok l → s.missingLine t = some n → s.framePoison t n = none →
      exec (.registerLineArrival i) s = .next (s.put { t with st := .resident, linesIn := t.linesIn ++ [n] })) ∧
    (t.st ≠ .blocked .line ∨ s.frameWaits die i = true → exec (.registerLineArrival i) s = .next s) ∧
    (t.slot.isSome = true → t.ctl = false → room → s.frameWaits die i = false → t.placed = some l → s.framePoison t 0 = none →
      exec (.controlLineArrival i) s = .next (s.put { t with ctl := true })) ∧
    (t.slot = none ∨ t.ctl = true ∨ s.frameWaits die i = true → exec (.controlLineArrival i) s = .next s) ∧
    (t.walk = some w → t.st = .blocked .empty → s.walkWaits die i.sdom w.va = false →
      let parked := fun (f : Flt) => exec (.walkEnd i) s = .next (s.parkWhenFree t f false (if w.fetch then 0 else s.peekWord t))
      (s.walk die i.sdom w.va w.kind w.write = .error e → parked { e with fetch := w.fetch }) ∧
      (s.walk die i.sdom w.va w.kind w.write = .ok x →
        (s.leafFault t w x.leaf = some e → parked e) ∧
        (s.leafFault t w x.leaf = none → ∃ s', exec (.walkEnd i) s = .next s' ∧ s'.find i = some { t with walk := none, st := .resident } ∧
          OthersSame s s' i ∧ (w.fetch = true → ∃ e, s'.tlbFind t.core i.sdom w.va = some e) ∧
          (w.fetch = false → ∃ f ∈ (s'.core t.core).fresh, f.tid = t.id ∧ f.va = w.va ∧ f.write = w.write ∧ f.leaf = x.leaf)))) ∧
    (t.st = .ready → exec (.priorityAging i) s = .next (s.put { t with aged := (s.tick - t.readySince) / 50000 })) ∧
    (s.mustLeave t = true → s.mayLeave t = true → t.gang = none → t.st = .resident → s.drained t →
      ∃ s', exec (.preemption i) s = .next s' ∧ OthersSame s s' i ∧ s'.find i = some left) ∧
    (s.mustLeave t = false ∨ s.mayLeave t = false → exec (.preemption i) s = .next s) ∧
    (s.coreOn t.core = true → s.readyOf t.core = [t] → s.residentsOf t.core = [] → s.gangs = [] → (∀ v ∈ s.threads, v.gang = none) →
      s.poison = [] → sr.slotView ur = .ok → sr.framePlaces die i ur.lineList = .ok l → sr.frameInvalidated ur = false → ur.placed.isSome = true →
      ∃ s', exec (.activation t.core) s = .next s' ∧ OthersSame sr s' i ∧ s'.find i = some { ur with
        st := .resident, slot := some (0, 0), ctl := false, linesIn := [], age := 0, slotSince := s.tick, aged := 0, preempt := false }))

/-- 15 R331 to R335, R338, R339; 02 R36 to R39; 16 R354, R355, R367; 20 R460: the steps of launch and task queues. A notice records TAIL, or
stores ERR; a take opens the launch of the record at HEAD, or rejects it; materialisation and task creation make the thread with the PC and
registers the rules give, and a launch none of whose threads lives is rejected once its domain is gone, as a task entry is dropped; a
reservation lapses after 1,000 ticks and passes to the next listed handle; a held kill message to nobody is dropped, and the KILL that waits for
it completes. The die on which the LQD and the ring are translated is the model's choice (log 71), and so is the time at which a held kill
message is offered again (log 50). -/
def Obligations.LaunchAndTaskSteps : Prop := ∀ (s s1 : State) (q k core : Nat) (l : Lqd) (g : Target) (x : Launch) (e : TaskEnt) (path : List (Nat × Rcb))
    (m : KillMsg) (since err : Nat) (r : Reserve) (u v : Thread) (reg : Nat),
  let ent := s.queue q
  let st := s.touch 0 ent.sdom ent.lqd false
  let noticed := st.setQueue q { ent with noticed := l.tail }
  let c := s.core core
  let i := fun (n : Nat) => x.tid (effSdom path) (x.next + n)
  let j : Tid := { sdom := (s.taskDom core e).sdom, handle := e.handle }
  let lives := (s.domain j.sdom).v = true ∧ (s.domain e.home).v = true
  (ent.v = true → s.lqdWaits ent = false →
    (st.readLqd ent = .ok l → st.lqdWord ent 7 = .ok 0 →
      (s.stage = .running → ent.device = false → exec (.launchDoorbell q) s = .next noticed) ∧
      (ent.device = true → exec (.launchTailNotice q) s = .next noticed ∧ exec (.launchDoorbell q) s = .next s) ∧
      (st.lqdWord ent 4 = .ok 0 → exec (.launchQueuePoll q) s = .next noticed)) ∧
    (st.readLqd ent = .error err → s.stage = .running → ent.device = false → exec (.launchDoorbell q) s = .next (st.lqdPut ent 7 err))) ∧
  (s.nextQueue = some q → s.canTake q = some l →
    s.agentAt { die := 0, core := none, sdom := ent.sdom } (l.ring + 128 * (l.head % l.size)) false = .ok (s1, g) → s1.poisonedIn g.pa 128 = none →
    s1.poisonedIn (g.pa + 0x38) 8 = none → s1.queues = s.queues →
    let n := s1.numAt ent.sdom g.pa 128
    s1.chainWaits 0 ent.sdom 9 (n / 2 ^ 128 % 2 ^ 64) = false → n / 2 ^ 448 % 2 ^ 64 = 0 →
    (s1.checkRecord ent n ≠ 0 → ∃ s', exec (.launchTake q) s = .next s' ∧ s'.launches = s1.launches ∧ s'.tookLaunch = true) ∧
    (s1.checkRecord ent n = 0 → n / 2 ^ 64 % 2 ^ 41 ≠ 0 → l.head ∉ ent.cancels →
      ∃ s' z, exec (.launchTake q) s = .next s' ∧ s'.launches = s1.launches ++ [z] ∧ s'.tookLaunch = true ∧ z.id = s1.nextLaunch ∧ z.index = l.head ∧
        z.pc = BitVec.ofNat 64 n ∧ z.count = n / 2 ^ 64 % 2 ^ 41 ∧ z.lines = n / 2 ^ 105 % 4 + 1 ∧ z.args = BitVec.ofNat 64 (n / 2 ^ 192) ∧
        z.frames = n / 2 ^ 256 % 2 ^ 64 ∧ z.next = 0 ∧ z.live = 0)) ∧
  (s.launches.find? (fun z => z.id == k) = some x →
    (s.nextLaunchOn (dieOf (s.memberCore x x.next)) = some x → s.held = [] → s.early = [] → 1 ≤ x.lines → x.lines ≤ 4 →
      s.chain 0 x.home x.region = .ok path →
      (x.gshape = 0 → ∃ s' v, exec (.materialisation k) s = .next s' ∧ s'.find (i 0) = some v ∧ v.pc = x.pc ∧ v.rd 1 = BitVec.ofNat 64 x.next ∧
        v.rd 2 = x.args ∧ v.rd 3 = BitVec.ofNat 64 x.count ∧ v.rd 4 = 0 ∧ v.core = s.memberCore x x.next ∧ v.region = x.region ∧
        (v.st = .ready ∨ v.st = .faulted) ∧ OthersSame s s' (i 0)) ∧
      (x.gshape ≠ 0 → ∃ s', exec (.materialisation k) s = .next s' ∧
        (∀ n, n < x.gm → ∃ v, s'.find (i n) = some v ∧ v.launch = some (x.id, x.next + n) ∧ v.lines = x.lines ∧ v.home = x.home) ∧
        ∃ h ∈ s'.gangs, h.id = { sdom := effSdom path, record := x.grecb + 2048 * (x.next / x.gm) } ∧ h.m = x.gm ∧
          h.members = (List.range x.gm).map (fun n => (n, i n)))) ∧
    (x.cancelled = false → x.next < x.count → s.domainGone x = true →
      (x.live = 0 → ∃ s', exec (.materialisation k) s = .next s' ∧ ∀ z ∈ s'.launches, z.id ≠ k) ∧
      (x.live ≠ 0 → exec (.materialisation k) s = .next s))) ∧
  (s.coreOn core = true → s.readyCount core < 1024 →
    ((∃ n, c.lastTask = some n ∧ c.cycle < n + 4) → exec (.taskCreation core) s = .next s) ∧
    ((∀ n, c.lastTask = some n → n + 4 ≤ c.cycle) → s.taskFrom core c.taskq [] 0 = some (k, e) → s.held = [] →
      (s.frameWaits (dieOf core) j = true → exec (.taskCreation core) s = .next s) ∧
      (s.frameWaits (dieOf core) j = false →
        (lives → s.find j = none → s.frameState core j = .ok 0 → 1 ≤ e.lines → e.lines ≤ 4 →
          ∃ s' v, exec (.taskCreation core) s = .next s' ∧ s'.find j = some v ∧ v.pc = e.pc ∧ v.rd 1 = e.caller ∧
            (∀ n, n < 4 → v.rd (8 + n) = e.args.getD n 0) ∧ v.core = core ∧ v.region = e.region ∧ (v.st = .ready ∨ v.st = .faulted) ∧
            (s'.core core).taskq = removeNth k c.taskq) ∧
        (¬ lives ∨ s.find j = some u →
          ∃ s', exec (.taskCreation core) s = .next s' ∧ s'.threads = s.threads ∧ (s'.core core).taskq = removeNth k c.taskq)))) ∧
  (c.taskRes = r →
    ((∀ n ∈ r.since, s.tick < n + 1000) → ∃ s', exec (.reservationLapse (.task core)) s = .next s' ∧ s' = { s with cores := s'.cores } ∧
      ∀ n, s'.core n = s.core n) ∧
    (r.since = since :: r.since.tail → since + 1000 ≤ s.tick → exec (.reservationLapse (.task core)) s = .next (s.setCore core { c with
      taskRes := { list := r.list.tail
                   since := r.since.tail ++ (if r.since.tail.length < r.list.tail.length then [s.tick] else []) } }))) ∧
  (s.killMsgs[k]? = some m →
    (s.named m.target = none → m.issuer = none → exec (.killMessageRetry k) s = .next { s with killMsgs := removeNth k s.killMsgs }) ∧
    (s.named m.target = none → m.issuer = some v.id → s.find v.id = some v → v.pend = some (.killHeld reg) →
      exec (.killMessageRetry k) s = .next (State.endWaitMove { s with killMsgs := removeNth k s.killMsgs }
        { v.wr reg 0 with pc := v.pc + 4, pend := none })) ∧
    (s.named m.target = some u → u.incnt < 4 → u.cond = none → m.issuer = none → exec (.killMessageRetry k) s = .next { s.put { u with
      incnt := u.incnt + 1, msgs := u.msgs.setIfInBounds ((u.inhead + u.incnt) % 4) { payload := 0, src := m.src, tag := 0xFFFD } } with
        killMsgs := removeNth k s.killMsgs }) ∧
    (s.named m.target = some u → 4 ≤ u.incnt → exec (.killMessageRetry k) s = .next s))

/-- 10 R233 to R235; 19 R433: the ends of a carve change, of the zeroing of a carve unit and of a scratchpad segment, and of the retirement
of cores. With no entry deferred on the bytes concerned those bytes are 0, full and unpoisoned, and no other byte changes; context lines held
of a zeroed carve unit are dropped. Each end waits while an accepted access to those bytes is unperformed, a segment's also while an accepted
command names it or a matrix operation reads its core. Retired cores hold no thread, and their scratchpads are 0. Which accesses an end waits for
is the model's reading of 10 R233 and R234 (logs 31 and 96). -/
def Obligations.OwnershipSteps : Prop := ∀ (s : State) (die core u seg : Nat) (cores : List Nat), s.unwatched → s.early = [] →
  let x := s.die die
  let moved := fun (pa : Nat) => physUnit pa == carveUnit die && decide (min x.count x.target ≤ physOff pa / 2 ^ 21) &&
    decide (physOff pa / 2 ^ 21 < max x.count x.target)
  let clear := fun (p : Nat → Bool) => ∀ e ∈ s.deferrals, p e.pa = false
  let zeroed := fun (s' : State) (p : Nat → Bool) => ∀ pa, s'.rawByte pa = (if p pa then emptyByte else s.rawByte pa) ∧
    s'.isFull pa = (p (pa - pa % 8) || s.isFull pa) ∧ (p pa = true → pa ∉ s'.poison)
  let same := fun (s' : State) (p : Nat → Bool) => s'.threads = s.threads ∧ zeroed s' p
  let l := s.retiring.filter cores.contains
  (clear moved → x.busy = true → s.aimedAt moved = false → ∃ s', exec (.carveChangeEnd die) s = .next s' ∧ same s' moved ∧
    s'.die die = { x with count := x.target, busy := false }) ∧
  (x.busy = false ∨ s.aimedAt moved = true → exec (.carveChangeEnd die) s = .next s) ∧
  (clear (unitBytes die u) → x.unitZeroing.contains u = true → s.aimedAt (unitBytes die u) = false →
    ∃ s', exec (.carveUnitZeroingEnd die u) s = .next s' ∧ s'.threads = (s.dropLines (unitBytes die u)).threads ∧
      zeroed s' (unitBytes die u) ∧ (s'.die die).unitZeroing.contains u = false) ∧
  (x.unitZeroing.contains u = false ∨ s.aimedAt (unitBytes die u) = true → exec (.carveUnitZeroingEnd die u) s = .next s) ∧
  ((s.core core).zeroing.contains seg = true → s.aimedAt (segBytes core seg) = false → s.cmdAimedAt core seg = false → s.opReads core = false →
    ∃ s', exec (.segmentZeroingEnd core seg) s = .next s' ∧ same s' (segBytes core seg) ∧ (s'.core core).zeroing.contains seg = false) ∧
  (s.aimedAt (segBytes core seg) = true ∨ s.cmdAimedAt core seg = true ∨ s.opReads core = true → exec (.segmentZeroingEnd core seg) s = .next s) ∧
  (l ≠ [] → (∀ c ∈ l, s.coreEmpty c = true ∧ s.coreOn c = false) → (∃ c, c < 2048 ∧ s.coreOn c = true) →
    ∃ s', exec (.coreRetirement cores) s = .next s' ∧ (∀ c ∈ l, c ∉ s'.retiring) ∧ (∀ i t, s'.find i = some t → t.core ∉ l) ∧
      ∀ c ∈ l, ∀ pa, physUnit pa = padUnit c → s'.rawByte pa = emptyByte) ∧
  (l = [] ∨ l.all s.coreEmpty = false → exec (.coreRetirement cores) s = .next s)

/-- 14 R310, R319 to R321, R479; 15 R343, R344: an evaluation of a die on which none is due does nothing; GEN, INTERVAL and the words that judge
the descriptor are read first. An invalid descriptor is logged, one with AUTO 0 is closed, one with HOLD only decays its counters; a failed
access stops the evaluation, the next one falling due by the INTERVAL word where that can be read, and an access that waits leaves the state as
it is: the order of these reads is the model's choice (log 66). At most 16 actions are chosen, their replicas on eligible enabled
dies and in free pool slots, no slot twice. A copy is an entry of the die's engine queue: one that is done, or has failed, makes way for the
next, whose pool bit is set first. -/
def Obligations.EquinoxSteps : Prop := ∀ (s s0 s1 s2 s3 s4 s5 : State) (die k n n0 n1 m v w e d p e2 d2 p2 : Nat) (x : Edt) (r : EqRun) (cmd : EngCmd)
    (l rest : List (Nat × Nat × Nat)) (all : List Active) (loads : List Nat) (stop : AgentStop),
  let dva := x.dva.toNat
  let g := ({ die := die, core := none, sdom := x.sdom } : Agent)
  let run := ({ die := die, core := none, sdom := r.sdom } : Agent)
  let c := ({ g := g, dom := k, dva := dva, n := n } : EqCtx)
  let rc := ({ g := run, dom := r.dom, dva := r.dva, n := r.desc } : EqCtx)
  let acts := s.actions n all
  let goes := exec (.equinoxEvaluation die) s
  let next := fun (i : Instr) (q : State) (tail : List (Nat × Nat × Nat)) =>
    eqRead run (r.dva + 0x60) 8 q = .ok (s3, v) → bit v (8 * d2 + p2) = false → eqPool run r.dva d2 p2 true s3 = .ok (s4, ()) →
      eqRead run (entryVa r.dva (r.gen % 2) e2 + 8) 8 s4 = .ok (s5, w) →
      ∃ s', exec i s = .next s' ∧ (s'.die die).eqRun = some { r with todo := l, done := tail } ∧
        (s'.die die).engq = (s5.die die).engq ++ [r.copyCmd s5.nextCmd die (slotBase w) (slotVa r.desc d2 p2) e2]
  ((s.die die).eqRun = none → s.dueDomain die = none → goes = .next s) ∧
  ((s.die die).eqRun = none → s.dueDomain die = some (k, x) →
    (eqWords g dva [0] 0 s = .error (.held, s0) → goes = .next s) ∧
    (stop ≠ .held → eqWords g dva [0] 0 s = .error (stop, s0) →
      (eqRead g (dva + 0x30) 8 s = .ok (s3, v) → s0.eqStop { c with n := dWord6 v } [] = .ok s1 → goes = .next s1) ∧
      ((∀ y, eqRead g (dva + 0x30) 8 s ≠ .ok y) → s0.eqStop { c with n := 0 } [] = .ok s1 → goes = .next s1)) ∧
    (eqWords g dva [0] 0 s = .ok (s0, n0) → eqWords g dva [6] n0 s0 = .ok (s1, n1) → eqWords g dva [4, 5, 8, 9, 11] n1 s1 = .ok (s2, n) →
      (descValid n = false → s2.eqLog g dva 6 0 0 (dGen n) = .ok s3 → goes = .next (s3.eqMerge k (intervalOf n))) ∧
      (descValid n = true → dAuto n = false → s2.eqClose c = .ok s3 → goes = .next s3) ∧
      (descValid n = true → dAuto n = true → dHold n = true → eqWords g dva [7] n s2 = .ok (s3, m) → eqDecay g m s3 = .ok (s4, loads) →
        s4.eqClose c = .ok s5 → goes = .next s5))) ∧
  (dNexp n = 1 → eqRead g (dLcbase n) 4 s = .ok (s1, v) → eqWrite g (dLcbase n) 4 (v / 2) s1 = .ok (s2, ()) → eqDecay g n s = .ok (s2, [v])) ∧
  (acts.1.length + acts.2.length ≤ 16 ∧ (acts.1.map (·.2)).Nodup ∧
    ∀ a ∈ acts.1, bit (dElig n) a.2.1 = true ∧ s.dieOn a.2.1 = true ∧ a.2.2 < dPoolslots n ∧ bit (dPoolmap n) (8 * a.2.1 + a.2.2) = false) ∧
  ((s.die die).eqRun = some r → r.todo = (k, d, p) :: l →
    (e ≠ k → exec (.equinoxCopyCompletion die e true) s = .next s) ∧
    ((s.die die).engq.find? (fun y => y.eq == some k && y.started) = some cmd → l = (e2, d2, p2) :: rest →
      (s.eqCopy run cmd (slotVa r.desc d p + dGradoff r.desc) (dWsize r.desc - dGradoff r.desc) = .done s2 →
        next (.equinoxCopyCompletion die k true) (s2.dropCmd die cmd.id) (r.done ++ [(k, d, p)])) ∧
      ((s.dropCmd die cmd.id).eqFail rc r (k, d, p) = .ok s2 → next (.equinoxCopyCompletion die k false) s2 r.done)))

/-- 18 R418 to R420; 17 R396; 19 R434: an uncorrectable error poisons its word and counts a fresh line; a corrected error and a flit retry
count; lost sharers poison the whole line; a request whose bound has passed parks its thread when it is abandoned, and not before, nor in debug
halt; a failed link retrains and its requests are sent again, and a package that no link still retraining can join again halts for good. An
uncorrectable error changes no byte of memory. -/
def Obligations.ErrorSteps : Prop := ∀ (s : State) (die pa line k : Nat) (i : Tid) (t : Thread) (f : Fill) (r : Req) (ok : Bool),
  let inc := fun (v : Word) => if v = BitVec.allOnes 64 then v else v + 1
  let errs := fun (s : State) (d j : Nat) => Sparse.get 0 (s.die d).errs j
  let counts := fun (i : Instr) (j : Nat) => ∃ s', exec i s = .next s' ∧ s' = { s with dies := s'.dies } ∧
    ∀ d m, errs s' d m = if d = die ∧ m = j then inc (errs s d m) else errs s d m
  let trained := { s with retraining := SSet.del s.retraining line, linkDown := if ok then SSet.del s.linkDown line else s.linkDown }
  (∃ s', exec (.uncorrectableError die pa) s = .next s' ∧ s'.mem = s.mem ∧ s'.threads = s.threads ∧
    (∀ w, w ∈ s'.poison ↔ w = pa - pa % 8 ∨ w ∈ s.poison) ∧
    errs s' die 1 = if (s.poisonedIn (pa - pa % 128) 128).isNone then inc (errs s die 1) else errs s die 1) ∧
  counts (.correctedError die) 0 ∧ counts (.lazokelFlitRetry die) 3 ∧
  ((s.homeOf (128 * line)).isSome = false → exec (.flitCheckFailure line) s = .next s) ∧
  ((s.homeOf (128 * line)).isSome = true → ∃ s', exec (.flitCheckFailure line) s = .next s' ∧ s' = { s with sharersLost := s'.sharersLost } ∧
    ∀ m, m ∈ s'.sharersLost ↔ m = line ∨ m ∈ s.sharersLost) ∧
  (line ∈ s.sharersLost → ∃ s', exec (.sharersLostRecallEnd line) s = .next s' ∧ line ∉ s'.sharersLost ∧
    ∀ j, j < 16 → 128 * line + 8 * j ∈ s'.poison) ∧
  (line ∉ s.sharersLost → exec (.sharersLostRecallEnd line) s = .next s) ∧
  (s.halted = true → ∀ o, exec (.requestTimeout o) s = .next s) ∧
  (s.find i = some t → t.fills[k]? = some f → f.req = some r →
    (s.tick < r.since + (if r.host then s.hostto else s.reqto) → exec (.requestTimeout (.fill i k)) s = .next s) ∧
    (r.since + (if r.host then s.hostto else s.reqto) ≤ s.tick → s.halted = false → s.upqFull (dieOf t.core) = false →
      t.st = .resident → t.pend = none → t.killed = false → t.asyncs = [] → s.drained t → t.gang = none →
      ∃ s' u, exec (.requestTimeout (.fill i k)) s = .next s' ∧ s'.find i = some u ∧ u.st = .faulted ∧
        u.fcause = Cause.requestTimeOut.code ∧ u.fills.length + 1 = t.fills.length ∧ u.pc = t.pc)) ∧
  (s.stage = .running → line < 19 → line ∉ s.linkDown → ∃ s', exec (.linkFailure line) s = .next s' ∧
    s' = { s with linkDown := s'.linkDown, retraining := s'.retraining, net := s'.net } ∧ (∀ m, m ∈ s'.linkDown ↔ m = line ∨ m ∈ s.linkDown) ∧
    (∀ m, m ∈ s'.retraining ↔ m = line ∨ m ∈ s.retraining) ∧ ∀ p, p ∈ s'.net ↔ p ∈ s.net) ∧
  (line ∈ s.retraining → (trained.hopeful.whole = true → exec (.linkRetrainEnd line ok) s = .next trained) ∧
    (trained.hopeful.whole = false → ∃ s', exec (.linkRetrainEnd line ok) s = .next s' ∧ s'.halted = true ∧ s'.fatal = true ∧ s'.threads = s.threads))

/-- 19 R424 to R426, R429, R430, 20 R451: the stages of bring-up. Package reset begins anew unless the image fails its check; each stage
follows the one before and does nothing at another time; release starts the counters at 0. A die is trusted when the digest of the key it
returns is its entry of the manifest and its signature over the challenge verifies; the challenge's bytes are the model's reading (log 15), as
host memory over a package reset (logs 3 and 28). -/
def Obligations.BringUp : Prop := ∀ (s : State) (pa : Nat),
  let joined := s.joined s.unitOk
  let dies := joined.filter (fun u => decide (u < 8))
  (s.silicon.imageOk = true → s.silicon.floor ≤ s.silicon.svn → ∃ s', exec .packageReset s = .next s' ∧ s'.stage = .discovery ∧ s'.threads = [] ∧
    s'.issue = [] ∧ s'.silicon.floor = s.silicon.svn ∧ s'.ownkey = s.ownkey ∧
    s'.rawByte pa = if physUnit pa = hostUnit then s.rawByte pa else emptyByte) ∧
  (s.silicon.imageOk = false ∨ s.silicon.svn < s.silicon.floor → Memory.wf s.mem → (∀ x ∈ s.inputs, isOutside x = true) →
    ∃ s', exec .packageReset s = .next s' ∧ s'.stage = .held 0xE1 ∧ s'.heldForGood) ∧
  (s.stage = .discovery → ∃ s', exec .discovery s = .next s' ∧ s'.stage = .links ∧ ∀ k, k < 18 →
    (k ∈ s'.linkDown ↔ ¬(s'.trustedUnit (linkEnds k).1 = true ∧ s'.trustedUnit (linkEnds k).2 = true)) ∧
    (s'.trusted.testBit k = true → s.silicon.manifest[k]? = some (sm3 (toBytes 64 (s.silicon.dieKeys.getD k 0).toNat)))) ∧
  (s.stage = .links → ∃ s', exec .linkTraining s = .next s' ∧ s'.stage = .memory ∧ ∀ k, k < 19 →
    (k ∈ s'.linkDown ↔ k ∈ s.linkDown ∨ s.silicon.links.testBit k = false)) ∧
  (s.stage = .memory → ∃ s', exec .memoryTraining s = .next s' ∧ s'.stage = .configuration ∧
    (physUnit pa < 20 → s'.rawByte pa = emptyByte ∧ s'.isFull pa = true ∧ pa - pa % 8 ∉ s'.poison)) ∧
  (s.stage = .configuration → (8 ∉ joined ∨ dies = [] → ∃ s', exec .configuration s = .next s' ∧ s'.stage = .held 0xE2) ∧
    (8 ∈ joined → dies ≠ [] → ∃ s', exec .configuration s = .next s' ∧ s'.stage = .release ∧ (s'.domain 0).v = true ∧ s'.endies = maskOf dies ∧
      ∀ d, d < 8 → s'.geo d 0 = BitVec.ofNat 64 (1 + 4 * 2 ^ 3 + s'.endies * 2 ^ 8 + s'.enstacks * 2 ^ 16))) ∧
  (s.stage = .release → exec .release s = .next { s with stage := .running, tick := 0 }) ∧
  (s.stage = .running → ∀ i ∈ [Instr.discovery, .linkTraining, .memoryTraining, .configuration, .release], exec i s = .next s)

/-- 19 R424: a package held in reset stays held: whatever comes from outside, every step answers a next state in which it is held for the same
reason, no thread exists, none issues, and memory keeps its canonical form. -/
def Obligations.HeldStays : Prop := ∀ (s : State), s.heldForGood →
  ∃ s', step s = .next s' ∧ s'.heldForGood ∧ s'.stage = s.stage

/-- 19 R424, R436; 17 R377, R393, R396; 08 R187; 10 R235; 11 R249; 18 R416: what reset leaves where the spec gives the value; memory is in its
canonical form. (That an unlisted byte reads 0 is the model's for host memory: log 3.) -/
def Obligations.ResetState : Prop :=
  let s := State.reset
  s.stage = .boot ∧ s.tick = 0 ∧ s.threads = [] ∧ s.halted = false ∧ s.reqto = 20000 ∧ s.hostto = 1000000 ∧ s.mclogcnt = 0 ∧ s.ownkey = 0 ∧
  Memory.wf s.mem ∧ (∀ pa, s.isFull pa = true ∧ pa ∉ s.poison) ∧
  (∀ c n, (s.core c).unit.ramp = .down ∧ (s.core c).unit.burst = 0 ∧ (s.core c).counter n = { owner := 0xFFFF, event := 0, en := false, val := 0, new := false }) ∧
  (∀ d k, Sparse.get 0 (s.die d).errs k = 0 ∧ (s.die d).count = 0 ∧ (s.die d).target = 0 ∧ (s.die d).upq = [] ∧ (s.die d).engq = [])

/-- 02 R53, 03 R59, R66; 18 R410; 12 R269; 13 R303; 16 R361: a step of a thread that issues executes the instruction that the word at its PC
decodes to, and after it come at once the held writes of the device that may go on, the waits that a changed word ends and the records that
waited for an entry of a queue; a word that decodes to none takes the illegal-instruction fault, once no buffered store of the thread is held. -/
def Obligations.StepRunsDecoded : Prop := ∀ (s : State) (i : Tid) (rest : List Tid) (t : Thread) (w : Nat) (x : Instr) (err : DecodeError),
  let s1 := { s with issue := rest, cur := some i }
  s.issue = i :: rest → s1.find i = some t → t.pc.toNat % 4 = 0 → canonical t.pc.toNat = true → s1.fetchSlot t = none →
  (s.fetched = some w ∨ (s.fetched = none ∧ s1.fetchWord t = .ok w)) →
  (decodeWord w = .ok x → step s = settled (exec x s1)) ∧
  (decodeWord w = .error err → step s = .next (if s1.stuck t then s1.put { t with st := .blocked .empty }
    else s1.park t (.plain .illegal 0) false false w).settle) ∧
  (∀ s2 : State, settled (.next s2) = .next s2.settle ∧ s2.settle = { s2.flushDev.checkWatches.flushRecs with ended := [] } ∧
    (s2.devq = [] → s2.lateRecs = [] → s2.ended = [] → s2.unwatched → s2.settle = s2))

/-- 03 R61 to R81: what some words written out from the encoding tables decode to, one of each of several families, and words that are
no instruction. -/
def Obligations.DecodedWords : Prop :=
  decodeTableWord 32 0x04820802 = some (.mul 8 8 8 false) ∧ decodeTableWord 32 0xC4010500 = some (.fillInit 0 4 5) ∧
  decodeTableWord 32 0xBC810460 = some (.cpy 8 4 .pkg false true true) ∧ decodeTableWord 32 0xC8610500 = some (.route 3 4 5) ∧
  decodeTableWord 32 0xC8610001 = some (.placeq 3 4) ∧ decodeTableWord 32 0xC8010502 = some (.tlbinv 4 5) ∧ decodeTableWord 32 0xC8010003 = some (.gtsync 4) ∧
  decodeTableWord 32 0xC4210509 = some (.sbarWait 2 4 5) ∧ decodeTableWord 32 0xD0010000 = some (.upret 4) ∧ decodeTableWord 32 0xC0C34801 = some (.callat 12 13 2) ∧
  decodeTableWord 32 0x50000004 = some .exit ∧ decodeTableWord 32 0x40000000 = some (.br 0) ∧ decodeTableWord 32 0xFC000000 = some (.hnop 0) ∧
  (∀ w ∈ [0xD0310503, 0xD0310000, 0xD0000005, 0x40400000, 0xFFFFFFFF, 0], decodeTableWord 32 w = none)

/-- 03 R61 to R81: decoding the encoding of a well-formed instruction gives it back, with every operand at every value; and every word that
decodes is the encoding of what it decodes to. -/
def Obligations.DecodeOfEncode : Prop := ∀ (i : Instr) (w : Nat),
  (i.wellFormed = true → encodeNat i = some w → w < 2 ^ 32 ∧ decodeWord w = .ok i ∧ decodeTableWord 32 w = some i) ∧
  (w < 2 ^ 32 → decodeWord w = .ok i → encodeNat i = some w)

/-- 00 R8; 18 R400, R410: every step of another agent answers a next state, and so does every instruction word that a live thread issues:
no instruction is refused, and the one stop is a word that no thread issues. -/
def Obligations.EveryStepAnswers : Prop := ∀ (i : Instr) (s : State),
  (isWord i = false → ∃ s', exec i s = .next s') ∧
  (isWord i = true → s.cur.bind s.find ≠ none → ∃ s', exec i s = .next s') ∧
  (isWord i = true → s.cur.bind s.find = none → exec i s = .fault .noIssuingThread)

/-- 20 R448 to R450: every mailbox command with well-formed operands, from a signer its rule admits: its effect, or STATUS 3 where the
target's rule refuses it; a ROOTPTR that 13 R286's layout does not admit gives STATUS 5, or 1 where the signature does not verify either. SETROOT
is answered once its invalidation is over. A command whose SEQ is not above the highest accepted from its
signer changes nothing but the mailbox. The model's choices here: the command that waits stays the next of the outside (log 4), which
signers exist and which faults of an operand give STATUS 3 or 5 (log 29), and what SETROOT waits for (log 30). -/
def Obligations.MailboxCommands : Prop := ∀ (s : State) (c : MailCmd) (i : Instr) (k : BitVec 256),
  let w := fun (j : Nat) => c.payload.getD j 0
  let a := fun (j : Nat) => (w j).toNat
  let ws := fun (n : Nat) => (List.range n).map (fun j => w (j + 1))
  let done := fun (s : State) => (s, 0, ([] : List Byte))
  let refused := fun (s : State) => (s, 3, ([] : List Byte))
  let wrote := fun (s : State) (r : Option State) => match r with | some s1 => done s1 | none => refused s
  let sc := s.commanded c
  let rootFits := (a 1).testBit 1 = false ∧ a 1 / 4 % 2 ^ 14 = 0
  let open' := fun (i : Instr) (code words : Nat) (s' : State) => s.stage = .running → c.cmd = code → c.len = 24 + 8 * words →
    words ≤ c.payload.length → exec i s = .next s'
  let entry := fun (new : Nat) (v : Bool) (old : Nat) => Signer.tenant (new :: if v then [old] else [])
  let q := QueueEnt.ofWords (ws 4)
  let x := Edt.ofWords (ws 2)
  let f := Fdt.ofWords (ws 4)
  let fold := Sparse.get Fdt.init s.fdt (a 0)
  let mgmt := fun (i : Instr) (r : Nat) (act : State → State × Nat × List Byte) => a 0 = r → Mail s i c 0x35 4 .owner act
  open' (.cert c) 0x01 0 (sc.respond 0 c.seq (toBytes 8 Config.certificates.length ++ Config.certificates.flatMap (fun b => toBytes 8 b.length ++ pad8 b))) ∧
  open' (.takeown c) 0x02 8 (if s.ownkey ≠ 0 then sc.respond 3 c.seq [] else
    let d := sm3 (((List.range 8).map w).flatMap wordBytes)
    State.respond { sc with ownkey := d } 0 c.seq (toBytes 32 d.toNat)) ∧
  Mail s (.setfeat c) c 0x10 1 .owner (fun s => if s.tookLaunch then refused s else
    let v := (w 0 &&& Config.featAvail) ||| 1
    ({ s with featen := v }, 0, toBytes 8 v.toNat)) ∧
  (1 ≤ a 0 → a 0 < 1024 → rootFits → a 2 < 2 → Mail s (.mkdom c) c 0x11 7 .owner (fun s => if (s.domain (a 0)).v then refused s else
    let s1 := s.makeDomain (a 0) (w 1) (a 2 == 1) (keyOf (mailArgs c 3 4))
    (s1, 0, toBytes 32 (s1.domain (a 0)).dmeas.toNat))) ∧
  (a 0 < 1024 → Mail s (.rmdom c) c 0x12 1 (.ownerOrTenant (a 0)) (fun s =>
    if !(s.domain (a 0)).v || s.domainNamed (a 0) then refused s else done (s.destroyDomain (a 0)))) ∧
  (a 0 < 1024 → rootFits → (sc.setRoot (a 0) (w 1)).invalidated (a 0) [allExtent] none = true →
    Mail s (.setroot c) c 0x13 2 (.tenant [a 0]) (fun s => done ((s.setRoot (a 0) (w 1)).dropFramesIn (a 0) [allExtent] none))) ∧
  (a 0 < 1024 → rootFits → (sc.setRoot (a 0) (w 1)).invalidated (a 0) [allExtent] none = false → s.stage = .running → c.cmd = 0x13 → c.len = 40 →
    2 ≤ c.payload.length → c.signer = a 0 → s.signerKey c.signer = some k → s.signerSeq c.signer < c.seq →
    exec (.setroot c) s = .next (if sm2Verify k (mailBytes c) c.sig then { sc.setRoot (a 0) (w 1) with waitsIn := true, serving := true }
      else sc.respond 1 c.seq [])) ∧
  (¬ rootFits → s.signerKey c.signer = some k → s.signerSeq c.signer < c.seq → s.stage = .running →
    let fails := fun (i : Instr) => ∃ n, exec i s = .next (sc.respond n c.seq []) ∧ (n = 5 ∨ (n = 1 ∧ sm2Verify k (mailBytes c) c.sig = false))
    (c.cmd = 0x11 → c.signer = 0xFFFF → fails (.mkdom c)) ∧ (c.cmd = 0x13 → a 0 = c.signer → c.signer < 1024 → fails (.setroot c))) ∧
  (a 0 < 64 → aperOk (ws 3) = true → Mail s (.setaper c) c 0x20 4 (entry (a 3 % 2 ^ 16) (s.aperV (a 0)) (s.aperDom (a 0)))
    (fun s => wrote s (s.writeAper (a 0) (ws 3)))) ∧
  (a 0 < 4096 → queueOk (ws 4) = true → Mail s (.setqueue c) c 0x21 5 (entry q.sdom (s.queue (a 0)).v (s.queue (a 0)).sdom)
    (fun s => wrote s (s.writeQueue (a 0) q))) ∧
  (a 0 < 16 → edtOk (ws 2) = true → Mail s (.setedt c) c 0x22 3 (entry x.sdom (s.edtEnt (a 0)).v (s.edtEnt (a 0)).sdom)
    (fun s => if s.featen.getLsbD 7 then wrote s (s.writeEdt (a 0) x) else refused s)) ∧
  (a 0 < 256 → fdtOk (ws 4) = true → Mail s (.setfdt c) c 0x23 5 (entry f.sdom fold.v fold.sdom) (fun s =>
    done { s with fdt := Sparse.set Fdt.init s.fdt (a 0) f })) ∧
  (a 0 < 16 → a 1 % 2 ^ 16 < 1024 → a 1 < 2 ^ 17 → a 2 % 128 = 0 → canonical (a 2) = true →
    Mail s (.setep c) c 0x24 3 (entry (a 1 % 2 ^ 16) (s.endpoint (a 0)).v (s.endpoint (a 0)).sdom) (fun s =>
      if 2 ^ 16 ≤ a 1 ∧ ((s.domain (a 1 % 2 ^ 16)).hostap = false ∨ s.engdies.testBit (a 0 / 4) = false) then refused s
      else done (s.setEndpoint (a 0) { sdom := a 1 % 2 ^ 16, v := decide (2 ^ 16 ≤ a 1), epd := w 2, noticed := 0, work := (s.endpoint (a 0)).work }))) ∧
  (a 0 < 8 → a 1 = 0 → a 2 < 256 → Mail s (.setcarveTarget c) c 0x30 3 .owner (fun s =>
    let d := s.die (a 0)
    let s1 := if 128 < a 2 ∨ d.busy = true then s.setDie (a 0) { d with refused := true }
      else s.setDie (a 0) { d with target := a 2, refused := false, busy := d.count != a 2 }
    (s1, (if 128 < a 2 ∨ d.busy = true then 3 else 0), toBytes 8 (s1.carveWord (a 0)).toNat))) ∧
  (a 0 < 8 → a 1 = 1 → a 2 < 2 ^ 32 → a 2 % 2 ^ 16 < 128 → (a 2 / 2 ^ 16 < 1024 ∨ a 2 / 2 ^ 16 = 0xFFFF) →
    Mail s (.setcarveCarvedom c) c 0x30 3 .owner (fun s =>
      let s1 := s.writeCarvedom (a 0) (a 2 % 2 ^ 16) (a 2 / 2 ^ 16)
      (s1, 0, toBytes 8 (s1.carveWord (a 0)).toNat))) ∧
  (a 0 < 2048 → a 1 < 32 → (a 2 < 1024 ∨ a 2 = 0xFFFF) → Mail s (.setspdom c) c 0x31 3 .owner (fun s => done (s.writeSpdom (a 0) (a 1) (a 2)))) ∧
  (a 0 ≤ 8 → (a 0 = 8 ∨ a 1 ≤ 32) → (a 2 < 1024 ∨ a 2 = 0xFFFF) → Mail s (.setsoldom c) c 0x32 3 .owner (fun s =>
    done (s.setSoldom (if a 0 = 8 then 544 else a 0 * 64 + a 1) (a 2)))) ∧
  (a 0 % 8192 = 0 → Mail s (.setgtbase c) c 0x33 1 .owner (fun s => done { s with gtbase := w 0 })) ∧
  (a 0 < 8 → Mail s (.setcoreoff c) c 0x34 5 .owner (fun s =>
    let s1 := s.turnOff ((List.range 4).flatMap (fun j => offCores (a 0) j (w (j + 1))))
    (s1, 0, ((List.range 4).map (s1.encoresWord (a 0))).flatMap wordBytes))) ∧
  (a 1 = 0 → a 3 = 0 → mgmt (.setmgmtHalted c) 0 (fun s => if s.fatal then refused s else done { s with halted := false })) ∧
  (1000 ≤ a 1 → a 1 ≤ 1000000 → a 3 = 0 → mgmt (.setmgmtReqto c) 1 (fun s => done { s with reqto := a 1 })) ∧
  (10000 ≤ a 1 → a 1 < 2 ^ 32 → a 3 = 0 → mgmt (.setmgmtHostto c) 2 (fun s => done { s with hostto := a 1 })) ∧
  (a 1 = 0 → a 2 < 8 → a 3 ≤ 10 → mgmt (.setmgmtErrorCounter c) 3 (fun s =>
    done (s.setDie (a 2) { s.die (a 2) with errs := Sparse.set 0 (s.die (a 2)).errs (a 3) 0 }))) ∧
  (a 1 = 0 → a 2 < 64 → a 3 = 0 → mgmt (.setmgmtHold c) 4 (fun s =>
    done { s with mclog := s.mclog.map (fun e => if e.1 = a 2 then (e.1, { e.2 with hold := false }) else e) })) ∧
  (c.cmd ∉ mailCodes → s.stage = .running → exec (.mailboxUnknownCommand c) s = .next (sc.respond 4 c.seq [])) ∧
  (s.signerKey c.signer = some k → c.seq ≤ s.signerSeq c.signer →
    i ∈ [Instr.setfeat c, .mkdom c, .rmdom c, .setroot c, .setaper c, .setqueue c, .setedt c, .setfdt c, .setep c, .setcarveTarget c, .setcarveCarvedom c,
      .setspdom c, .setsoldom c, .setgtbase c, .setcoreoff c, .setmgmtHalted c, .setmgmtReqto c, .setmgmtHostto c, .setmgmtErrorCounter c, .setmgmtHold c] →
    ∃ b l v, exec i s = .next { s with response := b, command := l, serving := v })

/-- 19 R435, R437, R438, R441, R442, R434: host and Ethernet. An access an aperture does not admit is counted and reads as all ones; an admitted
one reads or writes its domain's bytes; one whose link has failed, or whose place is held, is made again. The management window takes
firmware's writes alone, and none of REQTO and HOSTTO once the package runs; an endpoint notices TAIL, takes the work entry at HEAD, and ends
it; an inbound access its key table refuses touches nothing, and one admitted that waits is judged no more. The model's choices here: an
access that waits stays the next of the outside (log 4), and so the agents' die (log 35), the order in which a status is found (log 36), and
that an access of any length is one step (log 98). -/
def Obligations.HostSteps : Prop := ∀ (s s1 : State) (n off len k : Nat) (bs got : List Byte) (v : Word) (d : Epd) (ws : List Word) (e : EthWork) (x : Inbound)
    (host : Bool),
  s.stage = .running →
  let va := (s.aper n 0).toNat + off
  let ep := s.endpoint k
  let taken := ep.work ++ [{ index := d.head, words := ws, sdom := ep.sdom, epd := ep.epd.toNat }]
  let refused := { s with hostErr := (s.hostErr + 1) % 2 ^ 64 }
  let again := { s with waitsIn := true }
  let inb := s.endpoint x.ep
  (hostAligned off len = true →
    (s.hostCut = true → exec (.hostApertureRead n off len) s = .next again) ∧
    (s.hostCut = false →
      (s.aperAdmits n off false = false → exec (.hostApertureRead n off len) s = .next { refused with hostData := List.replicate len 0xFF }) ∧
      (s.aperAdmits n off false = true → s.hostRead (s.aperDom n) va len = .waits → exec (.hostApertureRead n off len) s = .next again) ∧
      (s.aperAdmits n off false = true → s.hostRead (s.aperDom n) va len = .done s1 bs →
        exec (.hostApertureRead n off len) s = .next { s1 with hostData := bs }))) ∧
  (hostAligned off bs.length = true →
    (s.hostCut = true → exec (.hostApertureWrite n off bs) s = .next again) ∧
    (s.hostCut = false →
      (s.aperAdmits n off true = false → exec (.hostApertureWrite n off bs) s = .next refused) ∧
      (s.aperAdmits n off true = true → s.hostPoisoned (s.aperDom n) va bs.length = true → exec (.hostApertureWrite n off bs) s = .next refused) ∧
      (s.aperAdmits n off true = true → s.hostPoisoned (s.aperDom n) va bs.length = false →
        (s.hostWrite (s.aperDom n) va bs = .done s1 [] → exec (.hostApertureWrite n off bs) s = .next s1) ∧
        (s.hostWrite (s.aperDom n) va bs = .waits → exec (.hostApertureWrite n off bs) s = .next again)))) ∧
  (host = true → exec (.managementWindowWrite { off := off, val := v, fromHost := host }) s = .next s) ∧
  (∀ o ∈ [0x208, 0x210], exec (.managementWindowWrite { off := o, val := v, fromHost := host }) s = .next s) ∧
  (s.hostSees off = if 0x8000 ≤ off ∧ off < 0x10000 then s.mailboxByte (off - 0x8000)
    else if 0x10300 ≤ off ∧ off < 0x10340 then (toBytes 8 (s.pkgRead (off - 0x10000 - off % 8)).toNat).getD (off % 8) 0 else 0) ∧
  (ep.v = true → s.epdWaits ep = false → s.readEpd ep = .ok d → d.err = 0 →
    ∀ i ∈ [Instr.ethernetTailNotice k, .ethernetPoll k], exec i s = .next (s.setEndpoint k { ep with noticed := d.tail })) ∧
  (ep.v = false ∨ s.epdWaits ep = true → ∀ i ∈ [Instr.ethernetTailNotice k, .ethernetPoll k], exec i s = .next s) ∧
  (s.nextWork k = some (d, ws) →
    (ws.getD 0 0 ≠ 2 → ∃ s', exec (.ethernetPut k) s = .next s' ∧ (s'.endpoint k).work = taken ∧ exec (.ethernetGet k) s = .next s) ∧
    (ws.getD 0 0 = 2 → ∃ s', exec (.ethernetGet k) s = .next s' ∧ (s'.endpoint k).work = taken ∧ exec (.ethernetPut k) s = .next s)) ∧
  (ep.work = [e] → e.ok = true → e.word 6 = 0 →
    (e.word 0 = 1 → s.hostRead e.sdom (e.word 1) (e.word 2) = .done s1 got →
      exec (.ethernetCompletion k 1) s = .next (s1.setEndpoint k { s1.endpoint k with work := [] })) ∧
    (e.word 0 = 1 → s.hostRead e.sdom (e.word 1) (e.word 2) = .waits → exec (.ethernetCompletion k 1) s = .next again) ∧
    (∃ s', exec (.ethernetTransportTimeout k) s = .next s' ∧ (s'.endpoint k).work = [])) ∧
  (inb.v = false ∨ s.epdWaits inb = false ∧ s.admitted = false ∧ s.inboundOk inb x = false → exec (.ethernetInboundAccess x) s = .next s) ∧
  (inb.v = true → s.epdWaits inb = true → exec (.ethernetInboundAccess x) s = .next again) ∧
  (s.admitted = true ∨ s.inboundOk inb x = true → inb.v = true → s.epdWaits inb = false →
    let held := exec (.ethernetInboundAccess x) s = .next { again with admitted := true }
    (x.data = some bs → s.hostWrite inb.sdom x.addr bs = .waits → held) ∧
    (x.data = some bs → s.hostWrite inb.sdom x.addr bs = .done s1 [] →
      exec (.ethernetInboundAccess x) s = .next { s1 with admitted := false }) ∧
    (x.data = none → s.hostRead inb.sdom x.addr x.len = .waits → held) ∧
    (x.data = none → s.hostRead inb.sdom x.addr x.len = .done s1 bs →
      exec (.ethernetInboundAccess x) s = .next { s1 with hostData := bs, admitted := false }))

/-- 19 R427, R428, R431; 11 R248; 15 R345: a packet is two header words and its payload. It arrives where a working path joins its ends, and
stays in flight without one. At a home whose line no other die holds, a request is performed at once and answered; one that takes a
reply-cache entry waits for a credit of its pair, behind those that wait already; a retry of a performed one is answered without effect, and of
the numbers of a pair those half the range back are forgotten; a holder answers INV and RCL; replies are consumed; a packet whose payload does
not fit its code is discarded and counted where it arrives. The model's choices here: nothing within the package sends the requests of threads,
and a reply to one changes nothing (log 5); the place that P names, and that nothing is written where the domain may use no byte (log 16);
where the operand words of THR and DMV stand, and the answer to a request that makes no entry (log 37); the status in the answer to a retry of
THR (log 114). -/
def Obligations.PacketArrivals : Prop := ∀ (s : State) (p : Packet),
  let s0 := s.took p
  let pa := pktPa p
  let d := s.dir (dirKey p)
  let key := p.src * 16 + p.dst
  let reply := fun (op : Nat) (l : List Word) => ({ src := p.dst, dst := p.src, op := op, sdom := p.sdom, seq := p.seq, p := p.p, payload := l } : Packet)
  let sent := fun (r : Packet) => { s0 with net := s0.net ++ [r] }
  let turn := { s0 with credq := s0.credq.erase (key, .packet p.seq) }
  let old := (Sparse.get [] s.performed key).filter (fun m => decide ((p.seq + 2 ^ 32 - m) % 2 ^ 32 < 2 ^ 31) ||
    decide ((m + 2 ^ 32 - p.seq) % 2 ^ 32 < 2 ^ 30))
  let done := fun (s1 : State) (r : Packet) => { s1 with net := s1.net ++ [r], performed := Sparse.set [] s1.performed key (SSet.add old p.seq) }
  let cached := fun (s1 : State) (r : Packet) => let s2 := done s1 r; { s2 with replies := s2.replies ++ [r] }
  let line := s.dataWords p.sdom pa 16
  let ctl := pktW p 0
  let arg := pktW p 1
  let hpa := physAddr hostUnit p.p
  let credit := s0.creditFor p.src p.dst (.packet p.seq) = true
  let waits := { s0.awaitCredit p.src p.dst (.packet p.seq) with net := s0.net ++ [p] }
  let swap := fun (a v : Nat) => cached ((turn.writeAs p.sdom a (toBytes 8 v)).noteOperand a 8) (reply 0x85 [BitVec.ofNat 64 (s.numAs p.sdom a 8)])
  let clean := fun (a : Nat) => s.poisonedIn (a - a % 8) 8 = none
  let kept := cached turn (reply 0x85 [BitVec.ofNat 64 (s.numAs p.sdom pa 8)])
  let swaps := fun (w : Nat) => w / 2 ^ 8 % 4 = 0 ∧ w / 2 ^ 4 % 16 = 8 ∧ w / 2 ^ 2 % 4 = 3
  let may := s.placeAdmits p.sdom pa = true
  let fresh := s.seenSeq p = false
  let free := fresh ∧ d.req = none ∧ d.owner = none ∧ d.sharers = []
  let si := s0.invalidateOn p.dst arg (s0.tlbExtents arg allExtent)
  let ends := si.invalidatedOn p.dst arg (s0.tlbExtents arg allExtent)
  let requests := [(Instr.rds p, 0x01), (.rdx p, 0x02), (.rdu p, 0x03), (.wbl p, 0x04), (.wrm p, 0x05), (.atm p, 0x06), (.feo p, 0x07)]
  let others := [(Instr.ctx p, 0x0A), (.thrPacket p, 0x0B), (.dmv p, 0x0C), (.invt p, 0x0D), (.hst p, 0x0E), (.mgt p, 0x0F)]
  (p.src < 16 → p.dst < 16 → p.op < 2 ^ 8 → p.sdom < 2 ^ 16 → p.seq < 2 ^ 32 → p.p < 2 ^ 52 → p.payload.length < 32 → ofWire (wireOf p) = some p) ∧
  (free → Arrives s (.rds p) 0x01 p (done (turn.setDir (dirKey p) { d with sharers := [p.src] }) (reply 0x81 line)) ∧
    Arrives s (.rdx p) 0x02 p (done (turn.setDir (dirKey p) { d with owner := some p.src }) (reply 0x81 line)) ∧
    Arrives s (.rdu p) 0x03 p (done turn (reply 0x81 line)) ∧
    (s.stage = .running → p.op = 0x04 → wordsMatch p = true → s.linked p.src p.dst = true → s.unwatched → s.threads = [] → ∃ s', exec (.wbl p) s = .next s' ∧
      s'.net = s0.net ++ [reply 0x82 []] ∧ s'.threads = [] ∧ s'.dir (dirKey p) = d) ∧
    (s.threads = [] → s.unwatched → Arrives s (.wrm p) 0x05 p (done (turn.maskedWrite p.sdom pa ctl ((p.payload.drop 1).take (p.payload.length - 2))
      (pktW p (p.payload.length - 1))) (reply 0x82 []))) ∧
    (credit → clean pa → s.threads = [] → s.unwatched → swaps ctl →
      (may → Arrives s (.atm p) 0x06 p (swap pa (pktW p 1))) ∧ (¬ may → Arrives s (.atm p) 0x06 p kept)) ∧
    (¬ credit → Arrives s (.atm p) 0x06 p waits ∧ Arrives s (.feo p) 0x07 p waits) ∧
    (credit → may → ctl % 4 = 0 → s.isFull pa = true → s.poisonedIn pa 8 = none → s.deferrals = [] →
      Arrives s (.feo p) 0x07 p (cached (turn.setFull pa false) (reply 0x81 (s.dataWords p.sdom pa 1)))) ∧
    (credit → ¬ may ∨ ctl % 4 = 2 ∧ s.isFull pa = true →
      Arrives s (.feo p) 0x07 p { turn with net := turn.net ++ [reply 0x83 [3]] })) ∧
  (fresh → d.req ≠ none → ∀ r ∈ requests, Arrives s r.1 r.2 p (sent p)) ∧
  (¬ fresh → ∀ r ∈ requests ++ others, Arrives s r.1 r.2 p (sent (s0.retryReply p))) ∧
  Arrives s (.inv p) 0x08 p (sent (reply 0x86 [])) ∧
  (s.lineAt pa = none → Arrives s (.rcl p) 0x09 p (sent (reply 0x86 []))) ∧
  (fresh → s.threads = [] → s.unwatched → Arrives s (.ctx p) 0x0A p (done (s0.maskedWrite p.sdom pa ctl
    ((p.payload.drop 1).take (p.payload.length - 2)) (pktW p (p.payload.length - 1))) (reply 0x82 []))) ∧
  (fresh → s0.lineAt pa = none → s0.droppedAt pa = none →
    (ctl = 3 → Arrives s (.thrPacket p) 0x0B p (done s0 (reply 0x87 [0]))) ∧
    (ctl = 1 ∨ ctl = 4 ∨ ctl = 5 → Arrives s (.thrPacket p) 0x0B p (done s0 (reply 0x87 [1])))) ∧
  (fresh → ctl = 2 → s0.taskArrives p = false → Arrives s (.thrPacket p) 0x0B p (sent p)) ∧
  (fresh → s.stage = .running → p.op = 0x0C → wordsMatch p = true → s.linked p.src p.dst = true → ∃ s', exec (.dmv p) s = .next s' ∧ s'.net = s0.net ++ [reply 0x82 []] ∧
    ∀ e ∈ s.deferrals ++ movedEntries p (Config.free 26 s.draws), s.isFull e.pa = false → e ∈ s'.deferrals) ∧
  (fresh → ctl = 0 → pktW p 3 = 0 → (ends = true → Arrives s (.invt p) 0x0D p (done si (reply 0x86 []))) ∧
    (ends = false → Arrives s (.invt p) 0x0D p { si with net := si.net ++ [p] }) ∧
    ∀ c, dieOf c = p.dst → ∀ e ∈ (si.core c).tlb, e.sdom ≠ arg ∨ meetsAny (s0.tlbExtents arg allExtent) (e.base, e.size) = false) ∧
  (fresh → p.p < 2 ^ 48 → (s.linked p.dst 12 = false → Arrives s (.hst p) 0x0E p (sent p)) ∧
    (s.linked p.dst 12 = true → (ctl = 1 → Arrives s (.hst p) 0x0E p (done s0 (reply 0x81 (s.dataWords p.sdom (hpa - hpa % 128) 16)))) ∧
      (ctl = 3 → ¬ credit → Arrives s (.hst p) 0x0E p waits) ∧
      (ctl = 3 → credit → clean hpa → s.threads = [] → s.unwatched → swaps arg → Arrives s (.hst p) 0x0E p (swap hpa (pktW p 2))))) ∧
  (fresh → 2 ^ 48 ≤ p.p → Arrives s (.hst p) 0x0E p s0) ∧
  (fresh → (ctl = 0 → Arrives s (.mgt p) 0x0F p (done s0 (reply 0x81 [s0.windowRead p.p, 0]))) ∧
    (ctl ≠ 0 → Arrives s (.mgt p) 0x0F p (done (s0.windowWrite p.p (p.payload.getD 1 0)) (reply 0x82 [])))) ∧
  (∀ r ∈ [(Instr.ack p, 0x82), (.nack p, 0x83), (.defer p, 0x84), (.old p, 0x85), (.stat p, 0x87)], Arrives s r.1 r.2 p s0) ∧
  (p.src ∉ d.waits → Arrives s (.data p) 0x81 p s0 ∧ Arrives s (.iack p) 0x86 p s0) ∧
  (d.waits = [p.src, p.dst] → p.src ≠ p.dst → Arrives s (.iack p) 0x86 p (s0.setDir (dirKey p) { d with
    waits := [p.dst], sharers := SSet.del d.sharers p.src, owner := if d.owner = some p.src then none else d.owner })) ∧
  (s.stage = .running → p.op = 0x8F → wordsMatch p = true → s.linked p.src p.dst = true → ∃ s', exec (.cack p) s = .next s' ∧ s' = { s0 with replies := s'.replies } ∧
    ∀ r, r ∈ s'.replies ↔ r ∈ s.replies ∧ ¬(r.dst = p.src ∧ r.src = p.dst ∧ (p.seq + 2 ^ 32 - r.seq) % 2 ^ 32 < 2 ^ 31)) ∧
  (s.stage = .running → s.linked p.src p.dst = false → ∀ r ∈ requests, exec r.1 s = .next s) ∧
  (s.stage = .running → s.linked p.src p.dst = true → wordsMatch p = false → ∀ r ∈ requests ++ [(.unassignedOpPacket p, p.op)], p.op = r.2 →
    exec r.1 s = .next (s0.countErr p.dst 3))
end

