-- ==== Sys2Proof/Laws/Sparse.lean ====
section
/-! SUPPORT. Sparse tables: reading after writing, and that every operation keeps the canonical form. -/
namespace Sys2Proof.Laws
open Sys2Proof.Machine

variable {α : Type} [DecidableEq α] {d : α}

/-- No key of the list is at or below k. -/
def Above (k : Nat) (l : List (Nat × α)) : Prop := ∀ x ∈ l, k < x.1

theorem canon_cons {k : Nat} {v : α} {l : List (Nat × α)} :
    Sparse.canon d ((k, v) :: l) = true ↔ v ≠ d ∧ Above k l ∧ Sparse.canon d l = true := by
  induction l generalizing k v with
  | nil => simp [Sparse.canon, Above]
  | cons x l ih =>
    obtain ⟨j, w⟩ := x
    simp only [Sparse.canon, Bool.and_eq_true, decide_eq_true_eq, Above, List.mem_cons, forall_eq_or_imp]
    constructor
    · rintro ⟨⟨h1, h2⟩, h3⟩
      exact ⟨h2, ⟨h1, fun x hx => Nat.lt_trans h1 ((ih.1 h3).2.1 x hx)⟩, h3⟩
    · rintro ⟨h1, ⟨h2, _⟩, h3⟩
      exact ⟨⟨h2, h1⟩, h3⟩

omit [DecidableEq α] in
theorem above_put {j k : Nat} {v : α} {l : List (Nat × α)} (h : Above j l) (hk : j < k) : Above j (Sparse.put l k v) := by
  induction l with
  | nil => simpa [Sparse.put, Above] using hk
  | cons x l ih =>
    obtain ⟨i, w⟩ := x
    have hi : j < i := h _ (List.mem_cons_self ..)
    have hl : Above j l := fun x hx => h x (List.mem_cons_of_mem _ hx)
    have hp := ih hl
    simp only [Sparse.put]
    split
    · intro x hx
      rcases List.mem_cons.1 hx with rfl | hx
      · exact hk
      · exact h x hx
    · split
      · intro x hx
        rcases List.mem_cons.1 hx with rfl | hx
        · exact hk
        · exact hl x hx
      · intro x hx
        rcases List.mem_cons.1 hx with rfl | hx
        · exact hi
        · exact hp x hx

omit [DecidableEq α] in
theorem above_drop {j k : Nat} {l : List (Nat × α)} (h : Above j l) : Above j (Sparse.drop l k) := by
  induction l with
  | nil => exact h
  | cons x l ih =>
    obtain ⟨i, w⟩ := x
    have hi : j < i := h _ (List.mem_cons_self ..)
    have hl : Above j l := fun x hx => h x (List.mem_cons_of_mem _ hx)
    simp only [Sparse.drop]
    split
    · exact ih hl
    · intro x hx
      rcases List.mem_cons.1 hx with rfl | hx
      · exact hi
      · exact ih hl x hx

theorem canon_put {k : Nat} {v : α} {l : List (Nat × α)} (h : Sparse.canon d l = true) (hv : v ≠ d) :
    Sparse.canon d (Sparse.put l k v) = true := by
  induction l with
  | nil => simpa [Sparse.put, Sparse.canon] using hv
  | cons x l ih =>
    obtain ⟨j, w⟩ := x
    obtain ⟨hw, ha, hc⟩ := canon_cons.1 h
    simp only [Sparse.put]
    split
    · rename_i hlt
      refine canon_cons.2 ⟨hv, ?_, h⟩
      intro x hx
      rcases List.mem_cons.1 hx with rfl | hx
      · exact hlt
      · exact Nat.lt_trans hlt (ha x hx)
    · split
      · rename_i _ he
        subst he
        exact canon_cons.2 ⟨hv, ha, hc⟩
      · exact canon_cons.2 ⟨hw, above_put ha (by omega), ih hc⟩

theorem canon_drop {k : Nat} {l : List (Nat × α)} (h : Sparse.canon d l = true) :
    Sparse.canon d (Sparse.drop l k) = true := by
  induction l with
  | nil => exact h
  | cons x l ih =>
    obtain ⟨j, w⟩ := x
    obtain ⟨hw, ha, hc⟩ := canon_cons.1 h
    simp only [Sparse.drop]
    split
    · exact ih hc
    · exact canon_cons.2 ⟨hw, above_drop ha, ih hc⟩

/-- Setting a key keeps the canonical form. -/
theorem canon_set {k : Nat} {v : α} {l : List (Nat × α)} (h : Sparse.canon d l = true) :
    Sparse.canon d (Sparse.set d l k v) = true := by
  unfold Sparse.set
  split
  · exact canon_drop h
  · exact canon_put h ‹_›

/-- Keeping some of the entries keeps the canonical form. -/
theorem canon_filter {p : Nat × α → Bool} {l : List (Nat × α)} (h : Sparse.canon d l = true) :
    Sparse.canon d (l.filter p) = true := by
  induction l with
  | nil => exact h
  | cons x l ih =>
    obtain ⟨j, w⟩ := x
    obtain ⟨hw, ha, hc⟩ := canon_cons.1 h
    simp only [List.filter_cons]
    split
    · exact canon_cons.2 ⟨hw, fun x hx => ha x (List.mem_of_mem_filter hx), ih hc⟩
    · exact ih hc

omit [DecidableEq α] in
theorem get_put {k j : Nat} {v : α} (l : List (Nat × α)) :
    Sparse.get d (Sparse.put l k v) j = if j = k then v else Sparse.get d l j := by
  induction l with
  | nil => simp only [Sparse.put, Sparse.get]; grind
  | cons x l ih =>
    obtain ⟨i, w⟩ := x
    simp only [Sparse.put]
    split
    · simp only [Sparse.get]; grind
    · split <;> simp only [Sparse.get] <;> grind

omit [DecidableEq α] in
theorem get_drop {k j : Nat} (l : List (Nat × α)) :
    Sparse.get d (Sparse.drop l k) j = if j = k then d else Sparse.get d l j := by
  induction l with
  | nil => simp [Sparse.drop, Sparse.get]
  | cons x l ih =>
    obtain ⟨i, w⟩ := x
    simp only [Sparse.drop]
    split <;> simp only [Sparse.get] <;> grind

/-- Reading after setting. -/
theorem get_set {k j : Nat} {v : α} (l : List (Nat × α)) :
    Sparse.get d (Sparse.set d l k v) j = if j = k then v else Sparse.get d l j := by
  unfold Sparse.set
  split
  · rw [get_drop]; simp_all
  · exact get_put l

end Sys2Proof.Laws
end

