-- ==== Sys2Proof/Laws/State.lean ====
section
/-! SUPPORT. What the updates of the state and of a thread leave alone: one lemma per field and update, each true by
computation. -/
namespace Sys2Proof.Laws
open Sys2Proof.Machine

/-! `State.put` changes threads alone. -/
@[simp] theorem put_stage (s : State) (t : Thread) : (s.put t).stage = s.stage := rfl
@[simp] theorem put_tick (s : State) (t : Thread) : (s.put t).tick = s.tick := rfl
@[simp] theorem put_cores (s : State) (t : Thread) : (s.put t).cores = s.cores := rfl
@[simp] theorem put_dies (s : State) (t : Thread) : (s.put t).dies = s.dies := rfl
@[simp] theorem put_domains (s : State) (t : Thread) : (s.put t).domains = s.domains := rfl
@[simp] theorem put_mem (s : State) (t : Thread) : (s.put t).mem = s.mem := rfl
@[simp] theorem put_feEmpty (s : State) (t : Thread) : (s.put t).feEmpty = s.feEmpty := rfl
@[simp] theorem put_poison (s : State) (t : Thread) : (s.put t).poison = s.poison := rfl
@[simp] theorem put_lineKey (s : State) (t : Thread) : (s.put t).lineKey = s.lineKey := rfl
@[simp] theorem put_endies (s : State) (t : Thread) : (s.put t).endies = s.endies := rfl
@[simp] theorem put_engdies (s : State) (t : Thread) : (s.put t).engdies = s.engdies := rfl
@[simp] theorem put_enstacks (s : State) (t : Thread) : (s.put t).enstacks = s.enstacks := rfl
@[simp] theorem put_encores (s : State) (t : Thread) : (s.put t).encores = s.encores := rfl
@[simp] theorem put_retiring (s : State) (t : Thread) : (s.put t).retiring = s.retiring := rfl
@[simp] theorem put_featen (s : State) (t : Thread) : (s.put t).featen = s.featen := rfl
@[simp] theorem put_halted (s : State) (t : Thread) : (s.put t).halted = s.halted := rfl
@[simp] theorem put_reqto (s : State) (t : Thread) : (s.put t).reqto = s.reqto := rfl
@[simp] theorem put_hostto (s : State) (t : Thread) : (s.put t).hostto = s.hostto := rfl
@[simp] theorem put_mclogcnt (s : State) (t : Thread) : (s.put t).mclogcnt = s.mclogcnt := rfl
@[simp] theorem put_mclog (s : State) (t : Thread) : (s.put t).mclog = s.mclog := rfl
@[simp] theorem put_gtbase (s : State) (t : Thread) : (s.put t).gtbase = s.gtbase := rfl
@[simp] theorem put_fdt (s : State) (t : Thread) : (s.put t).fdt = s.fdt := rfl
@[simp] theorem put_queues (s : State) (t : Thread) : (s.put t).queues = s.queues := rfl
@[simp] theorem put_launches (s : State) (t : Thread) : (s.put t).launches = s.launches := rfl
@[simp] theorem put_takeTurn (s : State) (t : Thread) : (s.put t).takeTurn = s.takeTurn := rfl
@[simp] theorem put_gangs (s : State) (t : Thread) : (s.put t).gangs = s.gangs := rfl
@[simp] theorem put_deferrals (s : State) (t : Thread) : (s.put t).deferrals = s.deferrals := rfl
@[simp] theorem put_early (s : State) (t : Thread) : (s.put t).early = s.early := rfl
@[simp] theorem put_credq (s : State) (t : Thread) : (s.put t).credq = s.credq := rfl
@[simp] theorem put_lateRecs (s : State) (t : Thread) : (s.put t).lateRecs = s.lateRecs := rfl
@[simp] theorem put_ended (s : State) (t : Thread) : (s.put t).ended = s.ended := rfl
@[simp] theorem put_orphans (s : State) (t : Thread) : (s.put t).orphans = s.orphans := rfl
@[simp] theorem put_devq (s : State) (t : Thread) : (s.put t).devq = s.devq := rfl
@[simp] theorem put_tookLaunch (s : State) (t : Thread) : (s.put t).tookLaunch = s.tookLaunch := rfl
@[simp] theorem put_killMsgs (s : State) (t : Thread) : (s.put t).killMsgs = s.killMsgs := rfl
@[simp] theorem put_held (s : State) (t : Thread) : (s.put t).held = s.held := rfl
@[simp] theorem put_resReserved (s : State) (t : Thread) : (s.put t).resReserved = s.resReserved := rfl
@[simp] theorem put_edt (s : State) (t : Thread) : (s.put t).edt = s.edt := rfl
@[simp] theorem put_apertures (s : State) (t : Thread) : (s.put t).apertures = s.apertures := rfl
@[simp] theorem put_hostErr (s : State) (t : Thread) : (s.put t).hostErr = s.hostErr := rfl
@[simp] theorem put_hostData (s : State) (t : Thread) : (s.put t).hostData = s.hostData := rfl
@[simp] theorem put_endpoints (s : State) (t : Thread) : (s.put t).endpoints = s.endpoints := rfl
@[simp] theorem put_solstice (s : State) (t : Thread) : (s.put t).solstice = s.solstice := rfl
@[simp] theorem put_arrivals (s : State) (t : Thread) : (s.put t).arrivals = s.arrivals := rfl
@[simp] theorem put_ends (s : State) (t : Thread) : (s.put t).ends = s.ends := rfl
@[simp] theorem put_command (s : State) (t : Thread) : (s.put t).command = s.command := rfl
@[simp] theorem put_serving (s : State) (t : Thread) : (s.put t).serving = s.serving := rfl
@[simp] theorem put_response (s : State) (t : Thread) : (s.put t).response = s.response := rfl
@[simp] theorem put_ownkey (s : State) (t : Thread) : (s.put t).ownkey = s.ownkey := rfl
@[simp] theorem put_ownseq (s : State) (t : Thread) : (s.put t).ownseq = s.ownseq := rfl
@[simp] theorem put_silicon (s : State) (t : Thread) : (s.put t).silicon = s.silicon := rfl
@[simp] theorem put_trusted (s : State) (t : Thread) : (s.put t).trusted = s.trusted := rfl
@[simp] theorem put_linkDown (s : State) (t : Thread) : (s.put t).linkDown = s.linkDown := rfl
@[simp] theorem put_retraining (s : State) (t : Thread) : (s.put t).retraining = s.retraining := rfl
@[simp] theorem put_fatal (s : State) (t : Thread) : (s.put t).fatal = s.fatal := rfl
@[simp] theorem put_sharersLost (s : State) (t : Thread) : (s.put t).sharersLost = s.sharersLost := rfl
@[simp] theorem put_net (s : State) (t : Thread) : (s.put t).net = s.net := rfl
@[simp] theorem put_directory (s : State) (t : Thread) : (s.put t).directory = s.directory := rfl
@[simp] theorem put_performed (s : State) (t : Thread) : (s.put t).performed = s.performed := rfl
@[simp] theorem put_replies (s : State) (t : Thread) : (s.put t).replies = s.replies := rfl
@[simp] theorem put_seqs (s : State) (t : Thread) : (s.put t).seqs = s.seqs := rfl
@[simp] theorem put_nextLaunch (s : State) (t : Thread) : (s.put t).nextLaunch = s.nextLaunch := rfl
@[simp] theorem put_nextCmd (s : State) (t : Thread) : (s.put t).nextCmd = s.nextCmd := rfl
@[simp] theorem put_nextKey (s : State) (t : Thread) : (s.put t).nextKey = s.nextKey := rfl
@[simp] theorem put_issue (s : State) (t : Thread) : (s.put t).issue = s.issue := rfl
@[simp] theorem put_fetched (s : State) (t : Thread) : (s.put t).fetched = s.fetched := rfl
@[simp] theorem put_cur (s : State) (t : Thread) : (s.put t).cur = s.cur := rfl
@[simp] theorem put_inputs (s : State) (t : Thread) : (s.put t).inputs = s.inputs := rfl
@[simp] theorem put_waitsIn (s : State) (t : Thread) : (s.put t).waitsIn = s.waitsIn := rfl
@[simp] theorem put_admitted (s : State) (t : Thread) : (s.put t).admitted = s.admitted := rfl
@[simp] theorem put_draws (s : State) (t : Thread) : (s.put t).draws = s.draws := rfl

/-! `State.setCore` changes cores alone. -/
@[simp] theorem setCore_stage (s : State) (c : Nat) (x : Core) : (s.setCore c x).stage = s.stage := rfl
@[simp] theorem setCore_tick (s : State) (c : Nat) (x : Core) : (s.setCore c x).tick = s.tick := rfl
@[simp] theorem setCore_threads (s : State) (c : Nat) (x : Core) : (s.setCore c x).threads = s.threads := rfl
@[simp] theorem setCore_dies (s : State) (c : Nat) (x : Core) : (s.setCore c x).dies = s.dies := rfl
@[simp] theorem setCore_domains (s : State) (c : Nat) (x : Core) : (s.setCore c x).domains = s.domains := rfl
@[simp] theorem setCore_mem (s : State) (c : Nat) (x : Core) : (s.setCore c x).mem = s.mem := rfl
@[simp] theorem setCore_feEmpty (s : State) (c : Nat) (x : Core) : (s.setCore c x).feEmpty = s.feEmpty := rfl
@[simp] theorem setCore_poison (s : State) (c : Nat) (x : Core) : (s.setCore c x).poison = s.poison := rfl
@[simp] theorem setCore_lineKey (s : State) (c : Nat) (x : Core) : (s.setCore c x).lineKey = s.lineKey := rfl
@[simp] theorem setCore_endies (s : State) (c : Nat) (x : Core) : (s.setCore c x).endies = s.endies := rfl
@[simp] theorem setCore_engdies (s : State) (c : Nat) (x : Core) : (s.setCore c x).engdies = s.engdies := rfl
@[simp] theorem setCore_enstacks (s : State) (c : Nat) (x : Core) : (s.setCore c x).enstacks = s.enstacks := rfl
@[simp] theorem setCore_encores (s : State) (c : Nat) (x : Core) : (s.setCore c x).encores = s.encores := rfl
@[simp] theorem setCore_retiring (s : State) (c : Nat) (x : Core) : (s.setCore c x).retiring = s.retiring := rfl
@[simp] theorem setCore_featen (s : State) (c : Nat) (x : Core) : (s.setCore c x).featen = s.featen := rfl
@[simp] theorem setCore_halted (s : State) (c : Nat) (x : Core) : (s.setCore c x).halted = s.halted := rfl
@[simp] theorem setCore_reqto (s : State) (c : Nat) (x : Core) : (s.setCore c x).reqto = s.reqto := rfl
@[simp] theorem setCore_hostto (s : State) (c : Nat) (x : Core) : (s.setCore c x).hostto = s.hostto := rfl
@[simp] theorem setCore_mclogcnt (s : State) (c : Nat) (x : Core) : (s.setCore c x).mclogcnt = s.mclogcnt := rfl
@[simp] theorem setCore_mclog (s : State) (c : Nat) (x : Core) : (s.setCore c x).mclog = s.mclog := rfl
@[simp] theorem setCore_gtbase (s : State) (c : Nat) (x : Core) : (s.setCore c x).gtbase = s.gtbase := rfl
@[simp] theorem setCore_fdt (s : State) (c : Nat) (x : Core) : (s.setCore c x).fdt = s.fdt := rfl
@[simp] theorem setCore_queues (s : State) (c : Nat) (x : Core) : (s.setCore c x).queues = s.queues := rfl
@[simp] theorem setCore_launches (s : State) (c : Nat) (x : Core) : (s.setCore c x).launches = s.launches := rfl
@[simp] theorem setCore_takeTurn (s : State) (c : Nat) (x : Core) : (s.setCore c x).takeTurn = s.takeTurn := rfl
@[simp] theorem setCore_gangs (s : State) (c : Nat) (x : Core) : (s.setCore c x).gangs = s.gangs := rfl
@[simp] theorem setCore_deferrals (s : State) (c : Nat) (x : Core) : (s.setCore c x).deferrals = s.deferrals := rfl
@[simp] theorem setCore_early (s : State) (c : Nat) (x : Core) : (s.setCore c x).early = s.early := rfl
@[simp] theorem setCore_credq (s : State) (c : Nat) (x : Core) : (s.setCore c x).credq = s.credq := rfl
@[simp] theorem setCore_lateRecs (s : State) (c : Nat) (x : Core) : (s.setCore c x).lateRecs = s.lateRecs := rfl
@[simp] theorem setCore_ended (s : State) (c : Nat) (x : Core) : (s.setCore c x).ended = s.ended := rfl
@[simp] theorem setCore_orphans (s : State) (c : Nat) (x : Core) : (s.setCore c x).orphans = s.orphans := rfl
@[simp] theorem setCore_devq (s : State) (c : Nat) (x : Core) : (s.setCore c x).devq = s.devq := rfl
@[simp] theorem setCore_tookLaunch (s : State) (c : Nat) (x : Core) : (s.setCore c x).tookLaunch = s.tookLaunch := rfl
@[simp] theorem setCore_killMsgs (s : State) (c : Nat) (x : Core) : (s.setCore c x).killMsgs = s.killMsgs := rfl
@[simp] theorem setCore_held (s : State) (c : Nat) (x : Core) : (s.setCore c x).held = s.held := rfl
@[simp] theorem setCore_resReserved (s : State) (c : Nat) (x : Core) : (s.setCore c x).resReserved = s.resReserved := rfl
@[simp] theorem setCore_edt (s : State) (c : Nat) (x : Core) : (s.setCore c x).edt = s.edt := rfl
@[simp] theorem setCore_apertures (s : State) (c : Nat) (x : Core) : (s.setCore c x).apertures = s.apertures := rfl
@[simp] theorem setCore_hostErr (s : State) (c : Nat) (x : Core) : (s.setCore c x).hostErr = s.hostErr := rfl
@[simp] theorem setCore_hostData (s : State) (c : Nat) (x : Core) : (s.setCore c x).hostData = s.hostData := rfl
@[simp] theorem setCore_endpoints (s : State) (c : Nat) (x : Core) : (s.setCore c x).endpoints = s.endpoints := rfl
@[simp] theorem setCore_solstice (s : State) (c : Nat) (x : Core) : (s.setCore c x).solstice = s.solstice := rfl
@[simp] theorem setCore_arrivals (s : State) (c : Nat) (x : Core) : (s.setCore c x).arrivals = s.arrivals := rfl
@[simp] theorem setCore_ends (s : State) (c : Nat) (x : Core) : (s.setCore c x).ends = s.ends := rfl
@[simp] theorem setCore_command (s : State) (c : Nat) (x : Core) : (s.setCore c x).command = s.command := rfl
@[simp] theorem setCore_serving (s : State) (c : Nat) (x : Core) : (s.setCore c x).serving = s.serving := rfl
@[simp] theorem setCore_response (s : State) (c : Nat) (x : Core) : (s.setCore c x).response = s.response := rfl
@[simp] theorem setCore_ownkey (s : State) (c : Nat) (x : Core) : (s.setCore c x).ownkey = s.ownkey := rfl
@[simp] theorem setCore_ownseq (s : State) (c : Nat) (x : Core) : (s.setCore c x).ownseq = s.ownseq := rfl
@[simp] theorem setCore_silicon (s : State) (c : Nat) (x : Core) : (s.setCore c x).silicon = s.silicon := rfl
@[simp] theorem setCore_trusted (s : State) (c : Nat) (x : Core) : (s.setCore c x).trusted = s.trusted := rfl
@[simp] theorem setCore_linkDown (s : State) (c : Nat) (x : Core) : (s.setCore c x).linkDown = s.linkDown := rfl
@[simp] theorem setCore_retraining (s : State) (c : Nat) (x : Core) : (s.setCore c x).retraining = s.retraining := rfl
@[simp] theorem setCore_fatal (s : State) (c : Nat) (x : Core) : (s.setCore c x).fatal = s.fatal := rfl
@[simp] theorem setCore_sharersLost (s : State) (c : Nat) (x : Core) : (s.setCore c x).sharersLost = s.sharersLost := rfl
@[simp] theorem setCore_net (s : State) (c : Nat) (x : Core) : (s.setCore c x).net = s.net := rfl
@[simp] theorem setCore_directory (s : State) (c : Nat) (x : Core) : (s.setCore c x).directory = s.directory := rfl
@[simp] theorem setCore_performed (s : State) (c : Nat) (x : Core) : (s.setCore c x).performed = s.performed := rfl
@[simp] theorem setCore_replies (s : State) (c : Nat) (x : Core) : (s.setCore c x).replies = s.replies := rfl
@[simp] theorem setCore_seqs (s : State) (c : Nat) (x : Core) : (s.setCore c x).seqs = s.seqs := rfl
@[simp] theorem setCore_nextLaunch (s : State) (c : Nat) (x : Core) : (s.setCore c x).nextLaunch = s.nextLaunch := rfl
@[simp] theorem setCore_nextCmd (s : State) (c : Nat) (x : Core) : (s.setCore c x).nextCmd = s.nextCmd := rfl
@[simp] theorem setCore_nextKey (s : State) (c : Nat) (x : Core) : (s.setCore c x).nextKey = s.nextKey := rfl
@[simp] theorem setCore_issue (s : State) (c : Nat) (x : Core) : (s.setCore c x).issue = s.issue := rfl
@[simp] theorem setCore_fetched (s : State) (c : Nat) (x : Core) : (s.setCore c x).fetched = s.fetched := rfl
@[simp] theorem setCore_cur (s : State) (c : Nat) (x : Core) : (s.setCore c x).cur = s.cur := rfl
@[simp] theorem setCore_inputs (s : State) (c : Nat) (x : Core) : (s.setCore c x).inputs = s.inputs := rfl
@[simp] theorem setCore_waitsIn (s : State) (c : Nat) (x : Core) : (s.setCore c x).waitsIn = s.waitsIn := rfl
@[simp] theorem setCore_admitted (s : State) (c : Nat) (x : Core) : (s.setCore c x).admitted = s.admitted := rfl
@[simp] theorem setCore_draws (s : State) (c : Nat) (x : Core) : (s.setCore c x).draws = s.draws := rfl

/-! `State.setDie` changes dies alone. -/
@[simp] theorem setDie_stage (s : State) (d : Nat) (x : Die) : (s.setDie d x).stage = s.stage := rfl
@[simp] theorem setDie_tick (s : State) (d : Nat) (x : Die) : (s.setDie d x).tick = s.tick := rfl
@[simp] theorem setDie_threads (s : State) (d : Nat) (x : Die) : (s.setDie d x).threads = s.threads := rfl
@[simp] theorem setDie_cores (s : State) (d : Nat) (x : Die) : (s.setDie d x).cores = s.cores := rfl
@[simp] theorem setDie_domains (s : State) (d : Nat) (x : Die) : (s.setDie d x).domains = s.domains := rfl
@[simp] theorem setDie_mem (s : State) (d : Nat) (x : Die) : (s.setDie d x).mem = s.mem := rfl
@[simp] theorem setDie_feEmpty (s : State) (d : Nat) (x : Die) : (s.setDie d x).feEmpty = s.feEmpty := rfl
@[simp] theorem setDie_poison (s : State) (d : Nat) (x : Die) : (s.setDie d x).poison = s.poison := rfl
@[simp] theorem setDie_lineKey (s : State) (d : Nat) (x : Die) : (s.setDie d x).lineKey = s.lineKey := rfl
@[simp] theorem setDie_endies (s : State) (d : Nat) (x : Die) : (s.setDie d x).endies = s.endies := rfl
@[simp] theorem setDie_engdies (s : State) (d : Nat) (x : Die) : (s.setDie d x).engdies = s.engdies := rfl
@[simp] theorem setDie_enstacks (s : State) (d : Nat) (x : Die) : (s.setDie d x).enstacks = s.enstacks := rfl
@[simp] theorem setDie_encores (s : State) (d : Nat) (x : Die) : (s.setDie d x).encores = s.encores := rfl
@[simp] theorem setDie_retiring (s : State) (d : Nat) (x : Die) : (s.setDie d x).retiring = s.retiring := rfl
@[simp] theorem setDie_featen (s : State) (d : Nat) (x : Die) : (s.setDie d x).featen = s.featen := rfl
@[simp] theorem setDie_halted (s : State) (d : Nat) (x : Die) : (s.setDie d x).halted = s.halted := rfl
@[simp] theorem setDie_reqto (s : State) (d : Nat) (x : Die) : (s.setDie d x).reqto = s.reqto := rfl
@[simp] theorem setDie_hostto (s : State) (d : Nat) (x : Die) : (s.setDie d x).hostto = s.hostto := rfl
@[simp] theorem setDie_mclogcnt (s : State) (d : Nat) (x : Die) : (s.setDie d x).mclogcnt = s.mclogcnt := rfl
@[simp] theorem setDie_mclog (s : State) (d : Nat) (x : Die) : (s.setDie d x).mclog = s.mclog := rfl
@[simp] theorem setDie_gtbase (s : State) (d : Nat) (x : Die) : (s.setDie d x).gtbase = s.gtbase := rfl
@[simp] theorem setDie_fdt (s : State) (d : Nat) (x : Die) : (s.setDie d x).fdt = s.fdt := rfl
@[simp] theorem setDie_queues (s : State) (d : Nat) (x : Die) : (s.setDie d x).queues = s.queues := rfl
@[simp] theorem setDie_launches (s : State) (d : Nat) (x : Die) : (s.setDie d x).launches = s.launches := rfl
@[simp] theorem setDie_takeTurn (s : State) (d : Nat) (x : Die) : (s.setDie d x).takeTurn = s.takeTurn := rfl
@[simp] theorem setDie_gangs (s : State) (d : Nat) (x : Die) : (s.setDie d x).gangs = s.gangs := rfl
@[simp] theorem setDie_deferrals (s : State) (d : Nat) (x : Die) : (s.setDie d x).deferrals = s.deferrals := rfl
@[simp] theorem setDie_early (s : State) (d : Nat) (x : Die) : (s.setDie d x).early = s.early := rfl
@[simp] theorem setDie_credq (s : State) (d : Nat) (x : Die) : (s.setDie d x).credq = s.credq := rfl
@[simp] theorem setDie_lateRecs (s : State) (d : Nat) (x : Die) : (s.setDie d x).lateRecs = s.lateRecs := rfl
@[simp] theorem setDie_ended (s : State) (d : Nat) (x : Die) : (s.setDie d x).ended = s.ended := rfl
@[simp] theorem setDie_orphans (s : State) (d : Nat) (x : Die) : (s.setDie d x).orphans = s.orphans := rfl
@[simp] theorem setDie_devq (s : State) (d : Nat) (x : Die) : (s.setDie d x).devq = s.devq := rfl
@[simp] theorem setDie_tookLaunch (s : State) (d : Nat) (x : Die) : (s.setDie d x).tookLaunch = s.tookLaunch := rfl
@[simp] theorem setDie_killMsgs (s : State) (d : Nat) (x : Die) : (s.setDie d x).killMsgs = s.killMsgs := rfl
@[simp] theorem setDie_held (s : State) (d : Nat) (x : Die) : (s.setDie d x).held = s.held := rfl
@[simp] theorem setDie_resReserved (s : State) (d : Nat) (x : Die) : (s.setDie d x).resReserved = s.resReserved := rfl
@[simp] theorem setDie_edt (s : State) (d : Nat) (x : Die) : (s.setDie d x).edt = s.edt := rfl
@[simp] theorem setDie_apertures (s : State) (d : Nat) (x : Die) : (s.setDie d x).apertures = s.apertures := rfl
@[simp] theorem setDie_hostErr (s : State) (d : Nat) (x : Die) : (s.setDie d x).hostErr = s.hostErr := rfl
@[simp] theorem setDie_hostData (s : State) (d : Nat) (x : Die) : (s.setDie d x).hostData = s.hostData := rfl
@[simp] theorem setDie_endpoints (s : State) (d : Nat) (x : Die) : (s.setDie d x).endpoints = s.endpoints := rfl
@[simp] theorem setDie_solstice (s : State) (d : Nat) (x : Die) : (s.setDie d x).solstice = s.solstice := rfl
@[simp] theorem setDie_arrivals (s : State) (d : Nat) (x : Die) : (s.setDie d x).arrivals = s.arrivals := rfl
@[simp] theorem setDie_ends (s : State) (d : Nat) (x : Die) : (s.setDie d x).ends = s.ends := rfl
@[simp] theorem setDie_command (s : State) (d : Nat) (x : Die) : (s.setDie d x).command = s.command := rfl
@[simp] theorem setDie_serving (s : State) (d : Nat) (x : Die) : (s.setDie d x).serving = s.serving := rfl
@[simp] theorem setDie_response (s : State) (d : Nat) (x : Die) : (s.setDie d x).response = s.response := rfl
@[simp] theorem setDie_ownkey (s : State) (d : Nat) (x : Die) : (s.setDie d x).ownkey = s.ownkey := rfl
@[simp] theorem setDie_ownseq (s : State) (d : Nat) (x : Die) : (s.setDie d x).ownseq = s.ownseq := rfl
@[simp] theorem setDie_silicon (s : State) (d : Nat) (x : Die) : (s.setDie d x).silicon = s.silicon := rfl
@[simp] theorem setDie_trusted (s : State) (d : Nat) (x : Die) : (s.setDie d x).trusted = s.trusted := rfl
@[simp] theorem setDie_linkDown (s : State) (d : Nat) (x : Die) : (s.setDie d x).linkDown = s.linkDown := rfl
@[simp] theorem setDie_retraining (s : State) (d : Nat) (x : Die) : (s.setDie d x).retraining = s.retraining := rfl
@[simp] theorem setDie_fatal (s : State) (d : Nat) (x : Die) : (s.setDie d x).fatal = s.fatal := rfl
@[simp] theorem setDie_sharersLost (s : State) (d : Nat) (x : Die) : (s.setDie d x).sharersLost = s.sharersLost := rfl
@[simp] theorem setDie_net (s : State) (d : Nat) (x : Die) : (s.setDie d x).net = s.net := rfl
@[simp] theorem setDie_directory (s : State) (d : Nat) (x : Die) : (s.setDie d x).directory = s.directory := rfl
@[simp] theorem setDie_performed (s : State) (d : Nat) (x : Die) : (s.setDie d x).performed = s.performed := rfl
@[simp] theorem setDie_replies (s : State) (d : Nat) (x : Die) : (s.setDie d x).replies = s.replies := rfl
@[simp] theorem setDie_seqs (s : State) (d : Nat) (x : Die) : (s.setDie d x).seqs = s.seqs := rfl
@[simp] theorem setDie_nextLaunch (s : State) (d : Nat) (x : Die) : (s.setDie d x).nextLaunch = s.nextLaunch := rfl
@[simp] theorem setDie_nextCmd (s : State) (d : Nat) (x : Die) : (s.setDie d x).nextCmd = s.nextCmd := rfl
@[simp] theorem setDie_nextKey (s : State) (d : Nat) (x : Die) : (s.setDie d x).nextKey = s.nextKey := rfl
@[simp] theorem setDie_issue (s : State) (d : Nat) (x : Die) : (s.setDie d x).issue = s.issue := rfl
@[simp] theorem setDie_fetched (s : State) (d : Nat) (x : Die) : (s.setDie d x).fetched = s.fetched := rfl
@[simp] theorem setDie_cur (s : State) (d : Nat) (x : Die) : (s.setDie d x).cur = s.cur := rfl
@[simp] theorem setDie_inputs (s : State) (d : Nat) (x : Die) : (s.setDie d x).inputs = s.inputs := rfl
@[simp] theorem setDie_waitsIn (s : State) (d : Nat) (x : Die) : (s.setDie d x).waitsIn = s.waitsIn := rfl
@[simp] theorem setDie_admitted (s : State) (d : Nat) (x : Die) : (s.setDie d x).admitted = s.admitted := rfl
@[simp] theorem setDie_draws (s : State) (d : Nat) (x : Die) : (s.setDie d x).draws = s.draws := rfl

/-! `State.setDomain` changes domains alone. -/
@[simp] theorem setDomain_stage (s : State) (n : Nat) (x : Domain) : (s.setDomain n x).stage = s.stage := rfl
@[simp] theorem setDomain_tick (s : State) (n : Nat) (x : Domain) : (s.setDomain n x).tick = s.tick := rfl
@[simp] theorem setDomain_threads (s : State) (n : Nat) (x : Domain) : (s.setDomain n x).threads = s.threads := rfl
@[simp] theorem setDomain_cores (s : State) (n : Nat) (x : Domain) : (s.setDomain n x).cores = s.cores := rfl
@[simp] theorem setDomain_dies (s : State) (n : Nat) (x : Domain) : (s.setDomain n x).dies = s.dies := rfl
@[simp] theorem setDomain_mem (s : State) (n : Nat) (x : Domain) : (s.setDomain n x).mem = s.mem := rfl
@[simp] theorem setDomain_feEmpty (s : State) (n : Nat) (x : Domain) : (s.setDomain n x).feEmpty = s.feEmpty := rfl
@[simp] theorem setDomain_poison (s : State) (n : Nat) (x : Domain) : (s.setDomain n x).poison = s.poison := rfl
@[simp] theorem setDomain_lineKey (s : State) (n : Nat) (x : Domain) : (s.setDomain n x).lineKey = s.lineKey := rfl
@[simp] theorem setDomain_endies (s : State) (n : Nat) (x : Domain) : (s.setDomain n x).endies = s.endies := rfl
@[simp] theorem setDomain_engdies (s : State) (n : Nat) (x : Domain) : (s.setDomain n x).engdies = s.engdies := rfl
@[simp] theorem setDomain_enstacks (s : State) (n : Nat) (x : Domain) : (s.setDomain n x).enstacks = s.enstacks := rfl
@[simp] theorem setDomain_encores (s : State) (n : Nat) (x : Domain) : (s.setDomain n x).encores = s.encores := rfl
@[simp] theorem setDomain_retiring (s : State) (n : Nat) (x : Domain) : (s.setDomain n x).retiring = s.retiring := rfl
@[simp] theorem setDomain_featen (s : State) (n : Nat) (x : Domain) : (s.setDomain n x).featen = s.featen := rfl
@[simp] theorem setDomain_halted (s : State) (n : Nat) (x : Domain) : (s.setDomain n x).halted = s.halted := rfl
@[simp] theorem setDomain_reqto (s : State) (n : Nat) (x : Domain) : (s.setDomain n x).reqto = s.reqto := rfl
@[simp] theorem setDomain_hostto (s : State) (n : Nat) (x : Domain) : (s.setDomain n x).hostto = s.hostto := rfl
@[simp] theorem setDomain_mclogcnt (s : State) (n : Nat) (x : Domain) : (s.setDomain n x).mclogcnt = s.mclogcnt := rfl
@[simp] theorem setDomain_mclog (s : State) (n : Nat) (x : Domain) : (s.setDomain n x).mclog = s.mclog := rfl
@[simp] theorem setDomain_gtbase (s : State) (n : Nat) (x : Domain) : (s.setDomain n x).gtbase = s.gtbase := rfl
@[simp] theorem setDomain_fdt (s : State) (n : Nat) (x : Domain) : (s.setDomain n x).fdt = s.fdt := rfl
@[simp] theorem setDomain_queues (s : State) (n : Nat) (x : Domain) : (s.setDomain n x).queues = s.queues := rfl
@[simp] theorem setDomain_launches (s : State) (n : Nat) (x : Domain) : (s.setDomain n x).launches = s.launches := rfl
@[simp] theorem setDomain_takeTurn (s : State) (n : Nat) (x : Domain) : (s.setDomain n x).takeTurn = s.takeTurn := rfl
@[simp] theorem setDomain_gangs (s : State) (n : Nat) (x : Domain) : (s.setDomain n x).gangs = s.gangs := rfl
@[simp] theorem setDomain_deferrals (s : State) (n : Nat) (x : Domain) : (s.setDomain n x).deferrals = s.deferrals := rfl
@[simp] theorem setDomain_early (s : State) (n : Nat) (x : Domain) : (s.setDomain n x).early = s.early := rfl
@[simp] theorem setDomain_credq (s : State) (n : Nat) (x : Domain) : (s.setDomain n x).credq = s.credq := rfl
@[simp] theorem setDomain_lateRecs (s : State) (n : Nat) (x : Domain) : (s.setDomain n x).lateRecs = s.lateRecs := rfl
@[simp] theorem setDomain_ended (s : State) (n : Nat) (x : Domain) : (s.setDomain n x).ended = s.ended := rfl
@[simp] theorem setDomain_orphans (s : State) (n : Nat) (x : Domain) : (s.setDomain n x).orphans = s.orphans := rfl
@[simp] theorem setDomain_devq (s : State) (n : Nat) (x : Domain) : (s.setDomain n x).devq = s.devq := rfl
@[simp] theorem setDomain_tookLaunch (s : State) (n : Nat) (x : Domain) : (s.setDomain n x).tookLaunch = s.tookLaunch := rfl
@[simp] theorem setDomain_killMsgs (s : State) (n : Nat) (x : Domain) : (s.setDomain n x).killMsgs = s.killMsgs := rfl
@[simp] theorem setDomain_held (s : State) (n : Nat) (x : Domain) : (s.setDomain n x).held = s.held := rfl
@[simp] theorem setDomain_resReserved (s : State) (n : Nat) (x : Domain) : (s.setDomain n x).resReserved = s.resReserved := rfl
@[simp] theorem setDomain_edt (s : State) (n : Nat) (x : Domain) : (s.setDomain n x).edt = s.edt := rfl
@[simp] theorem setDomain_apertures (s : State) (n : Nat) (x : Domain) : (s.setDomain n x).apertures = s.apertures := rfl
@[simp] theorem setDomain_hostErr (s : State) (n : Nat) (x : Domain) : (s.setDomain n x).hostErr = s.hostErr := rfl
@[simp] theorem setDomain_hostData (s : State) (n : Nat) (x : Domain) : (s.setDomain n x).hostData = s.hostData := rfl
@[simp] theorem setDomain_endpoints (s : State) (n : Nat) (x : Domain) : (s.setDomain n x).endpoints = s.endpoints := rfl
@[simp] theorem setDomain_solstice (s : State) (n : Nat) (x : Domain) : (s.setDomain n x).solstice = s.solstice := rfl
@[simp] theorem setDomain_arrivals (s : State) (n : Nat) (x : Domain) : (s.setDomain n x).arrivals = s.arrivals := rfl
@[simp] theorem setDomain_ends (s : State) (n : Nat) (x : Domain) : (s.setDomain n x).ends = s.ends := rfl
@[simp] theorem setDomain_command (s : State) (n : Nat) (x : Domain) : (s.setDomain n x).command = s.command := rfl
@[simp] theorem setDomain_serving (s : State) (n : Nat) (x : Domain) : (s.setDomain n x).serving = s.serving := rfl
@[simp] theorem setDomain_response (s : State) (n : Nat) (x : Domain) : (s.setDomain n x).response = s.response := rfl
@[simp] theorem setDomain_ownkey (s : State) (n : Nat) (x : Domain) : (s.setDomain n x).ownkey = s.ownkey := rfl
@[simp] theorem setDomain_ownseq (s : State) (n : Nat) (x : Domain) : (s.setDomain n x).ownseq = s.ownseq := rfl
@[simp] theorem setDomain_silicon (s : State) (n : Nat) (x : Domain) : (s.setDomain n x).silicon = s.silicon := rfl
@[simp] theorem setDomain_trusted (s : State) (n : Nat) (x : Domain) : (s.setDomain n x).trusted = s.trusted := rfl
@[simp] theorem setDomain_linkDown (s : State) (n : Nat) (x : Domain) : (s.setDomain n x).linkDown = s.linkDown := rfl
@[simp] theorem setDomain_retraining (s : State) (n : Nat) (x : Domain) : (s.setDomain n x).retraining = s.retraining := rfl
@[simp] theorem setDomain_fatal (s : State) (n : Nat) (x : Domain) : (s.setDomain n x).fatal = s.fatal := rfl
@[simp] theorem setDomain_sharersLost (s : State) (n : Nat) (x : Domain) : (s.setDomain n x).sharersLost = s.sharersLost := rfl
@[simp] theorem setDomain_net (s : State) (n : Nat) (x : Domain) : (s.setDomain n x).net = s.net := rfl
@[simp] theorem setDomain_directory (s : State) (n : Nat) (x : Domain) : (s.setDomain n x).directory = s.directory := rfl
@[simp] theorem setDomain_performed (s : State) (n : Nat) (x : Domain) : (s.setDomain n x).performed = s.performed := rfl
@[simp] theorem setDomain_replies (s : State) (n : Nat) (x : Domain) : (s.setDomain n x).replies = s.replies := rfl
@[simp] theorem setDomain_seqs (s : State) (n : Nat) (x : Domain) : (s.setDomain n x).seqs = s.seqs := rfl
@[simp] theorem setDomain_nextLaunch (s : State) (n : Nat) (x : Domain) : (s.setDomain n x).nextLaunch = s.nextLaunch := rfl
@[simp] theorem setDomain_nextCmd (s : State) (n : Nat) (x : Domain) : (s.setDomain n x).nextCmd = s.nextCmd := rfl
@[simp] theorem setDomain_nextKey (s : State) (n : Nat) (x : Domain) : (s.setDomain n x).nextKey = s.nextKey := rfl
@[simp] theorem setDomain_issue (s : State) (n : Nat) (x : Domain) : (s.setDomain n x).issue = s.issue := rfl
@[simp] theorem setDomain_fetched (s : State) (n : Nat) (x : Domain) : (s.setDomain n x).fetched = s.fetched := rfl
@[simp] theorem setDomain_cur (s : State) (n : Nat) (x : Domain) : (s.setDomain n x).cur = s.cur := rfl
@[simp] theorem setDomain_inputs (s : State) (n : Nat) (x : Domain) : (s.setDomain n x).inputs = s.inputs := rfl
@[simp] theorem setDomain_waitsIn (s : State) (n : Nat) (x : Domain) : (s.setDomain n x).waitsIn = s.waitsIn := rfl
@[simp] theorem setDomain_admitted (s : State) (n : Nat) (x : Domain) : (s.setDomain n x).admitted = s.admitted := rfl
@[simp] theorem setDomain_draws (s : State) (n : Nat) (x : Domain) : (s.setDomain n x).draws = s.draws := rfl

/-! `State.pokeByte` changes mem alone. -/
@[simp] theorem pokeByte_stage (s : State) (a : Nat) (b : Byte) : (s.pokeByte a b).stage = s.stage := rfl
@[simp] theorem pokeByte_tick (s : State) (a : Nat) (b : Byte) : (s.pokeByte a b).tick = s.tick := rfl
@[simp] theorem pokeByte_threads (s : State) (a : Nat) (b : Byte) : (s.pokeByte a b).threads = s.threads := rfl
@[simp] theorem pokeByte_cores (s : State) (a : Nat) (b : Byte) : (s.pokeByte a b).cores = s.cores := rfl
@[simp] theorem pokeByte_dies (s : State) (a : Nat) (b : Byte) : (s.pokeByte a b).dies = s.dies := rfl
@[simp] theorem pokeByte_domains (s : State) (a : Nat) (b : Byte) : (s.pokeByte a b).domains = s.domains := rfl
@[simp] theorem pokeByte_feEmpty (s : State) (a : Nat) (b : Byte) : (s.pokeByte a b).feEmpty = s.feEmpty := rfl
@[simp] theorem pokeByte_poison (s : State) (a : Nat) (b : Byte) : (s.pokeByte a b).poison = s.poison := rfl
@[simp] theorem pokeByte_lineKey (s : State) (a : Nat) (b : Byte) : (s.pokeByte a b).lineKey = s.lineKey := rfl
@[simp] theorem pokeByte_endies (s : State) (a : Nat) (b : Byte) : (s.pokeByte a b).endies = s.endies := rfl
@[simp] theorem pokeByte_engdies (s : State) (a : Nat) (b : Byte) : (s.pokeByte a b).engdies = s.engdies := rfl
@[simp] theorem pokeByte_enstacks (s : State) (a : Nat) (b : Byte) : (s.pokeByte a b).enstacks = s.enstacks := rfl
@[simp] theorem pokeByte_encores (s : State) (a : Nat) (b : Byte) : (s.pokeByte a b).encores = s.encores := rfl
@[simp] theorem pokeByte_retiring (s : State) (a : Nat) (b : Byte) : (s.pokeByte a b).retiring = s.retiring := rfl
@[simp] theorem pokeByte_featen (s : State) (a : Nat) (b : Byte) : (s.pokeByte a b).featen = s.featen := rfl
@[simp] theorem pokeByte_halted (s : State) (a : Nat) (b : Byte) : (s.pokeByte a b).halted = s.halted := rfl
@[simp] theorem pokeByte_reqto (s : State) (a : Nat) (b : Byte) : (s.pokeByte a b).reqto = s.reqto := rfl
@[simp] theorem pokeByte_hostto (s : State) (a : Nat) (b : Byte) : (s.pokeByte a b).hostto = s.hostto := rfl
@[simp] theorem pokeByte_mclogcnt (s : State) (a : Nat) (b : Byte) : (s.pokeByte a b).mclogcnt = s.mclogcnt := rfl
@[simp] theorem pokeByte_mclog (s : State) (a : Nat) (b : Byte) : (s.pokeByte a b).mclog = s.mclog := rfl
@[simp] theorem pokeByte_gtbase (s : State) (a : Nat) (b : Byte) : (s.pokeByte a b).gtbase = s.gtbase := rfl
@[simp] theorem pokeByte_fdt (s : State) (a : Nat) (b : Byte) : (s.pokeByte a b).fdt = s.fdt := rfl
@[simp] theorem pokeByte_queues (s : State) (a : Nat) (b : Byte) : (s.pokeByte a b).queues = s.queues := rfl
@[simp] theorem pokeByte_launches (s : State) (a : Nat) (b : Byte) : (s.pokeByte a b).launches = s.launches := rfl
@[simp] theorem pokeByte_takeTurn (s : State) (a : Nat) (b : Byte) : (s.pokeByte a b).takeTurn = s.takeTurn := rfl
@[simp] theorem pokeByte_gangs (s : State) (a : Nat) (b : Byte) : (s.pokeByte a b).gangs = s.gangs := rfl
@[simp] theorem pokeByte_deferrals (s : State) (a : Nat) (b : Byte) : (s.pokeByte a b).deferrals = s.deferrals := rfl
@[simp] theorem pokeByte_early (s : State) (a : Nat) (b : Byte) : (s.pokeByte a b).early = s.early := rfl
@[simp] theorem pokeByte_credq (s : State) (a : Nat) (b : Byte) : (s.pokeByte a b).credq = s.credq := rfl
@[simp] theorem pokeByte_lateRecs (s : State) (a : Nat) (b : Byte) : (s.pokeByte a b).lateRecs = s.lateRecs := rfl
@[simp] theorem pokeByte_ended (s : State) (a : Nat) (b : Byte) : (s.pokeByte a b).ended = s.ended := rfl
@[simp] theorem pokeByte_orphans (s : State) (a : Nat) (b : Byte) : (s.pokeByte a b).orphans = s.orphans := rfl
@[simp] theorem pokeByte_devq (s : State) (a : Nat) (b : Byte) : (s.pokeByte a b).devq = s.devq := rfl
@[simp] theorem pokeByte_tookLaunch (s : State) (a : Nat) (b : Byte) : (s.pokeByte a b).tookLaunch = s.tookLaunch := rfl
@[simp] theorem pokeByte_killMsgs (s : State) (a : Nat) (b : Byte) : (s.pokeByte a b).killMsgs = s.killMsgs := rfl
@[simp] theorem pokeByte_held (s : State) (a : Nat) (b : Byte) : (s.pokeByte a b).held = s.held := rfl
@[simp] theorem pokeByte_resReserved (s : State) (a : Nat) (b : Byte) : (s.pokeByte a b).resReserved = s.resReserved := rfl
@[simp] theorem pokeByte_edt (s : State) (a : Nat) (b : Byte) : (s.pokeByte a b).edt = s.edt := rfl
@[simp] theorem pokeByte_apertures (s : State) (a : Nat) (b : Byte) : (s.pokeByte a b).apertures = s.apertures := rfl
@[simp] theorem pokeByte_hostErr (s : State) (a : Nat) (b : Byte) : (s.pokeByte a b).hostErr = s.hostErr := rfl
@[simp] theorem pokeByte_hostData (s : State) (a : Nat) (b : Byte) : (s.pokeByte a b).hostData = s.hostData := rfl
@[simp] theorem pokeByte_endpoints (s : State) (a : Nat) (b : Byte) : (s.pokeByte a b).endpoints = s.endpoints := rfl
@[simp] theorem pokeByte_solstice (s : State) (a : Nat) (b : Byte) : (s.pokeByte a b).solstice = s.solstice := rfl
@[simp] theorem pokeByte_arrivals (s : State) (a : Nat) (b : Byte) : (s.pokeByte a b).arrivals = s.arrivals := rfl
@[simp] theorem pokeByte_ends (s : State) (a : Nat) (b : Byte) : (s.pokeByte a b).ends = s.ends := rfl
@[simp] theorem pokeByte_command (s : State) (a : Nat) (b : Byte) : (s.pokeByte a b).command = s.command := rfl
@[simp] theorem pokeByte_serving (s : State) (a : Nat) (b : Byte) : (s.pokeByte a b).serving = s.serving := rfl
@[simp] theorem pokeByte_response (s : State) (a : Nat) (b : Byte) : (s.pokeByte a b).response = s.response := rfl
@[simp] theorem pokeByte_ownkey (s : State) (a : Nat) (b : Byte) : (s.pokeByte a b).ownkey = s.ownkey := rfl
@[simp] theorem pokeByte_ownseq (s : State) (a : Nat) (b : Byte) : (s.pokeByte a b).ownseq = s.ownseq := rfl
@[simp] theorem pokeByte_silicon (s : State) (a : Nat) (b : Byte) : (s.pokeByte a b).silicon = s.silicon := rfl
@[simp] theorem pokeByte_trusted (s : State) (a : Nat) (b : Byte) : (s.pokeByte a b).trusted = s.trusted := rfl
@[simp] theorem pokeByte_linkDown (s : State) (a : Nat) (b : Byte) : (s.pokeByte a b).linkDown = s.linkDown := rfl
@[simp] theorem pokeByte_retraining (s : State) (a : Nat) (b : Byte) : (s.pokeByte a b).retraining = s.retraining := rfl
@[simp] theorem pokeByte_fatal (s : State) (a : Nat) (b : Byte) : (s.pokeByte a b).fatal = s.fatal := rfl
@[simp] theorem pokeByte_sharersLost (s : State) (a : Nat) (b : Byte) : (s.pokeByte a b).sharersLost = s.sharersLost := rfl
@[simp] theorem pokeByte_net (s : State) (a : Nat) (b : Byte) : (s.pokeByte a b).net = s.net := rfl
@[simp] theorem pokeByte_directory (s : State) (a : Nat) (b : Byte) : (s.pokeByte a b).directory = s.directory := rfl
@[simp] theorem pokeByte_performed (s : State) (a : Nat) (b : Byte) : (s.pokeByte a b).performed = s.performed := rfl
@[simp] theorem pokeByte_replies (s : State) (a : Nat) (b : Byte) : (s.pokeByte a b).replies = s.replies := rfl
@[simp] theorem pokeByte_seqs (s : State) (a : Nat) (b : Byte) : (s.pokeByte a b).seqs = s.seqs := rfl
@[simp] theorem pokeByte_nextLaunch (s : State) (a : Nat) (b : Byte) : (s.pokeByte a b).nextLaunch = s.nextLaunch := rfl
@[simp] theorem pokeByte_nextCmd (s : State) (a : Nat) (b : Byte) : (s.pokeByte a b).nextCmd = s.nextCmd := rfl
@[simp] theorem pokeByte_nextKey (s : State) (a : Nat) (b : Byte) : (s.pokeByte a b).nextKey = s.nextKey := rfl
@[simp] theorem pokeByte_issue (s : State) (a : Nat) (b : Byte) : (s.pokeByte a b).issue = s.issue := rfl
@[simp] theorem pokeByte_fetched (s : State) (a : Nat) (b : Byte) : (s.pokeByte a b).fetched = s.fetched := rfl
@[simp] theorem pokeByte_cur (s : State) (a : Nat) (b : Byte) : (s.pokeByte a b).cur = s.cur := rfl
@[simp] theorem pokeByte_inputs (s : State) (a : Nat) (b : Byte) : (s.pokeByte a b).inputs = s.inputs := rfl
@[simp] theorem pokeByte_waitsIn (s : State) (a : Nat) (b : Byte) : (s.pokeByte a b).waitsIn = s.waitsIn := rfl
@[simp] theorem pokeByte_admitted (s : State) (a : Nat) (b : Byte) : (s.pokeByte a b).admitted = s.admitted := rfl
@[simp] theorem pokeByte_draws (s : State) (a : Nat) (b : Byte) : (s.pokeByte a b).draws = s.draws := rfl

/-! `State.setFull` changes feEmpty alone. -/
@[simp] theorem setFull_stage (s : State) (a : Nat) (b : Bool) : (s.setFull a b).stage = s.stage := rfl
@[simp] theorem setFull_tick (s : State) (a : Nat) (b : Bool) : (s.setFull a b).tick = s.tick := rfl
@[simp] theorem setFull_threads (s : State) (a : Nat) (b : Bool) : (s.setFull a b).threads = s.threads := rfl
@[simp] theorem setFull_cores (s : State) (a : Nat) (b : Bool) : (s.setFull a b).cores = s.cores := rfl
@[simp] theorem setFull_dies (s : State) (a : Nat) (b : Bool) : (s.setFull a b).dies = s.dies := rfl
@[simp] theorem setFull_domains (s : State) (a : Nat) (b : Bool) : (s.setFull a b).domains = s.domains := rfl
@[simp] theorem setFull_mem (s : State) (a : Nat) (b : Bool) : (s.setFull a b).mem = s.mem := rfl
@[simp] theorem setFull_poison (s : State) (a : Nat) (b : Bool) : (s.setFull a b).poison = s.poison := rfl
@[simp] theorem setFull_lineKey (s : State) (a : Nat) (b : Bool) : (s.setFull a b).lineKey = s.lineKey := rfl
@[simp] theorem setFull_endies (s : State) (a : Nat) (b : Bool) : (s.setFull a b).endies = s.endies := rfl
@[simp] theorem setFull_engdies (s : State) (a : Nat) (b : Bool) : (s.setFull a b).engdies = s.engdies := rfl
@[simp] theorem setFull_enstacks (s : State) (a : Nat) (b : Bool) : (s.setFull a b).enstacks = s.enstacks := rfl
@[simp] theorem setFull_encores (s : State) (a : Nat) (b : Bool) : (s.setFull a b).encores = s.encores := rfl
@[simp] theorem setFull_retiring (s : State) (a : Nat) (b : Bool) : (s.setFull a b).retiring = s.retiring := rfl
@[simp] theorem setFull_featen (s : State) (a : Nat) (b : Bool) : (s.setFull a b).featen = s.featen := rfl
@[simp] theorem setFull_halted (s : State) (a : Nat) (b : Bool) : (s.setFull a b).halted = s.halted := rfl
@[simp] theorem setFull_reqto (s : State) (a : Nat) (b : Bool) : (s.setFull a b).reqto = s.reqto := rfl
@[simp] theorem setFull_hostto (s : State) (a : Nat) (b : Bool) : (s.setFull a b).hostto = s.hostto := rfl
@[simp] theorem setFull_mclogcnt (s : State) (a : Nat) (b : Bool) : (s.setFull a b).mclogcnt = s.mclogcnt := rfl
@[simp] theorem setFull_mclog (s : State) (a : Nat) (b : Bool) : (s.setFull a b).mclog = s.mclog := rfl
@[simp] theorem setFull_gtbase (s : State) (a : Nat) (b : Bool) : (s.setFull a b).gtbase = s.gtbase := rfl
@[simp] theorem setFull_fdt (s : State) (a : Nat) (b : Bool) : (s.setFull a b).fdt = s.fdt := rfl
@[simp] theorem setFull_queues (s : State) (a : Nat) (b : Bool) : (s.setFull a b).queues = s.queues := rfl
@[simp] theorem setFull_launches (s : State) (a : Nat) (b : Bool) : (s.setFull a b).launches = s.launches := rfl
@[simp] theorem setFull_takeTurn (s : State) (a : Nat) (b : Bool) : (s.setFull a b).takeTurn = s.takeTurn := rfl
@[simp] theorem setFull_gangs (s : State) (a : Nat) (b : Bool) : (s.setFull a b).gangs = s.gangs := rfl
@[simp] theorem setFull_deferrals (s : State) (a : Nat) (b : Bool) : (s.setFull a b).deferrals = s.deferrals := rfl
@[simp] theorem setFull_early (s : State) (a : Nat) (b : Bool) : (s.setFull a b).early = s.early := rfl
@[simp] theorem setFull_credq (s : State) (a : Nat) (b : Bool) : (s.setFull a b).credq = s.credq := rfl
@[simp] theorem setFull_lateRecs (s : State) (a : Nat) (b : Bool) : (s.setFull a b).lateRecs = s.lateRecs := rfl
@[simp] theorem setFull_ended (s : State) (a : Nat) (b : Bool) : (s.setFull a b).ended = s.ended := rfl
@[simp] theorem setFull_orphans (s : State) (a : Nat) (b : Bool) : (s.setFull a b).orphans = s.orphans := rfl
@[simp] theorem setFull_devq (s : State) (a : Nat) (b : Bool) : (s.setFull a b).devq = s.devq := rfl
@[simp] theorem setFull_tookLaunch (s : State) (a : Nat) (b : Bool) : (s.setFull a b).tookLaunch = s.tookLaunch := rfl
@[simp] theorem setFull_killMsgs (s : State) (a : Nat) (b : Bool) : (s.setFull a b).killMsgs = s.killMsgs := rfl
@[simp] theorem setFull_held (s : State) (a : Nat) (b : Bool) : (s.setFull a b).held = s.held := rfl
@[simp] theorem setFull_resReserved (s : State) (a : Nat) (b : Bool) : (s.setFull a b).resReserved = s.resReserved := rfl
@[simp] theorem setFull_edt (s : State) (a : Nat) (b : Bool) : (s.setFull a b).edt = s.edt := rfl
@[simp] theorem setFull_apertures (s : State) (a : Nat) (b : Bool) : (s.setFull a b).apertures = s.apertures := rfl
@[simp] theorem setFull_hostErr (s : State) (a : Nat) (b : Bool) : (s.setFull a b).hostErr = s.hostErr := rfl
@[simp] theorem setFull_hostData (s : State) (a : Nat) (b : Bool) : (s.setFull a b).hostData = s.hostData := rfl
@[simp] theorem setFull_endpoints (s : State) (a : Nat) (b : Bool) : (s.setFull a b).endpoints = s.endpoints := rfl
@[simp] theorem setFull_solstice (s : State) (a : Nat) (b : Bool) : (s.setFull a b).solstice = s.solstice := rfl
@[simp] theorem setFull_arrivals (s : State) (a : Nat) (b : Bool) : (s.setFull a b).arrivals = s.arrivals := rfl
@[simp] theorem setFull_ends (s : State) (a : Nat) (b : Bool) : (s.setFull a b).ends = s.ends := rfl
@[simp] theorem setFull_command (s : State) (a : Nat) (b : Bool) : (s.setFull a b).command = s.command := rfl
@[simp] theorem setFull_serving (s : State) (a : Nat) (b : Bool) : (s.setFull a b).serving = s.serving := rfl
@[simp] theorem setFull_response (s : State) (a : Nat) (b : Bool) : (s.setFull a b).response = s.response := rfl
@[simp] theorem setFull_ownkey (s : State) (a : Nat) (b : Bool) : (s.setFull a b).ownkey = s.ownkey := rfl
@[simp] theorem setFull_ownseq (s : State) (a : Nat) (b : Bool) : (s.setFull a b).ownseq = s.ownseq := rfl
@[simp] theorem setFull_silicon (s : State) (a : Nat) (b : Bool) : (s.setFull a b).silicon = s.silicon := rfl
@[simp] theorem setFull_trusted (s : State) (a : Nat) (b : Bool) : (s.setFull a b).trusted = s.trusted := rfl
@[simp] theorem setFull_linkDown (s : State) (a : Nat) (b : Bool) : (s.setFull a b).linkDown = s.linkDown := rfl
@[simp] theorem setFull_retraining (s : State) (a : Nat) (b : Bool) : (s.setFull a b).retraining = s.retraining := rfl
@[simp] theorem setFull_fatal (s : State) (a : Nat) (b : Bool) : (s.setFull a b).fatal = s.fatal := rfl
@[simp] theorem setFull_sharersLost (s : State) (a : Nat) (b : Bool) : (s.setFull a b).sharersLost = s.sharersLost := rfl
@[simp] theorem setFull_net (s : State) (a : Nat) (b : Bool) : (s.setFull a b).net = s.net := rfl
@[simp] theorem setFull_directory (s : State) (a : Nat) (b : Bool) : (s.setFull a b).directory = s.directory := rfl
@[simp] theorem setFull_performed (s : State) (a : Nat) (b : Bool) : (s.setFull a b).performed = s.performed := rfl
@[simp] theorem setFull_replies (s : State) (a : Nat) (b : Bool) : (s.setFull a b).replies = s.replies := rfl
@[simp] theorem setFull_seqs (s : State) (a : Nat) (b : Bool) : (s.setFull a b).seqs = s.seqs := rfl
@[simp] theorem setFull_nextLaunch (s : State) (a : Nat) (b : Bool) : (s.setFull a b).nextLaunch = s.nextLaunch := rfl
@[simp] theorem setFull_nextCmd (s : State) (a : Nat) (b : Bool) : (s.setFull a b).nextCmd = s.nextCmd := rfl
@[simp] theorem setFull_nextKey (s : State) (a : Nat) (b : Bool) : (s.setFull a b).nextKey = s.nextKey := rfl
@[simp] theorem setFull_issue (s : State) (a : Nat) (b : Bool) : (s.setFull a b).issue = s.issue := rfl
@[simp] theorem setFull_fetched (s : State) (a : Nat) (b : Bool) : (s.setFull a b).fetched = s.fetched := rfl
@[simp] theorem setFull_cur (s : State) (a : Nat) (b : Bool) : (s.setFull a b).cur = s.cur := rfl
@[simp] theorem setFull_inputs (s : State) (a : Nat) (b : Bool) : (s.setFull a b).inputs = s.inputs := rfl
@[simp] theorem setFull_waitsIn (s : State) (a : Nat) (b : Bool) : (s.setFull a b).waitsIn = s.waitsIn := rfl
@[simp] theorem setFull_admitted (s : State) (a : Nat) (b : Bool) : (s.setFull a b).admitted = s.admitted := rfl
@[simp] theorem setFull_draws (s : State) (a : Nat) (b : Bool) : (s.setFull a b).draws = s.draws := rfl

/-! `State.markPoison` changes poison alone. -/
@[simp] theorem markPoison_stage (s : State) (a : Nat) : (s.markPoison a).stage = s.stage := rfl
@[simp] theorem markPoison_tick (s : State) (a : Nat) : (s.markPoison a).tick = s.tick := rfl
@[simp] theorem markPoison_threads (s : State) (a : Nat) : (s.markPoison a).threads = s.threads := rfl
@[simp] theorem markPoison_cores (s : State) (a : Nat) : (s.markPoison a).cores = s.cores := rfl
@[simp] theorem markPoison_dies (s : State) (a : Nat) : (s.markPoison a).dies = s.dies := rfl
@[simp] theorem markPoison_domains (s : State) (a : Nat) : (s.markPoison a).domains = s.domains := rfl
@[simp] theorem markPoison_mem (s : State) (a : Nat) : (s.markPoison a).mem = s.mem := rfl
@[simp] theorem markPoison_feEmpty (s : State) (a : Nat) : (s.markPoison a).feEmpty = s.feEmpty := rfl
@[simp] theorem markPoison_lineKey (s : State) (a : Nat) : (s.markPoison a).lineKey = s.lineKey := rfl
@[simp] theorem markPoison_endies (s : State) (a : Nat) : (s.markPoison a).endies = s.endies := rfl
@[simp] theorem markPoison_engdies (s : State) (a : Nat) : (s.markPoison a).engdies = s.engdies := rfl
@[simp] theorem markPoison_enstacks (s : State) (a : Nat) : (s.markPoison a).enstacks = s.enstacks := rfl
@[simp] theorem markPoison_encores (s : State) (a : Nat) : (s.markPoison a).encores = s.encores := rfl
@[simp] theorem markPoison_retiring (s : State) (a : Nat) : (s.markPoison a).retiring = s.retiring := rfl
@[simp] theorem markPoison_featen (s : State) (a : Nat) : (s.markPoison a).featen = s.featen := rfl
@[simp] theorem markPoison_halted (s : State) (a : Nat) : (s.markPoison a).halted = s.halted := rfl
@[simp] theorem markPoison_reqto (s : State) (a : Nat) : (s.markPoison a).reqto = s.reqto := rfl
@[simp] theorem markPoison_hostto (s : State) (a : Nat) : (s.markPoison a).hostto = s.hostto := rfl
@[simp] theorem markPoison_mclogcnt (s : State) (a : Nat) : (s.markPoison a).mclogcnt = s.mclogcnt := rfl
@[simp] theorem markPoison_mclog (s : State) (a : Nat) : (s.markPoison a).mclog = s.mclog := rfl
@[simp] theorem markPoison_gtbase (s : State) (a : Nat) : (s.markPoison a).gtbase = s.gtbase := rfl
@[simp] theorem markPoison_fdt (s : State) (a : Nat) : (s.markPoison a).fdt = s.fdt := rfl
@[simp] theorem markPoison_queues (s : State) (a : Nat) : (s.markPoison a).queues = s.queues := rfl
@[simp] theorem markPoison_launches (s : State) (a : Nat) : (s.markPoison a).launches = s.launches := rfl
@[simp] theorem markPoison_takeTurn (s : State) (a : Nat) : (s.markPoison a).takeTurn = s.takeTurn := rfl
@[simp] theorem markPoison_gangs (s : State) (a : Nat) : (s.markPoison a).gangs = s.gangs := rfl
@[simp] theorem markPoison_deferrals (s : State) (a : Nat) : (s.markPoison a).deferrals = s.deferrals := rfl
@[simp] theorem markPoison_early (s : State) (a : Nat) : (s.markPoison a).early = s.early := rfl
@[simp] theorem markPoison_credq (s : State) (a : Nat) : (s.markPoison a).credq = s.credq := rfl
@[simp] theorem markPoison_lateRecs (s : State) (a : Nat) : (s.markPoison a).lateRecs = s.lateRecs := rfl
@[simp] theorem markPoison_ended (s : State) (a : Nat) : (s.markPoison a).ended = s.ended := rfl
@[simp] theorem markPoison_orphans (s : State) (a : Nat) : (s.markPoison a).orphans = s.orphans := rfl
@[simp] theorem markPoison_devq (s : State) (a : Nat) : (s.markPoison a).devq = s.devq := rfl
@[simp] theorem markPoison_tookLaunch (s : State) (a : Nat) : (s.markPoison a).tookLaunch = s.tookLaunch := rfl
@[simp] theorem markPoison_killMsgs (s : State) (a : Nat) : (s.markPoison a).killMsgs = s.killMsgs := rfl
@[simp] theorem markPoison_held (s : State) (a : Nat) : (s.markPoison a).held = s.held := rfl
@[simp] theorem markPoison_resReserved (s : State) (a : Nat) : (s.markPoison a).resReserved = s.resReserved := rfl
@[simp] theorem markPoison_edt (s : State) (a : Nat) : (s.markPoison a).edt = s.edt := rfl
@[simp] theorem markPoison_apertures (s : State) (a : Nat) : (s.markPoison a).apertures = s.apertures := rfl
@[simp] theorem markPoison_hostErr (s : State) (a : Nat) : (s.markPoison a).hostErr = s.hostErr := rfl
@[simp] theorem markPoison_hostData (s : State) (a : Nat) : (s.markPoison a).hostData = s.hostData := rfl
@[simp] theorem markPoison_endpoints (s : State) (a : Nat) : (s.markPoison a).endpoints = s.endpoints := rfl
@[simp] theorem markPoison_solstice (s : State) (a : Nat) : (s.markPoison a).solstice = s.solstice := rfl
@[simp] theorem markPoison_arrivals (s : State) (a : Nat) : (s.markPoison a).arrivals = s.arrivals := rfl
@[simp] theorem markPoison_ends (s : State) (a : Nat) : (s.markPoison a).ends = s.ends := rfl
@[simp] theorem markPoison_command (s : State) (a : Nat) : (s.markPoison a).command = s.command := rfl
@[simp] theorem markPoison_serving (s : State) (a : Nat) : (s.markPoison a).serving = s.serving := rfl
@[simp] theorem markPoison_response (s : State) (a : Nat) : (s.markPoison a).response = s.response := rfl
@[simp] theorem markPoison_ownkey (s : State) (a : Nat) : (s.markPoison a).ownkey = s.ownkey := rfl
@[simp] theorem markPoison_ownseq (s : State) (a : Nat) : (s.markPoison a).ownseq = s.ownseq := rfl
@[simp] theorem markPoison_silicon (s : State) (a : Nat) : (s.markPoison a).silicon = s.silicon := rfl
@[simp] theorem markPoison_trusted (s : State) (a : Nat) : (s.markPoison a).trusted = s.trusted := rfl
@[simp] theorem markPoison_linkDown (s : State) (a : Nat) : (s.markPoison a).linkDown = s.linkDown := rfl
@[simp] theorem markPoison_retraining (s : State) (a : Nat) : (s.markPoison a).retraining = s.retraining := rfl
@[simp] theorem markPoison_fatal (s : State) (a : Nat) : (s.markPoison a).fatal = s.fatal := rfl
@[simp] theorem markPoison_sharersLost (s : State) (a : Nat) : (s.markPoison a).sharersLost = s.sharersLost := rfl
@[simp] theorem markPoison_net (s : State) (a : Nat) : (s.markPoison a).net = s.net := rfl
@[simp] theorem markPoison_directory (s : State) (a : Nat) : (s.markPoison a).directory = s.directory := rfl
@[simp] theorem markPoison_performed (s : State) (a : Nat) : (s.markPoison a).performed = s.performed := rfl
@[simp] theorem markPoison_replies (s : State) (a : Nat) : (s.markPoison a).replies = s.replies := rfl
@[simp] theorem markPoison_seqs (s : State) (a : Nat) : (s.markPoison a).seqs = s.seqs := rfl
@[simp] theorem markPoison_nextLaunch (s : State) (a : Nat) : (s.markPoison a).nextLaunch = s.nextLaunch := rfl
@[simp] theorem markPoison_nextCmd (s : State) (a : Nat) : (s.markPoison a).nextCmd = s.nextCmd := rfl
@[simp] theorem markPoison_nextKey (s : State) (a : Nat) : (s.markPoison a).nextKey = s.nextKey := rfl
@[simp] theorem markPoison_issue (s : State) (a : Nat) : (s.markPoison a).issue = s.issue := rfl
@[simp] theorem markPoison_fetched (s : State) (a : Nat) : (s.markPoison a).fetched = s.fetched := rfl
@[simp] theorem markPoison_cur (s : State) (a : Nat) : (s.markPoison a).cur = s.cur := rfl
@[simp] theorem markPoison_inputs (s : State) (a : Nat) : (s.markPoison a).inputs = s.inputs := rfl
@[simp] theorem markPoison_waitsIn (s : State) (a : Nat) : (s.markPoison a).waitsIn = s.waitsIn := rfl
@[simp] theorem markPoison_admitted (s : State) (a : Nat) : (s.markPoison a).admitted = s.admitted := rfl
@[simp] theorem markPoison_draws (s : State) (a : Nat) : (s.markPoison a).draws = s.draws := rfl

/-! `State.unpoison` changes poison alone. -/
@[simp] theorem unpoison_stage (s : State) (a n : Nat) : (s.unpoison a n).stage = s.stage := rfl
@[simp] theorem unpoison_tick (s : State) (a n : Nat) : (s.unpoison a n).tick = s.tick := rfl
@[simp] theorem unpoison_threads (s : State) (a n : Nat) : (s.unpoison a n).threads = s.threads := rfl
@[simp] theorem unpoison_cores (s : State) (a n : Nat) : (s.unpoison a n).cores = s.cores := rfl
@[simp] theorem unpoison_dies (s : State) (a n : Nat) : (s.unpoison a n).dies = s.dies := rfl
@[simp] theorem unpoison_domains (s : State) (a n : Nat) : (s.unpoison a n).domains = s.domains := rfl
@[simp] theorem unpoison_mem (s : State) (a n : Nat) : (s.unpoison a n).mem = s.mem := rfl
@[simp] theorem unpoison_feEmpty (s : State) (a n : Nat) : (s.unpoison a n).feEmpty = s.feEmpty := rfl
@[simp] theorem unpoison_lineKey (s : State) (a n : Nat) : (s.unpoison a n).lineKey = s.lineKey := rfl
@[simp] theorem unpoison_endies (s : State) (a n : Nat) : (s.unpoison a n).endies = s.endies := rfl
@[simp] theorem unpoison_engdies (s : State) (a n : Nat) : (s.unpoison a n).engdies = s.engdies := rfl
@[simp] theorem unpoison_enstacks (s : State) (a n : Nat) : (s.unpoison a n).enstacks = s.enstacks := rfl
@[simp] theorem unpoison_encores (s : State) (a n : Nat) : (s.unpoison a n).encores = s.encores := rfl
@[simp] theorem unpoison_retiring (s : State) (a n : Nat) : (s.unpoison a n).retiring = s.retiring := rfl
@[simp] theorem unpoison_featen (s : State) (a n : Nat) : (s.unpoison a n).featen = s.featen := rfl
@[simp] theorem unpoison_halted (s : State) (a n : Nat) : (s.unpoison a n).halted = s.halted := rfl
@[simp] theorem unpoison_reqto (s : State) (a n : Nat) : (s.unpoison a n).reqto = s.reqto := rfl
@[simp] theorem unpoison_hostto (s : State) (a n : Nat) : (s.unpoison a n).hostto = s.hostto := rfl
@[simp] theorem unpoison_mclogcnt (s : State) (a n : Nat) : (s.unpoison a n).mclogcnt = s.mclogcnt := rfl
@[simp] theorem unpoison_mclog (s : State) (a n : Nat) : (s.unpoison a n).mclog = s.mclog := rfl
@[simp] theorem unpoison_gtbase (s : State) (a n : Nat) : (s.unpoison a n).gtbase = s.gtbase := rfl
@[simp] theorem unpoison_fdt (s : State) (a n : Nat) : (s.unpoison a n).fdt = s.fdt := rfl
@[simp] theorem unpoison_queues (s : State) (a n : Nat) : (s.unpoison a n).queues = s.queues := rfl
@[simp] theorem unpoison_launches (s : State) (a n : Nat) : (s.unpoison a n).launches = s.launches := rfl
@[simp] theorem unpoison_takeTurn (s : State) (a n : Nat) : (s.unpoison a n).takeTurn = s.takeTurn := rfl
@[simp] theorem unpoison_gangs (s : State) (a n : Nat) : (s.unpoison a n).gangs = s.gangs := rfl
@[simp] theorem unpoison_deferrals (s : State) (a n : Nat) : (s.unpoison a n).deferrals = s.deferrals := rfl
@[simp] theorem unpoison_early (s : State) (a n : Nat) : (s.unpoison a n).early = s.early := rfl
@[simp] theorem unpoison_credq (s : State) (a n : Nat) : (s.unpoison a n).credq = s.credq := rfl
@[simp] theorem unpoison_lateRecs (s : State) (a n : Nat) : (s.unpoison a n).lateRecs = s.lateRecs := rfl
@[simp] theorem unpoison_ended (s : State) (a n : Nat) : (s.unpoison a n).ended = s.ended := rfl
@[simp] theorem unpoison_orphans (s : State) (a n : Nat) : (s.unpoison a n).orphans = s.orphans := rfl
@[simp] theorem unpoison_devq (s : State) (a n : Nat) : (s.unpoison a n).devq = s.devq := rfl
@[simp] theorem unpoison_tookLaunch (s : State) (a n : Nat) : (s.unpoison a n).tookLaunch = s.tookLaunch := rfl
@[simp] theorem unpoison_killMsgs (s : State) (a n : Nat) : (s.unpoison a n).killMsgs = s.killMsgs := rfl
@[simp] theorem unpoison_held (s : State) (a n : Nat) : (s.unpoison a n).held = s.held := rfl
@[simp] theorem unpoison_resReserved (s : State) (a n : Nat) : (s.unpoison a n).resReserved = s.resReserved := rfl
@[simp] theorem unpoison_edt (s : State) (a n : Nat) : (s.unpoison a n).edt = s.edt := rfl
@[simp] theorem unpoison_apertures (s : State) (a n : Nat) : (s.unpoison a n).apertures = s.apertures := rfl
@[simp] theorem unpoison_hostErr (s : State) (a n : Nat) : (s.unpoison a n).hostErr = s.hostErr := rfl
@[simp] theorem unpoison_hostData (s : State) (a n : Nat) : (s.unpoison a n).hostData = s.hostData := rfl
@[simp] theorem unpoison_endpoints (s : State) (a n : Nat) : (s.unpoison a n).endpoints = s.endpoints := rfl
@[simp] theorem unpoison_solstice (s : State) (a n : Nat) : (s.unpoison a n).solstice = s.solstice := rfl
@[simp] theorem unpoison_arrivals (s : State) (a n : Nat) : (s.unpoison a n).arrivals = s.arrivals := rfl
@[simp] theorem unpoison_ends (s : State) (a n : Nat) : (s.unpoison a n).ends = s.ends := rfl
@[simp] theorem unpoison_command (s : State) (a n : Nat) : (s.unpoison a n).command = s.command := rfl
@[simp] theorem unpoison_serving (s : State) (a n : Nat) : (s.unpoison a n).serving = s.serving := rfl
@[simp] theorem unpoison_response (s : State) (a n : Nat) : (s.unpoison a n).response = s.response := rfl
@[simp] theorem unpoison_ownkey (s : State) (a n : Nat) : (s.unpoison a n).ownkey = s.ownkey := rfl
@[simp] theorem unpoison_ownseq (s : State) (a n : Nat) : (s.unpoison a n).ownseq = s.ownseq := rfl
@[simp] theorem unpoison_silicon (s : State) (a n : Nat) : (s.unpoison a n).silicon = s.silicon := rfl
@[simp] theorem unpoison_trusted (s : State) (a n : Nat) : (s.unpoison a n).trusted = s.trusted := rfl
@[simp] theorem unpoison_linkDown (s : State) (a n : Nat) : (s.unpoison a n).linkDown = s.linkDown := rfl
@[simp] theorem unpoison_retraining (s : State) (a n : Nat) : (s.unpoison a n).retraining = s.retraining := rfl
@[simp] theorem unpoison_fatal (s : State) (a n : Nat) : (s.unpoison a n).fatal = s.fatal := rfl
@[simp] theorem unpoison_sharersLost (s : State) (a n : Nat) : (s.unpoison a n).sharersLost = s.sharersLost := rfl
@[simp] theorem unpoison_net (s : State) (a n : Nat) : (s.unpoison a n).net = s.net := rfl
@[simp] theorem unpoison_directory (s : State) (a n : Nat) : (s.unpoison a n).directory = s.directory := rfl
@[simp] theorem unpoison_performed (s : State) (a n : Nat) : (s.unpoison a n).performed = s.performed := rfl
@[simp] theorem unpoison_replies (s : State) (a n : Nat) : (s.unpoison a n).replies = s.replies := rfl
@[simp] theorem unpoison_seqs (s : State) (a n : Nat) : (s.unpoison a n).seqs = s.seqs := rfl
@[simp] theorem unpoison_nextLaunch (s : State) (a n : Nat) : (s.unpoison a n).nextLaunch = s.nextLaunch := rfl
@[simp] theorem unpoison_nextCmd (s : State) (a n : Nat) : (s.unpoison a n).nextCmd = s.nextCmd := rfl
@[simp] theorem unpoison_nextKey (s : State) (a n : Nat) : (s.unpoison a n).nextKey = s.nextKey := rfl
@[simp] theorem unpoison_issue (s : State) (a n : Nat) : (s.unpoison a n).issue = s.issue := rfl
@[simp] theorem unpoison_fetched (s : State) (a n : Nat) : (s.unpoison a n).fetched = s.fetched := rfl
@[simp] theorem unpoison_cur (s : State) (a n : Nat) : (s.unpoison a n).cur = s.cur := rfl
@[simp] theorem unpoison_inputs (s : State) (a n : Nat) : (s.unpoison a n).inputs = s.inputs := rfl
@[simp] theorem unpoison_waitsIn (s : State) (a n : Nat) : (s.unpoison a n).waitsIn = s.waitsIn := rfl
@[simp] theorem unpoison_admitted (s : State) (a n : Nat) : (s.unpoison a n).admitted = s.admitted := rfl
@[simp] theorem unpoison_draws (s : State) (a n : Nat) : (s.unpoison a n).draws = s.draws := rfl

/-! `State.setGang` changes gangs alone. -/
@[simp] theorem setGang_stage (s : State) (g : Gang) : (s.setGang g).stage = s.stage := rfl
@[simp] theorem setGang_tick (s : State) (g : Gang) : (s.setGang g).tick = s.tick := rfl
@[simp] theorem setGang_threads (s : State) (g : Gang) : (s.setGang g).threads = s.threads := rfl
@[simp] theorem setGang_cores (s : State) (g : Gang) : (s.setGang g).cores = s.cores := rfl
@[simp] theorem setGang_dies (s : State) (g : Gang) : (s.setGang g).dies = s.dies := rfl
@[simp] theorem setGang_domains (s : State) (g : Gang) : (s.setGang g).domains = s.domains := rfl
@[simp] theorem setGang_mem (s : State) (g : Gang) : (s.setGang g).mem = s.mem := rfl
@[simp] theorem setGang_feEmpty (s : State) (g : Gang) : (s.setGang g).feEmpty = s.feEmpty := rfl
@[simp] theorem setGang_poison (s : State) (g : Gang) : (s.setGang g).poison = s.poison := rfl
@[simp] theorem setGang_lineKey (s : State) (g : Gang) : (s.setGang g).lineKey = s.lineKey := rfl
@[simp] theorem setGang_endies (s : State) (g : Gang) : (s.setGang g).endies = s.endies := rfl
@[simp] theorem setGang_engdies (s : State) (g : Gang) : (s.setGang g).engdies = s.engdies := rfl
@[simp] theorem setGang_enstacks (s : State) (g : Gang) : (s.setGang g).enstacks = s.enstacks := rfl
@[simp] theorem setGang_encores (s : State) (g : Gang) : (s.setGang g).encores = s.encores := rfl
@[simp] theorem setGang_retiring (s : State) (g : Gang) : (s.setGang g).retiring = s.retiring := rfl
@[simp] theorem setGang_featen (s : State) (g : Gang) : (s.setGang g).featen = s.featen := rfl
@[simp] theorem setGang_halted (s : State) (g : Gang) : (s.setGang g).halted = s.halted := rfl
@[simp] theorem setGang_reqto (s : State) (g : Gang) : (s.setGang g).reqto = s.reqto := rfl
@[simp] theorem setGang_hostto (s : State) (g : Gang) : (s.setGang g).hostto = s.hostto := rfl
@[simp] theorem setGang_mclogcnt (s : State) (g : Gang) : (s.setGang g).mclogcnt = s.mclogcnt := rfl
@[simp] theorem setGang_mclog (s : State) (g : Gang) : (s.setGang g).mclog = s.mclog := rfl
@[simp] theorem setGang_gtbase (s : State) (g : Gang) : (s.setGang g).gtbase = s.gtbase := rfl
@[simp] theorem setGang_fdt (s : State) (g : Gang) : (s.setGang g).fdt = s.fdt := rfl
@[simp] theorem setGang_queues (s : State) (g : Gang) : (s.setGang g).queues = s.queues := rfl
@[simp] theorem setGang_launches (s : State) (g : Gang) : (s.setGang g).launches = s.launches := rfl
@[simp] theorem setGang_takeTurn (s : State) (g : Gang) : (s.setGang g).takeTurn = s.takeTurn := rfl
@[simp] theorem setGang_deferrals (s : State) (g : Gang) : (s.setGang g).deferrals = s.deferrals := rfl
@[simp] theorem setGang_early (s : State) (g : Gang) : (s.setGang g).early = s.early := rfl
@[simp] theorem setGang_credq (s : State) (g : Gang) : (s.setGang g).credq = s.credq := rfl
@[simp] theorem setGang_lateRecs (s : State) (g : Gang) : (s.setGang g).lateRecs = s.lateRecs := rfl
@[simp] theorem setGang_ended (s : State) (g : Gang) : (s.setGang g).ended = s.ended := rfl
@[simp] theorem setGang_orphans (s : State) (g : Gang) : (s.setGang g).orphans = s.orphans := rfl
@[simp] theorem setGang_devq (s : State) (g : Gang) : (s.setGang g).devq = s.devq := rfl
@[simp] theorem setGang_tookLaunch (s : State) (g : Gang) : (s.setGang g).tookLaunch = s.tookLaunch := rfl
@[simp] theorem setGang_killMsgs (s : State) (g : Gang) : (s.setGang g).killMsgs = s.killMsgs := rfl
@[simp] theorem setGang_held (s : State) (g : Gang) : (s.setGang g).held = s.held := rfl
@[simp] theorem setGang_resReserved (s : State) (g : Gang) : (s.setGang g).resReserved = s.resReserved := rfl
@[simp] theorem setGang_edt (s : State) (g : Gang) : (s.setGang g).edt = s.edt := rfl
@[simp] theorem setGang_apertures (s : State) (g : Gang) : (s.setGang g).apertures = s.apertures := rfl
@[simp] theorem setGang_hostErr (s : State) (g : Gang) : (s.setGang g).hostErr = s.hostErr := rfl
@[simp] theorem setGang_hostData (s : State) (g : Gang) : (s.setGang g).hostData = s.hostData := rfl
@[simp] theorem setGang_endpoints (s : State) (g : Gang) : (s.setGang g).endpoints = s.endpoints := rfl
@[simp] theorem setGang_solstice (s : State) (g : Gang) : (s.setGang g).solstice = s.solstice := rfl
@[simp] theorem setGang_arrivals (s : State) (g : Gang) : (s.setGang g).arrivals = s.arrivals := rfl
@[simp] theorem setGang_ends (s : State) (g : Gang) : (s.setGang g).ends = s.ends := rfl
@[simp] theorem setGang_command (s : State) (g : Gang) : (s.setGang g).command = s.command := rfl
@[simp] theorem setGang_serving (s : State) (g : Gang) : (s.setGang g).serving = s.serving := rfl
@[simp] theorem setGang_response (s : State) (g : Gang) : (s.setGang g).response = s.response := rfl
@[simp] theorem setGang_ownkey (s : State) (g : Gang) : (s.setGang g).ownkey = s.ownkey := rfl
@[simp] theorem setGang_ownseq (s : State) (g : Gang) : (s.setGang g).ownseq = s.ownseq := rfl
@[simp] theorem setGang_silicon (s : State) (g : Gang) : (s.setGang g).silicon = s.silicon := rfl
@[simp] theorem setGang_trusted (s : State) (g : Gang) : (s.setGang g).trusted = s.trusted := rfl
@[simp] theorem setGang_linkDown (s : State) (g : Gang) : (s.setGang g).linkDown = s.linkDown := rfl
@[simp] theorem setGang_retraining (s : State) (g : Gang) : (s.setGang g).retraining = s.retraining := rfl
@[simp] theorem setGang_fatal (s : State) (g : Gang) : (s.setGang g).fatal = s.fatal := rfl
@[simp] theorem setGang_sharersLost (s : State) (g : Gang) : (s.setGang g).sharersLost = s.sharersLost := rfl
@[simp] theorem setGang_net (s : State) (g : Gang) : (s.setGang g).net = s.net := rfl
@[simp] theorem setGang_directory (s : State) (g : Gang) : (s.setGang g).directory = s.directory := rfl
@[simp] theorem setGang_performed (s : State) (g : Gang) : (s.setGang g).performed = s.performed := rfl
@[simp] theorem setGang_replies (s : State) (g : Gang) : (s.setGang g).replies = s.replies := rfl
@[simp] theorem setGang_seqs (s : State) (g : Gang) : (s.setGang g).seqs = s.seqs := rfl
@[simp] theorem setGang_nextLaunch (s : State) (g : Gang) : (s.setGang g).nextLaunch = s.nextLaunch := rfl
@[simp] theorem setGang_nextCmd (s : State) (g : Gang) : (s.setGang g).nextCmd = s.nextCmd := rfl
@[simp] theorem setGang_nextKey (s : State) (g : Gang) : (s.setGang g).nextKey = s.nextKey := rfl
@[simp] theorem setGang_issue (s : State) (g : Gang) : (s.setGang g).issue = s.issue := rfl
@[simp] theorem setGang_fetched (s : State) (g : Gang) : (s.setGang g).fetched = s.fetched := rfl
@[simp] theorem setGang_cur (s : State) (g : Gang) : (s.setGang g).cur = s.cur := rfl
@[simp] theorem setGang_inputs (s : State) (g : Gang) : (s.setGang g).inputs = s.inputs := rfl
@[simp] theorem setGang_waitsIn (s : State) (g : Gang) : (s.setGang g).waitsIn = s.waitsIn := rfl
@[simp] theorem setGang_admitted (s : State) (g : Gang) : (s.setGang g).admitted = s.admitted := rfl
@[simp] theorem setGang_draws (s : State) (g : Gang) : (s.setGang g).draws = s.draws := rfl

/-! `Thread.wr` changes g and fe alone. -/
@[simp] theorem wr_id (t : Thread) (n : Nat) (v : Word) : (t.wr n v).id = t.id := by unfold Thread.wr; split <;> rfl
@[simp] theorem wr_home (t : Thread) (n : Nat) (v : Word) : (t.wr n v).home = t.home := by unfold Thread.wr; split <;> rfl
@[simp] theorem wr_core (t : Thread) (n : Nat) (v : Word) : (t.wr n v).core = t.core := by unfold Thread.wr; split <;> rfl
@[simp] theorem wr_st (t : Thread) (n : Nat) (v : Word) : (t.wr n v).st = t.st := by unfold Thread.wr; split <;> rfl
@[simp] theorem wr_slot (t : Thread) (n : Nat) (v : Word) : (t.wr n v).slot = t.slot := by unfold Thread.wr; split <;> rfl
@[simp] theorem wr_pc (t : Thread) (n : Nat) (v : Word) : (t.wr n v).pc = t.pc := by unfold Thread.wr; split <;> rfl
@[simp] theorem wr_pred (t : Thread) (n : Nat) (v : Word) : (t.wr n v).pred = t.pred := by unfold Thread.wr; split <;> rfl
@[simp] theorem wr_lines (t : Thread) (n : Nat) (v : Word) : (t.wr n v).lines = t.lines := by unfold Thread.wr; split <;> rfl
@[simp] theorem wr_emt (t : Thread) (n : Nat) (v : Word) : (t.wr n v).emt = t.emt := by unfold Thread.wr; split <;> rfl
@[simp] theorem wr_fpf (t : Thread) (n : Nat) (v : Word) : (t.wr n v).fpf = t.fpf := by unfold Thread.wr; split <;> rfl
@[simp] theorem wr_rnd (t : Thread) (n : Nat) (v : Word) : (t.wr n v).rnd = t.rnd := by unfold Thread.wr; split <;> rfl
@[simp] theorem wr_stkp (t : Thread) (n : Nat) (v : Word) : (t.wr n v).stkp = t.stkp := by unfold Thread.wr; split <;> rfl
@[simp] theorem wr_prio (t : Thread) (n : Nat) (v : Word) : (t.wr n v).prio = t.prio := by unfold Thread.wr; split <;> rfl
@[simp] theorem wr_priol (t : Thread) (n : Nat) (v : Word) : (t.wr n v).priol = t.priol := by unfold Thread.wr; split <;> rfl
@[simp] theorem wr_hnd (t : Thread) (n : Nat) (v : Word) : (t.wr n v).hnd = t.hnd := by unfold Thread.wr; split <;> rfl
@[simp] theorem wr_upv (t : Thread) (n : Nat) (v : Word) : (t.wr n v).upv = t.upv := by unfold Thread.wr; split <;> rfl
@[simp] theorem wr_fcause (t : Thread) (n : Nat) (v : Word) : (t.wr n v).fcause = t.fcause := by unfold Thread.wr; split <;> rfl
@[simp] theorem wr_region (t : Thread) (n : Nat) (v : Word) : (t.wr n v).region = t.region := by unfold Thread.wr; split <;> rfl
@[simp] theorem wr_waitarg (t : Thread) (n : Nat) (v : Word) : (t.wr n v).waitarg = t.waitarg := by unfold Thread.wr; split <;> rfl
@[simp] theorem wr_deadline (t : Thread) (n : Nat) (v : Word) : (t.wr n v).deadline = t.deadline := by unfold Thread.wr; split <;> rfl
@[simp] theorem wr_incnt (t : Thread) (n : Nat) (v : Word) : (t.wr n v).incnt = t.incnt := by unfold Thread.wr; split <;> rfl
@[simp] theorem wr_inhead (t : Thread) (n : Nat) (v : Word) : (t.wr n v).inhead = t.inhead := by unfold Thread.wr; split <;> rfl
@[simp] theorem wr_msgs (t : Thread) (n : Nat) (v : Word) : (t.wr n v).msgs = t.msgs := by unfold Thread.wr; split <;> rfl
@[simp] theorem wr_age (t : Thread) (n : Nat) (v : Word) : (t.wr n v).age = t.age := by unfold Thread.wr; split <;> rfl
@[simp] theorem wr_aged (t : Thread) (n : Nat) (v : Word) : (t.wr n v).aged = t.aged := by unfold Thread.wr; split <;> rfl
@[simp] theorem wr_readySince (t : Thread) (n : Nat) (v : Word) : (t.wr n v).readySince = t.readySince := by unfold Thread.wr; split <;> rfl
@[simp] theorem wr_slotSince (t : Thread) (n : Nat) (v : Word) : (t.wr n v).slotSince = t.slotSince := by unfold Thread.wr; split <;> rfl
@[simp] theorem wr_waitSince (t : Thread) (n : Nat) (v : Word) : (t.wr n v).waitSince = t.waitSince := by unfold Thread.wr; split <;> rfl
@[simp] theorem wr_reach (t : Thread) (n : Nat) (v : Word) : (t.wr n v).reach = t.reach := by unfold Thread.wr; split <;> rfl
@[simp] theorem wr_claim (t : Thread) (n : Nat) (v : Word) : (t.wr n v).claim = t.claim := by unfold Thread.wr; split <;> rfl
@[simp] theorem wr_issuedAt (t : Thread) (n : Nat) (v : Word) : (t.wr n v).issuedAt = t.issuedAt := by unfold Thread.wr; split <;> rfl
@[simp] theorem wr_ctl (t : Thread) (n : Nat) (v : Word) : (t.wr n v).ctl = t.ctl := by unfold Thread.wr; split <;> rfl
@[simp] theorem wr_linesIn (t : Thread) (n : Nat) (v : Word) : (t.wr n v).linesIn = t.linesIn := by unfold Thread.wr; split <;> rfl
@[simp] theorem wr_placed (t : Thread) (n : Nat) (v : Word) : (t.wr n v).placed = t.placed := by unfold Thread.wr; split <;> rfl
@[simp] theorem wr_snap (t : Thread) (n : Nat) (v : Word) : (t.wr n v).snap = t.snap := by unfold Thread.wr; split <;> rfl
@[simp] theorem wr_stores (t : Thread) (n : Nat) (v : Word) : (t.wr n v).stores = t.stores := by unfold Thread.wr; split <;> rfl
@[simp] theorem wr_fills (t : Thread) (n : Nat) (v : Word) : (t.wr n v).fills = t.fills := by unfold Thread.wr; split <;> rfl
@[simp] theorem wr_walk (t : Thread) (n : Nat) (v : Word) : (t.wr n v).walk = t.walk := by unfold Thread.wr; split <;> rfl
@[simp] theorem wr_retryAt (t : Thread) (n : Nat) (v : Word) : (t.wr n v).retryAt = t.retryAt := by unfold Thread.wr; split <;> rfl
@[simp] theorem wr_killed (t : Thread) (n : Nat) (v : Word) : (t.wr n v).killed = t.killed := by unfold Thread.wr; split <;> rfl
@[simp] theorem wr_asyncs (t : Thread) (n : Nat) (v : Word) : (t.wr n v).asyncs = t.asyncs := by unfold Thread.wr; split <;> rfl
@[simp] theorem wr_stepped (t : Thread) (n : Nat) (v : Word) : (t.wr n v).stepped = t.stepped := by unfold Thread.wr; split <;> rfl
@[simp] theorem wr_preempt (t : Thread) (n : Nat) (v : Word) : (t.wr n v).preempt = t.preempt := by unfold Thread.wr; split <;> rfl
@[simp] theorem wr_launch (t : Thread) (n : Nat) (v : Word) : (t.wr n v).launch = t.launch := by unfold Thread.wr; split <;> rfl
@[simp] theorem wr_gang (t : Thread) (n : Nat) (v : Word) : (t.wr n v).gang = t.gang := by unfold Thread.wr; split <;> rfl
@[simp] theorem wr_pend (t : Thread) (n : Nat) (v : Word) : (t.wr n v).pend = t.pend := by unfold Thread.wr; split <;> rfl
@[simp] theorem wr_req (t : Thread) (n : Nat) (v : Word) : (t.wr n v).req = t.req := by unfold Thread.wr; split <;> rfl
@[simp] theorem wr_iword (t : Thread) (n : Nat) (v : Word) : (t.wr n v).iword = t.iword := by unfold Thread.wr; split <;> rfl
@[simp] theorem wr_cond (t : Thread) (n : Nat) (v : Word) : (t.wr n v).cond = t.cond := by unfold Thread.wr; split <;> rfl
@[simp] theorem wr_pool (t : Thread) (n : Nat) (v : Word) : (t.wr n v).pool = t.pool := by unfold Thread.wr; split <;> rfl
@[simp] theorem wr_served (t : Thread) (n : Nat) (v : Word) : (t.wr n v).served = t.served := by unfold Thread.wr; split <;> rfl
@[simp] theorem wr_fenced (t : Thread) (n : Nat) (v : Word) : (t.wr n v).fenced = t.fenced := by unfold Thread.wr; split <;> rfl
@[simp] theorem wr_saw (t : Thread) (n : Nat) (v : Word) : (t.wr n v).saw = t.saw := by unfold Thread.wr; split <;> rfl

/-! `Thread.clr` changes fe alone. -/
@[simp] theorem clr_id (t : Thread) (n : Nat) : (t.clr n).id = t.id := by unfold Thread.clr; split <;> rfl
@[simp] theorem clr_home (t : Thread) (n : Nat) : (t.clr n).home = t.home := by unfold Thread.clr; split <;> rfl
@[simp] theorem clr_core (t : Thread) (n : Nat) : (t.clr n).core = t.core := by unfold Thread.clr; split <;> rfl
@[simp] theorem clr_st (t : Thread) (n : Nat) : (t.clr n).st = t.st := by unfold Thread.clr; split <;> rfl
@[simp] theorem clr_slot (t : Thread) (n : Nat) : (t.clr n).slot = t.slot := by unfold Thread.clr; split <;> rfl
@[simp] theorem clr_pc (t : Thread) (n : Nat) : (t.clr n).pc = t.pc := by unfold Thread.clr; split <;> rfl
@[simp] theorem clr_pred (t : Thread) (n : Nat) : (t.clr n).pred = t.pred := by unfold Thread.clr; split <;> rfl
@[simp] theorem clr_lines (t : Thread) (n : Nat) : (t.clr n).lines = t.lines := by unfold Thread.clr; split <;> rfl
@[simp] theorem clr_g (t : Thread) (n : Nat) : (t.clr n).g = t.g := by unfold Thread.clr; split <;> rfl
@[simp] theorem clr_emt (t : Thread) (n : Nat) : (t.clr n).emt = t.emt := by unfold Thread.clr; split <;> rfl
@[simp] theorem clr_fpf (t : Thread) (n : Nat) : (t.clr n).fpf = t.fpf := by unfold Thread.clr; split <;> rfl
@[simp] theorem clr_rnd (t : Thread) (n : Nat) : (t.clr n).rnd = t.rnd := by unfold Thread.clr; split <;> rfl
@[simp] theorem clr_stkp (t : Thread) (n : Nat) : (t.clr n).stkp = t.stkp := by unfold Thread.clr; split <;> rfl
@[simp] theorem clr_prio (t : Thread) (n : Nat) : (t.clr n).prio = t.prio := by unfold Thread.clr; split <;> rfl
@[simp] theorem clr_priol (t : Thread) (n : Nat) : (t.clr n).priol = t.priol := by unfold Thread.clr; split <;> rfl
@[simp] theorem clr_hnd (t : Thread) (n : Nat) : (t.clr n).hnd = t.hnd := by unfold Thread.clr; split <;> rfl
@[simp] theorem clr_upv (t : Thread) (n : Nat) : (t.clr n).upv = t.upv := by unfold Thread.clr; split <;> rfl
@[simp] theorem clr_fcause (t : Thread) (n : Nat) : (t.clr n).fcause = t.fcause := by unfold Thread.clr; split <;> rfl
@[simp] theorem clr_region (t : Thread) (n : Nat) : (t.clr n).region = t.region := by unfold Thread.clr; split <;> rfl
@[simp] theorem clr_waitarg (t : Thread) (n : Nat) : (t.clr n).waitarg = t.waitarg := by unfold Thread.clr; split <;> rfl
@[simp] theorem clr_deadline (t : Thread) (n : Nat) : (t.clr n).deadline = t.deadline := by unfold Thread.clr; split <;> rfl
@[simp] theorem clr_incnt (t : Thread) (n : Nat) : (t.clr n).incnt = t.incnt := by unfold Thread.clr; split <;> rfl
@[simp] theorem clr_inhead (t : Thread) (n : Nat) : (t.clr n).inhead = t.inhead := by unfold Thread.clr; split <;> rfl
@[simp] theorem clr_msgs (t : Thread) (n : Nat) : (t.clr n).msgs = t.msgs := by unfold Thread.clr; split <;> rfl
@[simp] theorem clr_age (t : Thread) (n : Nat) : (t.clr n).age = t.age := by unfold Thread.clr; split <;> rfl
@[simp] theorem clr_aged (t : Thread) (n : Nat) : (t.clr n).aged = t.aged := by unfold Thread.clr; split <;> rfl
@[simp] theorem clr_readySince (t : Thread) (n : Nat) : (t.clr n).readySince = t.readySince := by unfold Thread.clr; split <;> rfl
@[simp] theorem clr_slotSince (t : Thread) (n : Nat) : (t.clr n).slotSince = t.slotSince := by unfold Thread.clr; split <;> rfl
@[simp] theorem clr_waitSince (t : Thread) (n : Nat) : (t.clr n).waitSince = t.waitSince := by unfold Thread.clr; split <;> rfl
@[simp] theorem clr_reach (t : Thread) (n : Nat) : (t.clr n).reach = t.reach := by unfold Thread.clr; split <;> rfl
@[simp] theorem clr_claim (t : Thread) (n : Nat) : (t.clr n).claim = t.claim := by unfold Thread.clr; split <;> rfl
@[simp] theorem clr_issuedAt (t : Thread) (n : Nat) : (t.clr n).issuedAt = t.issuedAt := by unfold Thread.clr; split <;> rfl
@[simp] theorem clr_ctl (t : Thread) (n : Nat) : (t.clr n).ctl = t.ctl := by unfold Thread.clr; split <;> rfl
@[simp] theorem clr_linesIn (t : Thread) (n : Nat) : (t.clr n).linesIn = t.linesIn := by unfold Thread.clr; split <;> rfl
@[simp] theorem clr_placed (t : Thread) (n : Nat) : (t.clr n).placed = t.placed := by unfold Thread.clr; split <;> rfl
@[simp] theorem clr_snap (t : Thread) (n : Nat) : (t.clr n).snap = t.snap := by unfold Thread.clr; split <;> rfl
@[simp] theorem clr_stores (t : Thread) (n : Nat) : (t.clr n).stores = t.stores := by unfold Thread.clr; split <;> rfl
@[simp] theorem clr_fills (t : Thread) (n : Nat) : (t.clr n).fills = t.fills := by unfold Thread.clr; split <;> rfl
@[simp] theorem clr_walk (t : Thread) (n : Nat) : (t.clr n).walk = t.walk := by unfold Thread.clr; split <;> rfl
@[simp] theorem clr_retryAt (t : Thread) (n : Nat) : (t.clr n).retryAt = t.retryAt := by unfold Thread.clr; split <;> rfl
@[simp] theorem clr_killed (t : Thread) (n : Nat) : (t.clr n).killed = t.killed := by unfold Thread.clr; split <;> rfl
@[simp] theorem clr_asyncs (t : Thread) (n : Nat) : (t.clr n).asyncs = t.asyncs := by unfold Thread.clr; split <;> rfl
@[simp] theorem clr_stepped (t : Thread) (n : Nat) : (t.clr n).stepped = t.stepped := by unfold Thread.clr; split <;> rfl
@[simp] theorem clr_preempt (t : Thread) (n : Nat) : (t.clr n).preempt = t.preempt := by unfold Thread.clr; split <;> rfl
@[simp] theorem clr_launch (t : Thread) (n : Nat) : (t.clr n).launch = t.launch := by unfold Thread.clr; split <;> rfl
@[simp] theorem clr_gang (t : Thread) (n : Nat) : (t.clr n).gang = t.gang := by unfold Thread.clr; split <;> rfl
@[simp] theorem clr_pend (t : Thread) (n : Nat) : (t.clr n).pend = t.pend := by unfold Thread.clr; split <;> rfl
@[simp] theorem clr_req (t : Thread) (n : Nat) : (t.clr n).req = t.req := by unfold Thread.clr; split <;> rfl
@[simp] theorem clr_iword (t : Thread) (n : Nat) : (t.clr n).iword = t.iword := by unfold Thread.clr; split <;> rfl
@[simp] theorem clr_cond (t : Thread) (n : Nat) : (t.clr n).cond = t.cond := by unfold Thread.clr; split <;> rfl
@[simp] theorem clr_pool (t : Thread) (n : Nat) : (t.clr n).pool = t.pool := by unfold Thread.clr; split <;> rfl
@[simp] theorem clr_served (t : Thread) (n : Nat) : (t.clr n).served = t.served := by unfold Thread.clr; split <;> rfl
@[simp] theorem clr_fenced (t : Thread) (n : Nat) : (t.clr n).fenced = t.fenced := by unfold Thread.clr; split <;> rfl
@[simp] theorem clr_saw (t : Thread) (n : Nat) : (t.clr n).saw = t.saw := by unfold Thread.clr; split <;> rfl

/-! `Thread.wp` changes pred alone. -/
@[simp] theorem wp_id (t : Thread) (p : Pred) (b : Bool) : (t.wp p b).id = t.id := by unfold Thread.wp; split <;> rfl
@[simp] theorem wp_home (t : Thread) (p : Pred) (b : Bool) : (t.wp p b).home = t.home := by unfold Thread.wp; split <;> rfl
@[simp] theorem wp_core (t : Thread) (p : Pred) (b : Bool) : (t.wp p b).core = t.core := by unfold Thread.wp; split <;> rfl
@[simp] theorem wp_st (t : Thread) (p : Pred) (b : Bool) : (t.wp p b).st = t.st := by unfold Thread.wp; split <;> rfl
@[simp] theorem wp_slot (t : Thread) (p : Pred) (b : Bool) : (t.wp p b).slot = t.slot := by unfold Thread.wp; split <;> rfl
@[simp] theorem wp_pc (t : Thread) (p : Pred) (b : Bool) : (t.wp p b).pc = t.pc := by unfold Thread.wp; split <;> rfl
@[simp] theorem wp_lines (t : Thread) (p : Pred) (b : Bool) : (t.wp p b).lines = t.lines := by unfold Thread.wp; split <;> rfl
@[simp] theorem wp_g (t : Thread) (p : Pred) (b : Bool) : (t.wp p b).g = t.g := by unfold Thread.wp; split <;> rfl
@[simp] theorem wp_fe (t : Thread) (p : Pred) (b : Bool) : (t.wp p b).fe = t.fe := by unfold Thread.wp; split <;> rfl
@[simp] theorem wp_emt (t : Thread) (p : Pred) (b : Bool) : (t.wp p b).emt = t.emt := by unfold Thread.wp; split <;> rfl
@[simp] theorem wp_fpf (t : Thread) (p : Pred) (b : Bool) : (t.wp p b).fpf = t.fpf := by unfold Thread.wp; split <;> rfl
@[simp] theorem wp_rnd (t : Thread) (p : Pred) (b : Bool) : (t.wp p b).rnd = t.rnd := by unfold Thread.wp; split <;> rfl
@[simp] theorem wp_stkp (t : Thread) (p : Pred) (b : Bool) : (t.wp p b).stkp = t.stkp := by unfold Thread.wp; split <;> rfl
@[simp] theorem wp_prio (t : Thread) (p : Pred) (b : Bool) : (t.wp p b).prio = t.prio := by unfold Thread.wp; split <;> rfl
@[simp] theorem wp_priol (t : Thread) (p : Pred) (b : Bool) : (t.wp p b).priol = t.priol := by unfold Thread.wp; split <;> rfl
@[simp] theorem wp_hnd (t : Thread) (p : Pred) (b : Bool) : (t.wp p b).hnd = t.hnd := by unfold Thread.wp; split <;> rfl
@[simp] theorem wp_upv (t : Thread) (p : Pred) (b : Bool) : (t.wp p b).upv = t.upv := by unfold Thread.wp; split <;> rfl
@[simp] theorem wp_fcause (t : Thread) (p : Pred) (b : Bool) : (t.wp p b).fcause = t.fcause := by unfold Thread.wp; split <;> rfl
@[simp] theorem wp_region (t : Thread) (p : Pred) (b : Bool) : (t.wp p b).region = t.region := by unfold Thread.wp; split <;> rfl
@[simp] theorem wp_waitarg (t : Thread) (p : Pred) (b : Bool) : (t.wp p b).waitarg = t.waitarg := by unfold Thread.wp; split <;> rfl
@[simp] theorem wp_deadline (t : Thread) (p : Pred) (b : Bool) : (t.wp p b).deadline = t.deadline := by unfold Thread.wp; split <;> rfl
@[simp] theorem wp_incnt (t : Thread) (p : Pred) (b : Bool) : (t.wp p b).incnt = t.incnt := by unfold Thread.wp; split <;> rfl
@[simp] theorem wp_inhead (t : Thread) (p : Pred) (b : Bool) : (t.wp p b).inhead = t.inhead := by unfold Thread.wp; split <;> rfl
@[simp] theorem wp_msgs (t : Thread) (p : Pred) (b : Bool) : (t.wp p b).msgs = t.msgs := by unfold Thread.wp; split <;> rfl
@[simp] theorem wp_age (t : Thread) (p : Pred) (b : Bool) : (t.wp p b).age = t.age := by unfold Thread.wp; split <;> rfl
@[simp] theorem wp_aged (t : Thread) (p : Pred) (b : Bool) : (t.wp p b).aged = t.aged := by unfold Thread.wp; split <;> rfl
@[simp] theorem wp_readySince (t : Thread) (p : Pred) (b : Bool) : (t.wp p b).readySince = t.readySince := by unfold Thread.wp; split <;> rfl
@[simp] theorem wp_slotSince (t : Thread) (p : Pred) (b : Bool) : (t.wp p b).slotSince = t.slotSince := by unfold Thread.wp; split <;> rfl
@[simp] theorem wp_waitSince (t : Thread) (p : Pred) (b : Bool) : (t.wp p b).waitSince = t.waitSince := by unfold Thread.wp; split <;> rfl
@[simp] theorem wp_reach (t : Thread) (p : Pred) (b : Bool) : (t.wp p b).reach = t.reach := by unfold Thread.wp; split <;> rfl
@[simp] theorem wp_claim (t : Thread) (p : Pred) (b : Bool) : (t.wp p b).claim = t.claim := by unfold Thread.wp; split <;> rfl
@[simp] theorem wp_issuedAt (t : Thread) (p : Pred) (b : Bool) : (t.wp p b).issuedAt = t.issuedAt := by unfold Thread.wp; split <;> rfl
@[simp] theorem wp_ctl (t : Thread) (p : Pred) (b : Bool) : (t.wp p b).ctl = t.ctl := by unfold Thread.wp; split <;> rfl
@[simp] theorem wp_linesIn (t : Thread) (p : Pred) (b : Bool) : (t.wp p b).linesIn = t.linesIn := by unfold Thread.wp; split <;> rfl
@[simp] theorem wp_placed (t : Thread) (p : Pred) (b : Bool) : (t.wp p b).placed = t.placed := by unfold Thread.wp; split <;> rfl
@[simp] theorem wp_snap (t : Thread) (p : Pred) (b : Bool) : (t.wp p b).snap = t.snap := by unfold Thread.wp; split <;> rfl
@[simp] theorem wp_stores (t : Thread) (p : Pred) (b : Bool) : (t.wp p b).stores = t.stores := by unfold Thread.wp; split <;> rfl
@[simp] theorem wp_fills (t : Thread) (p : Pred) (b : Bool) : (t.wp p b).fills = t.fills := by unfold Thread.wp; split <;> rfl
@[simp] theorem wp_walk (t : Thread) (p : Pred) (b : Bool) : (t.wp p b).walk = t.walk := by unfold Thread.wp; split <;> rfl
@[simp] theorem wp_retryAt (t : Thread) (p : Pred) (b : Bool) : (t.wp p b).retryAt = t.retryAt := by unfold Thread.wp; split <;> rfl
@[simp] theorem wp_killed (t : Thread) (p : Pred) (b : Bool) : (t.wp p b).killed = t.killed := by unfold Thread.wp; split <;> rfl
@[simp] theorem wp_asyncs (t : Thread) (p : Pred) (b : Bool) : (t.wp p b).asyncs = t.asyncs := by unfold Thread.wp; split <;> rfl
@[simp] theorem wp_stepped (t : Thread) (p : Pred) (b : Bool) : (t.wp p b).stepped = t.stepped := by unfold Thread.wp; split <;> rfl
@[simp] theorem wp_preempt (t : Thread) (p : Pred) (b : Bool) : (t.wp p b).preempt = t.preempt := by unfold Thread.wp; split <;> rfl
@[simp] theorem wp_launch (t : Thread) (p : Pred) (b : Bool) : (t.wp p b).launch = t.launch := by unfold Thread.wp; split <;> rfl
@[simp] theorem wp_gang (t : Thread) (p : Pred) (b : Bool) : (t.wp p b).gang = t.gang := by unfold Thread.wp; split <;> rfl
@[simp] theorem wp_pend (t : Thread) (p : Pred) (b : Bool) : (t.wp p b).pend = t.pend := by unfold Thread.wp; split <;> rfl
@[simp] theorem wp_req (t : Thread) (p : Pred) (b : Bool) : (t.wp p b).req = t.req := by unfold Thread.wp; split <;> rfl
@[simp] theorem wp_iword (t : Thread) (p : Pred) (b : Bool) : (t.wp p b).iword = t.iword := by unfold Thread.wp; split <;> rfl
@[simp] theorem wp_cond (t : Thread) (p : Pred) (b : Bool) : (t.wp p b).cond = t.cond := by unfold Thread.wp; split <;> rfl
@[simp] theorem wp_pool (t : Thread) (p : Pred) (b : Bool) : (t.wp p b).pool = t.pool := by unfold Thread.wp; split <;> rfl
@[simp] theorem wp_served (t : Thread) (p : Pred) (b : Bool) : (t.wp p b).served = t.served := by unfold Thread.wp; split <;> rfl
@[simp] theorem wp_fenced (t : Thread) (p : Pred) (b : Bool) : (t.wp p b).fenced = t.fenced := by unfold Thread.wp; split <;> rfl
@[simp] theorem wp_saw (t : Thread) (p : Pred) (b : Bool) : (t.wp p b).saw = t.saw := by unfold Thread.wp; split <;> rfl

/-! `Thread.setRnd` changes rnd alone. -/
@[simp] theorem setRnd_id (t : Thread) (v : Nat) : (t.setRnd v).id = t.id := by unfold Thread.setRnd; split <;> rfl
@[simp] theorem setRnd_home (t : Thread) (v : Nat) : (t.setRnd v).home = t.home := by unfold Thread.setRnd; split <;> rfl
@[simp] theorem setRnd_core (t : Thread) (v : Nat) : (t.setRnd v).core = t.core := by unfold Thread.setRnd; split <;> rfl
@[simp] theorem setRnd_st (t : Thread) (v : Nat) : (t.setRnd v).st = t.st := by unfold Thread.setRnd; split <;> rfl
@[simp] theorem setRnd_slot (t : Thread) (v : Nat) : (t.setRnd v).slot = t.slot := by unfold Thread.setRnd; split <;> rfl
@[simp] theorem setRnd_pc (t : Thread) (v : Nat) : (t.setRnd v).pc = t.pc := by unfold Thread.setRnd; split <;> rfl
@[simp] theorem setRnd_pred (t : Thread) (v : Nat) : (t.setRnd v).pred = t.pred := by unfold Thread.setRnd; split <;> rfl
@[simp] theorem setRnd_lines (t : Thread) (v : Nat) : (t.setRnd v).lines = t.lines := by unfold Thread.setRnd; split <;> rfl
@[simp] theorem setRnd_g (t : Thread) (v : Nat) : (t.setRnd v).g = t.g := by unfold Thread.setRnd; split <;> rfl
@[simp] theorem setRnd_fe (t : Thread) (v : Nat) : (t.setRnd v).fe = t.fe := by unfold Thread.setRnd; split <;> rfl
@[simp] theorem setRnd_emt (t : Thread) (v : Nat) : (t.setRnd v).emt = t.emt := by unfold Thread.setRnd; split <;> rfl
@[simp] theorem setRnd_fpf (t : Thread) (v : Nat) : (t.setRnd v).fpf = t.fpf := by unfold Thread.setRnd; split <;> rfl
@[simp] theorem setRnd_stkp (t : Thread) (v : Nat) : (t.setRnd v).stkp = t.stkp := by unfold Thread.setRnd; split <;> rfl
@[simp] theorem setRnd_prio (t : Thread) (v : Nat) : (t.setRnd v).prio = t.prio := by unfold Thread.setRnd; split <;> rfl
@[simp] theorem setRnd_priol (t : Thread) (v : Nat) : (t.setRnd v).priol = t.priol := by unfold Thread.setRnd; split <;> rfl
@[simp] theorem setRnd_hnd (t : Thread) (v : Nat) : (t.setRnd v).hnd = t.hnd := by unfold Thread.setRnd; split <;> rfl
@[simp] theorem setRnd_upv (t : Thread) (v : Nat) : (t.setRnd v).upv = t.upv := by unfold Thread.setRnd; split <;> rfl
@[simp] theorem setRnd_fcause (t : Thread) (v : Nat) : (t.setRnd v).fcause = t.fcause := by unfold Thread.setRnd; split <;> rfl
@[simp] theorem setRnd_region (t : Thread) (v : Nat) : (t.setRnd v).region = t.region := by unfold Thread.setRnd; split <;> rfl
@[simp] theorem setRnd_waitarg (t : Thread) (v : Nat) : (t.setRnd v).waitarg = t.waitarg := by unfold Thread.setRnd; split <;> rfl
@[simp] theorem setRnd_deadline (t : Thread) (v : Nat) : (t.setRnd v).deadline = t.deadline := by unfold Thread.setRnd; split <;> rfl
@[simp] theorem setRnd_incnt (t : Thread) (v : Nat) : (t.setRnd v).incnt = t.incnt := by unfold Thread.setRnd; split <;> rfl
@[simp] theorem setRnd_inhead (t : Thread) (v : Nat) : (t.setRnd v).inhead = t.inhead := by unfold Thread.setRnd; split <;> rfl
@[simp] theorem setRnd_msgs (t : Thread) (v : Nat) : (t.setRnd v).msgs = t.msgs := by unfold Thread.setRnd; split <;> rfl
@[simp] theorem setRnd_age (t : Thread) (v : Nat) : (t.setRnd v).age = t.age := by unfold Thread.setRnd; split <;> rfl
@[simp] theorem setRnd_aged (t : Thread) (v : Nat) : (t.setRnd v).aged = t.aged := by unfold Thread.setRnd; split <;> rfl
@[simp] theorem setRnd_readySince (t : Thread) (v : Nat) : (t.setRnd v).readySince = t.readySince := by unfold Thread.setRnd; split <;> rfl
@[simp] theorem setRnd_slotSince (t : Thread) (v : Nat) : (t.setRnd v).slotSince = t.slotSince := by unfold Thread.setRnd; split <;> rfl
@[simp] theorem setRnd_waitSince (t : Thread) (v : Nat) : (t.setRnd v).waitSince = t.waitSince := by unfold Thread.setRnd; split <;> rfl
@[simp] theorem setRnd_reach (t : Thread) (v : Nat) : (t.setRnd v).reach = t.reach := by unfold Thread.setRnd; split <;> rfl
@[simp] theorem setRnd_claim (t : Thread) (v : Nat) : (t.setRnd v).claim = t.claim := by unfold Thread.setRnd; split <;> rfl
@[simp] theorem setRnd_issuedAt (t : Thread) (v : Nat) : (t.setRnd v).issuedAt = t.issuedAt := by unfold Thread.setRnd; split <;> rfl
@[simp] theorem setRnd_ctl (t : Thread) (v : Nat) : (t.setRnd v).ctl = t.ctl := by unfold Thread.setRnd; split <;> rfl
@[simp] theorem setRnd_linesIn (t : Thread) (v : Nat) : (t.setRnd v).linesIn = t.linesIn := by unfold Thread.setRnd; split <;> rfl
@[simp] theorem setRnd_placed (t : Thread) (v : Nat) : (t.setRnd v).placed = t.placed := by unfold Thread.setRnd; split <;> rfl
@[simp] theorem setRnd_snap (t : Thread) (v : Nat) : (t.setRnd v).snap = t.snap := by unfold Thread.setRnd; split <;> rfl
@[simp] theorem setRnd_stores (t : Thread) (v : Nat) : (t.setRnd v).stores = t.stores := by unfold Thread.setRnd; split <;> rfl
@[simp] theorem setRnd_fills (t : Thread) (v : Nat) : (t.setRnd v).fills = t.fills := by unfold Thread.setRnd; split <;> rfl
@[simp] theorem setRnd_walk (t : Thread) (v : Nat) : (t.setRnd v).walk = t.walk := by unfold Thread.setRnd; split <;> rfl
@[simp] theorem setRnd_retryAt (t : Thread) (v : Nat) : (t.setRnd v).retryAt = t.retryAt := by unfold Thread.setRnd; split <;> rfl
@[simp] theorem setRnd_killed (t : Thread) (v : Nat) : (t.setRnd v).killed = t.killed := by unfold Thread.setRnd; split <;> rfl
@[simp] theorem setRnd_asyncs (t : Thread) (v : Nat) : (t.setRnd v).asyncs = t.asyncs := by unfold Thread.setRnd; split <;> rfl
@[simp] theorem setRnd_stepped (t : Thread) (v : Nat) : (t.setRnd v).stepped = t.stepped := by unfold Thread.setRnd; split <;> rfl
@[simp] theorem setRnd_preempt (t : Thread) (v : Nat) : (t.setRnd v).preempt = t.preempt := by unfold Thread.setRnd; split <;> rfl
@[simp] theorem setRnd_launch (t : Thread) (v : Nat) : (t.setRnd v).launch = t.launch := by unfold Thread.setRnd; split <;> rfl
@[simp] theorem setRnd_gang (t : Thread) (v : Nat) : (t.setRnd v).gang = t.gang := by unfold Thread.setRnd; split <;> rfl
@[simp] theorem setRnd_pend (t : Thread) (v : Nat) : (t.setRnd v).pend = t.pend := by unfold Thread.setRnd; split <;> rfl
@[simp] theorem setRnd_req (t : Thread) (v : Nat) : (t.setRnd v).req = t.req := by unfold Thread.setRnd; split <;> rfl
@[simp] theorem setRnd_iword (t : Thread) (v : Nat) : (t.setRnd v).iword = t.iword := by unfold Thread.setRnd; split <;> rfl
@[simp] theorem setRnd_cond (t : Thread) (v : Nat) : (t.setRnd v).cond = t.cond := by unfold Thread.setRnd; split <;> rfl
@[simp] theorem setRnd_pool (t : Thread) (v : Nat) : (t.setRnd v).pool = t.pool := by unfold Thread.setRnd; split <;> rfl
@[simp] theorem setRnd_served (t : Thread) (v : Nat) : (t.setRnd v).served = t.served := by unfold Thread.setRnd; split <;> rfl
@[simp] theorem setRnd_fenced (t : Thread) (v : Nat) : (t.setRnd v).fenced = t.fenced := by unfold Thread.setRnd; split <;> rfl
@[simp] theorem setRnd_saw (t : Thread) (v : Nat) : (t.setRnd v).saw = t.saw := by unfold Thread.setRnd; split <;> rfl

end Sys2Proof.Laws
end

