-- ==== Sys2Proof/Laws/Memory.lean ====
section
/-! SUPPORT. Memory: every operation that writes bytes keeps the canonical form, and what a byte reads as after a write
(10 R230). -/
namespace Sys2Proof.Laws
open Sys2Proof.Machine

/-- The memory of a state is in canonical form. -/
abbrev Wf (s : State) : Prop := Memory.wf s.mem

/-- A list of state changes each of which keeps the canonical form keeps it. -/
theorem wf_foldl {α : Type} {f : State → α → State} (hf : ∀ s x, Wf s → Wf (f s x)) (l : List α) (s : State) (h : Wf s) :
    Wf (l.foldl f s) := by
  induction l generalizing s with
  | nil => exact h
  | cons x l ih => exact ih _ (hf s x h)

theorem wf_reset : Wf State.reset := rfl

theorem wf_pokeByte {s : State} {a : Nat} {b : Byte} (h : Wf s) : Wf (s.pokeByte a b) := canon_set h

theorem wf_pokeBytes {s : State} {a : Nat} {bs : List Byte} (h : Wf s) : Wf (s.pokeBytes a bs) := by
  induction bs generalizing s a with
  | nil => exact h
  | cons b bs ih => exact ih (wf_pokeByte h)

theorem wf_rekey {s : State} {d a : Nat} (h : Wf s) : Wf (s.rekey d a) := by
  unfold State.rekey
  split
  · exact h
  · exact wf_pokeBytes (s := s) h

theorem wf_writeLine {s : State} {d a : Nat} {bs : List Byte} (h : Wf s) : Wf (s.writeLine d a bs) := by
  unfold State.writeLine
  apply wf_pokeBytes
  split
  · exact h
  · split
    · exact h
    · exact wf_rekey h

theorem wf_writeAs {s : State} {d a : Nat} {bs : List Byte} (h : Wf s) : Wf (s.writeAs d a bs) := by
  unfold State.writeAs
  dsimp only
  split
  · exact wf_writeLine (s := s.unpoison a bs.length) h
  · refine wf_foldl (fun s k h => ?_) _ _ h
    split <;> split <;> first | exact h | exact wf_writeLine h

theorem wf_noteOperand {s : State} {a n : Nat} (h : Wf s) : Wf (s.noteOperand a n) := by
  unfold State.noteOperand
  split <;> exact h

theorem wf_writeRaw {s : State} {d a : Nat} {bs : List Byte} (h : Wf s) : Wf (s.writeRaw d a bs) := by
  unfold State.writeRaw
  split
  · split <;> exact h
  · exact wf_noteOperand (wf_writeAs h)

theorem wf_orEntry {s : State} {d a m : Nat} (h : Wf s) : Wf (s.orEntry d a m) := wf_writeAs h

theorem wf_markLeaf {s : State} {d : Nat} {x : Walked} {w : Bool} (h : Wf s) : Wf (s.markLeaf d x w) := by
  unfold State.markLeaf
  split
  · exact h
  · exact wf_orEntry h

theorem wf_touch {s : State} {die d a : Nat} {w : Bool} (h : Wf s) : Wf (s.touch die d a w) := by
  unfold State.touch
  split
  · exact wf_markLeaf h
  · exact h

theorem wf_devPut {s s' : State} {die d a : Nat} {bs : List Byte} {free : Bool} (h : Wf s)
    (e : s.devPut die d a bs free = .ok s') : Wf s' := by
  unfold State.devPut at e
  split at e
  · cases e
  · split at e
    · simp only [Except.ok.injEq] at e
      subst e
      split
      · exact wf_writeAs (wf_writeAs (wf_touch h))
      · exact wf_writeAs (wf_touch h)
    · cases e

theorem wf_takeEntry {s : State} {w : Waiter} {src home d p old : Nat} (h : Wf s) : Wf (s.takeEntry w src home d p old) := by
  unfold State.takeEntry
  split <;> exact h

/-- A device write that is performed keeps the canonical form. -/
theorem wf_devPerform {s s' : State} {o : DevOp} (h : Wf s) (e : s.devPerform o = .ok s') : Wf s' := by
  unfold State.devPerform at e
  split at e
  · exact wf_devPut h e
  · exact wf_devPut h e
  · exact wf_devPut h e
  · split at e
    · cases e
    · split at e
      · cases e
      · rename_i h1
        simp only [Except.ok.injEq] at e
        subst e
        exact wf_takeEntry (wf_devPut h h1)
  all_goals
    split at e
    · cases e
    · exact wf_devPut h e

/-- A device write, performed or held, keeps the canonical form. -/
theorem wf_devDo {s s' : State} {o : DevOp} (h : Wf s) (e : s.devDo o = .ok s') : Wf s' := by
  unfold State.devDo at e
  split at e
  · simp only [Except.ok.injEq] at e
    subst e
    split
    · unfold State.awaitCredit
      split <;> exact h
    · exact h
  · exact wf_devPerform h e

theorem wf_devWrite {s s' : State} {die d a : Nat} {bs : List Byte} (h : Wf s) (e : s.devWrite die d a bs = .ok s') : Wf s' :=
  wf_devDo h e

theorem wf_zeroWhere {s : State} {p : Nat → Bool} (h : Wf s) : Wf (s.zeroWhere p) := canon_filter h

theorem rawByte_pokeByte (s : State) (a : Nat) (b : Byte) (x : Nat) :
    (s.pokeByte a b).rawByte x = if x = a then b else s.rawByte x := get_set s.mem

/-- Bytes outside those stored read as before. -/
theorem rawByte_pokeBytes_out (s : State) (a : Nat) (bs : List Byte) {x : Nat} (hx : x < a ∨ a + bs.length ≤ x) :
    (s.pokeBytes a bs).rawByte x = s.rawByte x := by
  induction bs generalizing s a with
  | nil => rfl
  | cons b bs ih =>
    simp only [List.length_cons] at hx
    simp only [State.pokeBytes]
    rw [ih _ _ (by omega), rawByte_pokeByte, if_neg (by omega)]

/-- A stored byte reads as what was stored. -/
theorem rawByte_pokeBytes_in (s : State) (a : Nat) (bs : List Byte) {k : Nat} (hk : k < bs.length) :
    (s.pokeBytes a bs).rawByte (a + k) = bs[k] := by
  induction bs generalizing s a k with
  | nil => simp at hk
  | cons b bs ih =>
    simp only [State.pokeBytes]
    cases k with
    | zero => rw [rawByte_pokeBytes_out _ _ _ (by omega), rawByte_pokeByte]; simp
    | succ k =>
      have := ih (s.pokeByte a b) (a + 1) (k := k) (by simpa using hk)
      simpa [Nat.add_assoc, Nat.add_comm 1 k] using this

end Sys2Proof.Laws
end

