-- ==== Sys2Proof/Laws/Word.lean ====
section
/-! SUPPORT. What the frame of an instruction word can do, once (18 R410, R411): threads looked up after an update, the
boundary of a thread with nothing queued, completion. -/
namespace Sys2Proof.Laws
open Sys2Proof.Machine

theorem find_id {s : State} {i : Tid} {t : Thread} (h : s.find i = some t) : t.id = i := by
  have := List.find?_some h
  simpa using this

theorem find_map {l : List Thread} {t : Thread} (j : Tid) :
    (l.map (fun u => if u.id = t.id then t else u)).find? (fun u => u.id == j) =
      if j = t.id then (l.find? (fun u => u.id == j)).map (fun _ => t) else l.find? (fun u => u.id == j) := by
  induction l with
  | nil => simp
  | cons u l ih =>
    simp only [List.map_cons, List.find?_cons]
    by_cases h : u.id = t.id
    · by_cases hj : j = t.id
      · subst hj; simp [h]
      · have h1 : (t.id == j) = false := by simpa using Ne.symm hj
        simp only [h, if_true, h1, ih, if_neg hj]
    · by_cases hj : j = t.id
      · subst hj
        have h1 : (u.id == t.id) = false := by simpa using h
        simp only [h, if_false, h1, ih, if_true]
      · simp only [h, if_false, ih, if_neg hj]

/-- A live thread is found with its new value. -/
theorem find_put {s : State} {t : Thread} (h : (s.find t.id).isSome) : (s.put t).find t.id = some t := by
  unfold State.find State.put
  dsimp only
  rw [find_map, if_pos rfl]
  obtain ⟨u, hu⟩ := Option.isSome_iff_exists.1 h
  unfold State.find at hu
  rw [hu]; rfl

/-- Another thread is as it was. -/
theorem find_put_ne {s : State} {t : Thread} {j : Tid} (h : j ≠ t.id) : (s.put t).find j = s.find j := by
  unfold State.find State.put
  dsimp only
  rw [find_map, if_neg h]

/-- The executing thread of a word that issues is live under its own name. -/
theorem issues_find {s : State} {t : Thread} {i : Instr} (h : Issues s t i) : s.find t.id = some t := by
  obtain ⟨h, -⟩ := h
  cases hc : s.cur with
  | none => simp [hc] at h
  | some j =>
    simp only [hc, Option.bind_some] at h
    rw [find_id h]; exact h

/-- The boundary of a thread with nothing queued changes nothing (R411). -/
theorem boundary_settled {s : State} {i : Tid} {w : Nat} {t : Thread} (h : s.find i = some t) (q : t.settled = true) :
    s.boundary i w = s := by
  simp only [Thread.settled, Bool.and_eq_true, Bool.not_eq_true', List.isEmpty_iff] at q
  obtain ⟨⟨q1, q2⟩, q3⟩ := q
  simp [State.boundary, h, q1, q2, q3]

/-- Using what was walked leaves every thread as it was. -/
theorem pokeBytes_threads (s : State) (a : Nat) (bs : List Byte) : (s.pokeBytes a bs).threads = s.threads := by
  induction bs generalizing s a with
  | nil => rfl
  | cons b bs ih => simpa [State.pokeBytes] using ih (s.pokeByte a b) (a + 1)

theorem rekey_threads (s : State) (d a : Nat) : (s.rekey d a).threads = s.threads := by
  unfold State.rekey
  split
  · rfl
  · dsimp only
    rw [pokeBytes_threads]

theorem writeLine_threads (s : State) (d a : Nat) (bs : List Byte) : (s.writeLine d a bs).threads = s.threads := by
  unfold State.writeLine
  dsimp only
  rw [pokeBytes_threads]
  split
  · rfl
  · split
    · rfl
    · exact rekey_threads s d a

theorem writeAs_threads (s : State) (d a : Nat) (bs : List Byte) : (s.writeAs d a bs).threads = s.threads := by
  unfold State.writeAs
  dsimp only
  split
  · exact writeLine_threads _ _ _ _
  · have : ∀ (f : State → Nat → State), (∀ s k, (f s k).threads = s.threads) → ∀ (l : List Nat) (s : State),
        (l.foldl f s).threads = s.threads := by
      intro f hf l
      induction l with
      | nil => intro s; rfl
      | cons k l ih => intro s; rw [List.foldl_cons, ih, hf]
    refine (this _ (fun s k => ?_) _ _).trans rfl
    split <;> split <;> first | rfl | exact writeLine_threads _ _ _ _

theorem useFresh_threads (s : State) (core : Nat) (f : Fresh) : (s.useFresh core f).threads = s.threads := by
  unfold State.useFresh State.tlbAdd State.markLeaf State.orEntry
  simp only [State.setCore]
  split
  · rfl
  · exact (writeAs_threads _ _ _ _).trans rfl

theorem commitFresh_threads (s : State) (core : Nat) (i : Tid) (l : List Fresh) : (s.commitFresh core i l).threads = s.threads := by
  have h0 : (s.dropFresh core i).threads = s.threads := by
    unfold State.dropFresh
    dsimp only
    split <;> rfl
  have h : ∀ l : List Fresh, (l.foldr (fun f s => s.useFresh core f) (s.dropFresh core i)).threads = s.threads := by
    intro l
    induction l with
    | nil => exact h0
    | cons f l ih => rw [List.foldr_cons, useFresh_threads, ih]
  unfold State.commitFresh
  split
  · rfl
  · exact h _

theorem find_commitFresh (s : State) (core : Nat) (i : Tid) (l : List Fresh) (j : Tid) :
    (s.commitFresh core i l).find j = s.find j := by
  unfold State.find
  rw [commitFresh_threads]

/-- Where nothing was walked, nothing is used. -/
@[simp] theorem commitFresh_nil (s : State) (core : Nat) (i : Tid) : s.commitFresh core i [] = s := rfl

/-- A word completes: its own effect, the use of what was walked for it, then a boundary that changes nothing. -/
theorem word_next {s s' : State} {t u : Thread} {i : Instr} {k : State → Thread → Except Stop State} (h : Issues s t i)
    (e : k s t = .ok s') (f : s'.find t.id = some u) (q : u.settled = true) :
    word i s k = .next (s'.commitFresh t.core t.id (s.freshOf t)) := by
  obtain ⟨h1, h2, -⟩ := h
  simp [word, h1, h2, e, boundary_settled ((find_commitFresh s' t.core t.id (s.freshOf t) t.id).trans f) q]

/-- A word whose effect is to replace its own thread. -/
theorem word_put {s : State} {t u : Thread} {i : Instr} {k : State → Thread → Except Stop State} (h : Issues s t i)
    (e : k s t = .ok (s.put u)) (hid : u.id = t.id) (q : u.settled = true) :
    word i s k = .next ((s.put u).commitFresh t.core t.id (s.freshOf t)) := by
  refine word_next h e ?_ q
  rw [← hid]
  exact find_put (by rw [hid, issues_find h]; rfl)

/-- A word never stops but for want of a thread, and is never refused. -/
theorem word_cases (i : Instr) (s : State) (k : State → Thread → Except Stop State) :
    (s.cur.bind s.find = none ∧ word i s k = .fault .noIssuingThread) ∨ ∃ s', word i s k = .next s' := by
  unfold word
  split
  · exact .inl ⟨‹_›, rfl⟩
  · refine .inr ?_
    split
    · exact ⟨_, rfl⟩
    · split <;> exact ⟨_, rfl⟩

theorem wr_settled (t : Thread) (n : Nat) (v : Word) : (t.wr n v).settled = t.settled := by
  simp [Thread.settled]
theorem clr_settled (t : Thread) (n : Nat) : (t.clr n).settled = t.settled := by
  simp [Thread.settled]
theorem wp_settled (t : Thread) (p : Pred) (b : Bool) : (t.wp p b).settled = t.settled := by
  simp [Thread.settled]

/-- Completion with a register written is a next state. -/
theorem word_retireReg {s : State} {t : Thread} {i : Instr} {k : State → Thread → Except Stop State} {d : Nat} {v : Word}
    (h : Issues s t i) (e : k s t = .ok (s.retireReg t d v)) : 
    word i s k = .next ((s.retireReg t d v).commitFresh t.core t.id (s.freshOf t)) := by
  refine word_put (u := { t.wr d v with pc := (t.wr d v).pc + 4 }) h e ?_ ?_
  · simp
  · have := h.2.2; simpa [Thread.settled] using this

/-- Completion without a result is a next state. -/
theorem word_retire {s : State} {t u : Thread} {i : Instr} {k : State → Thread → Except Stop State} (h : Issues s t i)
    (e : k s t = .ok (s.retire u)) (hid : u.id = t.id) (q : u.settled = true) :
    word i s k = .next ((s.retire u).commitFresh t.core t.id (s.freshOf t)) :=
  word_put (u := { u with pc := u.pc + 4 }) h e hid q

/-- What emptying a list of registers leaves alone. -/
theorem foldl_clr (l : List (Nat × Word)) (t : Thread) :
    l.foldl (fun t x => t.clr x.1) t = { t with fe := (l.foldl (fun t x => t.clr x.1) t).fe } := by
  induction l generalizing t with
  | nil => rfl
  | cons x l ih =>
    simp only [List.foldl_cons]
    rw [ih]
    unfold Thread.clr
    split <;> rfl

@[simp] theorem produce_id (t : Thread) (f : Fill) : (t.produce f).id = t.id := by
  unfold Thread.produce; rw [foldl_clr]
theorem produce_settled (t : Thread) (f : Fill) : (t.produce f).settled = t.settled := by
  unfold Thread.produce; rw [foldl_clr]; rfl

end Sys2Proof.Laws
end

