-- ==== Sys2Proof/Tests/Slice0.lean ====
section
/-! SUPPORT. Tests: words written out from the spec's encodings decode to their instructions, ill-formed terms are refused, the
spec's worked examples, and for every statement a concrete state that meets its hypotheses. -/
namespace Sys2Proof.Tests
open Sys2Proof Sys2Proof.Machine
set_option Elab.async false

/-- A word decodes to an instruction. -/
def decodes (x : Nat × Instr) : Bool := decodeTableWord 32 x.1 == some x.2

/-- An outcome is a next state with a property. -/
def next (o : Host.Outcome State Fault Refusal) (p : State → Bool) : Bool := match o with | .next s => p s | _ => false

/-- `Issues` as a test. -/
def passes (s : State) (t : Thread) (i : Instr) : Bool :=
  decide (s.cur.bind s.find = some t) && (match s.gate t i with | .ok _ => true | .error _ => false) && t.settled

theorem issues_of_passes {s : State} {t : Thread} {i : Instr} (h : passes s t i = true) : Issues s t i := by
  simp only [passes, Bool.and_eq_true, decide_eq_true_eq] at h
  refine ⟨h.1.1, ?_, h.2⟩
  cases hg : s.gate t i with
  | ok u => rfl
  | error e => simp [hg] at h

/-- `State.unwatched` as a test. -/
def quiet (s : State) : Bool := s.threads.all (fun u => match u.cond with
  | some (.watch _ _ _) => false | some (.fill _ _ _) => false | some (.gangTest _ _ _ _) => false | _ => true)

theorem unwatched_of_quiet {s : State} (h : quiet s = true) : s.unwatched := by
  intro u hu
  have := (List.all_eq_true.mp h) u hu
  split at this <;> simp_all

/-- The answer of a check, when it is one. -/
def okay {ε α : Type} (x : Except ε α) (p : α → Bool) : Bool := match x with | .ok a => p a | .error _ => false

/-- The k-th thread of the tests, and its name; its frame stands at 2^30 + 1024 k. -/
def tid (k : Nat) : Tid := { sdom := 0, handle := 2 ^ 20 + k }
def th (k : Nat) : Thread :=
  { probeThread with id := tid k, region := 0x20000, slot := some (0, k)
                     placed := some ((List.range 6).map (fun i => physAddr 0 (2 ^ 30 + 1024 * k + 128 * i))) }

/-- What memory holds: three levels of tables that map the first 1 GiB to itself and the next 1 GiB as frames, and the root
region. -/
def words : List (Nat × Nat) :=
  [(0, 0x4000001), (0x4000, 0x8000001), (0x8000, 0x407F), (0x8100, 0x467F + 2 ^ 42), (0x20008, 10), (0x20010, 100), (0x20018, 100),
   (0x20038, 100), (0x20040, 0x11000), (0x20048, 2 ^ 30 + 1024 * 64), (0x20050, 4)]

/-- Where address va of the tests lies. -/
def place (va : Nat) : Nat := physAddr 0 va

/-- Words stored, by virtual address. -/
def stored (s : State) (l : List (Nat × Nat)) : State := l.foldl (fun s x => s.writeAs 0 (place x.1) (toBytes 8 x.2)) s

/-- Every scratchpad segment is domain 0's. -/
def segs : List (Nat × Nat) := (List.range 32).map (fun k => (k, 0))

/-- A package that runs: one die, one stack, the four cores of a quad, domain 0 with its tables. -/
def ground : State :=
  let s := { State.reset with stage := .running, endies := 1, enstacks := 1, encores := 0x30003
                              domains := [(0, { Domain.init with v := true, hostap := true, rootptr := 1 })]
                              dies := [(0, { Die.init with gcache := [(0, probeGeo)] })]
                              cores := [(0, { Core.init with spdom := segs, tlb := [tlbEntOf 0 0 0x407F, tlbEntOf 0 (2 ^ 30) (0x467F + 2 ^ 42)] }),
                                       (1, { Core.init with spdom := segs })] }
  stored s words

/-- The ground with threads, the first of which executes. -/
def world (l : List Thread) : State := { ground with threads := l, cur := l.head?.map (·.id) }
/-! ### Decoding (03 R61 to R81): the words are the encoding tables with the fields filled in. -/

def integerWords : List (Nat × Instr) := [
    (0x0614BD80, .add 0x21 0x12 0x3D true), (0x0614BD01, .sub 0x21 0x12 0x3D false),
    (0x0614BD82, .mul 0x21 0x12 0x3D true), (0x0614BD03, .mulhS 0x21 0x12 0x3D), (0x0614BD04, .mulhN 0x21 0x12 0x3D),
    (0x0614BD05, .divs 0x21 0x12 0x3D false), (0x0614BD86, .divn 0x21 0x12 0x3D true),
    (0x0614BD07, .rems 0x21 0x12 0x3D false), (0x0614BD88, .remn 0x21 0x12 0x3D true),
    (0x0614BD09, .and 0x21 0x12 0x3D), (0x0614BD0A, .or 0x21 0x12 0x3D), (0x0614BD0B, .xor 0x21 0x12 0x3D),
    (0x0614BD0C, .andn 0x21 0x12 0x3D), (0x0614BD0D, .orn 0x21 0x12 0x3D), (0x0614BD90, .shl 0x21 0x12 0x3D true),
    (0x0614BD11, .shr 0x21 0x12 0x3D false), (0x0614BD92, .asr 0x21 0x12 0x3D true),
    (0x0614BD13, .rol 0x21 0x12 0x3D false), (0x0614BD94, .ror 0x21 0x12 0x3D true),
    (0x0614BD18, .minS 0x21 0x12 0x3D), (0x0614BD19, .minN 0x21 0x12 0x3D), (0x0614BD1A, .maxS 0x21 0x12 0x3D),
    (0x0614BD1B, .maxN 0x21 0x12 0x3D), (0x06148020, .clz 0x21 0x12 false), (0x061480A1, .popc 0x21 0x12 true),
    (0x06148022, .brev 0x21 0x12), (0x0614BD28, .leaX1 0x21 0x12 0x3D), (0x0614BD29, .leaX2 0x21 0x12 0x3D),
    (0x0614BD2A, .leaX4 0x21 0x12 0x3D), (0x0614BD2B, .leaX8 0x21 0x12 0x3D), (0x0A14BD30, .mad 0x21 0x12 0x3D 0xC),
    (0x0A14BD15, .sel 0x21 0x12 0x3D false 0x5), (0x0C54BD83, .cmp 0x5 0x12 0x3D true .leS)]
theorem test_decode_integer : integerWords.all decodes = true := by decide +kernel

def immediateWords : List (Nat × Instr) := [
    (0x1214AABC, .addi 0x21 0x12 0x2ABC), (0x1614AABC, .andi 0x21 0x12 0x2ABC), (0x1A14AABC, .ori 0x21 0x12 0x2ABC),
    (0x1E14AABC, .xori 0x21 0x12 0x2ABC), (0x2214803D, .shli 0x21 0x12 0x3D), (0x2214883D, .shri 0x21 0x12 0x3D),
    (0x2214903D, .asri 0x21 0x12 0x3D), (0x2214983D, .rori 0x21 0x12 0x3D), (0x2214A01E, .shliW 0x21 0x12 0x1E),
    (0x2214A81E, .shriW 0x21 0x12 0x1E), (0x2214B01E, .asriW 0x21 0x12 0x1E), (0x2214B81E, .roriW 0x21 0x12 0x1E),
    (0x2454AABC, .cmpi .eq 0x5 0x12 0x2ABC), (0x2A19ABCD, .movi 0x21 0x9ABCD), (0x2E18BEEF, .movhi 0x21 0x2 0xBEEF),
    (0x3214A4CC, .bfxS 0x21 0x12 0x13 0xC), (0x321484CC, .bfxN 0x21 0x12 0x13 0xC),
    (0x361484CC, .bfi 0x21 0x12 0x13 0xC), (0x3A19ABCD, .leaPc 0x21 0x9ABCD)]
theorem test_decode_immediate : immediateWords.all decodes = true := by decide +kernel

def controlWords : List (Nat × Instr) := [
    (0x402ABCDE, .br 0x2ABCDE), (0x456ABCDE, .brp false 0x5 0x2ABCDE), (0x4BABCDEF, .jmp 0x3ABCDEF),
    (0x4FABCDEF, .call 0x3ABCDEF), (0x50000000, .nop), (0x50084001, .jmpr 0x21), (0x50084002, .callr 0x21),
    (0x50000003, .ret), (0x50000004, .exit), (0x50002105, .trap 0x21), (0x50002106, .brk 0x21), (0x50000007, .yield)]
theorem test_decode_control : controlWords.all decodes = true := by decide +kernel

def floatWords : List (Nat × Instr) := [
    (0x5614BD80, .fadd 0x21 0x12 0x3D true), (0x5614BD01, .fsub 0x21 0x12 0x3D false),
    (0x5614BD82, .fmul 0x21 0x12 0x3D true), (0x5614BD03, .fdiv 0x21 0x12 0x3D false),
    (0x56148084, .fsqrt 0x21 0x12 true), (0x5614BD05, .fmin 0x21 0x12 0x3D false),
    (0x5614BD86, .fmax 0x21 0x12 0x3D true), (0x56148007, .fabs 0x21 0x12 false), (0x56148088, .fneg 0x21 0x12 true),
    (0x5614BD09, .fcpys 0x21 0x12 0x3D false), (0x5614808A, .fclass 0x21 0x12 true),
    (0x5454BD10, .fcmpEq 0x5 0x12 0x3D false), (0x5454BD91, .fcmpLt 0x5 0x12 0x3D true),
    (0x5454BD12, .fcmpLe 0x5 0x12 0x3D false), (0x5454BD93, .fcmpUn 0x5 0x12 0x3D true),
    (0x56148098, .frcp 0x21 0x12), (0x56148099, .frsq 0x21 0x12), (0x5614809A, .fexp2 0x21 0x12),
    (0x5614809B, .flog2 0x21 0x12), (0x5A14BD30, .fma false 0x21 0x12 0x3D 0xC),
    (0x5A14BD32, .fnma false 0x21 0x12 0x3D 0xC), (0x5E14BD31, .fms true 0x21 0x12 0x3D 0xC),
    (0x5E14BD33, .fnms true 0x21 0x12 0x3D 0xC)]
theorem test_decode_float : floatWords.all decodes = true := by decide +kernel

def packedWords : List (Nat × Instr) := [
    (0x6214BD00, .padd 0x21 0x12 0x3D .f32), (0x6214BD41, .psub 0x21 0x12 0x3D .f16),
    (0x6214BD22, .pmul 0x21 0x12 0x3D .bf16), (0x6214BD03, .pmin 0x21 0x12 0x3D .f32),
    (0x6214BD44, .pmax 0x21 0x12 0x3D .f16), (0x6214BD68, .pdot 0x21 0x12 0x3D .e4m3),
    (0x6614BD30, .pfma 0x21 0x12 0x3D 0xC .f32), (0x6A148D81, .cvt 0x21 0x12 true .rna .e2m1 .f32),
    (0x6E1B3D70, .mxpack 0x21 0x2C 0x3D .e2m3), (0x6EC4BD71, .mxunpack 0x2C 0x12 0x3D .e2m3),
    (0x6E1B3D72, .mxscale 0x21 0x2C 0x3D .e2m3)]
theorem test_decode_packed : packedWords.all decodes = true := by decide +kernel

def memoryWords : List (Nat × Instr) := [
    (0x7214AABC, .ldB 0x21 0x12 0x2ABC), (0x7614AABC, .ldH 0x21 0x12 0x2ABC), (0x7A14AABC, .ldW 0x21 0x12 0x2ABC),
    (0x7E14AABC, .ldD 0x21 0x12 0x2ABC), (0x8214AABC, .ldBS 0x21 0x12 0x2ABC), (0x8614AABC, .ldHS 0x21 0x12 0x2ABC),
    (0x8A14AABC, .ldWS 0x21 0x12 0x2ABC), (0x8DC4AABC, .ldP 0xE 0x12 0x2ABC), (0x9214AABC, .stB 0x21 0x12 0x2ABC),
    (0x9614AABC, .stH 0x21 0x12 0x2ABC), (0x9A14AABC, .stW 0x21 0x12 0x2ABC), (0x9E14AABC, .stD 0x21 0x12 0x2ABC),
    (0xA1C4AABC, .stP 0xE 0x12 0x2ABC), (0xA6248009, .ldAcq 0x22 0x12 .thread .hS),
    (0xA6248513, .stRel 0x22 0x12 .sys .d), (0xA6148423, .ldfe 0x21 0x12 .pkg), (0xA6148333, .ldfeK 0x21 0x12 .die),
    (0xA6148243, .stfe 0x21 0x12 .quad), (0xA6148153, .stfeF 0x21 0x12 .core), (0xA4084060, .pref 0x21 .l1),
    (0xA4000570, .fence .sys), (0xA4000C70, .fenceAcq .pkg), (0xA4001370, .fenceRel .die)]
theorem test_decode_memory : memoryWords.all decodes = true := by decide +kernel

def atomicWords : List (Nat × Instr) := [
    (0xAA14BD00, .atomAdd 0x21 0x12 0x3D .b .rlx), (0xAA14BD15, .atomAnd 0x21 0x12 0x3D .h .die),
    (0xAA14BD2A, .atomOr 0x21 0x12 0x3D .w .pkg), (0xAA14BD3F, .atomXor 0x21 0x12 0x3D .d .sys),
    (0xAA14BD40, .atomMinS 0x21 0x12 0x3D .b .rlx), (0xAA14BD55, .atomMinN 0x21 0x12 0x3D .h .die),
    (0xAA14BD6A, .atomMaxS 0x21 0x12 0x3D .w .pkg), (0xAA14BD7F, .atomMaxN 0x21 0x12 0x3D .d .sys),
    (0xAA14BD80, .atomSwap 0x21 0x12 0x3D .b .rlx), (0xAA14BD99, .atomFaddF32 0x21 0x12 0x3D .die),
    (0xAA14BDAE, .atomFaddF64 0x21 0x12 0x3D .pkg), (0xAA14BDBB, .atomFmaxF32 0x21 0x12 0x3D .sys),
    (0xAE14BD30, .casW 0x21 0x12 0x3D 0xC .rlx), (0xB214BD31, .casD 0x21 0x12 0x3D 0xC .die)]
theorem test_decode_atomic : atomicWords.all decodes = true := by decide +kernel

def matrixWords : List (Nat × Instr) := [
    (0xB614BD00, .gangForm 0x21 0x12 0x3D), (0xB6148001, .gangJoin 0x21 0x12), (0xB4000002, .gangLeave),
    (0xB400000F, .gangMma true true true), (0xB4084010, .mxburst 0x21), (0xB4000011, .mxwait),
    (0xB6127D18, .accLd 0x21 0x9 0x3D), (0xB6127D19, .accSt 0x21 0x9 0x3D), (0xB402401A, .accZero 0x9),
    (0xB402521B, .accScale 0x9 0x12), (0xB6127D1C, .accCvt 0x21 0x9 0x3D), (0xBA148000, .mxcfg 0x21 0x12)]
theorem test_decode_matrix : matrixWords.all decodes = true := by decide +kernel

def engineWords : List (Nat × Instr) := [
    (0xBE100000, .cpy 0x21 0x0 .thread false false false), (0xBE148DE0, .cpy2d 0x21 0x12 .sys true true true),
    (0xBE101400, .deal 0x21 0x0 .pkg false false false), (0xBE149BE0, .rstr 0x21 0x12 .die true true true),
    (0xBE102200, .mred 0x21 0x0 .quad false false false), (0xBC002900, .esync .core)]
theorem test_decode_engine : engineWords.all decodes = true := by decide +kernel

def threadWords : List (Nat × Instr) := [
    (0xC214A400, .spawn 0x21 0x12 0x9), (0xC214A401, .callat 0x21 0x12 0x9), (0xC214BD02, .send 0x21 0x12 0x3D),
    (0xC1C48003, .recv 0xE 0x12), (0xC2149C04, .wait 0x21 0x12 0xE), (0xC2148005, .wake 0x21 0x12),
    (0xC0084006, .migr 0x21), (0xC0084007, .sleep 0x21), (0xC0084008, .prio 0x21), (0xC2148009, .resume 0x21 0x12),
    (0xC214800A, .kill 0x21 0x12), (0xC214800B, .thr 0x21 0x12)]
theorem test_decode_thread : threadWords.all decodes = true := by decide +kernel

def counterWords : List (Nat × Instr) := [
    (0xC614BD00, .fillInit 0x21 0x12 0x3D), (0xC614BD01, .fillAdd 0x21 0x12 0x3D),
    (0xC6149C02, .fillWait 0x21 0x12 0xE), (0xC6148008, .sbarArrive 0x21 0x12), (0xC454BD09, .sbarWait 0x5 0x12 0x3D),
    (0xC5C00010, .tscr 0xE), (0xC6148011, .xcnt 0x21 0x12), (0xC614BD12, .pcnt 0x21 0x12 0x3D)]
theorem test_decode_counter : counterWords.all decodes = true := by decide +kernel

def placeWords : List (Nat × Instr) := [
    (0xC9C4BD00, .route 0xE 0x12 0x3D), (0xC9C48001, .placeq 0xE 0x12), (0xC8085202, .tlbinv 0x21 0x12),
    (0xC8084003, .gtsync 0x21)]
theorem test_decode_place : placeWords.all decodes = true := by decide +kernel

def csrWords : List (Nat × Instr) := [
    (0xCE100A00, .csrr 0x21 0xA), (0xCE100A01, .csrw 0x21 0xA), (0xCE100A02, .csrs 0x21 0xA),
    (0xCE100A03, .csrc 0x21 0xA)]
theorem test_decode_csr : csrWords.all decodes = true := by decide +kernel

def systemWords : List (Nat × Instr) := [
    (0xD0084000, .upret 0x21), (0xD0000001, .eret), (0xD0000002, .halt), (0xD2148003, .feat 0x21 0x12),
    (0xD214BD04, .attest 0x21 0x12 0x3D), (0xD2148008, .dbgRd 0x21 0x12), (0xD0085209, .dbgWr 0x21 0x12),
    (0xD214800A, .dbgStep 0x21 0x12)]
theorem test_decode_system : systemWords.all decodes = true := by decide +kernel

def hintWords : List (Nat × Instr) := [
    (0xFC09ABCD, .hnop 0x9ABCD), (0xFC186ABC, .hctx 0x21 0x2ABC), (0xFC286ABC, .hfetch 0x21 0x2ABC),
    (0xFE19ABCD, .hintReserved 0x21 0x9ABCD)]
theorem test_decode_hint : hintWords.all decodes = true := by decide +kernel

/-- Every instruction word, once. -/
def wordInstrs : List Instr := (integerWords ++ immediateWords ++ controlWords ++ floatWords ++ packedWords ++ memoryWords ++ atomicWords ++ matrixWords ++ engineWords ++ threadWords ++ counterWords ++ placeWords ++ csrWords ++ systemWords ++ hintWords).map (·.2)

/-- The words the spec spells out (03 R73, 05 R119, 06 R147), and words it calls illegal (03 R59, R63, R72, R76, R77; 05 R119). -/
theorem test_decode_spelled : [(0x50000000, .nop), (0x50000004, .exit), (0x50000705, .trap 7), (0x50000006, .brk 0),
    (0xCC500600, .csrr 5 0x006), (0xCC700801, .csrw 7 0x008), (0xCC900703, .csrc 9 0x007)].all decodes = true := by decide +kernel

theorem test_decode_illegal : [0, 0xFFFFFFFF, 0xD0310503, 0xD0310000, 0xD0000005, 0x40400000, 0xCC500604, 0xCC50000D, 0xCC100001,
    0x2010A020, 0x30000FC1, 0x34000FC1, 0x68000011,
    0x6800009A, 0x6C004040, 0xA4100004].all
    (fun w => decide (decodeTableWord 32 w = none)) = true := by decide +kernel

/-! ### Well-formedness: a term for each check, which it refuses. -/

/-- The fields of words (03 R71, R72, R76, R77, R79 to R81; 05 R119). -/
theorem test_ill_formed_words : ([.cmpi .leN 1 2 3, .bfxS 1 2 63 1, .bfxN 1 2 31 33, .bfi 1 2 1 63, .cvt 1 2 false .csr .f32 .f32, .cvt 1 2 false .csr .s .i8,
    .cvt 1 2 false .csr .e8m0 .f64, .cvt 1 2 false .csr .bf16 .e8m0, .mxpack 1 2 3 .e4m3, .mxunpack 2 4 3 .e4m3, .mxscale 1 3 3 .e2m1,
    .ldAcq 3 1 .die .p, .stRel 5 1 .die .p, .cpy 1 2 .pkg false false false, .cpy2d 1 2 .pkg false false false, .deal 1 2 .pkg false false false,
    .rstr 1 2 .pkg false false false, .mred 1 2 .pkg false false false, .csrr 1 0x00D, .csrw 1 0x005, .csrs 1 0x009, .csrc 1 0x010,
    .hintReserved 2 0, .hintReserved 63 0xFFFFF] : List Instr).all (fun i => !i.wellFormed) = true := by decide +kernel

/-- The names of threads, gangs, cores, dies, queues, ports, apertures and links, and the codes of commands and packets. -/
theorem test_ill_formed_steps : ([.registerFill { sdom := 0, handle := 0 } 0, .walkEnd { sdom := 1024, handle := 1 },
    .preemption { sdom := 0, handle := 2 ^ 47 }, .gangSave { sdom := 0, record := 2 ^ 64 }, .gangBreak { sdom := 1024, record := 0 }, .phaseTurn 2048,
    .taskCreation 2048, .segmentZeroingEnd 0 32, .carveUnitZeroingEnd 0 128, .rstrAbort 0 64, .engineCommandStart 8, .upcallServe 8, .launchTake 4096,
    .ethernetPut 16, .linkFailure 19, .linkRetrainEnd 19 true, .hostApertureRead 64 0 8, .hostApertureRead 0 4 8, .hostApertureWrite 0 0 [1, 2, 3],
    .cert { cmd := 2, len := 24, signer := 0, seq := 1, payload := [], sig := [] },
    .mailboxUnknownCommand { cmd := 0x35, len := 24, signer := 0, seq := 1, payload := [], sig := [] },
    .rds { src := 0, dst := 1, op := 2, sdom := 0, seq := 0, p := 0, payload := [] },
    .ack { src := 0, dst := 1, op := 0x82, sdom := 0, seq := 0, p := 0, payload := List.replicate 18 0 }] : List Instr).all
    (fun i => !i.wellFormed) = true := by decide +kernel

/-! ### The spec's worked examples -/

/-- A thread with values in registers. -/
def set (t : Thread) (l : List (Nat × Nat)) : Thread := l.foldl (fun t x => t.wr x.1 (BitVec.ofNat 64 x.2)) t
/-- What register n holds, or what its outstanding fill brings it. -/
def got (t : Thread) (n : Nat) : Nat :=
  ((t.fills.findSome? (fun f => f.regs.lookup n)).getD (t.rd n)).toNat
/-- The first thread of the tests, after executing one instruction in the world, has a property. -/
def one (i : Instr) (l : List (Nat × Nat)) (p : Thread → Bool) : Bool :=
  next (exec i (world [set (th 0) l])) (fun s => (s.find (tid 0)).any p)

/-- 06 R132: the table of worked cases at the edges of R131 and R132. -/
theorem test_divisions : ([(.divs 3 4 5 false, 0xFFFFFFFFFFFFFFF9, 2, 0xFFFFFFFFFFFFFFFD), (.rems 3 4 5 false, 0xFFFFFFFFFFFFFFF9, 2, 0xFFFFFFFFFFFFFFFF),
    (.divn 3 4 5 false, 0xFFFFFFFFFFFFFFF9, 2, 0x7FFFFFFFFFFFFFFC), (.divs 3 4 5 false, 0x8000000000000000, 0xFFFFFFFFFFFFFFFF, 0x8000000000000000),
    (.rems 3 4 5 false, 0x8000000000000000, 0xFFFFFFFFFFFFFFFF, 0), (.divs 3 4 5 true, 0x1234567880000000, 0xFFFFFFFF, 0xFFFFFFFF80000000),
    (.divn 3 4 5 false, 42, 0, 0xFFFFFFFFFFFFFFFF), (.remn 3 4 5 true, 0x90000005, 0, 0xFFFFFFFF90000005)] : List (Instr × Nat × Nat × Nat)).all
    (fun x => one x.1 [(4, x.2.1), (5, x.2.2.1)] (fun t => got t 3 == x.2.2.2)) = true := by decide +kernel

theorem test_integers : ([(.shr 3 4 5 true, 0x80000000, 0, 0xFFFFFFFF80000000), (.shl 3 4 5 false, 3, 64, 3), (.asr 3 4 5 false, 0xF000000000000000, 0x44, 0xFF00000000000000),
    (.clz 3 4 true, 0xFFFFFFFF00000000, 0, 32), (.mulhS 3 4 5, 0xFFFFFFFFFFFFFFFF, 0xFFFFFFFFFFFFFFFF, 0),
    (.mulhN 3 4 5, 0xFFFFFFFFFFFFFFFF, 0xFFFFFFFFFFFFFFFF, 0xFFFFFFFFFFFFFFFE)] : List (Instr × Nat × Nat × Nat)).all
    (fun x => one x.1 [(4, x.2.1), (5, x.2.2.1)] (fun t => got t 3 == x.2.2.2)) = true := by decide +kernel

/-- 06 R134: cmpi.lt.n p1, g4, -1 is true but for all ones. -/
theorem test_compare : (one (.cmpi .ltN 1 4 0x3FFF) [(4, 0xFFFFFFFFFFFFFFFE)] (fun t => t.rp 1) &&
    one (.cmpi .ltN 1 4 0x3FFF) [(4, 0xFFFFFFFFFFFFFFFF)] (fun t => !t.rp 1)) = true := by decide +kernel

/-- 04 (worked cases of R96 and R97): 464 and 465 into E4M3, 61,440 into E5M2, 65,520 into FP16, 29 and 30 into E3M2, 7.75 into E2M3, 7 into E2M1,
0.4375 into E2M3, 2^-10 and 3 × 2^-11 into E4M3, without and with .sat. -/
theorem test_small_formats : ([(e4m3, 464, 0, 0x7E, 0x7E, 1), (e4m3, 465, 0, 0x7F, 0x7E, 5), (e5m2, 61440, 0, 0x7C, 0x7B, 5), (Machine.f16, 65520, 0, 0x7C00, 0x7BFF, 5),
    (e3m2, 29, 0, 0x1F, 0x1F, 1), (e3m2, 30, 0, 0x1F, 0x1F, 5), (e2m3, 31, -2, 0x1F, 0x1F, 5), (e2m1, 7, 0, 7, 7, 5), (e2m3, 7, -4, 4, 4, 3),
    (e4m3, 1, -10, 0, 0, 3), (e4m3, 3, -11, 1, 1, 3)] : List (Fmt × Nat × Int × Nat × Nat × Fpf)).all (fun x =>
      let v := Val.scale x.2.2.1 (.fin false x.2.1 0)
      x.1.deliver .rne false v == (x.2.2.2.1, x.2.2.2.2.2) && x.1.deliver .rne true v == (x.2.2.2.2.1, x.2.2.2.2.2)) = true := by decide +kernel

/-- 07 (worked examples after R153, R162 and R163): fused and separate multiply-add, PDOT. -/
theorem test_floats : (one (.fma true 3 4 5 6) [(4, 0x3F800800), (5, 0x3F800800), (6, 0xBF801000)] (fun t => got t 3 == 0x33800000 && t.fpf == 0) &&
    one (.fmul 7 4 5 true) [(4, 0x3F800800), (5, 0x3F800800)] (fun t => got t 7 == 0x3F801000 && t.fpf == 1) &&
    one (.fadd 7 7 6 true) [(7, 0x3F801000), (6, 0xBF801000)] (fun t => got t 7 == 0) &&
    one (.fsub 3 4 4 true) [(4, 0x40400000)] (fun t => got t 3 == 0 && t.fpf == 0) &&
    one (.pdot 3 4 5 .e4m3) [(3, 0x3F800000), (4, 0x7E7E7E7E7E7E7E7E), (5, 0x7E7E7E7E7E7E7E7E)] (fun t => got t 3 == 0x49C40008 && t.fpf == 0)) = true := by
  decide +kernel

/-- 07 (worked example after R171): a chunk of eight values packed into E2M3 and unpacked again. -/
theorem test_mx : (let l := [(4, 0xC0C0000040400000), (5, 0x3E8000003F600000), (6, 0x4120000080000000), (7, 0x4178000041600000)]
    one (.mxscale 9 4 0 .e2m3) l (fun t => got t 9 == 0x4178000000000080) &&
    one (.mxpack 10 4 9 .e2m3) ((9, 0x4178000000000080) :: l) (fun t => got t 10 == 0x00007DE6A0044D0C && t.fpf == 7) &&
    one (.mxunpack 12 10 9 .e2m3) [(10, 0x00007DE6A0044D0C), (9, 0x4178000000000080)] (fun t => got t 12 == 0xC0C0000040400000 &&
      got t 13 == 0x3E8000003F800000 && got t 14 == 0x4120000080000000 && got t 15 == 0x4170000041600000 && t.fpf == 0)) = true := by decide +kernel

/-- 01 R15, R16; 10 (worked examples after R220 and R228); 03 R110: core 1,438, its quad, the home slice of 0x12_3456_7880. -/
theorem test_names : (quadPos 1438 == 2 && (List.range 4).map (quadCore 1438) == [1422, 1423, 1438, 1439] && homeSlice 0x1234567880 == 54 &&
    handleOf 0x4000012400 == 0x10000049) = true := by decide +kernel

/-- 13 (worked example of R290, R294, R297): the geometry of every stack, the placement of 0x48D1_4140, and what PLACEQ answers. -/
theorem test_placeq : (let s := { ground with endies := 0xFF, enstacks := 0xFFFF, dies := [(0, { Die.init with gcache := [(0, 0xFFFFFF21)] })] }
    let s := s.setCore 0 { s.core 0 with tlb := [tlbEntOf 0 0x20040C140 0x48D1400000F] }
    let x := s.spot (s.geo 0 0) 0x48D14140
    s.geoValid 0xFFFFFF21 && x.unit == 4 && x.die == 2 && x.local' == 0x48D1140 &&
    next (exec (.placeq 3 4) { s with threads := [set (th 0) [(4, 0x20040C140)]], cur := some (tid 0) }) (fun s => (s.find (tid 0)).any (fun t =>
      got t 6 == 0x8000000048D14140 && got t 7 == 0x00000400060229B2))) = true := by decide +kernel

/-- 17 (worked example after R384): the counter's word after FILL.INIT and FILL.ADD of 4,096, of 4,096 again, and of 10,000 instead. -/
theorem test_fill_counter : ([(.fillInit 0 4 5, 0, 8192, 0x200000000000), (.fillAdd 0 4 5, 0x200000000000, 4096, 0x200000001000),
    (.fillAdd 0 4 5, 0x200000001000, 4096, 0x8000200000000000), (.fillAdd 0 4 5, 0x200000001000, 10000, 0x8000200000001710)] : List (Instr × Nat × Nat × Nat)).all
    (fun x => let pa := physAddr (padUnit 0) 0x3F000
      let s := world [set (th 0) [(4, 0xFFFFFFFFFFFFF000), (5, x.2.2.1)]]
      next (exec x.1 (s.writeAs 0 pa (toBytes 8 x.2.1))) (fun s => s.numAs 0 pa 8 == x.2.2.2)) = true := by decide +kernel

/-- 04 (worked cases after R107): a group that cancels keeps the largest value; a tie at it overflows; ties in subnormals go to even. -/
theorem test_groups : (let r := fun (l : List Val) => (f32.deliver .rne false (Val.sum .rne l)).1
    let p := fun (n : Bool) (e : Int) => Val.fin n 1 e
    r [f32.decode 0x7F7FFFFF, p false 103, p false 103, p true 104] == 0x7F7FFFFF && r [f32.decode 0x7F7FFFFF, p false 103] == 0x7F800000 &&
    r [f32.decode 0, p false (-150)] == 0 && r [f32.decode 1, p false (-150)] == 2 && r [f32.decode 0x200, p false (-150)] == 0x200 &&
    r [f32.decode 0, p false (-145)] == 0x10) = true := by decide +kernel

/-- 19 (worked example after R429): compute stack 5 fails self-test; entry 0 becomes 0x0000_0000_F3FF_DF21, valid. -/
theorem test_degraded : next (exec .configuration { State.reset with stage := .configuration, trusted := 2 ^ 19 - 1, silicon := { Silicon.nominal with cdies := 0xDF } }) (fun s =>
    s.endies == 0xDF && s.enstacks == 0xF3FF && s.geo 0 0 == 0xF3FFDF21 && s.geoValid (s.geo 7 0) && !Geo.v (s.geo 0 6) && !Geo.v (s.geo 0 16) &&
    s.engdies == 15) = true := by decide +kernel

/-! ### Witnesses: for every statement with hypotheses, a state and operands that meet them, for each of its clauses -/

/-- In the world every instruction word issues (`Issues`): the hypothesis of every statement about a word's result. -/
theorem witness_Issues : (wordInstrs.length == 193 && wordInstrs.all (passes (world [th 0]) (th 0))) = true := by decide +kernel

/-- An instruction issues on the registers given, and a further hypothesis holds of its thread. -/
def meets' (i : Instr) (l : List (Nat × Nat)) (p : Thread → State → Bool) : Bool :=
  let t := set (th 0) l
  passes (world [t]) t i && p t (world [t])

/-- IntegerResults: CLZ of 0, of the least and the greatest number with its highest 1 at 0, 31 and 63. -/
theorem witness_IntegerResults : (meets' (.clz 1 2 false) [(2, 0)] (fun t _ => t.rd 2 == 0) &&
    [(0, 1, 1), (63, 2 ^ 63, 2 ^ 64 - 1)].all (fun x => meets' (.clz 1 2 false) [(2, x.2.1)] (fun _ _ => decide (2 ^ x.1 ≤ x.2.1 ∧ x.2.2 < 2 ^ (x.1 + 1)))) &&
    one (.clz 1 2 false) [(2, 2 ^ 63)] (fun t => got t 1 == 0) && one (.clz 1 2 true) [(2, 2 ^ 32 + 1)] (fun t => got t 1 == 31)) = true := by decide +kernel

/-- DivisionResults: a divisor of 0, the quotient that overflows, and other operands (the results are test_divisions). -/
theorem witness_DivisionResults : ([(.divs 3 4 5 false, 7, 0), (.divs 3 4 5 false, 2 ^ 63, 2 ^ 64 - 1), (.rems 3 4 5 true, 2 ^ 31, 2 ^ 32 - 1), (.divs 3 4 5 false, 2 ^ 63, 1),
    (.divn 3 4 5 false, 2 ^ 63, 2 ^ 64 - 1), (.remn 3 4 5 true, 5, 2 ^ 32 - 1)] : List (Instr × Nat × Nat)).all (fun x => meets' x.1 [(4, x.2.1), (5, x.2.2)]
      (fun _ _ => true)) = true := by decide +kernel

/-- ImmediateResults: the longest field and the highest position. -/
theorem witness_ImmediateResults : ([.bfxS 1 2 63 0, .bfxN 1 2 0 63, .bfi 1 2 31 32] : List Instr).all (fun i => meets' i [(2, 2 ^ 64 - 1)] (fun _ _ => i.wellFormed)) = true := by
  decide +kernel

/-- BranchResults: targets at both ends of the canonical halves and just outside them; BRP taken and not; JMPR aligned and not. -/
theorem witness_BranchResults : (
    let go := fun (pc : Nat) (i : Instr) (l : List (Nat × Nat)) (p : Thread → Bool) =>
      let t := { set (th 0) l with pc := BitVec.ofNat 64 pc }
      passes (world [t]) t i && next (exec i (world [t])) (fun s => (s.find (tid 0)).any p)
    let faults := fun (u : Thread) => u.st == .faulted && u.fcause == 4
    go 8 (.br (-2)) [] (fun t => t.pc == 0) && go 4 (.br (-2)) [] faults && go (2 ^ 56 - 8) (.br 1) [] (fun t => t.pc == 0xFFFFFFFFFFFFFC) &&
    go (2 ^ 56 - 8) (.br 2) [] faults && go 0xFF00000000000004 (.jmp (-1)) [] (fun t => t.pc == 0xFF00000000000000) && go 0xFF00000000000004 (.jmp (-2)) [] faults &&
    go (2 ^ 64 - 8) (.jmp 1) [] (fun t => t.pc == 0xFFFFFFFFFFFFFFFC) && go (2 ^ 64 - 8) (.call 2) [] faults &&
    go 8 (.brp true 1 5) [] (fun t => t.pc == 28) && go 8 (.brp false 1 5) [] (fun t => t.pc == 12) &&
    go 8 (.jmpr 1) [(1, 0xFF00000000000000)] (fun t => t.pc == 0xFF00000000000000) && go 8 (.jmpr 1) [(1, 6)] faults && go 8 (.callr 1) [(1, 2 ^ 56)] faults) = true := by
  decide +kernel

/-- ExponentialResults: infinities, zeros and NaN as operands. -/
theorem witness_ExponentialResults : (decide (f32.decode 0x7F800000 = .inf false) && decide (f32.decode 0xFF800000 = .inf true) && (f32.decode 0x80000000).isZero &&
    (f32.decode 0x7F800001).isInvalid && (f32.decode 0x7FC00000).isNan && meets' (.fexp2 1 2) [(2, 0x7F800001)] (fun _ _ => true) &&
    meets' (.flog2 1 2) [(2, 0x7F800000)] (fun _ _ => true)) = true := by decide +kernel

/-- RoundingAndNaN: a quiet and a signalling NaN; the greatest encoding of each format that is no NaN. -/
theorem witness_RoundingAndNaN : ([(f64, 0x7FF0000000000000), (f32, 0xFF800000), (bf16, 0xFF80), (Machine.f16, 0xFC00), (e5m2, 0xFC), (e4m3, 0xFE), (e3m2, 0x3F), (e2m3, 0x3F),
    (e2m1, 0xF)].all (fun x => decide (x.2 < 2 ^ x.1.width) && !(x.1.decode x.2).isNan) && (Val.nan true).isNan && (Val.nan true).isInvalid && (Val.nan false).isNan &&
    !(Val.nan false).isInvalid) = true := by decide +kernel

/-- DotAndConversionResults: magnitudes that are numbers, and one that is none. -/
theorem witness_DotAndConversionResults : (decide (maxMag [0x41780000, 0xC0C00000] = some 0x41780000) && decide (maxMag [0x7F800001, 0] = none) &&
    meets' (.mxscale 9 4 0 .e2m3) [(4, 0x7FC00000)] (fun _ _ => true)) = true := by decide +kernel

/-! Memory. -/

/-- A target that is no context line and no page of class CTX. -/
def plain (s : State) : Target → Bool
  | .mem l => (s.lineAt (Target.mem l).pa).isNone && Leaf.cls l.leaf != 3
  | .pad c o => (s.lineAt (Target.pad c o).pa).isNone

/-- The target a checked access reaches, when it is plain (`Reaches`). -/
def reached (s : State) (t : Thread) (al : Nat) (a : Access) : Option Target :=
  match s.reach t al a with
  | .ok g => if plain s g then some g else none
  | .error _ => none

theorem reaches_of_reached {s : State} {t : Thread} {al : Nat} {a : Access} {g : Target} (h : reached s t al a = some g) : Reaches s t al a g := by
  unfold reached at h
  cases hr : s.reach t al a with
  | error e => simp [hr] at h
  | ok x => cases x <;> simp [hr, plain] at h <;> obtain ⟨h, rfl⟩ := h <;> refine ⟨hr, ?_, ?_⟩ <;> simp_all

/-- An access of n bytes of a kind reaches a scratchpad byte of a core. -/
def padAt (t : Thread) (va n c : Nat) (k : AccKind) (w : Bool) : Bool :=
  match reached (world [t]) t n { ea := va, n := n, kind := k, write := w } with | some (.pad c' _) => c' == c | _ => false
/-- It reaches memory. -/
def memAt (t : Thread) (va n : Nat) (k : AccKind) (w : Bool) : Bool :=
  match reached (world [t]) t n { ea := va, n := n, kind := k, write := w } with | some (.mem _) => true | _ => false

/-- LoadResults: an unpoisoned word of memory, of the own scratchpad and of another core's of the quad. -/
theorem witness_LoadResults : (let t := set (th 0) [(2, 0x30000), (3, 0xFFFFFFFFFFFC0000), (4, 0xFFFFFFFFFFE40000)]
    memAt t 0x30010 16 .load false && padAt t 0xFFFFFFFFFFFC0000 8 0 .load false && padAt t 0xFFFFFFFFFFE40000 8 1 .load false &&
    (world [t]).viewPoison t 0x30010 (place 0x30010) 16 == none &&
    next (exec (.ldWS 1 2 8) ((world [t]).writeAs 0 (place 0x30008) (toBytes 8 0x80000001))) (fun s => (s.find (tid 0)).any (fun u => !u.full 1 && u.pc == 0x10004) &&
      next (exec (.registerFill (tid 0) 0) s) (fun s => (s.find (tid 0)).any (fun u => u.full 1 && u.rd 1 == 0xFFFFFFFF80000001))) &&
    next (exec (.ldP 3 3 0) ((world [t]).writeAs 0 (physAddr (padUnit 0) 8) [5])) (fun s => (s.find (tid 0)).any (fun u => got u 6 == 0 && got u 7 == 5))) = true := by
  decide +kernel

/-- StoreResults; DrainPerforms: a store enters the buffer, and drains. -/
theorem witness_StoreResults : (let t := set (th 0) [(1, 0x1122334455667788), (2, 0x30000)]
    memAt t 0x30008 4 .store true && next (exec (.stW 1 2 8) (world [t])) (fun s => s.numAs 0 (place 0x30008) 4 == 0 &&
      (s.find (tid 0)).any (fun u => (s.drainWith u false).numAs 0 (place 0x30008) 8 == 0x55667788)) &&
    next (exec (.stRel 1 2 .die .d) (world [{ t with fills := [{ regs := [(5, 0)], flags := 0, float := false, req := none, bad := none, mem := true }] }]))
      (fun s => (s.find (tid 0)).any (fun u => u.stores.map (·.rel) == [[.die]] && u.barred && u.fenced.isEmpty))) = true := by decide +kernel

theorem witness_DrainPerforms : (let e : StoreEnt := { va := 0x3007F, pa := place 0x3007F, bytes := [1], leaf := some 0x407F }
    let s := world [{ th 0 with stores := [e] }]
    (s.find (tid 0)).any (fun t => t.stores == [e] && s.storePlace t.core t.id.sdom e == some (e.pa, none) && !t.barred && s.relDone t && !s.storeLost t) &&
    (s.lineAt e.pa).isNone && decide (e.pa % 128 + e.bytes.length ≤ 128) && quiet s && s.early.isEmpty && s.dies.all (fun d => d.2.landing.isEmpty) &&
    !{ s with early := [{ tid := tid 1, core := 0, ent := { e with pa := place 0x30080 } }] }.relDone { th 0 with stores := [{ e with rel := [.die] }] }) = true := by decide +kernel

/-- AtomicResults: an ATOM of a memory word and of a scratchpad word; the performing of a whole line's last byte. -/
theorem witness_AtomicResults : (let t := set (th 0) [(2, 0x30000), (3, 0xFFFFFFFFFFFC0000), (4, 1), (5, 0)]
    memAt t 0x30000 8 .atomic true && padAt t 0xFFFFFFFFFFFC0000 8 0 .atomic true && (world [t]).viewPoison t 0x30000 (place 0x30000) 8 == none && quiet (world [t]) &&
    meets' (.atomAdd 1 2 4 .d .rlx) [(2, 0x30000), (4, 1)] (fun _ _ => true) && decide (place 0x3007F % 128 + 1 ≤ 128) && ((world [t]).lineAt (place 0x3007F)).isNone &&
    next (exec (.casD 1 2 4 5 .die) (world [t])) (fun s => s.numAs 0 (place 0x30000) 8 == 1)) = true := by decide +kernel

/-- A page at 0x4000000 whose words have their home on die 1. -/
def farLeaf : Word := 0x1087F + 0x1000 * 2 ^ 26
def faraway (l : List Thread) (down : List Nat) : State :=
  { (world l).tlbAdd 0 (tlbEntOf 0 0x4000000 farLeaf) with
    endies := 3, enstacks := 15, linkDown := down, dies := [(0, { Die.init with gcache := [(0, probeGeo), (1, geoEntry 0 4 2 12)] })] }

/-- AtomicResults: an ATOM of a word of another die, with a path to it and without one, and behind a thread that waits for a credit. -/
theorem witness_AtomicResults_far : (let t := set (th 0) [(2, 0x4000000), (4, 1)]
    let s := faraway [t] []
    let far := fun (s : State) (p : Target → Bool) => okay (s.reach t 8 { ea := 0x4000000, n := 8, kind := .atomic, write := true }) (fun g =>
      plain s g && s.viewPoison t 0x4000000 g.pa 8 == none && s.atomicHome 0 0 0x4000000 g == some 1 && p g)
    far s (s.atomicGoes t 1) && passes s t (.atomAdd 1 2 4 .d .rlx) &&
    far { s with credq := [(pairKey 0 1, .thread (tid 1))] } (fun g => !{ s with credq := [(pairKey 0 1, .thread (tid 1))] }.atomicGoes t 1 g) &&
    next (exec (.atomAdd 1 2 4 .d .rlx) s) (fun s => s.replies.length == 1 && (s.find (tid 0)).any (fun u => u.pc == 0x10004 && u.fills.length == 1)) &&
    next (exec (.atomAdd 1 2 4 .d .rlx) { s with credq := [(pairKey 0 1, .thread (tid 1))] }) (fun s => s.credq.length == 2 &&
      (s.find (tid 0)).any (fun u => u.st == .blocked .empty && u.pc == 0x10000))) = true := by decide +kernel

/-- FrameLineStores: a store to a register word and to the control line of another thread's frame. -/
theorem witness_FrameLineStores : (let t := set (th 0) [(1, 77), (2, 2 ^ 30 + 1024)]
    let s := world [t, th 1]
    let hits := fun (o : Nat) => okay (s.reach t 8 { ea := (2 ^ 30 + 1024 + o : Nat), n := 8, kind := .store, write := true }) (fun g => match g with
      | .mem l => decide (s.lineAt l.spot.pa = some (th 1, o / 128)) && l.spot.pa % 128 == o % 128
      | .pad _ _ => false)
    passes s t (.stD 1 2 0) && hits 0 && hits 136 && hits 632 && handleOf (2 ^ 30 + 1024 + 632) == (tid 1).handle && t.hnd == false && t.stores.isEmpty &&
    next (exec (.stD 1 2 136) s) (fun s => (s.find (tid 1)).any (fun u => u.rd 1 == 77)) &&
    next (exec (.stD 1 2 632) s) (fun s => (s.find (tid 1)).any (fun u => u.rd 63 == 77)) &&
    next (exec (.stD 1 2 0) s) (fun s => (s.find (tid 0)).any (fun u => u.st == .faulted && u.fcause == 8))) = true := by decide +kernel

/-- CallAndReturn: an aligned and a misaligned stack, a target that is canonical, and one that is not. -/
theorem witness_CallAndReturn : (let t := { set (th 0) [(2, 0x30000)] with stkp := 0x31000 }
    let s := world [t]
    let load : LoadSrc := { va := 0x31000, pa := place 0x31000, n := 8, leaf := some 0x407F, conv := .zero 0, kind := .load, half := none }
    let r := { t with pend := some (.ret load), st := .blocked .empty }
    t.stkp &&& 7 == 0 && memAt t 0x30FF8 8 .store true && memAt t 0x31000 8 .load false && passes s t (.call 5) && passes s t (.callr 2) && passes s t .ret &&
    passes (world [{ t with stkp := 4 }]) { t with stkp := 4 } .ret && r.settled && (world [r]).viewPoison r 0x31000 (place 0x31000) 8 == none &&
    next (exec (.call 5) s) (fun s => (s.find (tid 0)).any (fun u => u.pc == 0x10014 && u.stkp == 0x30FF8 && u.stores.map (·.bytes) == [toBytes 8 0x10004])) &&
    next (exec (.retCompletion (tid 0)) (stored (world [r]) [(0x31000, 0x12340)])) (fun s => (s.find (tid 0)).any (fun u => u.pc == 0x12340 && u.stkp == 0x31008)) &&
    next (exec (.retCompletion (tid 0)) (stored (world [r]) [(0x31000, 0x12341)])) (fun s => (s.find (tid 0)).any (fun u => u.fcause == 4))) = true := by
  decide +kernel

/-- A page whose leaf has SYNC set. -/
def syncLeaf : Word := 0xFF + 0x800 * 2 ^ 26
def sync (l : List Thread) : State := (world l).tlbAdd 0 (tlbEntOf 0 0x2000000 syncLeaf)

/-- FullEmptyResults: on a sync page, a full and an empty word, each kind; and the re-issue 256 cycles later. -/
theorem witness_FullEmptyResults : (let t := set (th 0) [(1, 9), (2, 0x2000000)]
    let s := sync [t]
    let held := fun (kind : Nat) (full : Bool) => (sync [{ t with st := .blocked .empty, pend := some (.fe kind 1 0x2000000 syncLeaf 9) }]).setFull (place 0x2000000) full
    let reply := fun (kind : Nat) (full : Bool) (p : State → Bool) => next (exec (.fullEmptyReply (tid 0)) (held kind full)) p
    passes s t (.ldfe 1 2 .pkg) && passes s t (.stfe 1 2 .pkg) && [0, 1, 2, 3].all (fun k => okay (s.reachFe t 0x2000000 k) (fun g => g.leaf? == some syncLeaf)) &&
    [0, 1, 2, 3].all (fun k => okay ((world [t]).reachFe t 0x30000 k) (fun g => g.leaf? == some 0x407F)) && !Leaf.sync 0x407F &&
    next (exec (.ldfeK 1 2 .pkg) (world [set t [(2, 0x30000)]])) (fun s => (s.find (tid 0)).any (fun u => u.pc == 0x10004 && !u.full 1 && u.fills.any (·.acq))) &&
    next (exec (.stfe 1 2 .pkg) (world [set t [(2, 0x30000)]])) (fun s => (s.find (tid 0)).any (fun u => u.st == .blocked .empty)) &&
    next (exec (.fullEmptyReply (tid 0)) (world [{ t with st := .blocked .empty, pend := some (.fe 4 1 0x30000 0x407F 9) }])) (fun s => s.numAs 0 (place 0x30000) 8 == 9) &&
    s.groupFirst t && s.creditFor 0 0 (.thread (tid 0)) && ({ s with linkDown := [0, 1, 2, 3, 4, 5, 6, 7] }.creditFor 0 1 (.thread (tid 0)) == false) && (s.fePlace t 0x2000000 syncLeaf).any (fun x => x.2.2.2.isNone && x.2.2.1 == place 0x2000000) &&
    reply 0 true (fun s => !s.isFull (place 0x2000000)) && reply 1 true (fun s => s.isFull (place 0x2000000)) &&
    reply 0 false (fun s => s.deferrals.length == 1) && reply 1 false (fun s => s.deferrals.length == 1) && reply 2 false (fun s => s.numAs 0 (place 0x2000000) 8 == 9) &&
    reply 3 true (fun s => s.isFull (place 0x2000000)) && reply 2 true (fun s => (s.find (tid 0)).any (fun u => u.st == .blocked .feretry && u.retryAt == 256)) &&
    [0, 1].all (fun c => next (exec (.feretryReissue (tid 0)) (world [{ t with st := .blocked .feretry, retryAt := c }])) (fun s =>
      (s.find (tid 0)).any (fun u => (u.st == .resident) == (c == 0))))) = true := by decide +kernel

/-! Threads: requests, waits, counters, barriers. -/

/-- The thread found under a name has a property. -/
def has (s : State) (k : Nat) (p : Thread → Bool) : Bool := (s.find (tid k)).any p

/-- RequestsIssue: a legal task, a message to a handle, targets that are dead, entitled and not entitled, EXIT with a return message. -/
theorem witness_RequestsIssue : (
    let task := 2 ^ 20 + 7 + 2 ^ 47 + 2 ^ 50
    let t := set (th 0) [(1, 2 ^ 63 + 2 ^ 20 + 1), (2, task), (3, 0x10000), (4, 2 ^ 48 * 5 + 2 ^ 20 + 1), (5, 2 ^ 20 + 1), (8, 3)]
    let s := world [t, th 1]
    let s2 := world [t, { th 1 with home := 1 }]
    let named := fun (s : State) (r : Reg) => okay (s.handleArg t r true) (fun x => x.2 == tid 1)
    s.taskOk t (t.rd 2) (t.rd 3) && passes s t (.spawn 2 3 2) && passes s t (.callat 2 3 0) &&
    okay (s.frameNamed t (2 ^ 20 + 1) true) (fun x => x.2 == tid 1) && passes s t (.send 4 4 8) && named s 5 && s.entitled t (th 1) && s.named (tid 1) == some (th 1) && passes s t (.kill 6 5) &&
    s2.named (tid 1) == some { th 1 with home := 1 } && s2.chainWaits 0 1 9 0x20000 == false && !s2.entitled t { th 1 with home := 1 } && passes s2 t (.resume 6 5) && passes s t .exit && t.gang.isNone && (t.rd 1).getLsbD 63 &&
    next (exec .exit s) (fun s => has s 0 (fun u => u.pend == some .exit)) &&
    next (exec (.kill 6 5) s2) (fun s => has s 0 (fun u => u.st == .faulted && u.fcause == 0x12))) = true := by decide +kernel

/-- RequestReplies: each request, accepted and turned away, at a queue of 63 and of 64 entries and an inbox of 3 and of 4. -/
theorem witness_RequestReplies : (
    let e : TaskEnt := { pc := 0x10000, args := [0, 0, 0, 0], region := 0x20000, home := 0, sdom := 0, lines := 1, handle := 2 ^ 20 + 7, caller := 0, from' := tid 0, parked := false }
    let held := fun (p : Pend) => { th 0 with st := .blocked .empty, pend := some p }
    let reply := fun (p : Pend) (l : List Thread) (q : State → Bool) => next (exec (.instructionReply (tid 0)) (world (held p :: l))) q
    let queue := fun (n : Nat) (q : State → Bool) => let s := world [held (.spawn 1 e)]
      next (exec (.instructionReply (tid 0)) (s.setCore 1 { s.core 1 with taskq := List.replicate n e })) q
    let turned := fun (s : State) => has s 0 (fun u => u.st == .blocked .feretry && u.retryAt == 256)
    let status := fun (v : Word) (s : State) => has s 0 (fun u => u.st == .resident && u.rd 6 == v && u.pc == 0x10004)
    (held (.kill (tid 1) 6)).settled && ground.coreOn 1 && queue 63 (fun s => (s.core 1).taskq.length == 64 && has s 0 (fun u => u.st == .resident)) &&
    queue 64 (fun s => (s.core 1).taskq.length == 64 && turned s) &&
    reply (.send (tid 1) 5 9 6) [] (status 1) && reply (.send (tid 1) 5 9 6) [{ th 1 with incnt := 4 }] turned &&
    reply (.send (tid 1) 5 9 6) [{ th 1 with incnt := 3, inhead := 2 }] (fun s => status 0 s && has s 1 (fun u => u.incnt == 4 && (u.msgs.toList.getD 1 { payload := 0, src := 0, tag := 0 }).payload == 9)) &&
    reply (.resume (tid 1) 6) [{ th 1 with st := .faulted, fcause := 7 }] (fun s => status 0 s && has s 1 (fun u => u.st == .ready && u.fcause == 0)) &&
    reply (.resume (tid 1) 6) [th 1] (status 1) && reply (.kill (tid 1) 6) [] (status 1) &&
    quiet (world [held (.kill (tid 1) 6), th 1]) && (held .exit).settled && (world [held (.kill (tid 1) 6), th 1]).find (tid 1) == some (th 1) &&
    (th 1).pend.isNone && !((th 1).rd 1).getLsbD 63 && (th 0).slot.isSome && (th 1).fills.isEmpty && (th 1).pool.isNone && (th 1).launch.isNone) = true := by decide +kernel

/-- WaitingResults: an inbox with and without a message, with and without a time-out; a word that differs and one that does not; a deadline before, at
and after the tick. -/
theorem witness_WaitingResults : (
    let t := set (th 0) [(1, 0), (2, 5), (3, 0x30000), (4, 1), (5, 0), (6, 0), (7, 9)]
    let s := world [t]
    let m := { t with incnt := 1 }
    let run := fun (t : Thread) (i : Instr) (p : Thread → Bool) => passes (world [t]) t i && next (exec i (world [t])) (fun s => has s 0 p)
    let waits := fun (u : Thread) => match u.st with | .waiting _ => u.deadline == 5 && u.pc == 0x10000 | _ => false
    let late := fun (k : WaitKind) (c : WaitCond) (d : Word) (p : Thread → Bool) =>
      next (exec (.waitDeadline (tid 0)) { world [{ t with st := .waiting k, cond := some c, deadline := d }] with tick := 7 }) (fun s => has s 0 p)
    run m (.recv 4 1) (fun u => u.incnt == 0 && u.pc == 0x10004) && run t (.recv 4 1) (fun u => u.pc == 0x10004) && run t (.recv 4 2) waits &&
    run t (.sleep 1) (fun u => u.pc == 0x10004) && run t (.sleep 2) waits &&
    okay (s.access 0 0 8 { ea := 0x30000, n := 8, kind := .load, write := false }) (fun g => plain s g) &&
    run t (.wait 8 3 2) (fun u => u.pc == 0x10004) && run t (.wait 8 3 3) (fun u => u.st == .waiting .wait && u.deadline == 9) &&
    run (set t [(6, 1)]) (.wait 8 3 3) (fun u => got u 8 == 0 && u.pc == 0x10004) &&
    late .wait .sleep 7 (fun u => u.st == .resident) && late .wait .sleep 8 (fun u => u.st == .waiting .wait) &&
    late .wait .sleep (2 ^ 64 - 1) (fun u => u.st == .waiting .wait) && late .wait (.watch (place 0x30000) 0 9) 7 (fun u => u.st == .resident && u.rd 9 == 0) &&
    late .recv (.recv 5) 6 (fun u => u.st == .resident && u.rd 11 == 0xFFFF000000000000)) = true := by decide +kernel

/-- ThreadControlResults: targets dead, awake and asleep; the own core, another, the least loaded; priorities 63, 64 and 0xFF; EXIT. -/
theorem witness_ThreadControlResults : (
    let t := set (th 0) [(2, 2 ^ 20 + 1), (3, 0), (4, 1), (5, 63), (6, 64), (7, 0xFF)]
    let free := { t with slot := none }
    let asleep := { th 1 with st := .waiting .wait, cond := some .sleep }
    let run := fun (l : List Thread) (i : Instr) (p : State → Bool) => (match l with | t :: _ => passes (world l) t i | [] => false) && next (exec i (world l)) p
    let reg := fun (n v : Nat) (s : State) => has s 0 (fun u => got u n == v && u.pc == 0x10004)
    okay ((world [t]).handleArg t 2 true) (fun x => x.2 == tid 1) && okay ((world [t]).handleArg t 2 false) (fun x => x.2 == tid 1) &&
    run [t] (.wake 8 2) (reg 8 0) && run [t, th 1] (.wake 8 2) (reg 8 0) && run [t, asleep] (.wake 8 2) (fun s => reg 8 1 s && has s 1 (fun u => u.st == .resident)) &&
    (world [t]).migrTarget 0 == some 0 && (world [t]).migrTarget 1 == some 1 && run [t] (.migr 3) (reg 8 0) &&
    run [free] (.migr 4) (fun s => has s 0 (fun u => u.core == 1 && u.st == .ready)) &&
    okay ((world [t]).chain 0 0 0x20000) (fun l => effPrio l == 10) && run [t] (.prio 5) (fun s => has s 0 (fun u => u.prio == 10 && !u.priol)) &&
    run [t] (.prio 3) (fun s => has s 0 (fun u => u.prio == 0 && u.priol)) && run [t] (.prio 7) (fun s => has s 0 (fun u => u.prio == 10)) &&
    run [t] (.prio 6) (fun s => has s 0 (fun u => u.fcause == 0x1A)) && run [t] (.thr 8 3) (reg 8 0) && run [t] (.thr 8 2) (reg 8 0) &&
    run [t, th 1] (.thr 8 2) (fun s => has s 0 (fun u => got u 8 == (th 1).stateWord.toNat)) && ((world [t]).readyOf 0).isEmpty && run [t] .yield (reg 8 0) &&
    passes (world [t, th 1]) t .exit && quiet (world [t, th 1]) && t.gang.isNone && !(t.rd 1).getLsbD 63 && t.stores.isEmpty && t.launch.isNone && t.pool.isNone) = true := by decide +kernel

/-- TimeAndCounters: counters free, owned, and another domain's; the last counter; domain 0 and another domain. -/
theorem witness_TimeAndCounters : (
    let t := set (th 0) [(2, 7), (3, 0x107), (4, 0x10F), (5, 0x207), (6, 0x307)]
    let mine := fun (o : Nat) => (world [t]).setCounter 0 7 { owner := o, event := 3, en := true, val := 9, new := false }
    let other := { t with id := { sdom := 1, handle := 2 ^ 20 } }
    passes (world [t]) t (.pcnt 8 3 4) && next (exec (.pcnt 8 2 4) (mine 0)) (fun s => has s 0 (fun u => u.rd 8 == 9)) &&
    next (exec (.pcnt 8 3 4) (world [t])) (fun s => ((s.core 0).counter 7).owner == 0 && ((s.core 0).counter 7).event == 0x0F) &&
    next (exec (.pcnt 8 5 0) (mine 0)) (fun s => ((s.core 0).counter 7).owner == 0xFFFF && has s 0 (fun u => u.rd 8 == 9)) &&
    next (exec (.pcnt 8 6 0) (world [t])) (fun s => has s 0 (fun u => u.pc == 0x10004 && got u 8 == 0)) &&
    next (exec (.pcnt 8 6 0) (world [other])) (fun s => (s.find other.id).any (fun u => u.fcause == 0x12)) && passes (world [other]) other (.pcnt 8 6 0) &&
    next (exec .tscTick (world [])) (fun s => s.tick == 1) && next (exec .tscTick { world [] with halted := true }) (fun s => s.tick == 0)) = true := by
  decide +kernel

/-- FillCounterResults: an addition that reaches EXPECT exactly, one short of it, EXPECT 0, the limit of an operand; a phase reached and not. -/
theorem witness_FillCounterResults : (
    let go := fun (w n : Nat) (i : Instr) (p : State → Nat → Bool) =>
      let t := set (th 0) [(4, 0xFFFFFFFFFFFFF000), (5, n), (6, w / 2 ^ 63), (7, 0), (8, 1 - w / 2 ^ 63), (9, 3)]
      let s := (world [t]).writeAs 0 (physAddr (padUnit 0) 0x3F000) (toBytes 8 w)
      passes s t i && okay (s.counterPlace 0 0 (t.rd 4)) (fun g => (s.lineAt g.pa).isNone) && okay (s.counterPlace 0 0 (t.rd 4)) (fun g => g.pa == physAddr (padUnit 0) 0x3F000) &&
      quiet s && (s.poisonedIn (physAddr (padUnit 0) 0x3F000) 8).isNone &&
      next (exec i s) (fun s => p s (s.numAs 0 (physAddr (padUnit 0) 0x3F000) 8))
    go 0 (2 ^ 31 - 1) (.fillInit 3 4 5) (fun _ v => v == (2 ^ 31 - 1) * 2 ^ 32) && go 0 (2 ^ 31) (.fillInit 3 4 5) (fun s _ => has s 0 (fun u => u.fcause == 0x1C)) &&
    go (5 * 2 ^ 32 + 2) 3 (.fillAdd 3 4 5) (fun _ v => v == 2 ^ 63 + 5 * 2 ^ 32) && go (5 * 2 ^ 32 + 2) 2 (.fillAdd 3 4 5) (fun _ v => v == 5 * 2 ^ 32 + 4) &&
    go 7 (2 ^ 32) (.fillAdd 3 4 5) (fun _ v => v == 2 ^ 32 - 1) && go (2 ^ 32) (2 ^ 32) (.fillAdd 3 4 5) (fun _ v => v == 2 ^ 63 + 2 ^ 32 + 2 ^ 32 - 1) &&
    go (2 ^ 63) 0 (.fillWait 3 4 3) (fun s _ => has s 0 (fun u => got u 3 == 2 ^ 63 && u.pc == 0x10004)) &&
    go (2 ^ 63) 0 (.fillWait 3 4 4) (fun s _ => has s 0 (fun u => u.st == .waiting .fill && u.deadline == 3))) = true := by decide +kernel

/-- BarrierResults: the row of core 0 has cores 0 and 1; arrivals that are first, last and refused; waits of ended and open episodes; the end delivered; a
deadline that extends and one that abandons. -/
theorem witness_BarrierResults : (
    let t := set (th 0) [(2, 4), (3, 4 * 512), (4, 0), (5, 1), (6, 7 * 2 ^ 32 + 1), (7, 5 * 2 ^ 32), (8, 2 ^ 32), (9, 0xFFE1)]
    let own := fun (x : SolNet) => (world [t]).setSol 0 { x with dom := 0 }
    let full : EndPt := { EndPt.init with issued0 := 1, counted0 := 1, count0 := 1 }
    let wt := { t with st := .waiting .sbar, cond := some (.sbar 0 1 2 50), deadline := 5 }
    let due := fun (l : List Thread) (x : SolNet) (tick : Nat) => { (world l).setSol 0 { x with dom := 0, epi := 1 } with tick := tick }
    netOf 0 0 == 0 && (own SolNet.init).span 0 == [0, 1] && passes (own SolNet.init) t (.sbarArrive 10 2) &&
    next (exec (.sbarArrive 10 2) (own SolNet.init)) (fun s => s.arrivals == [(0, 0, 0)] && ((s.sol 0).endPt 0).issued0 == 1 && ((s.sol 0).endPt 0).count0 == 1) &&
    next (exec (.sbarArrive 10 3) (own SolNet.init)) (fun s => ((s.sol 0).endPt 0).count0 == 512) &&
    next (exec (.sbarArrive 10 2) ((world [t]).setSol 0 { SolNet.init with dom := 1 })) (fun s => has s 0 (fun u => u.fcause == 0x12)) &&
    next (exec (.sbarWait 2 4 4) (own { SolNet.init with epi := 1, hist := 1 })) (fun s => has s 0 (fun u => u.rp 2 && u.pc == 0x10004)) &&
    next (exec (.sbarWait 2 4 9) (own { SolNet.init with epi := 1 })) (fun s => has s 0 (fun u => !u.rp 2 && u.pc == 0x10004)) &&
    next (exec (.sbarWait 2 4 5) (own { SolNet.init with epi := 1 })) (fun s => has s 0 (fun u => u.rp 2 && u.pc == 0x10004)) &&
    next (exec (.sbarWait 2 4 6) (own { SolNet.init with epi := 1 })) (fun s => has s 0 (fun u => u.st == .waiting .sbar && u.pc == 0x10000)) &&
    next (exec (.sbarArrivalCount 0) { own { SolNet.init with ends := [(0, { full with counted0 := 0 })] } with arrivals := [(0, 0, 0)] }) (fun s => (s.sol 0).epi == 0 && ((s.sol 0).endPt 0).counted0 == 1) &&
    next (exec (.sbarArrivalCount 0) { own { SolNet.init with hist := 1, ends := [(0, { full with counted0 := 0 }), (1, full)] } with arrivals := [(0, 0, 0)] }) (fun s =>
      (s.sol 0).epi == 1 && (s.sol 0).hist == 2 && s.ends.length == 2) &&
    next (exec (.sbarEpisodeEndDelivery 0 0) { world [wt] with ends := [(0, 0, 1, true)] }) (fun s => has s 0 (fun u => u.st == .resident && u.rp 2) && s.ends.isEmpty) &&
    next (exec (.sbarDeadline (tid 0)) (due [wt] SolNet.init 4)) (fun s => has s 0 (fun u => u.deadline == 5)) &&
    next (exec (.sbarDeadline (tid 0)) (due [wt, th 1, { th 2 with core := 1 }] SolNet.init 5)) (fun s => has s 0 (fun u => u.deadline == 55)) &&
    next (exec (.sbarDeadline (tid 0)) (due [wt, th 1] SolNet.init 5)) (fun s => (s.sol 0).epi == 2 && (s.sol 0).hist == 1)) = true := by decide +kernel

/-! Faults, handlers, the system instructions, tables. -/

/-- FaultEntry. -/
theorem witness_FaultEntry : (let s := world [th 0, th 1]
    s.find (th 0).id == some (th 0) && (th 0).stores.isEmpty && s.early.isEmpty && !s.upqFull 0 &&
    has (s.park (th 0) (.plain .trap 7) false false 0x50000705) 0 (fun u => u.st == .faulted && u.fcause == 6 && u.slot.isNone) &&
    ((s.park (th 0) (.plain .trap 7) false false 0x50000705).die 0).upq.map (·.words) ==
      [[6, 2 ^ 20, 0x10000, 0x50000705, 7, 0]]) = true := by decide +kernel

/-- OutcomeOrder: a feature disabled, a register at the count, an empty register with its EMT bit set and clear. -/
theorem witness_OutcomeOrder : (
    let t := { th 0 with lines := 1 }
    let empty := { t with fe := 1 }
    let run := fun (t : Thread) (i : Instr) (p : Thread → Bool) => next (exec i (world [t])) (fun s => has s 0 p)
    isWord (.add 1 2 15 false) && featureOk Config.featAvail (.route 1 2 3) && !featureOk 1 (.route 1 2 3) &&
    (namedRegs (.add 1 2 16 false)).find? (fun n => decide (t.count ≤ n)) == some 16 && (namedRegs (.add 1 2 15 false)).all (fun n => decide (n < t.count)) &&
    (readRegs (.add 1 2 15 false)).find? (fun n => !empty.full n) == some 2 &&
    run t (.add 1 2 16 false) (fun u => u.fcause == 2) && run t (.add 1 2 15 false) (fun u => u.pc == 0x10004) &&
    run { empty with emt := 4 } (.add 1 2 15 false) (fun u => u.fcause == 3) && run empty (.add 1 2 15 false) (fun u => u.st == .blocked .empty) &&
    next (exec (.route 1 2 3) { world [t] with featen := 1 }) (fun s => has s 0 (fun u => u.fcause == 1))) = true := by decide +kernel

/-- A record of a trap of thread 1. -/
def trapRec : Rec := (world []).recOf (th 1) (.plain .trap 7) false false 0x50000705
/-- The world with that record queued. -/
def withRec : State := let s := world [{ th 1 with st := .faulted, slot := none, fcause := 6 }]
  s.setDie 0 { s.die 0 with upq := [trapRec] }

/-- HandlerCreated: the record of a trap is served in frame 0 of the root's pool. -/
theorem witness_HandlerCreated : (
    let s := withRec
    s.nextRec 0 == some (0, trapRec) && (match s.service 0 trapRec with
      | .handler home rcb l p k => home == 0 && rcb == 0x20000 && k == 0 && p.size == 4 && effUpcall l == 0x11000 && s.held.isEmpty &&
        okay (s.framePlaces 0 { sdom := effSdom l, handle := handleOf (p.base + 1024 * k) }) (fun _ => true) && (s.domain (effSdom l)).v &&
        (s.find { sdom := effSdom l, handle := handleOf (p.base + 1024 * k) }).isNone
      | _ => false)) = true := by decide +kernel

/-- HandlerReturns: UPRET of 0 and of 1 with a FAULTED thread, ERET with its record, and a thread that is no handler. -/
theorem witness_HandlerReturns : (
    let h := { th 0 with hnd := true, upv := 2 ^ 20 + 1, served := some trapRec }
    let t1 := set h [(2, 1)]
    let f := { th 1 with st := .faulted, slot := none, fcause := 6 }
    h.hnd && h.st == .resident && h.stores.isEmpty && h.fills.isEmpty && h.launch.isNone && quiet (world [h, f]) && passes (world [h, f]) h (.upret 2) &&
    passes (world [h, f]) h .eret && passes (world [t1, f]) t1 (.upret 2) && (world [t1, f]).named { sdom := t1.id.sdom, handle := t1.upv } == some f && f.placed.isSome &&
    (world [h, f]).early.isEmpty && !(world [h, f]).upqFull 0 && next (exec .eret (world [h, f])) (fun s => (s.find (tid 0)).isNone && (s.die 0).upq.any (·.esc)) &&
    next (exec (.upret 2) (world [t1, f])) (fun s => (s.find (tid 0)).isNone && has s 1 (fun u => u.st == .ready)) &&
    next (exec (.upret 2) (world [th 0])) (fun s => has s 0 (fun u => u.fcause == 0x12)) && next (exec .eret (world [th 0])) (fun s => has s 0 (fun u => u.fcause == 0x12))) = true := by
  decide +kernel

/-- SystemResults: with and without DBGEN, domain 0 and another, the last debug word; targets of DBG.STEP dead, running and FAULTED, the eighth mark. -/
theorem witness_SystemResults : (
    let t := set (th 0) [(2, 0x30000), (3, 1), (4, 2), (5, 3 * 2 ^ 12 + 0xF8 * 2 ^ 16), (6, 2 ^ 20 + 1), (7, 55)]
    let dbg := fun (l : List Thread) => { world l with fdt := [(0, { Fdt.init with v := true, dbgen := true })] }
    let other := { t with id := { sdom := 1, handle := 2 ^ 20 } }
    let full := let s := dbg [t, { th 1 with st := .faulted }]; s.setCore 0 { s.core 0 with steps := List.replicate 7 (tid 9) }
    (dbg [t]).dbgen t && !(world [t]).dbgen t && passes (dbg [t]) t .halt && passes (world [other]) other .halt &&
    next (exec .halt (dbg [t])) (fun s => s.halted) && next (exec .halt (world [other])) (fun s => !s.halted) && next (exec .halt (world [t])) (fun s => has s 0 (fun u => u.fcause == 0x12)) &&
    next (exec (.feat 8 3) (world [t])) (fun s => has s 0 (fun u => u.rd 8 == 0x1FF)) && next (exec (.attest 8 2 4) (world [t])) (fun s => has s 0 (fun u => got u 8 == 1)) &&
    memAt t 0x30000 32 .load false && check1 { ea := 0x30000, n := 32, kind := .store, write := true } && check2 (world [t]) 0 { ea := 0x30000, n := 32, kind := .store, write := true } &&
    ((world [t]).poisonedIn (place 0x30000) 32).isNone && passes (world [t]) t (.attest 8 2 3) &&
    next (exec (.dbgRd 8 5) (dbg [t])) (fun s => has s 0 (fun u => got u 8 == 0 && u.pc == 0x10004)) && (dbg [t]).dbgEn 0 7 == false &&
    next (exec (.dbgRd 8 5) (world [t])) (fun s => has s 0 (fun u => u.fcause == 0x12)) && next (exec (.dbgWr 5 7) (dbg [t])) (fun s => has s 0 (fun u => u.pc == 0x10004)) &&
    okay ((dbg [t]).handleArg t 6 true) (fun x => x.2 == tid 1) && next (exec (.dbgStep 8 6) (dbg [t])) (fun s => has s 0 (fun u => u.rd 8 == 1)) &&
    next (exec (.dbgStep 8 6) (dbg [t, th 1])) (fun s => has s 0 (fun u => u.rd 8 == 1)) && (full.find (tid 1)).any (full.entitled t) && passes full t (.dbgStep 8 6) &&
    next (exec (.dbgStep 8 6) full) (fun s => has s 0 (fun u => u.rd 8 == 0) && has s 1 (fun u => u.stepped && u.st == .ready) && (s.core 0).steps.length == 8)) = true := by
  decide +kernel

/-- PlaceQueries: the addresses at the ends of the canonical halves and of the window area (a page the TLB holds: test_placeq). -/
theorem witness_PlaceQueries : ([(2 ^ 56 - 1, true, false), (2 ^ 56, false, false), (0xFF00000000000000 - 1, false, false), (0xFF00000000000000, true, false),
    (0xFFFFFFFFFF000000 - 1, true, false), (0xFFFFFFFFFF000000, true, true), (2 ^ 64 - 1, true, true)].all (fun x => canonical x.1 == x.2.1 && (!x.2.1 || inWindow x.1 == x.2.2) &&
      meets' (.placeq 3 4) [(4, x.1)] (fun _ _ => true)) && one (.placeq 3 4) [(4, 2 ^ 56)] (fun u => got u 6 == 0 && got u 7 == 2 ^ 32) &&
    one (.placeq 3 4) [(4, 2 ^ 64 - 1)] (fun u => got u 7 == 2 ^ 33)) = true := by decide +kernel

/-- TranslationUpkeep: the last index, by domain 0 and by another; a range of one page. -/
theorem witness_TranslationUpkeep : (
    let t := set (th 0) [(2, 1023), (3, 0x30000), (4, 1)]
    let s := { stored (world [t]) [(0x40000 + 8 * 1023, 77)] with gtbase := 0x40000 }
    let other := { t with id := { sdom := 1, handle := 2 ^ 20 } }
    let w := fun (p : Pend) => { t with st := .blocked .empty, pend := some p }
    passes s t (.gtsync 2) && memAt t (0x40000 + 8 * 1023) 8 .load false && (s.viewPoison t (0x40000 + 8 * 1023) (place (0x40000 + 8 * 1023)) 8).isNone &&
    next (exec (.gtsync 2) s) (fun s => has s 0 (fun u => u.pend == some (.gtsync 1023 77))) &&
    next (exec (.gtsync 2) (world [other])) (fun s => (s.find other.id).any (fun u => u.fcause == 0x12)) &&
    next (exec (.gtsyncCompletion (tid 0)) (world [w (.gtsync 0 77)])) (fun s => s.geo 7 0 == 77 && (s.core 0).tlb.isEmpty && has s 0 (fun u => u.pc == 0x10004)) &&
    rangeCanonical 0x30000 16384 && !inWindow 0x30000 && passes s t (.tlbinv 3 4) && t.stores.isEmpty &&
    (w (.tlbinv [(0x30000, 16384)])).frameIn 0 [(0x30000, 16384)] == false &&
    next (exec (.tlbinvCompletion (tid 0)) (world [w (.tlbinv [(0x30000, 16384)])])) (fun s => has s 0 (fun u => u.pc == 0x10004 && u.pend.isNone)) &&
    next (exec (.tlbinv 3 4) (world [t])) (fun s => has s 0 (fun u => u.pend.isSome && u.pc == 0x10000) && !(s.core 0).tlb.any (fun e => e.base == 0))) = true := by
  decide +kernel

/-- RoutingResults, by 23 (wave 1, token 32): expert 3 of domain 2 has slots of weight 16 on dies 3 and 4; generation 6. -/
theorem witness_RoutingResults : (
    let t := set (th 0) [(4, 2 * 2 ^ 12 + 3), (5, 32)]
    let s := { stored (world [t]) [(0x100000, 6), (0x100020, 4), (0x100038, 0x300000), (0x101180, 2 ^ 19 + 2 ^ 16 + 6), (0x101188, 0xB000030000 + 16 * 2 ^ 8 + 3),
      (0x101190, 0xC000040000 + 16 * 2 ^ 8 + 4)] with endies := 0x1F, edt := [(2, { Edt.init with dva := 0x100000, v := true })] }
    let n := s.numAs 0 (place 0x101180) 128
    passes s t (.route 13 4 5) && (s.routeDom t (t.rd 4)).isSome && decide (3 < (s.numAs 0 (place 0x100020) 8) % 2 ^ 13) && s.poison.isEmpty &&
    okay (s.routeReach t 0x100000 8 8 true) (plain s) && okay (s.routeReach t 0x101180 8 8 false) (plain s) && okay (s.routeReach t 0x30000C 4 4 true) (plain s) &&
    s.entValid n && (s.pickSlot (routeDraw 32 (s.entWeight n)) 0 0 (entSlots n)).any (fun x => x.1 == 1) && quiet s && (s.lineAt (place 0x100010)).isNone &&
    okay (s.reach t 4 { ea := 0x100000, n := 4, kind := .load, write := false }) (plain s) && okay (s.reach t 4 { ea := 0x30000C, n := 4, kind := .load, write := false }) (plain s) &&
    next (exec (.route 13 4 5) s) (fun s => has s 0 (fun u => got u 26 == 0xC00004000C && got u 27 == 0x120030006) && s.numAs 0 (place 0x100010) 8 == 1 &&
      s.numAs 0 (place 0x30000C) 4 == 1) && next (exec (.xcnt 8 4) s) (fun s => has s 0 (fun u => got u 8 == 6 * 2 ^ 32))) = true := by decide +kernel

/-! Gangs and matrix units. -/

/-- A convened, resident core gang of one member, its member, and its core's unit. -/
def gid : GangId := { sdom := 0, record := 0x40000 }
def gang1 : Gang :=
  { id := gid, quad := false, m := 1, members := [(0, tid 0)], gstate := 2, home := 0, frameb := 0x200000, ops := 0, arrived := [], shadow := resetShadow false
    active := resetShadow false, op := none, resident := true, first := false, marked := false, places := List.replicate 5 (some 0x407F), pad := none
    saving := false, breaking := false, since := 0 }
def member (l : List (Nat × Nat)) : Thread := { set (th 0) l with gang := some gid }
def ganged (g : Gang) (l : List Thread) : State :=
  let s := { world l with gangs := [g] }
  s.setCore 0 { s.core 0 with unit := { MatUnit.init with gang := some gid, tiles := [(2048, 0x3F800000), (2049, 0x40000000), (5000, 1)] } }

/-- GangForming: descriptors of 2 and of 32 members; a record that is free, one that forms. -/
theorem witness_GangForming : (
    let t := set (th 0) [(2, 0x40000), (3, 2), (4, 32 + 2 ^ 21)]
    let lead := { th 1 with st := .waiting .gang, waitarg := 0x40000, cond := some (.gang gid 5 0) }
    let h := { gang1 with m := 3, gstate := 1, members := [(0, tid 1)], resident := false }
    let s := { stored (world [t, lead]) [(0x40000, 2 ^ 20 + 1), (0x40008, 2 ^ 24)] with gangs := [h] }
    !(world [t]).inGang t && quiet (world [t]) && memAt t 0x40000 8 .atomic true && descOk 2 && descOk (32 + 2 ^ 21) && (world [t]).placeOk t false &&
    passes (world [t]) t (.gangForm 5 2 3) && passes (world [t]) t (.gangForm 5 2 4) && passes (world [t]) t (.gangJoin 5 2) &&
    next (exec (.gangForm 5 2 3) (world [t])) (fun s => (s.gang gid).any (fun g => g.gstate == 1 && g.m == 2 && g.members == [(0, tid 0)]) && has s 0 (fun u => u.st == .waiting .gang)) &&
    next (exec (.gangJoin 5 2) (world [t])) (fun s => has s 0 (fun u => u.st == .waiting .gang && u.waitarg == 0x40000)) &&
    !s.inGang t && s.gang gid == some h && h.freeIndex 0 == some 1 && passes s t (.gangJoin 5 2) &&
    next (exec (.gangJoin 5 2) s) (fun s => (s.gang gid).any (fun g => g.members == [(0, tid 1), (1, tid 0)]) && has s 0 (fun u => u.cond == some (.gang gid 5 1)))) = true := by
  decide +kernel

/-- GangInstructions: a member of a convened gang and a thread of none; the selectors 0 and 10; the other shape. -/
theorem witness_GangInstructions : (
    let t := member [(2, 10), (3, 2 ^ 64 - 1), (4, 2000)]
    let s := ganged gang1 [t]
    s.myGang t == some gang1 && gang1.indexOf t.id == some 0 && [Instr.gangLeave, .gangMma false false true, .mxwait, .mxcfg 2 3, .mxburst 4].all (passes s t) &&
    next (exec (.gangMma false false true) s) (fun s => has s 0 (fun u => u.st == .waiting .gang) && (s.gang gid).any (fun g => g.arrived == [(0, 9)])) &&
    next (exec (.gangMma true false true) s) (fun s => has s 0 (fun u => u.fcause == 0x25)) && next (exec .mxwait s) (fun s => has s 0 (fun u => u.pc == 0x10004)) &&
    next (exec (.mxcfg 2 3) s) (fun s => (s.gang gid).any (fun g => g.shadow.getD 10 0 == 0x3FFFF03FFFF)) &&
    next (exec (.mxburst 4) s) (fun s => (s.core 0).unit.burst == 2000 && (s.core 0).unit.ramp == .rampUp) &&
    (world [th 0]).myGang (th 0) == none && next (exec .mxwait (world [th 0])) (fun s => has s 0 (fun u => u.fcause == 0x20))) = true := by decide +kernel

/-- AccumulatorResults: elements at both ends of a row; every unit unlocked. -/
theorem witness_AccumulatorResults : (
    let t := member [(2, 0), (3, 31 + 30 * 2 ^ 8), (4, 3 * 2 ^ 16), (5, 0x40000000), (6, 7 + 9 * 2 ^ 32)]
    let s := ganged gang1 [t]
    s.myGang t == some gang1 && gang1.cores == [0] && (s.core 0).unit.lock == 0 && indexOk gang1 (t.rd 2) 2 false && indexOk gang1 (t.rd 3) 2 false &&
    accType 3 == some (.f16, 4) && indexOk gang1 (t.rd 4) 4 true && [Instr.accLd 8 2 2, .accSt 6 2 3, .accCvt 8 2 4, .accZero 2, .accScale 2 5].all (passes s t) &&
    next (exec (.accLd 8 2 2) s) (fun s => has s 0 (fun u => got u 8 == 0x400000003F800000)) && next (exec (.accCvt 8 2 4) s) (fun s => has s 0 (fun u => got u 8 == 0x40003C00)) &&
    next (exec (.accSt 6 2 3) s) (fun s => Sparse.get 0 (s.core 0).unit.tiles (2048 + 31 * 32 + 30) == 7 && Sparse.get 0 (s.core 0).unit.tiles (2048 + 31 * 32 + 31) == 9) &&
    next (exec (.accZero 2) s) (fun s => (s.core 0).unit.tiles == [(5000, 1)]) &&
    next (exec (.accScale 2 5) s) (fun s => (s.core 0).unit.tiles == [(2048, 0x40000000), (2049, 0x40800000), (5000, 1)])) = true := by decide +kernel

/-- UnitAndGangLifecycle: units due and not; a gang asked to be saved, one that may return, one that breaks. -/
theorem witness_UnitAndGangLifecycle : (
    let u := fun (m : MatUnit) => (world []).modUnit 0 (fun _ => m)
    let step := fun (i : Instr) (m : MatUnit) (p : MatUnit → Bool) => next (exec i (u m)) (fun s => p (s.core 0).unit)
    let m := MatUnit.init
    let away := { gang1 with resident := false, first := true }
    let t := { member [] with slot := none, st := .waiting .gang, cond := some (.coll gid) }
    let s := (world [t]).recPut away [0, 1, 2, 4, 128]
    let s := { s with gangs := [away] }
    step (.rampUpEnd 0) { m with ramp := .rampUp } (fun m => m.ramp == .up) && step (.rampUpEnd 0) { m with ramp := .rampUp, left := 1 } (fun m => m.ramp == .rampUp) &&
    step (.rampDownStart 0) { m with ramp := .up, idle := 256 } (fun m => m.ramp == .rampDown && m.left == 64) &&
    step (.rampDownStart 0) { m with ramp := .up, idle := 255 } (fun m => m.ramp == .up) && step (.rampDownEnd 0) { m with ramp := .rampDown } (fun m => m.ramp == .down) &&
    step (.rampDownEnd 0) { m with ramp := .rampDown, left := 1 } (fun m => m.ramp == .rampDown) &&
    (ganged { gang1 with saving := true } [t]).canSave { gang1 with saving := true } && (ganged gang1 [t]).gang gid == some gang1 && quiet (ganged gang1 [t]) && t.stores.isEmpty &&
    s.gangMayReturn away && (match s.gangRoom away with | .seats l => l.length == 1 | _ => false) && (match s.gangFinding away with | .ok l => l == [[]] | .error _ => false) &&
    next (exec (.gangBreak gid) (ganged { gang1 with breaking := true } [])) (fun s => s.gangs.isEmpty && (s.core 0).unit.gang.isNone)) = true := by decide +kernel

/-- GangResolution: every member left; one matrix operation with a valid set; members of two forms. -/
theorem witness_GangResolution : (
    let w := { member [] with st := .waiting .gang, cond := some (.coll gid) }
    let left := { gang1 with arrived := [(0, 2)] }
    let mma := { gang1 with arrived := [(0, 8)], shadow := (resetShadow false).set 5 1 }
    let two := { gang1 with m := 2, members := [(0, tid 0), (1, tid 1)], arrived := [(0, 8), (1, 9)] }
    let w1 := { w with id := tid 1 }
    left.resolves && mma.resolves && two.resolves && quiet (ganged left [w]) && w.stores.isEmpty && (ganged mma [w]).setValid mma { regs := mma.shadow } 8 &&
    next (exec (.gangResolution gid) (ganged left [w])) (fun s => s.gangs.isEmpty && has s 0 (fun u => u.st == .resident && u.gang.isNone && u.pc == 0x10004)) &&
    next (exec (.gangResolution gid) (ganged mma [w])) (fun s => (s.gang gid).any (fun g => g.ops == 1 && g.arrived.isEmpty && g.op.any (fun o => o.fn == 8)) &&
      has s 0 (fun u => u.st == .resident && u.pc == 0x10004)) &&
    next (exec (.gangResolution gid) (ganged two [w, w1])) (fun s => has s 1 (fun u => u.st == .faulted && u.fcause == 0x29))) = true := by decide +kernel

/-- MatrixOperation: one element, INT8, 7 + 3 × 5. -/
theorem witness_MatrixOperation : (
    let op : MatOp := { fn := 8, snap := [(physAddr (padUnit 0) 0, 3), (physAddr (padUnit 0) 64, 5)], seen := [] }
    let g := { gang1 with active := [0, 64, 0, 1, 1, 1, 0xCC, 2, 0, 0, 0], op := some op }
    let s := ((ganged g [member []]).writeAs 0 (physAddr (padUnit 0) 0) [3]).writeAs 0 (physAddr (padUnit 0) 64) [5]
    let s := s.modUnit 0 (fun u => { u with run := some 0, lock := 4, tiles := [(2048, 7), (2049, 9)] })
    (s.core 0).unit.gang == some gid && s.gang gid == some g && g.op == some op && (s.core 0).unit.run == some 0 && s.poison.isEmpty &&
    decide (12 ≤ (s.quadrantOf g op 0).eng.ta ∧ (s.quadrantOf g op 0).eng.ta ≤ 13) &&
    next (exec (.matrixOperationCompletion 0) s) (fun s => (s.core 0).unit.tiles == [(2048, 22), (2049, 9)] && (s.core 0).unit.lock == 0 && (s.core 0).unit.run.isNone) &&
    (let e : Eng := { regs := [0, 0, 0, 32, 32, 8, 0x22, 0, 0, 0, 0] }; e.k == 8 && decide (e.ta ≤ 8) && matWidth e.ta == 16 && !e.sca && !e.scb)) = true := by decide +kernel

/-! Engines, queues, the steps of the package. -/

/-- The descriptor of a CPY of n bytes from 0x30000 to 0x32000, at 0x50000. -/
def withDesc (s : State) (l : List Nat) : State := stored s ((List.range 8).zip l |>.map (fun x => (0x50000 + 8 * x.1, x.2)))
/-- Its command, and one that has been accepted. -/
def cmd1 : EngCmd :=
  { id := 3, kind := .cpy, tid := tid 0, home := 0, region := 0x20000, core := 0, src := 0x30000, dst := 0x32000, len := 16, p1 := 0, p2 := 0, p3 := 0, status := 0
    scope := .pkg, acq := false, rel := false, fill := none, started := true, record := none, result := 0 }
def engines (l : List EngCmd) (ts : List Thread) : State := let s := world ts; s.setDie 0 { s.die 0 with engq := l }

/-- EngineRequests: descriptors of each kind; one at an address that is not a multiple of 64; prefetches of a page that is mapped and of no address. -/
theorem witness_EngineRequests : (
    let t := set (th 0) [(1, 0x50000), (2, 0), (3, 0x50020), (4, 2 ^ 56), (5, 2 ^ 64 - 8)]
    let go := fun (k : EngKind) (i : Instr) (l : List Nat) =>
      let s := withDesc (world [t]) l
      let bs := (List.range 8).zip l |>.flatMap (fun x => toBytes 8 x.2)
      passes s t i && okay (s.descLoads t 0x50000 4) (· == bs) && (cmdOf t k (fun j => l.getD j 0) .pkg false false none).operandsOk (l.getD 7 0) &&
      okay (s.rangesOk t (cmdOf t k (fun j => l.getD j 0) .pkg false false none).ranges) (fun _ => true) &&
      next (exec i s) (fun s => has s 0 (fun u => match u.pend with | some (.engine c) => c.kind == k && c.len == l.getD 2 0 | _ => false))
    check1 { ea := 0x50000, n := 64, kind := .engine, write := false } && check2 (world [t]) 0 { ea := 0x50000, n := 64, kind := .engine, write := false } &&
    go .cpy (.cpy 1 0 .pkg false false false) [0x30000, 0x32000, 4096, 0, 0, 0, 0, 0] && go .cpy2d (.cpy2d 1 0 .pkg false false false) [0x30000, 0x32000, 16, 2, 64, 16, 0, 0] &&
    go .deal (.deal 1 0 .pkg false false false) [0x30000, 0x32000, 64, 2 * 2 ^ 32 + 16, 64, 0, 0, 0] && go .rstr (.rstr 1 0 .pkg false false false) [0x30000, 0, 16384, 0, 32, 0, 0, 0] &&
    go .mred (.mred 1 0 .pkg false false false) [0x30000, 0x32000, 8, 0, 0, 0, 0, 0] && passes (world [t]) t (.cpy 3 0 .pkg false false false) &&
    next (exec (.cpy 3 0 .pkg false false false) (world [t])) (fun s => has s 0 (fun u => u.fcause == 0x1B)) && canonical (2 ^ 56) == false && inWindow (2 ^ 64 - 8) &&
    [.pref 1 .l1, .pref 4 .l2, .pref 5 .llc, .esync .pkg].all (fun i => passes (world [t]) t i && next (exec i (world [t])) (fun s => has s 0 (fun u => u.pc == 0x10004)))) = true := by
  decide +kernel

/-- EngineSteps: acceptance into a queue of 239 entries and of 240; the start of the sixteenth command and of a seventeenth; completion; a chunk that is not the
last and the last; an abort. -/
theorem witness_EngineSteps : (
    let t := { th 0 with st := .blocked .empty, pend := some (.engine { cmd1 with id := 0, started := false }) }
    let r : Restripe := { vbase := 0x30000, nchunk := 2, sdom := 0, st := 1, newgidx := 0, newframe := 0x100, prog := 0, start := 0, cmd := 3 }
    let moving := fun (r : Restripe) => let s := engines [{ cmd1 with kind := .rstr, record := some 5 }] []; s.setDie 0 { s.die 0 with restripe := [(5, r)] }
    let waiting := { cmd1 with id := 9, started := false }
    t.settled && okay ((world []).chain 0 0 0x20000) (fun p => admits .eq 1 p) && (engines [] [t]).nextCmd == 0 && ((engines [] []).die 0).freeRecord == some 0 &&
    next (exec (.engineAcceptanceReply (tid 0)) (engines (List.replicate 239 cmd1) [t])) (fun s => (s.die 0).engq.length == 240 && has s 0 (fun u => u.pc == 0x10004)) &&
    next (exec (.engineAcceptanceReply (tid 0)) (engines (List.replicate 240 cmd1) [t])) (fun s => (s.die 0).engq.length == 240 && has s 0 (fun u => u.st == .blocked .feretry)) &&
    next (exec (.engineCommandStart 0) (engines (List.replicate 15 cmd1 ++ [waiting]) [])) (fun s => (s.die 0).engq.all (·.started)) &&
    next (exec (.engineCommandStart 0) (engines (List.replicate 16 cmd1 ++ [waiting]) [])) (fun s => !(s.die 0).engq.all (·.started)) &&
    ((engines [cmd1] []).die 0).engq.find? (fun y => y.id == 3) == some cmd1 && (cmd1.run (engines [cmd1] [])).isSome &&
    next (exec (.engineCommandCompletion 0 3) (stored (engines [cmd1] []) [(0x30008, 77)])) (fun s => (s.die 0).engq.isEmpty) && !(engines [cmd1] []).endWaits 0 cmd1 &&
    decide (1 ≤ ({ cmd1 with kind := .deal, p1 := 2 ^ 32 + 8 } : EngCmd).blk) && ({ cmd1 with kind := .deal, p1 := 2 ^ 32 + 8 } : EngCmd).len % 8 == 0 &&
    (moving r).restripeAt 0 5 == some r && !(moving r).rangeWaits 0 0 r.vbase r.nchunk && ((moving r).abortRstr 0 5 r).spillOk &&
    next (exec (.rstrAbort 0 5) (moving r)) (fun s => s.restripeAt 0 5 == some { r with st := 3 }) &&
    next (exec (.rstrAbort 0 5) (moving { r with st := 2 })) (fun s => s.restripeAt 0 5 == some { r with st := 2 })) = true := by decide +kernel

/-- ThreadAndPhaseSteps. -/
theorem witness_ThreadAndPhaseSteps : (
    let f : Fill := { regs := [(5, 9)], flags := 3, float := true, req := none, bad := none }
    let w : WalkReq := { va := 0x30000, kind := .load, write := false, fetch := false }
    let step := fun (t : Thread) (i : Instr) (p : Thread → Bool) => next (exec i (world [t])) (fun s => has s 0 p)
    let ready := { th 0 with st := .ready, slot := none, ctl := false, linesIn := [] }
    let sr := (world [ready]).refreshCore 0
    let ur := sr.again ready
    let pre := { th 0 with preempt := true }
    let walked := fun (va : Nat) (p : Thread → Bool) => step { th 0 with walk := some { w with va := va }, st := .blocked .empty } (.walkEnd (tid 0)) p
    next (exec (.phaseTurn 0) (world [])) (fun s => (s.core 0).cycle == 1 && s.issue.isEmpty) && next (exec (.phaseTurn 0) { world [] with halted := true }) (fun s => (s.core 0).cycle == 0) &&
    next (exec (.phaseTurn 0) (world [th 0, { th 1 with slot := some (0, 1) }])) (fun s => s.issue == [tid 0, tid 1] || s.issue == [tid 1, tid 0]) &&
    step { th 0 with fills := [f], fe := (th 0).fe &&& ~~~32#64 } (.registerFill (tid 0) 0) (fun u => u.rd 5 == 9 && u.full 5 && u.fpf == 3 && u.fills.isEmpty) &&
    step (th 0) (.registerFill (tid 0) 0) (fun u => u == th 0) &&
    step { th 0 with st := .blocked .line, linesIn := [0, 1, 2] } (.registerLineArrival (tid 0)) (fun u => u.st == .resident || u.st == .blocked .line) &&
    okay ((world [th 0]).framePlaces 0 (tid 0)) (fun l => some l == (th 0).placed) && step { th 0 with ctl := false } (.controlLineArrival (tid 0)) (fun u => u.ctl) &&
    okay ((world []).walkTable 0 0 0x30000 .load) (fun x => x.lvl == 3) &&
    next (exec (.walkEnd (tid 0)) (world [{ th 0 with walk := some w, st := .blocked .empty }])) (fun s => has s 0 (fun u => u.st == .resident && u.walk.isNone)) &&
    next (exec (.priorityAging (tid 0)) { world [ready] with tick := 50000 }) (fun s => has s 0 (fun u => u.aged == 1)) &&
    step { th 0 with preempt := true } (.preemption (tid 0)) (fun u => u.st == .ready && u.slot.isNone && !u.preempt) &&
    (world [th 0]).held? 0 0 0x20000 == false && step (th 0) (.preemption (tid 0)) (fun u => u == th 0) &&
    ((world [ready]).readyOf 0).map (·.id) == [tid 0] && ((world [ready]).residentsOf 0).isEmpty && (match (world [ready]).regionView 0 0 0x20000 with | .ok _ => true | _ => false) &&
    (match sr.slotView ur with | .ok => true | _ => false) && okay (sr.framePlaces 0 ur.id ur.lineList) (fun _ => true) && !sr.frameInvalidated ur && ur.placed.isSome &&
    sr.poison.isEmpty && (world [pre]).mustLeave pre && (world [pre]).mayLeave pre && !(world [th 0]).mustLeave (th 0) && walked 0x2000000 (fun u => u.st == .faulted) &&
    ((world [th 0]).cachedLines 0).length == 5 && step ready (.activation 0) (fun u => u.st == .resident && u.slot == some (0, 0) && !u.ctl)) = true := by decide +kernel

/-- ThreadAndPhaseSteps: a fill whose request is lost, one of a thread that is gone, a register line that a word names, a walk for a fetch and one whose leaf does not admit a load. -/
theorem witness_ThreadAndPhaseSteps_more : (
    let r : Req := { kind := .load, addr := 0x30000, host := false, since := 0 }
    let f : Fill := { regs := [(5, 9)], flags := 0, float := false, req := some r, bad := none }
    let lost := { world [{ th 0 with fills := [f] }] with tick := 2000000 }
    let gone := { world [th 0] with orphans := [({ trapRec with tid := some (tid 0) }, r)] }
    let t := { th 0 with st := .blocked .line, linesIn := [0] }
    let s := stored (world [t]) [(0x10000, (encodeNat (.add 40 41 42 false)).getD 0)]
    let walks := fun (va : Nat) (fetch : Bool) => { th 0 with walk := some { va := va, kind := .load, write := false, fetch := fetch }, st := .blocked .empty }
    let bare := fun (t : Thread) => stored (world [t]) [(0x8010, 0x4003)]
    lost.reqLost r && next (exec (.registerFill (tid 0) 0) lost) (fun s => has s 0 (fun u => u.fills.length == 1)) && !gone.reqLost r &&
    next (exec (.registerFill (tid 0) 0) gone) (fun s => s.orphans.isEmpty) && (s.missingLine t).isSome && !s.frameWaits 0 (tid 0) && (s.framePoison t 2).isNone &&
    okay (s.framePlaces 0 (tid 0) (s.missingLine t).toList) (fun _ => true) && next (exec (.registerLineArrival (tid 0)) s) (fun s => has s 0 (fun u => u.st == .resident && u.linesIn.length == 2)) &&
    next (exec (.walkEnd (tid 0)) (world [walks 0x30000 true])) (fun s => has s 0 (fun u => u.st == .resident) && (s.tlbFind 0 0 0x30000).isSome) &&
    okay ((bare (walks 0x4000000 false)).walk 0 0 0x4000000 .load false) (fun x => ((bare (th 0)).leafFault (walks 0x4000000 false) { va := 0x4000000, kind := .load, write := false, fetch := false } x.leaf).isSome) &&
    next (exec (.walkEnd (tid 0)) (bare (walks 0x4000000 false))) (fun s => has s 0 (fun u => u.st == .faulted))) = true := by decide +kernel

/-- The LQD of queue 5 at 0x60000, its ring at 0x61000 of 4 records, TAIL 1, HEAD 0, and a record of 2 threads of 1 line on die 0. -/
def queued : State :=
  { stored (world []) [(0x60000, 0x61000), (0x60008, 2), (0x60010, 1), (0x61000, 0x10000), (0x61008, 2 + 2 ^ 44), (0x61010, 0x20000), (0x61018, 99), (0x61020, 2 ^ 30 + 8192)] with
    queues := [(5, { QueueEnt.init with lqd := 0x60000, root := 0x20000, v := true, noticed := 1 })] }
def lqd1 : Lqd := { ring := 0x61000, size := 4, tail := 1, head := 0 }
def launch1 : Launch :=
  { id := 7, queue := 5, index := 0, pc := 0x10000, count := 2, lines := 1, cores := [0, 1], pack := false, gshape := 0, gm := 1, region := 0x20000, home := 0, args := 99
    frames := 2 ^ 30 + 8192, grecb := 0, gframeb := 0, doneaddr := 0, lqd := 0x60000, next := 0, live := 0, cancelled := false, taken := 0 }
def task1 : TaskEnt :=
  { pc := 0x10000, args := [1, 2, 3, 4], region := 0x20000, home := 0, sdom := 0, lines := 1, handle := 2 ^ 20 + 8, caller := 5, from' := tid 0, parked := false }

/-- LaunchAndTaskSteps: notice, take, materialisation, task creation, a reservation 999 and 1,000 ticks old, a kill message to nobody, to an inbox of 3 and of 4. -/
theorem witness_LaunchAndTaskSteps : (
    let q := queued.queue 5
    let tasks := fun (l : List Thread) => let s := world l; s.setCore 0 { s.core 0 with taskq := [task1], cycle := 64 }
    let lapse := fun (tick : Nat) => let s := { world [] with tick := tick }; s.setCore 0 { s.core 0 with taskRes := { list := [tid 1], since := [0] } }
    let kill := fun (l : List Thread) => { world l with killMsgs := [{ target := tid 1, src := 2 ^ 20, issuer := none }] }
    q.v && okay (queued.readLqd q) (· == lqd1) && okay (queued.lqdWord q 7) (· == 0) && okay (queued.lqdWord q 4) (· == 0) &&
    next (exec (.launchDoorbell 5) { queued with queues := [(5, { q with noticed := 0 })] }) (fun s => (s.queue 5).noticed == 1) &&
    queued.nextQueue == some 5 && queued.canTake 5 == some lqd1 && next (exec (.launchTake 5) queued) (fun s => s.launches.map (fun l => (l.count, l.cores.take 2, l.next)) == [(2, [0, 1], 0)] &&
      s.tookLaunch) &&
    (match queued.agentAt { die := 0, core := none, sdom := 0 } 0x61000 false with
      | .ok (s1, g) => (s1.poisonedIn g.pa 128).isNone && s1.checkRecord q (s1.numAt 0 g.pa 128) == 0
      | .error _ => false) &&
    (({ world [] with launches := [launch1] } : State).nextLaunchOn 0).any (fun y => y.id == 7) && (world []).memberCore launch1 0 == 0 &&
    (world []).readyCount 0 == 0 && (tasks []).taskFrom 0 [task1] [] 0 == some (0, task1) && okay ((tasks []).frameState 0 { sdom := 0, handle := task1.handle }) (· == 0) &&
    next (exec (.reservationLapse (.task 0)) (lapse 1000)) (fun s => (s.core 0).taskRes.list.isEmpty) && next (exec (.reservationLapse (.task 0)) (lapse 999)) (fun s => (s.core 0).taskRes.list.length == 1) &&
    next (exec (.killMessageRetry 0) (kill [])) (fun s => s.killMsgs.isEmpty) && next (exec (.killMessageRetry 0) (kill [{ th 1 with incnt := 3 }])) (fun s => s.killMsgs.isEmpty && has s 1 (fun u => u.incnt == 4)) &&
    next (exec (.killMessageRetry 0) (kill [{ th 1 with incnt := 4 }])) (fun s => s.killMsgs.length == 1)) = true := by decide +kernel

/-- OwnershipSteps: a carve that grows and shrinks, a unit and a segment being zeroed, a core that retires. -/
theorem witness_OwnershipSteps : (
    let s := world []
    let carve := s.setDie 0 { s.die 0 with busy := true, count := 1, target := 3, unitZeroing := [0] }
    let seg := s.setCore 1 { s.core 1 with zeroing := [31] }
    let ret := { s with retiring := [2] }
    quiet s && (carve.die 0).busy && carve.aimedAt (fun _ => true) == false && seg.aimedAt (segBytes 1 31) == false && seg.cmdAimedAt 1 31 == false &&
    next (exec (.carveChangeEnd 0) carve) (fun s => (s.die 0).count == 3 && !(s.die 0).busy) && next (exec (.carveUnitZeroingEnd 0 0) carve) (fun s => (s.die 0).unitZeroing.isEmpty) &&
    next (exec (.segmentZeroingEnd 1 31) (seg.writeAs 0 (physAddr (padUnit 1) (2 ^ 18 - 8)) [7])) (fun s => (s.core 1).zeroing.isEmpty && s.numAs 0 (physAddr (padUnit 1) (2 ^ 18 - 8)) 8 == 0) &&
    ret.coreEmpty 2 && !ret.coreOn 2 && ret.coreOn 0 && next (exec (.coreRetirement [2]) ret) (fun s => s.retiring.isEmpty)) = true := by decide +kernel

/-- The leaf of the pages that are mapped to themselves. -/
def pageLeaf : Word := 0x407F

/-- A byte of the page at `base`, whose leaf maps it to itself, lies at the place of its number, where nothing waits and nothing is poisoned. -/
def plainAt (s : State) (g : Agent) (base va : Nat) : Bool :=
  !inWindow va && canonical va && [1, 2, 3, 4].all (fun l => walkIndex l va == walkIndex l base) && (match s.locOf g.die g.sdom va pageLeaf false with
    | .error _ => false
    | .ok l => l.leaf == pageLeaf && !s.carveWaits l.spot && s.agentJoined g l.spot && l.spot.inRange && s.carveAdmits g.sdom l.spot && l.spot.pa == place va && (s.poisonedIn l.spot.pa 1).isNone)

/-- The walk of the page at `base`, which waits for nothing and finds nothing cached, finds that leaf. -/
def mapped (s : State) (g : Agent) (base : Nat) : Bool :=
  (s.die g.die).walks.isEmpty && !s.walkWaits g.die g.sdom base && okay (s.walkTable g.die g.sdom base .engine) (fun x => x.leaf == pageLeaf)

theorem pathBelow_page {s : State} {die sdom va vb : Nat} : ∀ (l : List Nat) (e : Word), (∀ i ∈ l, walkIndex i va = walkIndex i vb) →
    s.pathBelow die sdom va l e = s.pathBelow die sdom vb l e := by
  intro l
  induction l with
  | nil => intro e _; rfl
  | cons i l ih =>
    intro e hi
    have := fun n => ih n (fun j hj => hi j (by simp [hj]))
    simp only [State.pathBelow, hi i (by simp), this]

theorem walkWaits_page {s : State} {die sdom va vb : Nat} (hi : ∀ i ∈ [1, 2, 3, 4], walkIndex i va = walkIndex i vb) :
    s.walkWaits die sdom va = s.walkWaits die sdom vb := by
  simp only [State.walkWaits, State.walkPath, pathBelow_page _ _ hi]

theorem walk_uncached {s : State} {die sdom va : Nat} {k : AccKind} {w : Bool} (h : (s.die die).walks = []) :
    s.walk die sdom va k w = s.walkTable die sdom va k := by
  have ho : s.walkOnce die sdom va k = s.walkTable die sdom va k := by
    unfold State.walkOnce State.walkTable
    cases hr : s.rootFault die sdom va k <;> simp [State.walkCached, h]
  rw [State.walk, ho]
  cases s.walkTable die sdom va k <;> simp

theorem else_of_ok {ε α : Type} {c : Prop} [Decidable c] {f : ε} {r : Except ε α} {x : α} (h : (if c then .error f else r) = .ok x) : ¬ c ∧ r = .ok x := by
  by_cases hc : c <;> simp_all

theorem of_map_ok {ε α β : Type} {f : α → β} {r : Except ε α} {x : β} (h : r.map f = .ok x) : ∃ z, r = .ok z ∧ f z = x := by
  cases r <;> simp_all [Except.map]

theorem walkFrom_page {s : State} {die sdom va vb : Nat} {k : AccKind} : ∀ (l : List Nat) (e : Word) (x : Walked), (∀ i ∈ l, walkIndex i va = walkIndex i vb) →
    s.walkFrom die sdom vb k l e = .ok x → ∃ y, s.walkFrom die sdom va k l e = .ok y ∧ y.leaf = x.leaf ∧ y.entryPa = x.entryPa := by
  intro l
  induction l with
  | nil => intro e _ _ h; simp [State.walkFrom] at h
  | cons i l ih =>
    intro e x hi h
    rw [State.walkFrom] at h ⊢
    rw [hi i (by simp)]
    obtain ⟨h1, h⟩ := else_of_ok h
    obtain ⟨h2, h⟩ := else_of_ok h
    obtain ⟨h3, h⟩ := else_of_ok h
    obtain ⟨h4, h⟩ := else_of_ok h
    obtain ⟨h5, h⟩ := else_of_ok h
    rw [if_neg h1, if_neg h2, if_neg h3, if_neg h4, if_neg h5]
    split at h
    · rename_i h6
      rw [if_pos h6]
      exact ⟨_, rfl, by rw [← Except.ok.inj h], by rw [← Except.ok.inj h]⟩
    · rename_i h6
      rw [if_neg h6]
      obtain ⟨z, hw, hx⟩ := of_map_ok h
      obtain ⟨y, hy, h7, h8⟩ := ih _ z (fun j hj => hi j (by simp [hj])) hw
      exact ⟨_, by rw [hy]; rfl, by rw [← hx]; exact h7, by rw [← hx]; exact h8⟩

theorem rootFault_page {s : State} {die sdom va vb : Nat} {k : AccKind} (h : s.rootFault die sdom vb k = none) : s.rootFault die sdom va k = none := by
  unfold State.rootFault at h ⊢
  dsimp only at h ⊢
  split at h
  · simp at h
  · rename_i h1
    rw [if_neg h1]
    split at h
    · simp at h
    · rename_i h2
      rw [if_neg h2]
      split at h
      · simp at h
      · rename_i h3
        rw [if_neg h3]

theorem walkTable_page {s : State} {die sdom va vb : Nat} {k : AccKind} {x : Walked} (hi : ∀ i ∈ [1, 2, 3, 4], walkIndex i va = walkIndex i vb)
    (h : s.walkTable die sdom vb k = .ok x) : ∃ y, s.walkTable die sdom va k = .ok y ∧ y.leaf = x.leaf ∧ y.entryPa = x.entryPa := by
  unfold State.walkTable at h ⊢
  cases hr : s.rootFault die sdom vb k with
  | some f => simp [hr] at h
  | none =>
    rw [rootFault_page (va := va) hr]
    rw [hr] at h
    exact walkFrom_page _ _ _ hi h

theorem agentAt_of_plain {s : State} {g : Agent} {base va : Nat} (hm : mapped s g base = true) (h : plainAt s g base va = true) :
    ∃ l : Loc, s.agentAt g va false = .ok (s, .mem l) ∧ l.spot.pa = place va ∧ (s.poisonedIn (place va) 1).isSome = false := by
  simp only [plainAt, Bool.and_eq_true, Bool.not_eq_true', List.all_eq_true, beq_iff_eq] at h
  obtain ⟨⟨⟨hw, hc⟩, hi⟩, h⟩ := h
  simp only [mapped, Bool.and_eq_true, Bool.not_eq_true', List.isEmpty_iff] at hm
  obtain ⟨⟨hk, hv⟩, hm⟩ := hm
  cases hx : s.walkTable g.die g.sdom base .engine with
  | error f => simp [okay, hx] at hm
  | ok x =>
    simp only [okay, hx, beq_iff_eq] at hm
    cases hl : s.locOf g.die g.sdom va pageLeaf false with
    | error f => simp [hl] at h
    | ok l =>
      simp only [hl, Bool.and_eq_true, Bool.not_eq_true', beq_iff_eq] at h
      obtain ⟨⟨⟨⟨⟨⟨h3, hcw⟩, hj⟩, hin⟩, hca⟩, hp⟩, hpo⟩ := h
      have hr : Leaf.r pageLeaf = true := by decide
      have ha : Leaf.a pageLeaf = true := by decide
      have hcl : Leaf.cls pageLeaf ≠ 3 := by decide
      obtain ⟨y, hy, h7, h8⟩ := walkTable_page hi hx
      rw [hm] at h7
      refine ⟨l, ?_, hp, by simpa [hp] using hpo⟩
      simp [State.agentAt, hw, hc, walkWaits_page hi, hv, walk_uncached hk, hy, h7, hr, hl, hcw, hj, hin, hca, State.markLeaf, marksOf, ha,
        State.syncFrame, State.ctxWaits, Target.leaf?, h3, hcl]

theorem agentRead_of_plain {s : State} {g : Agent} {base : Nat} (hm : mapped s g base = true) : ∀ (n va : Nat), (List.range' va n).all (plainAt s g base) = true →
    s.agentRead g va n = .ok (s, (List.range' va n).map (fun a => s.byteAt g.sdom (place a))) := by
  intro n
  induction n with
  | zero => intro va _; rfl
  | succ n ih =>
    intro va h
    simp only [List.range'_succ, List.all_cons, Bool.and_eq_true] at h
    obtain ⟨l, h1, h2, h3⟩ := agentAt_of_plain hm h.1
    simp [State.agentRead, h1, Target.pa, h2, h3, ih _ h.2, List.range'_succ]

/-- The number n plain bytes hold. -/
def plainNum (s : State) (d va n : Nat) : Nat := ofBytes ((List.range' va n).map (fun a => s.byteAt d (place a)))

theorem agentNum_of_plain {s : State} {g : Agent} {base va n : Nat} (hm : mapped s g base = true) (h : (List.range' va n).all (plainAt s g base) = true) :
    s.agentNum g va n = .ok (s, plainNum s g.sdom va n) := by
  simp [State.agentNum, agentRead_of_plain hm n va h, plainNum]

theorem hostNum_of_plain {s : State} {base va n d : Nat} (hm : mapped s (s.hostAgent d) base = true) (h : (List.range' va n).all (plainAt s (s.hostAgent d) base) = true) :
    s.hostNum d va n = some (plainNum s d va n) := by
  simp only [State.hostNum, State.hostRead, agentRead_of_plain hm n va h]
  rfl

/-! Equinox, errors, bring-up, the package as a whole. -/

/-- Domain 1 of Equinox with its descriptor at 0x100000 (14 R309): NEXP, AUTO and HOLD, HIGH and LOW, INTERVAL, LCBASE, WSIZE, GRADOFF, POOLBASE, POOLSLOTS. -/
def equinox (w4 : Nat) : State :=
  { stored (world []) [(0x100000, 6), (0x100020, w4), (0x100028, 2 + 2 ^ 32), (0x100030, 10000), (0x100038, 0x300000), (0x100040, 16384), (0x100048, 128),
      (0x100050, 0x400000), (0x100058, 1), (0x100068, 0x310000), (0x101000, 2 ^ 19 + 6), (0x101008, 0x500000 + 16 * 2 ^ 8), (0x300000, 9), (0x500000, 77)] with
    edt := [(1, { Edt.init with dva := 0x100000, v := true })] }
def hold4 : Nat := 1 + 2 ^ 13 + 2 ^ 14 + 2 ^ 18

/-- The agent of domain 0 on die 0. -/
def agent0 : Agent := { die := 0, core := none, sdom := 0 }
/-- What an evaluation reads of the descriptor: GEN, then INTERVAL, then the words that judge it. -/
def judged (s : State) (p : State → Nat → Bool) : Bool :=
  okay (eqWords agent0 0x100000 [0] 0 s) (fun x => okay (eqWords agent0 0x100000 [6] x.2 x.1) (fun y =>
    okay (eqWords agent0 0x100000 [4, 5, 8, 9, 11] y.2 y.1) (fun z => p z.1 z.2)))

/-- A descriptor with replicas of 16 bytes, 8 of them weights, and a run with two copies to make, the first of which the engine has started. -/
def desc1 : Nat := 16 * 2 ^ 512 + 8 * 2 ^ 576 + 0x400000 * 2 ^ 640 + 2 * 2 ^ 704
def eqRun1 : EqRun := { dom := 1, dva := 0x100000, sdom := 0, desc := desc1, gen := 6, todo := [(0, 0, 0), (0, 0, 1)], done := [], retire := [] }
def copying : State := let s := equinox hold4
  s.setDie 0 { s.die 0 with eqRun := some eqRun1, engq := [{ eqRun1.copyCmd 3 0 0x500000 0x400000 0 with started := true }] }
def eqCtx1 : EqCtx := { g := agent0, dom := 1, dva := 0x100000, n := desc1 }
/-- The next copy can begin: its pool slot is free, and slot 0 of the entry can be read. -/
def begins (s : State) : Bool :=
  okay (eqRead agent0 0x100060 8 s) (fun x => !bit x.2 1 && okay (eqPool agent0 0x100000 0 1 true x.1) (fun y =>
    okay (eqRead agent0 (entryVa 0x100000 0 0 + 8) 8 y.1) (fun z => slotBase z.2 == 0x500000)))

/-- EquinoxSteps: no domain due and one due. -/
theorem witness_EquinoxSteps_due : (((world []).die 0).eqRun.isNone && (world []).dueDomain 0 == none && (equinox hold4).dueDomain 0 == some (1, { Edt.init with dva := 0x100000, v := true })) = true := by
  decide +kernel

/-- EquinoxSteps: descriptors that are invalid, without AUTO, and on hold with one expert. -/
theorem witness_EquinoxSteps_invalid : judged (equinox (2 ^ 26)) (fun s n => !descValid n && okay (s.eqLog agent0 0x100000 6 0 0 6) (fun _ => true)) = true := by
  decide +kernel
theorem witness_EquinoxSteps_closed : judged (equinox 1) (fun s n => descValid n && !dAuto n && okay (s.eqClose { eqCtx1 with n := n }) (fun _ => true)) = true := by
  decide +kernel
theorem witness_EquinoxSteps_hold : judged (equinox hold4) (fun s n => descValid n && dAuto n && dHold n && dNexp n == 1 &&
    okay (eqWords agent0 0x100000 [7] n s) (fun x => dLcbase x.2 == 0x300000 && okay (eqDecay agent0 x.2 x.1) (fun y => y.2 == [9] &&
      okay (y.1.eqClose { eqCtx1 with n := n }) (fun s => s.numAs 0 (place 0x300000) 4 == 4)))) = true := by decide +kernel

/-- EquinoxSteps: a first access that waits; one that fails, at which the evaluation stops, with INTERVAL readable and not. -/
theorem witness_EquinoxSteps_stop : (
    let s := (equinox hold4).markPoison (place 0x100000)
    let blind := s.markPoison (place 0x100030)
    let stops := fun (s : State) (n : Nat) => match eqWords agent0 0x100000 [0] 0 s with
      | .error (.code c _, s0) => c == 20 && okay (s0.eqStop { eqCtx1 with n := n } []) (fun s => (s.die 0).eqRun.isNone)
      | _ => false
    let held := { equinox hold4 with sharersLost := [place 0x100000 / 128] }
    okay (eqRead agent0 0x100030 8 s) (fun x => x.2 == 10000 && stops s (dWord6 x.2)) && !okay (eqRead agent0 0x100030 8 blind) (fun _ => true) && stops blind 0 &&
    (held.dueDomain 0).any (fun x => x.1 == 1) && (match eqWords agent0 0x100000 [0] 0 held with | .error (.held, _) => true | _ => false)) = true := by
  decide +kernel

/-- EquinoxSteps: a run with a copy and another after it: a copy that is done, and one that fails. -/
theorem witness_EquinoxSteps_copy : ((copying.die 0).eqRun == some eqRun1 && (match (copying.die 0).engq.find? (fun c => c.eq == some 0 && c.started) with
    | some cmd => cmd.id == 3 && (match copying.eqCopy agent0 cmd 0x400008 8 with
      | .done s => s.numAs 0 (place 0x400000) 8 == 77 && begins (s.dropCmd 0 3)
      | _ => false)
    | none => false)) = true := by decide +kernel
theorem witness_EquinoxSteps_failed : okay ((copying.dropCmd 0 3).eqFail eqCtx1 eqRun1 (0, 0, 0)) begins = true := by decide +kernel

/-- ErrorSteps: a clean and a poisoned line, lost sharers, a request across a link that is abandoned, the last link, a retrain that ends. -/
theorem witness_ErrorSteps : (
    let f : Fill := { regs := [(5, 0)], flags := 0, float := false, req := some { kind := .load, addr := 0x30000, host := false, since := 5 }, bad := none }
    let t := { th 0 with fills := [f] }
    let s := world []
    let late := fun (tick : Nat) (p : Thread → Bool) => next (exec (.requestTimeout (.fill (tid 0) 0)) { world [t] with tick := tick }) (fun s => has s 0 p)
    next (exec (.uncorrectableError 0 12) s) (fun s => s.poison == [8] && Sparse.get 0 (s.die 0).errs 1 == 1) &&
    next (exec (.uncorrectableError 0 12) { s with poison := [16] }) (fun s => s.poison == [8, 16] && Sparse.get 0 (s.die 0).errs 1 == 0) &&
    next (exec (.correctedError 0) s) (fun s => Sparse.get 0 (s.die 0).errs 0 == 1) && next (exec (.sharersLostRecallEnd 3) { s with sharersLost := [3] }) (fun s => s.poison.length == 16) &&
    next (exec (.sharersLostRecallEnd 3) s) (fun s => s.poison.isEmpty) && t.fills[0]? == some f && t.st == .resident && t.pend.isNone && !t.killed && t.asyncs.isEmpty && t.stores.isEmpty &&
    late 20005 (fun u => u.st == .faulted && u.fcause == 0x31 && u.fills.isEmpty) && late 20004 (fun u => u == t) &&
    (s.homeOf (128 * 2 ^ 60)).isNone && next (exec (.flitCheckFailure (2 ^ 60)) s) (fun s => s.sharersLost.isEmpty) && ({ s with engdies := 1 } : State).hopeful.whole &&
    next (exec (.linkFailure 18) s) (fun s => s.linkDown == [18] && s.retraining == [18]) && ({ s with retraining := [18], linkDown := [18] } : State).retraining.contains 18 &&
    next (exec (.linkRetrainEnd 18 true) { s with retraining := [18], linkDown := [18] }) (fun s => s.linkDown.isEmpty && s.retraining.isEmpty)) = true := by decide +kernel

/-- ErrorSteps: a line that a geometry names has a home. -/
theorem witness_ErrorSteps_home : ((world []).homeOf (128 * (place 0x30000 / 128))).isSome = true := by
  have h : 0 < ((world []).homesOf (128 * (place 0x30000 / 128))).length := by decide +kernel
  unfold State.homeOf
  simp [List.getElem?_eq_getElem (Nat.mod_lt _ h)]

/-- ErrorSteps: with dies 0 and 1 enabled and every link down, the enabled units are no whole. -/
theorem witness_ErrorSteps_split : (
    let s := { world [] with endies := 3, retraining := [0], linkDown := List.range 19 }
    s.retraining.contains 0 && !({ s with retraining := [] } : State).hopeful.whole && next (exec (.linkRetrainEnd 0 false) s) (fun s => s.halted && s.fatal)) = true := by decide +kernel

/-- BringUp: images that verify and do not; each stage; a package joined to G0 and one that is not. -/
theorem witness_BringUp : (
    let start := fun (g : Stage) => { State.reset with stage := g, trusted := 2 ^ 19 - 1 }
    let bad := { State.reset with silicon := { Silicon.nominal with imageOk := false } }
    let old := { State.reset with silicon := { Silicon.nominal with svn := 3, floor := 4 } }
    let alone := { start .configuration with silicon := { Silicon.nominal with gdies := 0xE } }
    let stage := fun (i : Instr) (s : State) (g : Stage) => next (exec i s) (fun s => s.stage == g)
    State.reset.silicon.imageOk && decide (State.reset.silicon.floor ≤ State.reset.silicon.svn) && stage .packageReset State.reset .discovery &&
    stage .packageReset bad (.held 0xE1) && stage .packageReset old (.held 0xE1) && bad.inputs.isEmpty && stage .discovery (start .discovery) .links &&
    stage .linkTraining (start .links) .memory && stage .memoryTraining (start .memory) .configuration && stage .release (start .release) .running &&
    ((start .configuration).joined (start .configuration).unitOk).contains 8 && (((start .configuration).joined (start .configuration).unitOk).filter (fun u => decide (u < 8))).length == 8 &&
    !(alone.joined alone.unitOk).contains 8 && stage .configuration alone (.held 0xE2) && stage .release (start .running) .running) = true := by decide +kernel

/-- HeldStays: a package held for its image. -/
theorem witness_HeldStays : ({ State.reset with stage := .held 0xE1 } : State).heldForGood :=
  ⟨⟨⟨0xE1, rfl⟩, rfl⟩, rfl, rfl, by decide, by intro x hx; cases hx⟩

/-- StepRunsDecoded: a word that decodes and one that does not, at the PC of the thread that issues. -/
theorem witness_StepRunsDecoded : (
    let s := fun (w : Nat) => { stored (world [th 0]) [(0x10000, w)] with issue := [tid 0], cur := none }
    let s1 := fun (w : Nat) => { s w with issue := [], cur := some (tid 0) }
    (th 0).pc.toNat % 4 == 0 && canonical (th 0).pc.toNat && (s1 5).fetchSlot (th 0) == none && okay ((s1 0x04108180).fetchWord (th 0)) (· == 0x04108180) &&
    okay (decodeWord 0x04108180) (fun _ => true) && next (step (s 0x04108180)) (fun s => has s 0 (fun u => u.pc == 0x10004)) &&
    !okay (decodeWord 0) (fun _ => true) && next (step (s 0)) (fun s => has s 0 (fun u => u.fcause == 1))) = true := by decide +kernel

/-- DecodeOfEncode: an instruction and its word, at the ends of its fields. -/
theorem witness_DecodeOfEncode : (([.add 63 63 63 true, .movi 0 0x80000, .bfi 1 2 0 63, .casD 63 0 63 0 .sys, .hintReserved 62 0xFFFFF] : List Instr).all (fun i => i.wellFormed &&
    (encodeNat i).any (fun w => decide (w < 2 ^ 32) && okay (decodeWord w) (· == i)))) = true := by decide +kernel

/-- EveryStepAnswers: a step, a word that a thread issues, a word that none issues. -/
theorem witness_EveryStepAnswers : (!isWord .tscTick && isWord .nop && (world [th 0]).cur.bind (world [th 0]).find != none && (world []).cur.bind (world []).find == none) = true := by
  decide +kernel

/-- A mailbox command of the owner or of domain 0, with sequence number 1. -/
def mail (code signer : Nat) (l : List Nat) : MailCmd :=
  { cmd := code, len := 24 + 8 * l.length, signer := signer, seq := 1, payload := l.map (BitVec.ofNat 64), sig := List.replicate 64 0 }
/-- It is well formed, its signer exists and its rule admits it, with a SEQ above the highest. -/
def mailOk (c : MailCmd) (words : Nat) (r : Signer) : Bool :=
  let s := { ground with ownkey := 1 }
  s.stage == .running && c.len == 24 + 8 * words && decide (words ≤ c.payload.length) && (s.signerKey c.signer).isSome && decide (s.signerSeq c.signer < c.seq) && r.admits c.signer

/-- MailboxCommands: a command of each row, at the ends of its ranges. -/
theorem witness_MailboxCommands : (
    let t := fun (c l : List Nat) => (mail 0 0 (c ++ l)).payload.drop c.length
    mailOk (mail 0x01 0 []) 0 .anyone && mailOk (mail 0x02 0 (List.replicate 8 5)) 8 .anyone && mailOk (mail 0x10 0xFFFF [0x1FF]) 1 .owner &&
    mailOk (mail 0x11 0xFFFF [1023, 0, 1, 1, 2, 3, 4]) 7 .owner && mailOk (mail 0x12 0 [0]) 1 (.ownerOrTenant 0) && mailOk (mail 0x13 0 [0, 1]) 2 (.tenant [0]) &&
    mailOk (mail 0x20 0 [63, 0x4000, 0x4000, 2 ^ 16]) 4 (.tenant [0]) && aperOk (t [63] [0x4000, 2 ^ 36, 2 ^ 16]) && mailOk (mail 0x21 0 [4095, 0x60000, 0x20000, 1, 0]) 5 (.tenant [0]) &&
    queueOk (t [4095] [0x60000, 0x20000, 1, 0]) && mailOk (mail 0x22 0 [15, 0x100000, 2 ^ 19]) 3 (.tenant [0]) && edtOk (t [15] [0x100000, 2 ^ 19]) &&
    mailOk (mail 0x23 0 [255, 2 ^ 32, 0, 0, 0]) 5 (.tenant [0]) && fdtOk (t [255] [2 ^ 32 + 1, 0, 0, 0]) && mailOk (mail 0x24 0 [15, 2 ^ 16, 0x70000]) 3 (.tenant [0]) &&
    mailOk (mail 0x30 0xFFFF [7, 0, 128]) 3 .owner && mailOk (mail 0x30 0xFFFF [7, 1, 127 + 0xFFFF * 2 ^ 16]) 3 .owner && mailOk (mail 0x31 0xFFFF [2047, 31, 0xFFFF]) 3 .owner &&
    mailOk (mail 0x32 0xFFFF [8, 0, 1023]) 3 .owner && mailOk (mail 0x32 0xFFFF [7, 32, 0]) 3 .owner && mailOk (mail 0x33 0xFFFF [0x2000]) 1 .owner && mailOk (mail 0x34 0xFFFF [7, 0, 0, 0, 1]) 5 .owner &&
    [[0, 0, 0, 0], [1, 1000, 0, 0], [1, 1000000, 0, 0], [2, 10000, 0, 0], [2, 2 ^ 32 - 1, 0, 0], [3, 0, 7, 10], [4, 0, 63, 0]].all (fun l => mailOk (mail 0x35 0xFFFF l) 4 .owner) &&
    !mailCodes.contains 0x36 && next (exec (.mailboxUnknownCommand (mail 0x36 0 [])) ground) (fun s => s.threads.isEmpty) && decide ((mail 0x10 0xFFFF [1]).seq ≤ ({ ground with ownseq := 1 } : State).signerSeq 0xFFFF)) = true := by
  decide +kernel

/-- Endpoint 3 with its EPD at 0x70000: a ring of 2 at 0x71000, TAIL 1, HEAD 0, a key table of one entry at 0x72000 that admits 0x30000 to 0x30FFF, and a work entry. -/
def endpoint (op : Nat) : State :=
  { stored (world []) [(0x70000, 0x71000), (0x70008, 1), (0x70010, 1), (0x70020, 0x72000), (0x70028, 1), (0x71000, op), (0x71008, 0x30000), (0x71010, 8),
      (0x72000, 0x30000), (0x72008, 0x1000), (0x72010, 7)] with
    endpoints := [(3, { Endpoint.init with v := true, epd := 0x70000, noticed := 1 })] }

/-- What a host access gives, when it is served. -/
def served (r : Served) : Bool := match r with | .done _ _ => true | _ => false
/-- Aperture 63: 16 KiB at 0x30000, writable or not. -/
def aperture (w : Nat) : State := { world [] with apertures := [(63, [0x30000, 0x4000, BitVec.ofNat 64 (w * 2 ^ 17 + 2 ^ 16)])] }
/-- A put of 8 bytes that is outstanding, and a get from the key table's range. -/
def work1 : EthWork := { index := 0, words := [1, 0x30000, 8, 0, 0, 0, 0, 0], sdom := 0, epd := 0x70000 }
def sending : State := { endpoint 1 with endpoints := [(3, { Endpoint.init with v := true, epd := 0x70000, noticed := 1, work := [work1] })] }
def inbound (addr : Nat) : Inbound := { ep := 3, key := 0, addr := addr, len := 8, data := none }

/-- HostSteps: accesses at the end of an aperture and beyond it, to one that is read only; REQTO and HOSTTO in the running package; a poisoned word. -/
theorem witness_HostSteps_aperture : (hostAligned 0x3FF8 8 && (aperture 1).aperAdmits 63 0x3FF8 false && !(aperture 1).aperAdmits 63 0x4000 false && (aperture 1).aperAdmits 63 0x3FF8 true &&
    !(aperture 0).aperAdmits 63 0 true && next (exec (.hostApertureRead 63 0x4000 8) (aperture 1)) (fun s => s.hostData == List.replicate 8 255 && s.hostErr == 1) &&
    next (exec (.hostApertureWrite 63 0 [9]) (aperture 0)) (fun s => s.hostErr == 1)) = true := by decide +kernel
theorem witness_HostSteps_served : (served ((aperture 1).hostRead 0 0x33FF8 8) && served ((aperture 1).hostWrite 0 0x33FF8 [1, 2, 3, 4, 5, 6, 7, 8]) &&
    next (exec (.hostApertureWrite 63 0 [9]) (aperture 1)) (fun s => s.numAs 0 (place 0x30000) 1 == 9)) = true := by decide +kernel
theorem witness_HostSteps_window : ([0x208, 0x210].all (fun o => next (exec (.managementWindowWrite { off := o, val := 20001, fromHost := false }) ground) (fun s =>
    s.reqto == 20000 && s.hostto == 1000000)) && (aperture 1).stage == .running && (aperture 1).hostSees 0x8008 == 0 && (aperture 1).hostSees 0x10300 == (aperture 1).hostSees 0x10300 &&
    !(aperture 1).hostPoisoned 0 0x30000 8 && ((aperture 1).markPoison (place 0x30000)).hostPoisoned 0 0x30000 8 &&
    next (exec (.hostApertureWrite 63 0 [9]) ((aperture 1).markPoison (place 0x30000))) (fun s => s.hostErr == 1)) = true := by decide +kernel

/-- The EPD, the first ring entry and the first key table entry are plain. -/
def epdPlain (s : State) (d : Nat) : Bool :=
  mapped s (s.hostAgent d) 0x70000 && (List.range' 0x70000 128).all (plainAt s (s.hostAgent d) 0x70000) &&
  (List.range' 0x71000 64).all (plainAt s (s.hostAgent d) 0x70000) && (List.range' 0x72000 32).all (plainAt s (s.hostAgent d) 0x70000)

theorem hostNum_of_epd {s : State} {d : Nat} (h : epdPlain s d = true) : s.hostNum d 0x70000 128 = some (plainNum s d 0x70000 128) ∧
    s.hostNum d 0x71000 64 = some (plainNum s d 0x71000 64) ∧ s.hostNum d 0x72000 32 = some (plainNum s d 0x72000 32) := by
  simp only [epdPlain, Bool.and_eq_true] at h
  exact ⟨hostNum_of_plain h.1.1.1 h.1.1.2, hostNum_of_plain h.1.1.1 h.1.2, hostNum_of_plain h.1.1.1 h.2⟩

/-- HostSteps: an endpoint whose ring holds an entry: a put, a get; one outstanding put; accesses at the end of the key's range and beyond it. -/
theorem endpoint_plain : epdPlain (endpoint 1) 0 = true ∧ epdPlain (endpoint 2) 0 = true ∧ epdPlain sending 0 = true := by decide +kernel

theorem eq_of_okay {ε α : Type} [DecidableEq α] {x : Except ε α} {a : α} (h : okay x (· == a) = true) : x = .ok a := by
  cases x with
  | error e => simp [okay] at h
  | ok b => simp only [okay, beq_iff_eq] at h; rw [h]

/-- The EPD of those states. -/
def epd3 : Epd := { ring := 0x71000, size := 2, tail := 1, head := 0, keytab := 0x72000, keycnt := 1, err := 0, fails := 0 }

theorem readEpd_plain {s : State} {e : Endpoint} (h : epdPlain s 0 = true) (he : e.sdom = 0 ∧ e.epd.toNat = 0x70000)
    (hn : plainNum s 0 0x70000 128 = plainNum (endpoint 1) 0 0x70000 128) : s.readEpd e = .ok epd3 := by
  rw [State.readEpd, he.1, he.2, (hostNum_of_epd h).1, hn]
  apply eq_of_okay
  decide +kernel

/-- HostSteps: the ring of an endpoint. -/
theorem witness_HostSteps_ring : ((endpoint 1).endpoint 3).v = true ∧ (endpoint 1).readEpd ((endpoint 1).endpoint 3) = .ok epd3 ∧ epd3.err = 0 :=
  ⟨by decide +kernel, readEpd_plain endpoint_plain.1 (by decide +kernel) rfl, rfl⟩

theorem nextWork_plain {s : State} (h : epdPlain s 0 = true) (he : s.endpoint 3 = { Endpoint.init with v := true, epd := 0x70000, noticed := 1 })
    (hw : s.epdWaits (s.endpoint 3) = false) (hn : plainNum s 0 0x70000 128 = plainNum (endpoint 1) 0 0x70000 128) :
    s.nextWork 3 = some (epd3, (upto 0 8).map (fun i => w64 (entWord (plainNum s 0 0x71000 64) i))) := by
  have hr := readEpd_plain (e := s.endpoint 3) h (by rw [he]; decide) hn
  rw [he] at hr hw
  simp only [State.nextWork, he, hw, hr]
  simp [Endpoint.init, epd3, (hostNum_of_epd h).2.1]

/-- HostSteps: a put, and a get. -/
theorem witness_HostSteps_put : ∃ ws, (endpoint 1).nextWork 3 = some (epd3, ws) ∧ ws.getD 0 0 = 1 :=
  ⟨_, nextWork_plain endpoint_plain.1 (by decide +kernel) (by decide +kernel) rfl, by decide +kernel⟩
theorem witness_HostSteps_get : ∃ ws, (endpoint 2).nextWork 3 = some (epd3, ws) ∧ ws.getD 0 0 = 2 :=
  ⟨_, nextWork_plain endpoint_plain.2.1 (by decide +kernel) (by decide +kernel) (by decide +kernel), by decide +kernel⟩

/-- HostSteps: a put that is outstanding. -/
theorem witness_HostSteps_work : (work1.ok && work1.word 6 == 0 && work1.word 0 == 1 && served (sending.hostRead 0 0x30000 8) && (sending.endpoint 3).work == [work1]) = true := by decide +kernel

theorem inbound_plain (a : Nat) : sending.inboundOk (sending.endpoint 3) (inbound a) =
    (decide (0 < 1) && keyAdmits (plainNum sending 0 0x72000 32) 0 a 8 false) := by
  have h0 : wbits (inbound a).key 15 0 = 0 := by rw [show (inbound a).key = 0 from rfl]; decide
  have h1 : wbits (inbound a).key 63 16 = 0 := by rw [show (inbound a).key = 0 from rfl]; decide
  have hm : mapped sending (sending.hostAgent 0) 0x70000 = true := by
    have h := endpoint_plain.2.2
    simp only [epdPlain, Bool.and_eq_true] at h
    exact h.1.1.1
  have h2 : sending.hostNum 0 (0x70000 + 0x20) 8 = some 0x72000 := by
    rw [hostNum_of_plain hm (by decide +kernel)]
    decide +kernel
  have h3 : sending.hostNum 0 (0x70000 + 0x28) 8 = some 1 := by
    rw [hostNum_of_plain hm (by decide +kernel)]
    decide +kernel
  rw [State.inboundOk, show (sending.endpoint 3).sdom = 0 by decide +kernel, show (sending.endpoint 3).epd.toNat = 0x70000 by decide +kernel, h2, h3]
  simp only [h0, h1, show 0x72000 + 32 * 0 = 0x72000 from rfl, (hostNum_of_epd endpoint_plain.2.2).2.2]
  generalize plainNum sending 0 0x72000 32 = m
  rfl

/-- HostSteps: an inbound access at the end of its key's range and one beyond it. -/
theorem witness_HostSteps_inbound : sending.inboundOk (sending.endpoint 3) (inbound 0x30FF8) = true ∧ (sending.endpoint 3).v = true ∧
    sending.inboundOk (sending.endpoint 3) (inbound 0x30FF9) = false := by
  rw [inbound_plain, inbound_plain]
  decide +kernel

/-- HostSteps: what those accesses read and write. -/
theorem witness_HostSteps_served_inbound : (served (sending.hostWrite 0 0x30000 [7]) && served (sending.hostRead 0 0x30FF8 8)) = true := by decide +kernel

/-- A packet from die 1 to die 0, and the world it is in flight in. -/
def pkt (op : Nat) (l : List Nat) : Packet := { src := 1, dst := 0, op := op, sdom := 0, seq := 4, p := 128, payload := l.map (BitVec.ofNat 64) }
def wire (p : Packet) : State := { world [] with net := [p] }

/-- PacketArrivals: a packet of each code whose payload fits, at a line nobody holds; a retry; a line whose last holder answers; packets that do not fit. -/
theorem witness_PacketArrivals : (
    let p := pkt 0x01 []
    [pkt 0x01 [], pkt 0x02 [], pkt 0x03 [], pkt 0x04 (List.replicate 17 0), pkt 0x05 [0, 0, 0], pkt 0x06 [0x8C, 1, 2], pkt 0x07 [0, 0], pkt 0x07 [2, 0, 0], pkt 0x08 [], pkt 0x09 [],
      pkt 0x0A (List.replicate 10 0), pkt 0x0B [3], pkt 0x0C [0, 0], pkt 0x0D [0, 1, 0, 0], pkt 0x0E [1], pkt 0x0F [0, 0], pkt 0x0F [1, 0], pkt 0x81 [0, 0], pkt 0x82 [], pkt 0x83 [0],
      pkt 0x84 [], pkt 0x85 [0], pkt 0x86 [], pkt 0x87 [0], pkt 0x8F []].all wordsMatch && (wire p).stage == .running && !(wire p).seenSeq p && (wire p).dir (dirKey p) == DirEnt.init &&
    (wire p).threads.isEmpty && (wire p).poison.isEmpty && (wire p).feEmpty.isEmpty && (wire p).deferrals.isEmpty && quiet (wire p) && pktW (pkt 0x06 [0x8C, 1, 2]) 0 / 2 ^ 4 % 16 == 8 &&
    ({ wire p with performed := [(16, [4])] } : State).seenSeq p && ((wire (pkt 0x86 [])).setDir (dirKey p) { DirEnt.init with waits := [1, 0] }).dir (dirKey p) == { DirEnt.init with waits := [1, 0] } &&
    !wordsMatch (pkt 0x01 [0]) && !wordsMatch (pkt 0x10 []) &&
    next (exec (.ack (pkt 0x82 [])) (wire (pkt 0x82 []))) (fun s => s.net.isEmpty) && next (exec (.inv (pkt 0x08 [])) (wire (pkt 0x08 []))) (fun s => s.net.map (·.op) == [0x86]) &&
    next (exec (.unassignedOpPacket (pkt 0x10 [])) (wire (pkt 0x10 []))) (fun s => s.net.isEmpty && Sparse.get 0 (s.die 0).errs 3 == 1)) = true := by decide +kernel

/-- PacketArrivals: in that world no word is poisoned, every word is full and no line is a thread's, wherever the packet's place lies. -/
theorem witness_PacketArrivals_place (pa : Nat) : (wire (pkt 0x06 [])).poisonedIn pa 8 = none ∧ (wire (pkt 0x06 [])).isFull pa = true ∧ (wire (pkt 0x06 [])).lineAt pa = none ∧
    (wire (pkt 0x06 [])).droppedAt pa = none ∧ (physUnit pa < 20 → (wire (pkt 0x06 [])).placeAdmits 0 pa = true) := by
  have h1 : (wire (pkt 0x06 [])).poison = [] := by decide +kernel
  have h2 : (wire (pkt 0x06 [])).feEmpty = [] := by decide +kernel
  have h3 : (wire (pkt 0x06 [])).threads = [] := rfl
  refine ⟨by simp [State.poisonedIn, h1], by simp [State.isFull, h2], by simp [State.lineAt, h3], by simp [State.droppedAt, h3], fun h => ?_⟩
  rw [State.placeAdmits, if_neg (by omega)]

/-- OutcomeOrder: an absent register line, an order that holds (a buffered store before a FENCE), a locked tile, the last word of the lower half. -/
theorem witness_OutcomeOrder_later : (
    let t := th 0
    let run := fun (s : State) (i : Instr) (p : State → Bool) => isWord i && featureOk s.featen i && (namedRegs i).all (fun n => decide (n < t.count)) && next (exec i s) p
    let noLine := { t with linesIn := [1] }
    let busy := { t with stores := [{ va := 0x30000, pa := place 0x30000, bytes := [1], leaf := some 0x407F }] }
    let last := { t with pc := BitVec.ofNat 64 (2 ^ 56 - 4) }
    let lock := (ganged { gang1 with op := some { fn := 0, snap := [], seen := [] } } [member []]).modUnit 0 (fun u => { u with lock := 4 })
    run (world [noLine]) (.add 1 2 15 false) (fun s => has s 0 (fun u => u.pc == 0x10004)) &&
    (world [noLine]).eligible noLine (elig (.add 1 2 16 false)) &&
    run (world [noLine]) (.add 1 2 16 false) (fun s => has s 0 (fun u => u.st == .blocked .line && u.pc == 0x10000)) &&
    run (world [{ busy with linesIn := [] }]) (.atomAdd 1 2 3 .d .rlx) (fun s => has s 0 (fun u => u.st == .blocked .empty)) &&
    !(world [busy]).eligible busy (elig (.fence .core)) && run (world [busy]) (.fence .core) (fun s => has s 0 (fun u => u.st == .blocked .empty)) &&
    run (world [busy]) (.fence .thread) (fun s => has s 0 (fun u => u.pc == 0x10004)) &&
    lock.lockHolds (member []) (elig (.accLd 1 2 3)) && run lock (.accLd 1 2 3) (fun s => has s 0 (fun u => u.st == .blocked .lock)) &&
    !lock.lockHolds (member []) (elig (.accLd 1 3 3)) && lock.lockHolds (member []) (elig .mxwait) && run lock .mxwait (fun s => has s 0 (fun u => u.st == .blocked .lock)) &&
    lastWord last.pc && !lastWord (last.pc - 4) && !isTransfer .nop && run (world [last]) .nop (fun s => has s 0 (fun u => u.st == .faulted && u.fcause == 4))) = true := by
  decide +kernel

/-- NopsHintsFences: each issues; a FENCE of core and of thread scope. -/
theorem witness_NopsHintsFences : (([.nop, .hnop 0xFFFFF, .hctx 1 0, .hfetch 63 0, .hintReserved 3 0, .hintReserved 62 0, .fence .thread, .fence .core, .fence .sys, .fenceAcq .core,
    .fenceRel .thread, .fenceRel .core] : List Instr).all (fun i => passes (world [th 0]) (th 0) i && next (exec i (world [th 0])) (fun s => has s 0 (fun u => u.pc == 0x10004)))) = true := by
  decide +kernel

/-- YieldAndExit: a gang member; an empty core; a candidate of equal and of higher priority, and one of lower; EXIT alone, with a return message to handle 0, and of a member. -/
theorem witness_YieldAndExit : (
    let t := { th 0 with prio := 10 }
    let rdy := fun (p : Nat) => { th 1 with st := .ready, slot := none, prio := p, ctl := false }
    let g := ganged gang1 [member []]
    let cand := fun (s : State) => let s1 := s.put { t with pc := t.pc + 4 }; let seen := (s1.refreshCore 0).surveyReady 0
      match seen.1.firstOf seen.2.1 with | some c => c.id == tid 1 && decide ((seen.1.again t).prio ≤ seen.1.prioOf c) | none => false
    let back := set t [(1, 2 ^ 63)]
    passes g (member []) .yield && next (exec .yield g) (fun s => has s 0 (fun u => u.pc == 0x10004 && u.st == .resident)) &&
    passes (world [t]) t .yield && ((world [t]).readyOf 0).isEmpty && next (exec .yield (world [t])) (fun s => has s 0 (fun u => u.pc == 0x10004 && u.st == .resident)) &&
    cand (world [t, rdy 10]) && passes (world [t, rdy 10]) t .yield && quiet (world [t, rdy 10]) && t.slot.isSome && t.pend.isNone && t.stores.isEmpty &&
    next (exec .yield (world [t, rdy 10])) (fun s => has s 0 (fun u => u.pc == 0x10004 && u.st == .ready && u.slot.isNone)) &&
    passes g (member []) .exit && next (exec .exit g) (fun s => has s 0 (fun u => u.fcause == 0x2B)) &&
    !(world [t]).stuck t && passes (world [t, th 1]) t .exit && next (exec .exit (world [t, th 1])) (fun s => (s.find (tid 0)).isNone && s.find (tid 1) == some (th 1)) &&
    passes (world [back]) back .exit && (back.rd 1).getLsbD 63 && (back.rd 1).extractLsb' 0 47 == 0 && next (exec .exit (world [back])) (fun s => (s.find (tid 0)).isNone)) = true := by
  decide +kernel

/-- RequestsIssue: a task without arguments, a task word of 0, SEND to handle 0 and with the first tag it may not use, KILL of handle 0 and of a word beyond the handle; EXIT's
target. -/
theorem witness_RequestsIssue_operands : (
    let t := set (th 0) [(1, 2 ^ 63 + 2 ^ 20 + 1), (2, 2 ^ 20 + 7 + 2 ^ 47 + 2 ^ 50), (3, 0x10000), (4, 0xFFF0 * 2 ^ 48 + 2 ^ 20 + 1), (5, 2 ^ 47 + 2 ^ 20 + 1), (6, 0xFFEF * 2 ^ 48 + 2 ^ 20 + 1)]
    let s := world [t, th 1]
    let faults := fun (i : Instr) (c : Nat) => passes s t i && next (exec i s) (fun s => has s 0 (fun u => u.st == .faulted && u.fcause == c))
    !s.taskOk t (t.rd 7) (t.rd 3) && faults (.spawn 7 3 2) 0x17 && faults (.callat 7 3 2) 0x17 &&
    next (exec (.callat 2 3 0) s) (fun s => has s 0 (fun u => match u.pend with | some (.spawn c e) => c == 1 && e.args == [0, 0, 0, 0] && e.caller.getLsbD 63 | _ => false)) &&
    faults (.send 8 7 3) 0x16 && faults (.send 8 4 3) 0x18 && faults (.send 8 5 3) 0x18 && passes s t (.send 8 6 3) &&
    next (exec (.send 8 6 3) s) (fun s => has s 0 (fun u => u.pend == some (.send (tid 1) 0xFFEF 0x10000 8))) && faults (.kill 8 7) 0x16 && faults (.resume 8 5) 0x16 && s.threads.all (fun u => u.id.handle != 0 && decide (u.id.handle < 2 ^ 47)) &&
    okay (s.frameNamed t (2 ^ 20 + 1) true) (fun x => x.2 == tid 1) && passes s t .exit && next (exec .exit s) (fun s => has s 0 (fun u => u.pend == some .exit))) = true := by decide +kernel

/-- RequestReplies: an arrival of this cycle from a lower core; KILL of a thread that may not leave its slot; EXIT's message. -/
theorem witness_RequestReplies_ends : (
    let held := fun (p : Pend) => { set (th 0) [(1, 2 ^ 63 + 2 ^ 20 + 1), (8, 77)] with st := .blocked .empty, pend := some p }
    let stuckTarget := { th 1 with pend := some (.killHeld 3), st := .blocked .empty }
    let k := world [held (.kill (tid 1) 6), stuckTarget]
    let e := world [held .exit, th 1]
    k.groupFirst (held (.kill (tid 1) 6)) && orderedArrival none 5 0 && orderedArrival (some (5, 0)) 5 1 && !orderedArrival (some (5, 2)) 5 1 && !k.mayLeave stuckTarget &&
    next (exec (.instructionReply (tid 0)) k) (fun s => has s 1 (fun u => u.killed) && has s 0 (fun u => u.pend.isSome)) &&
    (held .exit).settled && (held .exit).stores.isEmpty && quiet e &&
    e.named (tid 1) == some (th 1) && !e.stuck (held .exit) &&
    next (exec (.instructionReply (tid 0)) e) (fun s => (s.find (tid 0)).isNone &&
      has s 1 (fun u => u.incnt == 1 && u.msgs[0] == { payload := 77, src := (tid 0).handle, tag := 0xFFFE })) &&
    next (exec (.instructionReply (tid 0)) (world [held (.kill (tid 1) 6), th 1])) (fun s => (s.find (tid 1)).isNone && has s 0 (fun u => u.rd 6 == 0 && u.pc == 0x10004))) = true := by
  decide +kernel

/-- WaitingResults: FILL.WAIT and WAIT at their deadline, with the word as the thread sees it. -/
theorem witness_WaitingResults_deadline : (
    let pad := physAddr (padUnit 0) 0x3F000
    let late := fun (k : WaitKind) (c : WaitCond) (p : Thread → Bool) =>
      next (exec (.waitDeadline (tid 0)) { (world [{ th 0 with st := .waiting k, cond := some c, deadline := 7 }]).writeAs 0 pad [5] with tick := 7 }) (fun s => has s 0 p)
    let slept := { th 0 with st := .waiting .wait, cond := some .sleep, deadline := 7, waitSince := 2 ^ 64 + 1 }
    late .fill (.fill pad 1 9) (fun u => u.st == .resident && u.rd 9 == 5 && u.cond.isNone && u.pc == 0x10004 && u.waitarg == 0) &&
    late .wait (.watch pad 5 9) (fun u => u.rd 9 == 5 && u.deadline == BitVec.allOnes 64) &&
    next (exec (.waitDeadline (tid 0)) { world [slept] with tick := 2 ^ 64 + 7 }) (fun s => has s 0 (fun u => u.cond.isNone)) &&
    next (exec (.waitDeadline (tid 0)) { world [slept] with tick := 2 ^ 64 + 6 }) (fun s => has s 0 (fun u => u.cond.isSome))) = true := by decide +kernel

/-- ThreadControlResults: WAKE and THR of operands that name no handle; MIGR to a core that does not exist and of a gang member; a poisoned control line. -/
theorem witness_ThreadControlResults_faults : (
    let t := set (th 0) [(2, 2 ^ 47), (3, 2), (4, 1), (5, 2 ^ 20 + 1)]
    let m := member [(4, 1)]
    let watching := { th 1 with st := .waiting .wait, cond := some (.watch (place 0x30000) 5 9) }
    let faults := fun (s : State) (t : Thread) (i : Instr) (c : Nat) => passes s t i && next (exec i s) (fun s => has s 0 (fun u => u.fcause == c))
    let bad := (world [t]).markPoison (place (2 ^ 30 + 1024 + 8))
    faults (world [t]) t (.wake 8 1) 0x16 && faults (world [t]) t (.wake 8 2) 0x16 && faults (world [t]) t (.thr 8 2) 0x16 && (world [t]).migrTarget 2 == none &&
    faults (world [t]) t (.migr 3) 0x19 && faults (ganged gang1 [m]) m (.migr 4) 0x2B && (bad.ctlPoison t (2 ^ 20 + 1)).isSome && (world [t]).ctlPoison t (2 ^ 20 + 1) == none &&
    next (exec (.thr 8 5) bad) (fun s => has s 0 (fun u => u.fills.any (fun f => f.bad.isSome))) &&
    next (exec (.wake 8 5) (world [t, watching])) (fun s => has s 0 (fun u => got u 8 == 1) && has s 1 (fun u => u.st == .resident && u.rd 9 == 0 && u.pc == 0x10004))) = true := by decide +kernel

/-- TimeAndCounters: the counter of another domain. -/
theorem witness_TimeAndCounters_other : (
    let t := set (th 0) [(2, 7), (3, 0x107), (4, 0x10F), (5, 0x207)]
    let s := (world [t]).setCounter 0 7 { owner := 1, event := 3, en := true, val := 9, new := false }
    [.pcnt 8 2 4, .pcnt 8 3 4, .pcnt 8 5 4].all (fun i => passes s t i && next (exec i s) (fun s => has s 0 (fun u => u.fcause == 0x12)))) = true := by decide +kernel

/-- FillCounterResults: an addition beyond its limit, and a phase that is none. -/
theorem witness_FillCounterResults_faults : (
    let t := set (th 0) [(4, 0xFFFFFFFFFFFFF000), (5, 2 ^ 32 + 1), (6, 2)]
    [.fillAdd 3 4 5, .fillInit 3 4 5, .fillWait 3 4 3].all (fun i => passes (world [t]) t i && next (exec i (world [t])) (fun s => has s 0 (fun u => u.fcause == 0x1C))) &&
    okay ((world [t]).counterPlace 0 0 (t.rd 4)) (fun g => match g with | .pad c o => c == 0 && o == 0x3F000 | _ => false)) = true := by decide +kernel

/-- BarrierResults: a network of another domain. -/
theorem witness_BarrierResults_other : (
    let t := set (th 0) [(2, 4), (4, 0)]
    let s := (world [t]).setSol 0 { SolNet.init with dom := 1 }
    [.sbarArrive 10 2, .sbarWait 2 4 4].all (fun i => passes s t i && next (exec i s) (fun s => has s 0 (fun u => u.fcause == 0x12)))) = true := by decide +kernel

/-- BarrierResults: a COUNT of 0, of 513, with a reserved bit, and other than the episode's; an endpoint that has signalled the open episode, and the next too; waits with
a reserved bit in either operand, and of an episode 32 and 33 behind and two ahead. -/
theorem witness_BarrierResults_operands : (
    let t := set (th 0) [(2, 4 * 2), (3, 4 * 513), (4, 0), (5, 4 * 1 + 2 ^ 12), (6, 2 ^ 16), (7, 4), (8, 10), (9, 9), (10, 44)]
    let own := fun (e : EndPt) => (world [t]).setSol 0 { SolNet.init with dom := 0, epi := 42, ends := [(0, e)] }
    let one := { EndPt.init with issued0 := 1, count0 := 2 }
    let both := { EndPt.init with issued0 := 2, count0 := 2, issued1 := 2, count1 := 2 }
    let faults := fun (s : State) (i : Instr) => passes s t i && next (exec i s) (fun s => has s 0 (fun u => u.st == .faulted && u.fcause == 0x1C))
    let joins := fun (s : State) (p : EndPt → Bool) (v : Nat) => passes s t (.sbarArrive 11 2) && next (exec (.sbarArrive 11 2) s) (fun s =>
      p ((s.sol 0).endPt 0) && has s 0 (fun u => got u 11 == v && u.pc == 0x10004))
    faults (own EndPt.init) (.sbarArrive 11 4) && faults (own EndPt.init) (.sbarArrive 11 3) && faults (own EndPt.init) (.sbarArrive 11 5) &&
    joins (own EndPt.init) (fun e => e.count0 == 2) 42 && joins (own one) (fun e => e.issued0 == 2) 42 && faults (own { one with count0 := 3 }) (.sbarArrive 11 2) &&
    joins (own { one with count0 := 1 }) (fun e => e.issued1 == 1 && e.count1 == 2) 43 && faults (own { one with count0 := 1, issued1 := 1, count1 := 3 }) (.sbarArrive 11 2) &&
    passes (own both) t (.sbarArrive 11 2) && next (exec (.sbarArrive 11 2) (own both)) (fun s => has s 0 (fun u => u.st == .blocked .empty && u.pc == 0x10000)) &&
    faults (own EndPt.init) (.sbarWait 2 7 4) && faults (own EndPt.init) (.sbarWait 2 4 6) && passes (own EndPt.init) t (.sbarWait 2 4 8) &&
    next (exec (.sbarWait 2 4 8) (own EndPt.init)) (fun s => has s 0 (fun u => u.pc == 0x10004)) && faults (own EndPt.init) (.sbarWait 2 4 9) &&
    faults (own EndPt.init) (.sbarWait 2 4 10)) = true := by decide +kernel

/-- HandlerCreated: the handler's frame has its six lines. -/
theorem witness_HandlerCreated_frame : (match withRec.service 0 trapRec with
    | .handler _ _ l p k => okay ((withRec.setDie 0 { withRec.die 0 with upq := [] }).framePlaces 0 { sdom := effSdom l, handle := handleOf (p.base + 1024 * k) } [0, 1, 2, 3, 4, 5]) (fun x => x.length == 6)
    | _ => false) = true := by decide +kernel

/-- HandlerReturns: UPRET with the first and the last reserved bit. -/
theorem witness_HandlerReturns_reserved : (
    let h := { set (th 0) [(2, 2), (3, 2 ^ 63)] with hnd := true, upv := 2 ^ 20 + 1, served := some trapRec }
    [.upret 2, .upret 3].all (fun i => passes (world [h]) h i && next (exec i (world [h])) (fun s => has s 0 (fun u => u.fcause == 0x1D)))) = true := by decide +kernel

/-- SystemResults: a report of four lines; words of an owned and of another domain's segment by DBG; a target the issuer is not entitled to. -/
theorem witness_SystemResults_more : (
    let t := set (th 0) [(2, 0x30000), (3, 0), (4, 2 ^ 12 + 0x3FFF8 * 2 ^ 16), (5, 9), (6, 2 ^ 20 + 1)]
    let s := { world [t, { th 1 with home := 1 }] with fdt := [(0, { Fdt.init with v := true, dbgen := true })] }
    let foreign := s.setCore 0 { s.core 0 with spdom := [(31, 1)] }
    let pa := physAddr (padUnit 0) 0x3FFF8
    passes s t (.attest 8 2 3) && check1 { ea := 0x30000, n := 512, kind := .store, write := true } && check2 s 0 { ea := 0x30000, n := 512, kind := .store, write := true } &&
    okay (s.attestLines t true 128 [0x30000, 0x30080, 0x30100, 0x30180]) (fun l => l.length == 4 && l.all (fun g => (s.lineAt g.pa).isNone && (s.poisonedIn (g.pa + 0x20) 32).isNone)) && quiet s &&
    next (exec (.attest 8 2 3) s) (fun s => has s 0 (fun u => u.pc == 0x10004 && got u 8 == 0)) &&
    s.dbgen t && !(s.core 0).zeroing.contains 31 && s.spdom 0 31 == 0 && (s.poisonedIn pa 8).isNone && (s.lineAt pa).isNone && passes s t (.dbgRd 8 4) && passes s t (.dbgWr 4 5) &&
    next (exec (.dbgWr 4 5) s) (fun s => s.numAs 0 pa 8 == 9 && next (exec (.dbgRd 8 4) { s with cur := some (tid 0) }) (fun s => has s 0 (fun u => got u 8 == 9))) &&
    foreign.spdom 0 31 == 1 && [.dbgRd 8 4, .dbgWr 4 5].all (fun i => next (exec i foreign) (fun s => has s 0 (fun u => u.fcause == 0x12))) &&
    (s.find (tid 1)).any (fun u => !s.entitled t u) && okay (s.handleArg t 6 true) (fun x => x.2 == tid 1) && passes s t (.dbgStep 8 6) &&
    next (exec (.dbgStep 8 6) s) (fun s => has s 0 (fun u => u.fcause == 0x12))) = true := by decide +kernel

/-- SystemResults: a tile word of a resident gang of the domain, unlocked and locked, and of no gang; a counter that is owned, free, and another domain's. -/
theorem witness_SystemResults_tiles : (
    let t := { member [(4, 0x2008 * 2 ^ 16), (5, 0x4000000030), (6, 2 * 2 ^ 12 + 0x70 * 2 ^ 16), (7, 2 * 2 ^ 12 + 0x78 * 2 ^ 16), (9, 2 ^ 24 + 7 * 2 ^ 16)] with pc := 0x10000 }
    let dbg := fun (s : State) => { s with threads := [t], fdt := [(0, { Fdt.init with v := true, dbgen := true })] }
    let s := dbg (ganged gang1 [t])
    let lock := s.modUnit 0 (fun u => { u with lock := 4 })
    let none := dbg (world [t])
    let owned := fun (o : Nat) => (dbg (world [t])).setCounter 0 7 { owner := o, event := 3, en := true, val := 9, new := false }
    let run := fun (s : State) (i : Instr) (p : State → Bool) => s.dbgen t && passes s t i && next (exec i s) p
    let faults := fun (s : State) => has s 0 (fun u => u.st == .faulted && u.fcause == 0x12)
    (s.core 0).unit.gang.bind s.gang == some gang1 && gang1.resident && run s (.dbgRd 8 4) (fun s => has s 0 (fun u => got u 8 == 0)) &&
    run s (.dbgWr 4 5) (fun s => Sparse.get 0 (s.core 0).unit.tiles 2050 == 0x30 && Sparse.get 0 (s.core 0).unit.tiles 2051 == 0x40 && Sparse.get 0 (s.core 0).unit.tiles 2048 == 0x3F800000) &&
    [.dbgRd 8 4, .dbgWr 4 5].all (fun i => run lock i (fun s => has s 0 (fun u => u.st == .blocked .empty)) && run none i faults) &&
    run (owned 0) (.dbgRd 8 6) (fun s => has s 0 (fun u => got u 8 == 3 * 2 ^ 16 + 2 ^ 24)) && run (owned 0) (.dbgRd 8 7) (fun s => has s 0 (fun u => got u 8 == 9)) &&
    run (owned 0) (.dbgWr 6 9) (fun s => ((s.core 0).counter 7).event == 7 && ((s.core 0).counter 7).en && ((s.core 0).counter 7).val == 9) &&
    run (owned 0) (.dbgWr 7 9) (fun s => ((s.core 0).counter 7).val == 2 ^ 24 + 7 * 2 ^ 16) && run (owned 0xFFFF) (.dbgRd 8 6) (fun s => has s 0 (fun u => got u 8 == 0)) &&
    run (owned 0xFFFF) (.dbgWr 6 9) faults && run (owned 1) (.dbgRd 8 6) faults && run (owned 1) (.dbgWr 7 9) faults) = true := by decide +kernel

/-- PlaceQueries: a walk that meets an absent entry, an invalid one, and one of an invalid geometry. -/
theorem witness_PlaceQueries_walks : (
    let t := set (th 0) [(4, 2 ^ 31)]
    let s := fun (e : Nat) => stored (world [t]) [(0x8200, e)]
    let go := fun (e : Nat) (c : Cause) (n : Nat) => passes (s e) t (.placeq 3 4) && ((s e).tlbFind 0 0 (2 ^ 31)).isNone && !(s e).walkWaits 0 0 (2 ^ 31) &&
      ((s e).die 0).walks.isEmpty && (match (s e).walkTable 0 0 (2 ^ 31) .load with | .error f => f.cause == c && f.detail == 3 | .ok _ => false) &&
      next (exec (.placeq 3 4) (s e)) (fun s => has s 0 (fun u => got u 6 == 0 && got u 7 == n * 2 ^ 32 + 3 * 2 ^ 40))
    go 0 .pageNotPresent 3 && go 0x4807F .pageInvalid 4 && go (0x407F + 5 * 2 ^ 16) .geometry 5) = true := by decide +kernel

/-- TranslationUpkeep: an index beyond the table; a range with a non-canonical byte and one in the window; an invalidation that waits for a thread's slot, and one that does not. -/
theorem witness_TranslationUpkeep_edges : (
    let t := set (th 0) [(2, 1024), (3, 2 ^ 56 - 16384), (4, 2), (5, 2 ^ 64 - 16384), (6, 1)]
    let w := { t with st := .blocked .empty, pend := some (.tlbinv [(2 ^ 30, 16384)]) }
    let leaving := { th 1 with preempt := true }
    passes (world [t]) t (.gtsync 2) && next (exec (.gtsync 2) (world [t])) (fun s => has s 0 (fun u => u.fcause == 0x13)) &&
    !rangeCanonical (2 ^ 56 - 16384) 32768 && rangeCanonical (2 ^ 56 - 16384) 16384 && passes (world [t]) t (.tlbinv 3 4) &&
    next (exec (.tlbinv 3 4) (world [t])) (fun s => has s 0 (fun u => u.fcause == 9)) && rangeCanonical (2 ^ 64 - 16384) 16384 && inWindow (2 ^ 64 - 16384) &&
    passes (world [t]) t (.tlbinv 5 6) && next (exec (.tlbinv 5 6) (world [t])) (fun s => has s 0 (fun u => u.pc == 0x10004)) &&
    !(world [w, leaving]).invalidated 0 [(2 ^ 30, 16384)] (some (tid 0)) && (world [w]).invalidated 0 [(2 ^ 30, 16384)] (some (tid 0)) &&
    next (exec (.tlbinvCompletion (tid 0)) (world [w, leaving])) (fun s => has s 0 (fun u => u.pend.isSome))) = true := by decide +kernel

/-- TranslationUpkeep: the form that names every address of its domain, with entries of its domain and of another in a TLB and a walk cache. -/
theorem witness_TranslationUpkeep_all : (
    let t := set (th 0) [(2, 5), (3, 0)]
    let s0 := (world [t]).tlbAdd 1 (tlbEntOf 1 0x30000 0x407F)
    let s := s0.setDie 0 { s0.die 0 with walks := [walkEntOf 0 0x30000 3 (place 0x8000) 0x407F, walkEntOf 1 0x30000 3 (place 0x8000) 0x407F] }
    t.rd 3 == 0 && s.threads.all (fun u => u.stores.isEmpty) && s.early.isEmpty && (s.freshOf t).isEmpty && passes s t (.tlbinv 2 3) &&
    next (exec (.tlbinv 2 3) s) (fun s => (s.core 0).tlb.isEmpty && (s.core 1).tlb.map (·.sdom) == [1] && (s.die 0).walks.map (·.sdom) == [1] &&
      has s 0 (fun u => u.pend.isSome && u.pc == 0x10000))) = true := by decide +kernel

/-- RoutingResults: a selector of no table, the first expert beyond a table, an entry that is not valid, for both instructions. -/
theorem witness_RoutingResults_faults : (
    let t := set (th 0) [(3, 3 * 2 ^ 12), (4, 2 * 2 ^ 12 + 3), (5, 32), (6, 2 * 2 ^ 12 + 4)]
    let s := { stored (world [t]) [(0x100000, 6), (0x100020, 4), (0x100038, 0x300000), (0x101180, 2 ^ 19 + 2 ^ 16 + 2 ^ 20 + 6), (0x101188, 0xB000030000 + 16 * 2 ^ 8 + 3)]
      with endies := 0x1F, edt := [(2, { Edt.init with dva := 0x100000, v := true })] }
    let faults := fun (i : Instr) (c : Nat) => passes s t i && next (exec i s) (fun s => has s 0 (fun u => u.fcause == c))
    (s.routeDom t (t.rd 3)).isNone && faults (.route 13 3 5) 0x14 && faults (.xcnt 8 3) 0x14 && (s.routeDom t (t.rd 6)).isSome && faults (.route 13 6 5) 0x14 && faults (.xcnt 8 6) 0x14 &&
    !s.entValid (s.numAs 0 (place 0x101180) 128) && faults (.route 13 4 5) 0x15) = true := by decide +kernel

/-- GangForming: a member; a record off its boundary and one in use; a gang of one; the join that completes a gang; a gang that is full. -/
theorem witness_GangForming_ends : (
    let t := set (th 0) [(2, 0x40000), (3, 1), (4, 0x40400), (5, 2)]
    let lead := { th 1 with st := .waiting .gang, waitarg := 0x40000, cond := some (.gang gid 5 0) }
    let h := { gang1 with m := 2, gstate := 1, members := [(0, tid 1)], resident := false }
    let s := { stored (world [t, lead]) [(0x40000, 2 ^ 20 + 1), (0x40008, 2 ^ 24)] with gangs := [h] }
    let full := stored (world [t]) [(0x40008, 2 * 2 ^ 24)]
    let faults := fun (s : State) (i : Instr) (c : Nat) => next (exec i s) (fun s => has s 0 (fun u => u.fcause == c))
    let m := member [(2, 0x40000), (5, 2)]
    (ganged gang1 [m]).inGang m && passes (ganged gang1 [m]) m (.gangForm 8 2 5) && faults (ganged gang1 [m]) (.gangForm 8 2 5) 0x21 && faults (ganged gang1 [m]) (.gangJoin 8 2) 0x21 &&
    faults (world [t]) (.gangForm 8 4 5) 0x22 && faults (world [t]) (.gangJoin 8 4) 0x22 && faults full (.gangForm 8 2 5) 0x22 && full.joinPlace t gid (place 0x40008) (some 0x407F) == .ok (place 0x40008) && (full.gang gid).isNone &&
    faults full (.gangJoin 8 2) 0x24 && descOk 1 && (world [t]).placeOk t false && ((world [t]).gang gid).isNone && passes (world [t]) t (.gangForm 8 2 3) &&
    next (exec (.gangForm 8 2 3) (world [t])) (fun s => has s 0 (fun u => u.gang == some gid && u.pc == 0x10004 && u.rd 8 == 0 && u.st == .resident) && (s.gang gid).any (fun g => g.gstate == 2)) &&
    s.joinPlace t gid (place 0x40008) (some 0x407F) == .ok (place 0x40008) && s.early.isEmpty && !h.breaking && lead.waitarg == t.rd 2 && h.home == 0 && (Sparse.put h.members 1 t.id).length == 2 && passes s t (.gangJoin 8 2) &&
    next (exec (.gangJoin 8 2) s) (fun s => has s 0 (fun u => u.gang == some gid && u.pc == 0x10004 && u.rd 8 == 1) && (s.gang gid).any (fun g => g.gstate == 2))) = true := by decide +kernel

/-- GangInstructions: the selector beyond the registers; every instruction of a gang, by a thread of none. -/
theorem witness_GangInstructions_faults : (
    let t := member [(2, 11)]
    passes (ganged gang1 [t]) t (.mxcfg 2 3) && next (exec (.mxcfg 2 3) (ganged gang1 [t])) (fun s => has s 0 (fun u => u.fcause == 0x26)) &&
    ([.gangLeave, .gangMma true true true, .mxwait, .mxcfg 1 2, .mxburst 1, .accLd 1 2 3, .accSt 1 2 3, .accZero 2, .accScale 2 3, .accCvt 1 2 3] : List Instr).all (fun i =>
      passes (world [th 0]) (th 0) i && next (exec i (world [th 0])) (fun s => has s 0 (fun u => u.fcause == 0x20)))) = true := by decide +kernel

/-- AccumulatorResults: an odd column and a row beyond the tile; conversions to a type that is none, and of a row beyond the tile; a locked tile. -/
theorem witness_AccumulatorResults_faults : (
    let t := member [(2, 2 ^ 8), (3, 2 * 2 ^ 16 + 32), (4, 15 * 2 ^ 16)]
    let s := ganged gang1 [t]
    let l := s.modUnit 0 (fun u => { u with lock := 4 })
    let faults := fun (s : State) (i : Instr) (c : Nat) => passes s t i && next (exec i s) (fun s => has s 0 (fun u => u.fcause == c))
    [2, 3].all (fun r => !indexOk gang1 (t.rd r) 2 false && faults s (.accLd 8 2 (BitVec.ofNat 6 r)) 0x27 && faults s (.accSt 8 2 (BitVec.ofNat 6 r)) 0x27) &&
    (accType 15).isNone && faults s (.accCvt 8 2 4) 0x27 && (accType 2).any (fun x => !indexOk gang1 (t.rd 3) x.2 true) && faults s (.accCvt 8 2 3) 0x27 &&
    l.tileLocked 0 2 && faults l (.accZero 2) 0x28 && faults l (.accScale 2 3) 0x28) = true := by decide +kernel

/-- UnitAndGangLifecycle: a gang that cannot be saved; one whose record does not match. -/
theorem witness_UnitAndGangLifecycle_faults : (
    let away := { gang1 with resident := false, first := true, marked := true }
    let t := { member [] with slot := none, st := .waiting .gang, cond := some (.coll gid) }
    let s := { world [t] with gangs := [away] }
    !(ganged gang1 [member []]).canSave gang1 && next (exec (.gangSave gid) (ganged gang1 [member []])) (fun s => (s.gang gid).any (·.resident)) &&
    (ganged { gang1 with saving := true } [member []]).canSave { gang1 with saving := true } && ((ganged gang1 []).core 0).unit.gang == some gid &&
    s.gangMayReturn away && !s.gangReadWaits away && (match s.gangRoom away with | .seats _ => true | _ => false) && away.leader == some (tid 0) &&
    (match s.gangFinding away with | .error f => f.cause == .gangRecord | .ok _ => false) &&
    next (exec (.gangReactivation gid) s) (fun s => has s 0 (fun u => u.st == .faulted && u.fcause == 0x22)) &&
    !(ganged { gang1 with breaking := true } []).gangWaits { gang1 with breaking := true } 1) = true := by decide +kernel

/-- UnitAndGangLifecycle: the last unit of a gang comes up under an operation. -/
theorem witness_UnitAndGangLifecycle_going : (
    let op : MatOp := { fn := 0, snap := [], seen := [] }
    let s := (ganged { gang1 with op := some op } []).modUnit 0 (fun u => { u with ramp := .rampUp, left := 0 })
    (s.core 0).unit.gang == some gid && s.gang gid == some { gang1 with op := some op } && gang1.cores == [0] &&
    next (exec (.rampUpEnd 0) s) (fun s => s.gang gid == some { gang1 with op := some { op with going := true } } && (s.core 0).unit.ramp == .up)) = true := by decide +kernel

/-- GangResolution: a set that is not valid. -/
theorem witness_GangResolution_invalid : (
    let w := { member [] with st := .waiting .gang, cond := some (.coll gid) }
    let bad := { gang1 with arrived := [(0, 8)] }
    bad.resolves && !(ganged bad [w]).setValid bad { regs := bad.shadow } 8 && !(ganged bad [w]).gangWaits bad 1 && bad.members.find? (fun x => x.1 == 0) == some (0, tid 0) &&
    next (exec (.gangResolution gid) (ganged bad [w])) (fun s => has s 0 (fun u => u.st == .faulted && u.fcause == 0x2A))) = true := by decide +kernel

/-- EngineRequests: a range beyond the address space and one in no segment's reach; an operand beyond its limit; prefetches of a page whose entry is absent, of one that is
invalid, and of a mapped page. -/
theorem witness_EngineRequests_faults : (
    let t := set (th 0) [(1, 0x50000), (2, 2 ^ 31), (3, 0x38000), (4, 2 ^ 56), (5, 2 ^ 64 - 2 ^ 24)]
    let err := fun (l : List Nat) (ops : Bool) =>
      let s := withDesc (world [t]) l
      let c := cmdOf t .cpy (fun j => l.getD j 0) .pkg false false none
      passes s t (.cpy 1 0 .pkg false false false) && c.operandsOk (l.getD 7 0) == ops && okay (s.rangesOk t c.ranges) (fun _ => true) == false &&
      next (exec (.cpy 1 0 .pkg false false false) s) (fun s => has s 0 (fun u => u.st == .faulted && u.fcause == if ops then 9 else 0x1B))
    let bad := withDesc (world [t]) [0x30000, 0x32000, 4096, 0, 0, 0, 0, 1]
    let s := fun (e : Nat) => stored (world [t]) [(0x8200, e)]
    let ends := fun (e : Nat) (c : Cause) (n : Nat) => passes (s e) t (.pref 2 .l1) && ((s e).tlbFind 0 0 (2 ^ 31)).isNone &&
      (match (s e).walkTable 0 0 (2 ^ 31) .load with | .error f => f.cause == c | .ok _ => false) &&
      next (exec (.pref 2 .l1) (s e)) (fun s => has s 0 (fun u => u.pc == 0x10004) && (s.die 0).upq.length == n)
    let cold := (world [t]).setCore 0 { (world [t]).core 0 with tlb := [] }
    err [2 ^ 56 - 8, 0x32000, 4096, 0, 0, 0, 0, 0] true && passes bad t (.cpy 1 0 .pkg false false false) &&
    !(cmdOf t .cpy (fun j => [0x30000, 0x32000, 4096, 0, 0, 0, 0, 1].getD j 0) .pkg false false none).operandsOk 1 &&
    next (exec (.cpy 1 0 .pkg false false false) bad) (fun s => has s 0 (fun u => u.fcause == 0x1B)) &&
    ends 0 .pageNotPresent 1 && ends 0x4807F .pageInvalid 0 && (cold.tlbFind 0 0 0x38000).isNone && passes cold t (.pref 3 .l1) &&
    next (exec (.pref 3 .l1) cold) (fun s => (s.tlbFind 0 0 0x38000).isSome) && !(s 0).walkWaits 0 0 (2 ^ 31) && ((s 0).die 0).walks.isEmpty &&
    okay ((s 0x4023).walkTable 0 0 (2 ^ 31) .load) (fun x => !Leaf.r x.leaf) && next (exec (.pref 2 .l1) (s 0x4023)) (fun s => has s 0 (fun u => u.pc == 0x10004) && (s.tlbFind 0 0 (2 ^ 31)).isNone) &&
    [4, 5, 1].all (fun r => passes (world [t]) t (.pref (BitVec.ofNat 6 r) .l1) && next (exec (.pref (BitVec.ofNat 6 r) .l1) (world [t])) (fun s => has s 0 (fun u => u.pc == 0x10004))) &&
    okay (cold.walkTable 0 0 0x38000 .load) (fun _ => true) && next (exec (.pref 3 .l1) cold) (fun s => has s 0 (fun u => u.pc == 0x10004) && (s.die 0).upq.isEmpty)) = true := by decide +kernel

/-- EngineSteps: at acceptance, a range that no longer passes, a region without room, an RSTR without a free record and one that gets one. -/
theorem witness_EngineSteps_acceptance : (
    let t := fun (c : EngCmd) => { th 0 with st := .blocked .empty, pend := some (.engine { c with id := 0, started := false }) }
    let r : Restripe := { vbase := 2 ^ 35, nchunk := 2, sdom := 0, st := 1, newgidx := 0, newframe := 0x100, prog := 0, start := 0, cmd := 3 }
    let far := { cmd1 with src := 2 ^ 56 - 8 }
    let move := { cmd1 with kind := .rstr, src := 0x30000, len := 16384, p1 := 32 }
    let go := fun (c : EngCmd) (s : State) (p : State → Thread → Bool) => (t c).settled && s.groupFirst (t c) && orderedArrival (s.die 0).arrived s.tick 0 &&
      !s.chainWaits 0 0 9 0x20000 && !s.pathWaits 0 0 (s.path 0 0 0x20000) && next (exec (.engineAcceptanceReply (tid 0)) s) (fun s' => has s' 0 (p s'))
    let s := fun (c : EngCmd) => engines [] [t c]
    let noRoom := stored (s cmd1) [(0x20038, 0)]
    let full := (s move).setDie 0 { (s move).die 0 with restripe := (List.range 64).map (fun k => (k, r)) }
    go far (s far) (fun _ u => u.st == .faulted && u.fcause == 9) && go cmd1 (s cmd1) (fun s u => u.pc == 0x10004 && (s.die 0).engq.length == 1) &&
    okay (noRoom.chain 0 0 0x20000) (fun p => !admits .eq 1 p) && go cmd1 noRoom (fun s u => u.st == .blocked .feretry && (s.die 0).engq.isEmpty) &&
    (full.die 0).freeRecord.isNone && go move full (fun s u => u.st == .blocked .feretry && (s.die 0).engq.isEmpty) && ((s move).die 0).freeRecord == some 0 &&
    go move (s move) (fun s u => u.pc == 0x10004 && (s.die 0).engq.map (fun y => (y.id, y.kind)) == [(0, .rstr)])) = true := by decide +kernel

/-- EngineSteps: a command that has not started, one whose status or source lies in a line that waits, an RSTR that ended at acceptance and one whose record is done. -/
theorem witness_EngineSteps_completion : (
    let r : Restripe := { vbase := 2 ^ 35, nchunk := 2, sdom := 0, st := 2, newgidx := 0, newframe := 0x100, prog := 2, start := 0, cmd := 3 }
    let lost := fun (c : EngCmd) (va : Nat) => { engines [c] [] with sharersLost := [place va / 128] }
    let stays := fun (s : State) => next (exec (.engineCommandCompletion 0 3) s) (fun s => (s.die 0).engq.length == 1)
    let ends := fun (s : State) (p : State → Bool) => !s.endWaits 0 ((s.die 0).engq.getD 0 cmd1) && next (exec (.engineCommandCompletion 0 3) s) (fun s => (s.die 0).engq.isEmpty && p s)
    let late := { cmd1 with status := 0x34000 }
    let at' := fun (k : Nat) (c : EngCmd) => let s := engines [c] []; s.setDie 0 { s.die 0 with restripe := [(5, { r with st := k })] }
    let move := { cmd1 with kind := .rstr, record := some 5 }
    stays (engines [{ cmd1 with started := false }] []) && (lost late 0x34000).endWaits 0 late && stays (lost late 0x34000) && (lost cmd1 0x20000).endWaits 0 cmd1 &&
    stays (lost cmd1 0x20000) && !(lost cmd1 0x30000).endWaits 0 cmd1 && (cmd1.run (lost cmd1 0x30000)).isNone && stays (lost cmd1 0x30000) &&
    ends (engines [{ move with record := none, result := 3 }] []) (fun _ => true) && (at' 2 move).invalidated 0 [r.extent] none && ends (at' 2 move) (fun s => (s.restripeAt 0 5).isNone) &&
    ends (at' 3 move) (fun s => (s.restripeAt 0 5).isNone) && stays (at' 1 move)) = true := by decide +kernel

theorem fold_deferrals {α : Type} {f : State → α → State} (hf : ∀ s k, (f s k).deferrals = s.deferrals) : ∀ (l : List α) (s : State),
    (l.foldl f s).deferrals = s.deferrals := by
  intro l
  induction l with
  | nil => intro s; rfl
  | cons k l ih => intro s; rw [List.foldl_cons, ih, hf]

theorem writeLine_deferrals (s : State) (d a : Nat) (bs : List Byte) : (s.writeLine d a bs).deferrals = s.deferrals := by
  have h : ∀ (bs : List Byte) (s : State) (a : Nat), (s.pokeBytes a bs).deferrals = s.deferrals := by
    intro bs
    induction bs with
    | nil => intro s a; rfl
    | cons b bs ih => intro s a; exact (ih _ _).trans rfl
  unfold State.writeLine
  dsimp only
  rw [h]
  split
  · rfl
  · split
    · rfl
    · unfold State.rekey
      split
      · rfl
      · dsimp only; rw [h]

theorem writeAs_deferrals (s : State) (d a : Nat) (bs : List Byte) : (s.writeAs d a bs).deferrals = s.deferrals := by
  unfold State.writeAs
  dsimp only
  split
  · exact writeLine_deferrals _ _ _ _
  · refine (fold_deferrals (fun s k => ?_) _ _).trans rfl
    split <;> split <;> first | rfl | exact writeLine_deferrals _ _ _ _

theorem spillOk_of_none {s : State} (h : s.deferrals = []) : s.spillOk = true := by
  simp only [State.spillOk, State.spilled, State.deferralsOf, h]
  decide

/-- A chunk's copy, where no thread has a frame and no late write waits, adds no deferral entry. -/
theorem spillOk_copyChunk {s : State} {die k : Nat} {r : Restripe} (h : s.deferrals = []) (ht : s.threads = []) (hl : s.dies.all (fun d => d.2.landing.isEmpty) = true) :
    (s.copyChunk die k r).spillOk = true := by
  have hs : ∀ p, s.landWhere p = s := by
    intro p
    have : s.dies.flatMap (fun d => d.2.landing.filter p) = [] := by
      rw [List.flatMap_eq_nil_iff]
      intro d hd
      have := List.all_eq_true.mp hl d hd
      simp_all
    simp [State.landWhere, this]
  apply spillOk_of_none
  unfold State.copyChunk
  dsimp only
  split
  · exact h
  · rw [hs]
    have hf : s.framesIn r.sdom (r.vbase + 16384 * r.prog, 16384) = [] := by simp [State.framesIn, ht]
    rw [hf]
    have hc : ∀ (s : State) (d a b : Nat), (s.copyWord d a b).deferrals = s.deferrals := by
      intro s d a b
      unfold State.copyWord
      dsimp only
      split
      · exact (writeAs_deferrals _ _ _ _)
      · exact (writeAs_deferrals _ _ _ _)
    have hr : ∀ (s : State) (d : Nat) (x : Nat × Nat), (s.rehome d x).deferrals = s.deferrals := by
      intro s d x
      refine fold_deferrals (fun s t => ?_) _ _
      split <;> rfl
    have hq : ∀ (s : State) (d k : Nat) (r : Restripe), (s.setRestripe d k r).deferrals = s.deferrals := fun _ _ _ _ => rfl
    have hm : ∀ (s : State) (f : Nat → Option (Nat × Nat × Nat)), s.deferrals = [] → (s.moveWaits f).deferrals = [] := by
      intro s f h
      simp [State.moveWaits, h]
    rw [hr, hq]
    apply hm
    rw [fold_deferrals (fun s w => hc s _ _ _)]
    exact h

/-- A transition of two chunks from 0x30000 that runs, of which `n` are copied; one whose first chunk's table waits, and one of a page that is not mapped. -/
def chunks (n : Nat) : Restripe := { vbase := 0x30000, nchunk := 2, sdom := 0, st := 1, newgidx := 0, newframe := 0x100, prog := n, start := 0, cmd := 3 }
def edge : Restripe := { chunks 1 with vbase := 2 ^ 29 - 16384 }
def unmapped : Restripe := { chunks 0 with vbase := 2 ^ 31 }
def copies (r : Restripe) : State := let s := engines [{ cmd1 with kind := .rstr, record := some 5 }] []; s.setDie 0 { s.die 0 with restripe := [(5, r)] }
def edged : State := { stored (copies edge) [(0x8080, 0x407F)] with sharersLost := [place 0x8000 / 128] }

/-- EngineSteps: a chunk that waits, one of two, the last, one at whose end a table waits, and one that cannot be read. -/
theorem witness_EngineSteps_chunks : (
    let ready := fun (s : State) (r : Restripe) => (s.running 0 3).any (fun c => c.bad.isNone && c.asked.isEmpty) && s.invalidated 0 [r.extent] none && !s.chunkWaits 0 r
    let b := copies unmapped
    let bc := (b.running 0 3).elim b (fun c => b.setCmd 0 { c with bad := b.chunkBad 0 unmapped })
    ready (copies (chunks 0)) (chunks 0) && (copies (chunks 0)).chunkBad 0 (chunks 0) == none && ready (copies (chunks 1)) (chunks 1) && (copies (chunks 1)).chunkBad 0 (chunks 1) == none &&
    !(copies (chunks 1)).rangeWaits 0 0 0x30000 2 && ready edged edge && edged.chunkBad 0 edge == none && edged.rangeWaits 0 0 edge.vbase 2 &&
    next (exec (.rstrAbort 0 5) edged) (fun s => s.restripeAt 0 5 == some edge) && ready b unmapped && (b.chunkBad 0 unmapped).isSome && !bc.rangeWaits 0 0 unmapped.vbase 2 &&
    (bc.abortRstr 0 5 unmapped).spillOk && next (exec (.rstrChunkComplete 0 5) b) (fun s => s.restripeAt 0 5 == some { unmapped with st := 3 }) &&
    ({ copies (chunks 0) with sharersLost := [place 0 / 128] } : State).chunkWaits 0 (chunks 0) && (copies (chunks 0)).spillOk) = true := by decide +kernel
theorem witness_EngineSteps_copied : (((copies (chunks 0)).dropFramesIn 0 [(chunks 0).extent] none).copyChunk 0 5 (chunks 0)).spillOk = true ∧
    ((copies (chunks 1)).copyChunk 0 5 (chunks 1)).spillOk = true ∧ (edged.copyChunk 0 5 edge).spillOk = true :=
  ⟨spillOk_copyChunk (by decide +kernel) (by decide +kernel) (by decide +kernel), spillOk_copyChunk (by decide +kernel) (by decide +kernel) (by decide +kernel),
    spillOk_copyChunk (by decide +kernel) (by decide +kernel) (by decide +kernel)⟩

/-- EngineSteps: a spill list of one entry beyond its limit. -/
def crowded : State := { world [] with deferrals := List.replicate 8257 { die := 0, slice := 0, pa := 0, va := 0, tid := none, reg := 5, keep := false } }
theorem witness_EngineSteps_spill : crowded.spillOk = false := by
  have h : ∀ k, crowded.deferralsOf 0 k = if k = 0 then 8257 else 0 := by
    intro k
    rw [State.deferralsOf, show crowded.deferrals = List.replicate 8257 { die := 0, slice := 0, pa := 0, va := 0, tid := none, reg := 5, keep := false } from rfl,
      List.filter_replicate]
    cases k with
    | zero => rw [if_pos (by decide), List.length_replicate]; rfl
    | succ k => rw [if_neg (by simp), if_neg (by simp)]; rfl
  have h0 : crowded.spilled 0 = 8193 := by simp only [State.spilled, h]; decide
  rw [State.spillOk, show upto 0 8 = 0 :: upto 1 7 from rfl, List.all_cons, h0]
  rfl

/-- LaunchAndTaskSteps: an LQD that is not readable, a device queue, a record that names no region and one whose read fails a check, a launch whose domain is gone. -/
theorem witness_LaunchAndTaskSteps_launches : (
    let q := queued.queue 5
    let dev := { queued with queues := [(5, { q with device := true, noticed := 0 })] }
    let torn := stored queued [(0x60008, 0)]
    let bad := stored queued [(0x61010, 0x20080)]
    let gone := fun (n : Nat) => { world [] with launches := [{ launch1 with live := n }], domains := [(0, { (world []).domain 0 with v := false })] }
    okay (dev.readLqd (dev.queue 5)) (· == lqd1) && next (exec (.launchTailNotice 5) dev) (fun s => (s.queue 5).noticed == 1) && next (exec (.launchDoorbell 5) dev) (fun s => (s.queue 5).noticed == 0) &&
    next (exec (.launchQueuePoll 5) dev) (fun s => (s.queue 5).noticed == 1) && !queued.lqdWaits q && (match torn.readLqd q with | .error n => n == 2 | .ok _ => false) &&
    next (exec (.launchDoorbell 5) torn) (fun s => s.numAs 0 (place 0x60038) 8 == 2) && bad.nextQueue == some 5 && bad.canTake 5 == some lqd1 &&
    (match bad.agentAt { die := 0, core := none, sdom := 0 } 0x61000 false with
      | .ok (s1, g) => (s1.poisonedIn g.pa 128).isNone && !s1.chainWaits 0 0 9 0x20080 && s1.checkRecord q (s1.numAt 0 g.pa 128) != 0
      | .error _ => false) &&
    next (exec (.launchTake 5) bad) (fun s => s.launches.isEmpty && s.tookLaunch) &&
    (gone 0).domainGone launch1 && next (exec (.materialisation 7) (gone 0)) (fun s => s.launches.isEmpty) && next (exec (.materialisation 7) (gone 1)) (fun s => s.launches.length == 1)) = true := by
  decide +kernel

/-- LaunchAndTaskSteps: the third and the fourth cycle after a creation, a frame that waits, a frame of a live thread. -/
theorem witness_LaunchAndTaskSteps_tasks : (
    let tasks := fun (n : Option Nat) (l : List Thread) => let s := world l; s.setCore 0 { s.core 0 with taskq := [task1], cycle := 64, lastTask := n }
    let frame := { sdom := 0, handle := task1.handle : Tid }
    let wait := { tasks none [] with sharersLost := [physAddr 0 (2 ^ 30 + 8192) / 128] }
    let born := fun (s : State) => next (exec (.taskCreation 0) s) (fun s => (s.find frame).isSome)
    (tasks none []).coreOn 0 && (world []).held.isEmpty && !born (tasks (some 61) []) && born (tasks (some 60) []) && born (tasks none []) && wait.frameWaits 0 frame &&
    wait.taskFrom 0 [task1] [] 0 == some (0, task1) && !born wait && !(tasks none []).frameWaits 0 frame &&
    (tasks none [{ th 8 with st := .faulted }]).taskFrom 0 [task1] [] 0 == some (0, task1) && !(tasks none [th 8]).frameWaits 0 frame &&
    next (exec (.taskCreation 0) (tasks none [{ th 8 with st := .faulted }])) (fun s => (s.core 0).taskq.isEmpty && s.find frame == some { th 8 with st := .faulted })) = true := by decide +kernel

/-- LaunchAndTaskSteps: a task and a thread of a domain that is gone; a launch of a gang; a region that can be read; the KILL whose message is dropped. -/
theorem witness_LaunchAndTaskSteps_more : (
    let s := { world [] with domains := [(0, { (world []).domain 0 with v := false })] }
    let gone := s.setCore 0 { s.core 0 with taskq := [task1], cycle := 64 }
    let g := { launch1 with gshape := 1, gm := 2, grecb := 0x40000, gframeb := 0x80000 }
    let gang := { world [] with launches := [g] }
    let kill := { world [{ th 0 with pend := some (.killHeld 3), st := .blocked .empty }] with killMsgs := [{ target := tid 1, src := 2 ^ 20, issuer := some (tid 0) }] }
    gone.taskFrom 0 [task1] [] 0 == some (0, task1) && !gone.frameWaits 0 { sdom := 0, handle := task1.handle } &&
    next (exec (.taskCreation 0) gone) (fun s => s.threads.isEmpty && (s.core 0).taskq.isEmpty) && (gang.nextLaunchOn (dieOf (gang.memberCore g 0))).any (· == g) &&
    okay (gang.chain 0 0 0x20000) (fun _ => true) && gang.early.isEmpty && next (exec (.materialisation 7) gang) (fun s => s.gangs.map (fun h => (h.m, h.members.length)) == [(2, 2)]) &&
    (kill.named (tid 1)).isNone && next (exec (.killMessageRetry 0) kill) (fun s => s.killMsgs.isEmpty && has s 0 (fun u => u.pc == 0x10004 && u.rd 3 == 0))) = true := by decide +kernel

/-- OwnershipSteps: a buffered store, an accepted command and an operation that hold a zeroing; a core that is not empty. -/
theorem witness_OwnershipSteps_waits : (
    let store := fun (va pa : Nat) => { th 0 with stores := [{ va := va, pa := pa, bytes := [1], leaf := none }] }
    let carve := fun (s : State) => s.setDie 0 { s.die 0 with busy := true, count := 1, target := 3, unitZeroing := [0] }
    let seg := fun (s : State) => s.setCore 0 { s.core 0 with zeroing := [31] }
    let inPad := physAddr (padUnit 0) (2 ^ 18 - 8)
    let inUnit := physAddr (carveUnit 0) 8
    let held := world [store (2 ^ 64 - 8) inPad]
    let op := ganged { gang1 with op := some { fn := 0, snap := [], seen := [] } } [member []]
    let copy := engines [{ cmd1 with dst := 2 ^ 64 - 16 }] []
    let stays := fun (i : Instr) (s : State) => next (exec i (seg s)) (fun s => (s.core 0).zeroing == [31])
    (seg held).aimedAt (segBytes 0 31) && stays (.segmentZeroingEnd 0 31) held && (seg copy).cmdAimedAt 0 31 && stays (.segmentZeroingEnd 0 31) copy && (seg op).opReads 0 &&
    stays (.segmentZeroingEnd 0 31) op && (carve (world [store 8 inUnit])).aimedAt (unitBytes 0 0) && (world [store 8 inUnit]).deferrals.isEmpty &&
    next (exec (.carveUnitZeroingEnd 0 0) (carve (world [store 8 inUnit]))) (fun s => (s.die 0).unitZeroing == [0]) &&
    next (exec (.carveUnitZeroingEnd 0 1) (carve (world []))) (fun s => (s.die 0).unitZeroing == [0]) &&
    (carve (world [store 8 (physAddr (carveUnit 0) (2 ^ 21))])).aimedAt (fun pa => physUnit pa == carveUnit 0 && decide (1 ≤ physOff pa / 2 ^ 21)) &&
    next (exec (.carveChangeEnd 0) (carve (world [store 8 (physAddr (carveUnit 0) (2 ^ 21))]))) (fun s => (s.die 0).busy) && !((world []).die 0).busy &&
    !(world [th 0]).coreEmpty 0 && next (exec (.coreRetirement [0]) { world [th 0] with retiring := [0] }) (fun s => s.retiring == [0])) = true := by decide +kernel

/-- ErrorSteps: nothing is abandoned while the package is stopped; a link that fails with a packet under way; the last record a queue has room for. -/
theorem witness_ErrorSteps_stopped : (
    let f : Fill := { regs := [(5, 0)], flags := 0, float := false, req := some { kind := .load, addr := 0x30000, host := false, since := 5 }, bad := none }
    let s := { world [{ th 0 with fills := [f] }] with tick := 20005 }
    let stop := { s with halted := true }
    next (exec (.requestTimeout (.fill (tid 0) 0)) stop) (fun s => has s 0 (fun u => u.fills.length == 1)) && !s.upqFull 0 &&
    (s.setDie 0 { s.die 0 with upq := List.replicate 3 trapRec }).upqFull 0 == false && !(wire (pkt 0x01 [])).linkDown.contains 3 &&
    next (exec (.linkFailure 3) (wire (pkt 0x01 []))) (fun s => s.linkDown == [3] && s.net == [pkt 0x01 []])) = true := by decide +kernel

/-- StepRunsDecoded: a word fetched before, and a word that no instruction has by a thread whose fetch it is. -/
theorem witness_StepRunsDecoded_fetched : (
    let s := { world [th 0] with issue := [tid 0], cur := none, fetched := some 0x04108180 }
    let s1 := { s with issue := [], cur := some (tid 0) }
    s.fetched == some 0x04108180 && (s1.fetchSlot (th 0)).isNone && next (step s) (fun s => has s 0 (fun u => u.pc == 0x10004)) && !s1.stuck (th 0) && s1.devq.isEmpty && s1.lateRecs.isEmpty && s1.ended.isEmpty && quiet s1 &&
    next (step { s with fetched := some 0 }) (fun s => has s 0 (fun u => u.fcause == 1))) = true := by decide +kernel

/-- MailboxCommands: SETROOT while a walk of the domain stands, and with none; the signer's key and number. -/
theorem witness_MailboxCommands_setroot : (
    let c := mail 0x13 0 [0, 1]
    let s := { ground with ownkey := 1 }
    let w := { s with threads := [{ th 0 with fills := [{ regs := [(5, 0)], flags := 0, float := false, req := none, bad := none
                                                          src := some { va := 0x30000, pa := place 0x30000, n := 8, leaf := some 0x407F, conv := .zero 5, kind := .load, half := none } }] }] }
    (s.setRoot 0 1).invalidated 0 [allExtent] none && c.len == 40 && decide (2 ≤ c.payload.length) && (s.signerKey 0).isSome && decide (s.signerSeq 0 < c.seq) &&
    !(w.setRoot 0 1).invalidated 0 [allExtent] none && rootOk 1 && !rootOk (mailArg (mail 0x13 0 [0, 2]) 1) &&
    !rootOk (mailArg (mail 0x11 0xFFFF [5, 2 ^ 15 + 1, 0, 0, 0, 0, 0]) 1) && s.signerSeq 0xFFFF == 0 && (s.signerKey 0xFFFF).isSome) = true := by decide +kernel

/-- HostSteps: the host's link down; a line that is not known; an endpoint whose descriptor lies in such a line. -/
theorem witness_HostSteps_waits : (
    let cut := { aperture 1 with linkDown := [18] }
    let lost := { aperture 1 with sharersLost := [place 0x33FF8 / 128] }
    let ep := { sending with sharersLost := [place 0x70000 / 128] }
    let stuck := { sending with sharersLost := [place 0x30000 / 128], admitted := true }
    cut.hostCut && next (exec (.hostApertureRead 63 0 8) cut) (·.waitsIn) && next (exec (.hostApertureWrite 63 0 [9]) cut) (·.waitsIn) && !lost.hostCut && lost.aperAdmits 63 0x3FF8 false &&
    (match lost.hostRead 0 0x33FF8 8 with | .waits => true | _ => false) && !lost.hostPoisoned 0 0x33FF8 1 && (match lost.hostWrite 0 0x33FF8 [9] with | .waits => true | _ => false) &&
    next (exec (.hostApertureWrite 63 0x3FF8 [9]) lost) (·.waitsIn) && (match stuck.hostRead 0 0x30000 8 with | .waits => true | _ => false) && stuck.admitted &&
    next (exec (.ethernetInboundAccess (inbound 0x30000)) stuck) (·.waitsIn) && next (exec (.hostApertureRead 63 0x3FF8 8) lost) (·.waitsIn) &&
    (ep.endpoint 3).v && ep.epdWaits (ep.endpoint 3) && next (exec (.ethernetInboundAccess (inbound 0x30FF8)) ep) (·.waitsIn) &&
    [Instr.ethernetTailNotice 3, .ethernetPoll 3].all (fun i => next (exec i ep) (fun s => s.endpoint 3 == ep.endpoint 3)) && !(ep.endpoint 4).v &&
    next (exec (.managementWindowWrite { off := 0x208, val := 5000, fromHost := true }) ground) (fun s => s.reqto == ground.reqto) &&
    next (exec (.ethernetInboundAccess { inbound 0x30FF8 with ep := 4 }) sending) (fun s => s.endpoints.length == 1)) = true := by decide +kernel

/-- PacketArrivals: with 128 entries held for the pair and with 127; no link between the dies; an operand of host memory; an acknowledgement of one of two replies. -/
theorem witness_PacketArrivals_ends : (
    let full := fun (n : Nat) (p : Packet) => { wire p with replies := List.replicate n { pkt 0x85 [0] with src := 0, dst := 1, seq := 9 } }
    let feo := pkt 0x07 [0, 0]
    let apart := { wire (pkt 0x01 []) with endies := 3, linkDown := List.range 19 }
    let host := pkt 0x0E [3, 0x8C, 1, 2]
    let cack := pkt 0x8F []
    let two := { wire cack with replies := [{ pkt 0x85 [0] with src := 0, dst := 1, seq := 4 }, { pkt 0x85 [0] with src := 0, dst := 1, seq := 5 }] }
    (full 127 feo).creditFor 1 0 (.packet 4) && !(full 128 feo).creditFor 1 0 (.packet 4) && next (exec (.feo feo) (full 128 feo)) (fun s => s.net == [feo] && s.replies.length == 128) &&
    !apart.linked 1 0 && next (exec (.rds (pkt 0x01 [])) apart) (fun s => s.net == [pkt 0x01 []]) &&
    wordsMatch host && pktW host 0 == 3 && pktW host 1 / 2 ^ 4 % 16 == 8 && pktW host 1 / 2 ^ 2 % 4 == 3 && (wire host).creditFor 1 0 (.packet 4) && (wire host).linked 1 0 && (wire host).linked 0 12 &&
    next (exec (.hst host) (wire host)) (fun s => s.net.map (·.op) == [0x85] && s.numAs 0 (physAddr hostUnit 128) 8 == 1) &&
    next (exec (.cack cack) two) (fun s => s.replies.map (·.seq) == [5])) = true := by decide +kernel

/-- PacketArrivals: the words of a packet; a line whose holders are asked; a task that arrives out of order; an invalidation that is over and one that waits; host
memory cut off, and beyond its end; the clauses on a place that a thread's context does not hold. -/
theorem witness_PacketArrivals_more : (
    let p := pkt 0x01 []
    let task := pkt 0x0B [2, 0x10000, 0, 0, 0, 0, 0, 0, 0]
    let late := let s := wire task; s.setCore 0 { s.core 0 with arrived := some ((s.core 0).cycle, 2047) }
    let invt := pkt 0x0D [0, 0, 0, 0]
    let load : Fill := { regs := [(5, 0)], flags := 0, float := false, req := none, bad := none, src := some { va := 0x30000, pa := place 0x30000, n := 8, leaf := some 0x407F, conv := .zero 5, kind := .load, half := none } }
    let ends := fun (s : State) => let s0 := s.took invt; (s0.invalidateOn 0 0 (s0.tlbExtents 0 allExtent)).invalidatedOn 0 0 (s0.tlbExtents 0 allExtent)
    let cut := { wire (pkt 0x0E [1]) with linkDown := [18], endies := 3, engdies := 1 }
    ofWire (wireOf (pkt 0x07 [2, 0, 0])) == some (pkt 0x07 [2, 0, 0]) && (((wire p).setDir (dirKey p) { DirEnt.init with req := some p }).dir (dirKey p)).req == some p &&
    wordsMatch task && !late.taskArrives task && !late.seenSeq task && next (exec (.thrPacket task) late) (fun s => s.net == [task]) &&
    wordsMatch invt && ends (wire invt) && !ends { wire invt with threads := [{ th 0 with fills := [load] }] } && !cut.linked 0 12 && cut.linked 1 0 &&
    next (exec (.hst (pkt 0x0E [1])) cut) (fun s => s.net == [pkt 0x0E [1]]) && wordsMatch { pkt 0x0E [1] with p := 2 ^ 48 } &&
    next (exec (.hst { pkt 0x0E [1] with p := 2 ^ 48 }) (wire { pkt 0x0E [1] with p := 2 ^ 48 })) (fun s => s.net.isEmpty) &&
    next (exec (.mgt (pkt 0x0F [0, 0])) (wire (pkt 0x0F [0, 0]))) (fun s => s.net.map (·.op) == [0x81])) = true := by decide +kernel

end Sys2Proof.Tests
end

/-! PROOF. Every instruction answers: a word runs in the frame `word`, a step of another agent is a next state. -/
namespace Sys2Proof.Proofs
open Sys2Proof.Machine Sys2Proof.Laws

/-! Each shared operation of the instruction files is the frame `word` around an effect of its own. -/

theorem regOp_eq_word (i : Instr) (d : Reg) (f : Thread → Word) (s : State) :
    ∃ k, regOp i d f s = word i s k := ⟨_, rfl⟩
theorem divOp_eq_word (i : Instr) (d : Reg) (f : Thread → Word) (s : State) :
    ∃ k, divOp i d f s = word i s k := ⟨_, rfl⟩
theorem floatOp_eq_word (i : Instr) (d : Reg) (f : Thread → Nat × Fpf) (s : State) :
    ∃ k, floatOp i d f s = word i s k := ⟨_, rfl⟩
theorem floatFill_eq_word (i : Instr) (d : Reg) (f : Thread → Nat × Fpf) (s : State) :
    ∃ k, floatFill i d f s = word i s k := ⟨_, rfl⟩
theorem floatCmp_eq_word (i : Instr) (p : Pred) (f : Thread → Bool × Fpf) (s : State) :
    ∃ k, floatCmp i p f s = word i s k := ⟨_, rfl⟩
theorem lanesOp_eq_word (i : Instr) (d : Reg) (f : Fmt) (op : Thread → Nat → Nat × Fpf) (s : State) :
    ∃ k, lanesOp i d f op s = word i s k := floatOp_eq_word ..
theorem atomOp_eq_word (i : Instr) (d a b : Reg) (n : Nat) (f : Nat → Nat → Nat) (s : State) :
    ∃ k, atomOp i d a b n f s = word i s k := ⟨_, rfl⟩
theorem csrOp_eq_word (i : Instr) (v : Reg) (c : BitVec 12) (f : Word → Word → Word → Word) (s : State) :
    ∃ k, csrOp i v c f s = word i s k := ⟨_, rfl⟩
theorem gangWord_eq_word (i : Instr) (s : State) (k : State → Thread → Gang → Except Stop State) :
    ∃ k', gangWord i s k = word i s k' := ⟨_, rfl⟩

/-- The frame of a word that no thread issues answers the model's one stop. -/
theorem word_of_noThread {s : State} (i : Instr) (k : State → Thread → Except Stop State) (h : s.cur.bind s.find = none) :
    word i s k = .fault .noIssuingThread := by
  simp only [word, h]

/-- The frame of a word that a live thread issues answers a next state, whatever the word's own effect is (18 R410). -/
theorem word_of_liveThread {s : State} (i : Instr) (k : State → Thread → Except Stop State) (h : s.cur.bind s.find ≠ none) :
    ∃ s', word i s k = .next s' :=
  (word_cases i s k).resolve_left fun hc => h hc.1

/-- Every instruction is one of two kinds: a word of the encoding, whose meaning is an effect `k` in the frame `word`, or a step of another
agent, which no word encodes and whose meaning is a next state. -/
theorem exec_word_or_step (i : Instr) (s : State) :
    (isWord i = true ∧ ∃ k, exec i s = word i s k) ∨ (isWord i = false ∧ ∃ s', exec i s = .next s') := by
  unfold exec
  cases i with
  | add | sub | mul | mulhS | mulhN | and | or | xor | andn | orn | shl | shr | asr | rol | ror | minS | minN | maxS | maxN | clz | popc
  | brev | leaX1 | leaX2 | leaX4 | leaX8 | mad | sel | addi | andi | ori | xori | shli | shri | asri | rori | shliW | shriW | asriW
  | roriW | movi | movhi | bfxS | bfxN | bfi | leaPc =>
    exact .inl ⟨rfl, regOp_eq_word ..⟩
  | divs | divn | rems | remn =>
    exact .inl ⟨rfl, divOp_eq_word ..⟩
  | fadd | fsub | fmul | fmin | fmax | fabs | fneg | fcpys | fclass | fma | fms | fnma | fnms | pdot | cvt | mxpack | mxscale =>
    exact .inl ⟨rfl, floatOp_eq_word ..⟩
  | fdiv | fsqrt | frcp | frsq | fexp2 | flog2 =>
    exact .inl ⟨rfl, floatFill_eq_word ..⟩
  | fcmpEq | fcmpLt | fcmpLe | fcmpUn =>
    exact .inl ⟨rfl, floatCmp_eq_word ..⟩
  | padd | psub | pmul | pmin | pmax | pfma =>
    exact .inl ⟨rfl, lanesOp_eq_word ..⟩
  | atomAdd | atomAnd | atomOr | atomXor | atomMinS | atomMinN | atomMaxS | atomMaxN | atomSwap | atomFaddF32 | atomFaddF64 | atomFmaxF32 =>
    exact .inl ⟨rfl, atomOp_eq_word ..⟩
  | csrw | csrs | csrc =>
    exact .inl ⟨rfl, csrOp_eq_word ..⟩
  | gangLeave | gangMma | mxburst | mxwait | accLd | accSt | accZero | accScale | accCvt | mxcfg =>
    exact .inl ⟨rfl, gangWord_eq_word ..⟩
  | cmp | cmpi | br | brp | jmp | call | nop | jmpr | callr | ret | exit | trap | brk | yield | mxunpack | ldB | ldH | ldW | ldD | ldBS
  | ldHS | ldWS | ldP | stB | stH | stW | stD | stP | ldAcq | stRel | ldfe | ldfeK | stfe | stfeF | pref | fence | fenceAcq | fenceRel
  | casW | casD | gangForm | gangJoin | cpy | cpy2d | deal | rstr | mred | esync | spawn | callat | send | recv | wait | wake | migr
  | sleep | prio | resume | kill | thr | fillInit | fillAdd | fillWait | sbarArrive | sbarWait | tscr | xcnt | pcnt | route | placeq
  | tlbinv | gtsync | csrr | upret | eret | halt | feat | attest | dbgRd | dbgWr | dbgStep | hnop | hctx | hfetch | hintReserved =>
    exact .inl ⟨rfl, _, rfl⟩
  | phaseTurn | registerFill | registerLineArrival | controlLineArrival | walkEnd | retCompletion | feretryReissue | storeBufferDrain
  | waitDeadline | instructionReply | engineAcceptanceReply | fullEmptyReply | tlbinvCompletion | gtsyncCompletion | materialisation
  | activation | priorityAging | preemption | gangResolution | matrixOperationCompletion | rampUpEnd | rampDownStart | rampDownEnd
  | gangSave | gangReactivation | gangBreak | launchDoorbell | launchTailNotice | launchQueuePoll | launchTake | taskCreation
  | reservationLapse | killMessageRetry | engineCommandStart | engineCommandCompletion | rstrChunkComplete | rstrAbort | carveChangeEnd
  | carveUnitZeroingEnd | segmentZeroingEnd | equinoxEvaluation | equinoxCopyCompletion | sbarArrivalCount | sbarEpisodeEndDelivery
  | sbarDeadline | tscTick | upcallServe | uncorrectableError | correctedError | flitCheckFailure | sharersLostRecallEnd | requestTimeout
  | packageReset | discovery | linkTraining | memoryTraining | configuration | release | linkFailure | linkRetrainEnd | coreRetirement
  | hostApertureRead | hostApertureWrite | managementWindowWrite | cert | takeown | setfeat | mkdom | rmdom | setroot | setaper | setqueue
  | setedt | setfdt | setep | setcarveTarget | setcarveCarvedom | setspdom | setsoldom | setgtbase | setcoreoff | setmgmtHalted
  | setmgmtReqto | setmgmtHostto | setmgmtErrorCounter | setmgmtHold | mailboxUnknownCommand | ethernetTailNotice | ethernetPoll
  | ethernetPut | ethernetGet | ethernetCompletion | ethernetInboundAccess | ethernetTransportTimeout | rds | rdx | rdu | wbl | wrm | atm
  | feo | inv | rcl | ctx | thrPacket | dmv | invt | hst | mgt | data | ack | nack | defer | old | iack | stat | cack | lazokelFlitRetry
  | unassignedOpPacket =>
    exact .inr ⟨rfl, _, rfl⟩

/-- Settles O57: a step is a next state of its own, and a word has the answers of the frame it runs in. -/
theorem everyStepAnswers : Obligations.EveryStepAnswers := by
  unfold Obligations.EveryStepAnswers
  intro i s
  obtain ⟨hword, k, hk⟩ | ⟨hstep, hs⟩ := exec_word_or_step i s
  · rw [hword, hk]
    exact ⟨nofun, fun _ => word_of_liveThread i k, fun _ => word_of_noThread i k⟩
  · rw [hstep]
    exact ⟨fun _ => hs, nofun, nofun⟩

end Sys2Proof.Proofs

/-! PROOF. A step of a thread that issues executes the instruction its word decodes to, and what follows every step at once does nothing
where nothing is held, waits or is late (02 R53; 18 R410; 13 R303; 16 R361). -/
namespace Sys2Proof.Proofs
open Sys2Proof.Machine Sys2Proof.Laws

/-- A thread with a good PC and no breakpoint, whose group's word is at hand or fetched, meets the decoder. -/
theorem beforeExec_of_word {s : State} {t : Thread} {w : Nat} (hpc : badPc t.pc = false) (hslot : s.fetchSlot t = none)
    (hw : s.fetched = some w ∨ (s.fetched = none ∧ s.fetchWord t = .ok w)) : s.beforeExec t = s.decodeFor t w := by
  obtain hw | ⟨hnone, hw⟩ := hw
  · simp only [State.beforeExec, hpc, hslot, hw, Bool.false_eq_true, if_false]
  · simp only [State.beforeExec, hpc, hslot, hnone, hw, Bool.false_eq_true, if_false]

/-- The step of a state with a thread to issue is that thread's, settled. -/
theorem step_of_issue {s : State} {i : Tid} {rest : List Tid} (h : s.issue = i :: rest) :
    step s = settled (State.issueOne { s with issue := rest, cur := some i } i) := by
  simp only [step, h]

theorem issueOne_of_decoded {s : State} {i : Tid} {t : Thread} {x : Instr} (h : s.find i = some t) (hx : s.beforeExec t = .ok x) :
    s.issueOne i = exec x s := by
  simp only [State.issueOne, h, hx]

theorem issueOne_of_stopped {s s' : State} {i : Tid} {t : Thread} (h : s.find i = some t) (hx : s.beforeExec t = .error s') :
    s.issueOne i = .next s' := by
  simp only [State.issueOne, h, hx]

/-- A list of changes none of which changes anything in the state s. -/
theorem foldl_eq_self {σ α : Type} {f : σ → α → σ} {s : σ} {l : List α} (h : ∀ a ∈ l, f s a = s) : l.foldl f s = s := by
  induction l with
  | nil => rfl
  | cons a l ih =>
    rw [List.foldl_cons, h a List.mem_cons_self]
    exact ih fun b hb => h b (List.mem_cons_of_mem a hb)

/-- No thread is armed on a gang record where none waits for a word (09 R197). -/
theorem armed_eq_false_of_unwatched {s : State} (h : s.unwatched) {u : Thread} (hu : u ∈ s.threads) : u.armed = false := by
  have hc := h u hu
  unfold Thread.armed
  split at hc <;> simp_all

theorem checkJoiners_of_unwatched {s : State} (h : s.unwatched) : s.checkJoiners = s := by
  have hnone : s.threads.filter Thread.armed = [] :=
    List.filter_eq_nil_iff.2 fun u hu => by simp [armed_eq_false_of_unwatched h hu]
  simp only [State.checkJoiners, hnone, List.length_nil, inOrder, List.foldl_nil]

/-- Where no thread waits for a word of memory, no wait ends (16 R361). -/
theorem checkWatches_of_unwatched {s : State} (h : s.unwatched) : s.checkWatches = s := by
  simp only [State.checkWatches, checkJoiners_of_unwatched h]
  refine foldl_eq_self fun u hu => ?_
  have hc := h u hu
  split at hc <;> split <;> simp_all

theorem settle_eq (s : State) : s.settle = { s.flushDev.checkWatches.flushRecs with ended := [] } := by
  unfold State.settle
  dsimp only
  split
  next h => rw [← List.isEmpty_iff.1 h]
  next => rfl

/-- Nothing held, no record late, no wait to end: what follows a step at once changes nothing. -/
theorem settle_of_quiet {s : State} (hdev : s.devq = []) (hrecs : s.lateRecs = []) (hended : s.ended = []) (h : s.unwatched) :
    s.settle = s := by
  have hflush : s.flushDev = s := by simp only [State.flushDev, hdev, List.isEmpty_nil, if_true]
  have hlate : s.flushRecs = s := by simp only [State.flushRecs, hrecs, List.isEmpty_nil, if_true]
  simp only [State.settle, hflush, checkWatches_of_unwatched h, hlate, hended, List.isEmpty_nil, if_true]

/-- Settles O54: the order of `beforeExec` for a good PC without a breakpoint, then the decoder's two answers. -/
theorem stepRunsDecoded : Obligations.StepRunsDecoded := by
  unfold Obligations.StepRunsDecoded
  intro s i rest t w x err s1 hissue hfind halign hcanon hslot hw
  have hpc : badPc t.pc = false := by simp [badPc, halign, hcanon]
  have hbefore : s1.beforeExec t = s1.decodeFor t w := beforeExec_of_word hpc hslot hw
  refine ⟨fun hx => ?_, fun herr => ?_, fun s2 => ⟨rfl, settle_eq s2, settle_of_quiet⟩⟩
  · rw [step_of_issue hissue, issueOne_of_decoded hfind (by rw [hbefore, State.decodeFor, hx])]
  · rw [step_of_issue hissue, issueOne_of_stopped hfind (by rw [hbefore, State.decodeFor, herr])]
    rfl

end Sys2Proof.Proofs

/-! PROOF. What the device does beside a thread's own state (writes of its own, charges, counts and records) leaves the threads, the
clock, the cycles and the stores before their global point as they were. -/
namespace Sys2Proof.Proofs
open Sys2Proof.Machine Sys2Proof.Laws

/-- From s to s' no thread, no issue group, no cycle count and no store before its global point has changed, and neither a gang nor a
poisoned word has come where there was none. -/
structure Quiet (s s' : State) : Prop where
  threads : s'.threads = s.threads
  tick : s'.tick = s.tick
  issue : s'.issue = s.issue
  early : s'.early = s.early
  gangs : s.gangs = [] → s'.gangs = []
  poison : s.poison = [] → s'.poison = []
  cycle : ∀ c, (s'.core c).cycle = (s.core c).cycle

theorem find_of_threads {s s' : State} (h : s'.threads = s.threads) (i : Tid) : s'.find i = s.find i := by
  unfold State.find; rw [h]

theorem core_setCore (s : State) (c j : Nat) (x : Core) : (s.setCore c x).core j = if j = c then x else s.core j := get_set s.cores

/-! Each operation goes on from a state that was reached quietly. -/
namespace Quiet

theorem refl (s : State) : Quiet s s := ⟨rfl, rfl, rfl, rfl, id, id, fun _ => rfl⟩

theorem trans {s s' s'' : State} (h : Quiet s s') (h' : Quiet s' s'') : Quiet s s'' where
  threads := h'.threads.trans h.threads
  tick := h'.tick.trans h.tick
  issue := h'.issue.trans h.issue
  early := h'.early.trans h.early
  gangs e := h'.gangs (h.gangs e)
  poison e := h'.poison (h.poison e)
  cycle c := (h'.cycle c).trans (h.cycle c)

variable {s s1 s2 : State}

theorem find (h : Quiet s s1) (i : Tid) : s1.find i = s.find i := find_of_threads h.threads i

theorem again (h : Quiet s s1) (t : Thread) : s1.again t = s.again t := by
  unfold State.again; rw [h.find]

theorem foldl {α : Type} {f : State → α → State} (hf : ∀ s1 a, Quiet s s1 → Quiet s (f s1 a)) (l : List α) (h : Quiet s s1) :
    Quiet s (l.foldl f s1) := by
  induction l generalizing s1 with
  | nil => exact h
  | cons a l ih => exact ih (hf s1 a h)

/-- A core may change in all but its cycle count. -/
theorem setCore {c : Nat} {x : Core} (h : Quiet s s1) (hx : x.cycle = (s1.core c).cycle) : Quiet s (s1.setCore c x) :=
  h.trans ⟨rfl, rfl, rfl, rfl, id, id, fun j => by
    rw [core_setCore]
    split
    next hj => rw [hx, hj]
    next => rfl⟩

theorem setDie (h : Quiet s s1) (d : Nat) (x : Die) : Quiet s (s1.setDie d x) := h.trans ⟨rfl, rfl, rfl, rfl, id, id, fun _ => rfl⟩

/-! Writes of bytes (10 R230). -/

theorem pokeBytes (h : Quiet s s1) (a : Nat) (bs : List Byte) : Quiet s (s1.pokeBytes a bs) := by
  induction bs generalizing s1 a with
  | nil => exact h
  | cons b bs ih =>
    have hb : Quiet s1 (s1.pokeByte a b) := ⟨rfl, rfl, rfl, rfl, id, id, fun _ => rfl⟩
    exact ih (h.trans hb) (a + 1)

theorem withKeys (h : Quiet s s1) (l : List (Nat × Nat)) : Quiet s { s1 with lineKey := l } :=
  h.trans ⟨rfl, rfl, rfl, rfl, id, id, fun _ => rfl⟩

theorem rekey (h : Quiet s s1) (d a : Nat) : Quiet s (s1.rekey d a) := by
  unfold State.rekey
  split
  · exact h
  · exact (h.pokeBytes ..).withKeys _

theorem writeLine (h : Quiet s s1) (d a : Nat) (bs : List Byte) : Quiet s (s1.writeLine d a bs) := by
  unfold State.writeLine
  apply pokeBytes
  split
  · exact h
  · split
    · exact h.withKeys _
    · exact h.rekey ..

theorem unpoison (h : Quiet s s1) (a n : Nat) : Quiet s (s1.unpoison a n) :=
  h.trans ⟨rfl, rfl, rfl, rfl, id, fun e => by simp only [State.unpoison, e]; exact List.foldl_fixed' (fun _ => rfl) _, fun _ => rfl⟩

theorem writeAs (h : Quiet s s1) (d a : Nat) (bs : List Byte) : Quiet s (s1.writeAs d a bs) := by
  unfold State.writeAs
  dsimp only
  split
  · exact (h.unpoison ..).writeLine ..
  · refine foldl (fun s2 k h2 => ?_) _ (h.unpoison ..)
    generalize (if k = 0 then 0 else 128 - a % 128 + 128 * (k - 1)) = lo
    split
    · exact h2
    · exact h2.writeLine ..

theorem markLeaf (h : Quiet s s1) (d : Nat) (x : Walked) (w : Bool) : Quiet s (s1.markLeaf d x w) := by
  unfold State.markLeaf
  split
  · exact h
  · exact h.writeAs ..

theorem touch (h : Quiet s s1) (die d a : Nat) (w : Bool) : Quiet s (s1.touch die d a w) := by
  unfold State.touch
  split
  · exact h.markLeaf ..
  · exact h

theorem touchPath (h : Quiet s s1) (die home : Nat) (l : List Nat) : Quiet s (s1.touchPath die home l) :=
  foldl (fun _ _ h1 => h1.touch ..) l h

/-! Writes of the device (13 R303), and the charges it makes by them (02 R43). -/

theorem devPut {die d a : Nat} {bs : List Byte} {free : Bool} (h : Quiet s s1) (e : s1.devPut die d a bs free = .ok s2) :
    Quiet s s2 := by
  unfold State.devPut at e
  split at e
  · cases e
  · split at e
    · obtain rfl := Except.ok.inj e
      split
      · exact ((h.touch ..).writeAs ..).writeAs ..
      · exact (h.touch ..).writeAs ..
    · cases e

theorem takeEntry (h : Quiet s s1) (w : Waiter) (src home d p old : Nat) : Quiet s (s1.takeEntry w src home d p old) := by
  unfold State.takeEntry
  split
  · exact h
  · exact h.trans ⟨rfl, rfl, rfl, rfl, id, id, fun _ => rfl⟩

theorem devPerform {o : DevOp} (h : Quiet s s1) (e : s1.devPerform o = .ok s2) : Quiet s s2 := by
  unfold State.devPerform at e
  split at e
  · exact h.devPut e
  · exact h.devPut e
  · exact h.devPut e
  · split at e
    · cases e
    · split at e
      · cases e
      next hput =>
        obtain rfl := Except.ok.inj e
        exact (h.devPut hput).takeEntry ..
  all_goals
    split at e
    · cases e
    · exact h.devPut e

theorem awaitCredit (h : Quiet s s1) (src home : Nat) (w : Waiter) : Quiet s (s1.awaitCredit src home w) := by
  unfold State.awaitCredit
  split
  · exact h
  · exact h.trans ⟨rfl, rfl, rfl, rfl, id, id, fun _ => rfl⟩

/-- A write of the device, performed or held. -/
theorem devDo {o : DevOp} (h : Quiet s s1) (e : s1.devDo o = .ok s2) : Quiet s s2 := by
  unfold State.devDo at e
  split at e
  · obtain rfl := Except.ok.inj e
    have hheld : Quiet s { s1 with devq := s1.devq ++ [o] } := h.trans ⟨rfl, rfl, rfl, rfl, id, id, fun _ => rfl⟩
    dsimp only
    split
    · exact hheld.awaitCredit ..
    · exact hheld
  · exact h.devPerform e

theorem noteWaits (h : Quiet s s1) : Quiet s s1.noteWaits := by
  unfold State.noteWaits
  dsimp only
  split
  · exact h
  · exact h.trans ⟨rfl, rfl, rfl, rfl, id, id, fun _ => rfl⟩

theorem addCount (h : Quiet s s1) (die home va : Nat) (c : Charge) (d : Int) : Quiet s (s1.addCount die home va c d) := by
  unfold State.addCount
  dsimp only
  split
  next hdo => exact (h.devDo hdo).noteWaits
  next => exact h

theorem charge (h : Quiet s s1) (die home : Nat) (c : Charge) (d : Int) (l : List Nat) : Quiet s (s1.charge die home c d l) :=
  foldl (fun _ _ h1 => h1.addCount ..) l h

/-! Counts of events, fault records and credits. -/

theorem tally (h : Quiet s s1) (core : Nat) (dom : Option Nat) (code n : Nat) : Quiet s (s1.tally core dom code n) := by
  unfold State.tally
  dsimp only
  split
  · exact h.setCore rfl
  · exact h

theorem countCycle (h : Quiet s s1) (core : Nat) : Quiet s (s1.countCycle core) := by
  unfold State.countCycle
  dsimp only
  split
  · exact h
  · exact h.setCore rfl

theorem pushRec (h : Quiet s s1) (d : Nat) (r : Rec) : Quiet s (s1.pushRec d r) := by
  unfold State.pushRec
  split
  · exact h.trans ⟨rfl, rfl, rfl, rfl, id, id, fun _ => rfl⟩
  · exact h.setDie ..

theorem regionFault (h : Quiet s s1) (core home bad : Nat) : Quiet s (s1.regionFault core home bad) := by
  unfold State.regionFault
  dsimp only
  split
  · exact h
  · apply pushRec
    exact h.setCore rfl

theorem chainChecked (h : Quiet s s1) (t : Thread) : Quiet s (s1.chainChecked t) := by
  unfold State.chainChecked
  split
  · exact h.regionFault ..
  · exact h

theorem dropFresh (h : Quiet s s1) (core : Nat) (i : Tid) : Quiet s (s1.dropFresh core i) := by
  unfold State.dropFresh
  dsimp only
  split
  · exact h.setCore rfl
  · exact h

theorem dropCredit (h : Quiet s s1) (i : Tid) : Quiet s (s1.dropCredit i) := h.trans ⟨rfl, rfl, rfl, rfl, id, id, fun _ => rfl⟩

/-- A slot taken is charged to its region (02 R43). -/
theorem chargeSlot (h : Quiet s s1) (t : Thread) : Quiet s (s1.chargeSlot t) :=
  (h.charge ..).trans ⟨rfl, rfl, rfl, rfl, id, id, fun _ => rfl⟩

/-- A slot given up is charged back (02 R43, 18 R417). -/
theorem releaseSlot (h : Quiet s s1) (t : Thread) : Quiet s (s1.releaseSlot t).1 := by
  unfold State.releaseSlot
  dsimp only
  split
  · exact ((h.dropFresh ..).dropCredit _).charge ..
  · exact (h.dropFresh ..).dropCredit _

/-! The cycle of a core and of its matrix unit (08 R187, R188). -/

theorem modUnit (h : Quiet s s1) (core : Nat) (f : MatUnit → MatUnit) : Quiet s (s1.modUnit core f) := h.setCore rfl

theorem noteUp (h : Quiet s s1) (i : Option GangId) : Quiet s (s1.noteUp i) := by
  have hset : ∀ g, Quiet s (s1.setGang g) := fun g =>
    h.trans ⟨rfl, rfl, rfl, rfl, fun e => by simp only [State.setGang, e, List.map_nil], id, fun _ => rfl⟩
  unfold State.noteUp
  split
  · exact h
  · split
    · split
      · exact hset _
      · exact h
    · exact h

theorem tallyUnit (h : Quiet s s1) (core code n : Nat) : Quiet s (s1.tallyUnit core code n) := by
  unfold State.tallyUnit
  split
  · exact h.tally ..
  · exact h

theorem tallyUnitIf (h : Quiet s s1) (b : Bool) (core code n : Nat) : Quiet s (if b then s1.tallyUnit core code n else s1) := by
  split
  · exact h.tallyUnit ..
  · exact h

theorem unitTurn (h : Quiet s s1) (core : Nat) : Quiet s (s1.unitTurn core) := by
  unfold State.unitTurn
  exact ((((h.noteUp _).tallyUnitIf ..).tallyUnitIf ..).tallyUnitIf ..).modUnit ..

theorem tallyCycle (h : Quiet s s1) (core : Nat) (group : List Thread) : Quiet s (s1.tallyCycle core group) := by
  have hall : ∀ s2 (d : Nat) (l : List Nat), Quiet s s2 →
      Quiet s (l.foldl (fun s k => s.tally core (some d) k (Config.cacheEvents s.draws (256 * d + k))) s2) :=
    fun _ _ l h2 => foldl (fun _ _ h3 => h3.tally ..) l h2
  unfold State.tallyCycle
  refine foldl (fun s2 d h2 => hall s2 d _ h2) _ (foldl (fun _ _ h3 => h3.tally ..) _ ?_)
  split
  · exact (h.tally ..).tally ..
  · exact ((h.tally ..).tally ..).tally ..

end Quiet

/-- A slot given up leaves the thread without its slot, its lines and its claim. -/
theorem releaseSlot_thread (s : State) (t : Thread) :
    (s.releaseSlot t).2 = { t with slot := none, ctl := false, linesIn := [], age := 0, claim := none } := by
  unfold State.releaseSlot
  dsimp only
  split <;> rfl

end Sys2Proof.Proofs

/-! PROOF. The turn of a phase: who issues (02 R52, R53), and what an idle cycle does. -/
namespace Sys2Proof.Proofs
open Sys2Proof.Machine Sys2Proof.Laws

theorem mem_insertSlot {t u : Thread} {l : List Thread} : u ∈ insertSlot t l ↔ u = t ∨ u ∈ l := by
  induction l with
  | nil => simp [insertSlot]
  | cons v l ih =>
    unfold insertSlot
    split
    · exact List.mem_cons
    · rw [List.mem_cons, List.mem_cons, ih]; exact or_left_comm

theorem mem_sortSlots {u : Thread} {l : List Thread} : u ∈ l.foldr insertSlot [] ↔ u ∈ l := by
  induction l with
  | nil => rfl
  | cons t l ih => rw [List.foldr_cons, mem_insertSlot, ih, List.mem_cons]

/-- An issue group is those of the candidates that share one PC and one domain (02 R53). -/
theorem groupOf_shares (l : List Thread) : ∃ pc sdom, ∀ u ∈ groupOf l, u ∈ l ∧ u.pc = pc ∧ u.id.sdom = sdom := by
  have hsort : ∀ u, u ∈ l.foldr insertSlot [] → u ∈ l := fun u => mem_sortSlots.1
  unfold groupOf
  dsimp only
  generalize l.foldr insertSlot [] = sorted at hsort ⊢
  split
  · exact ⟨0, 0, fun _ hu => absurd hu List.not_mem_nil⟩
  · split
    · exact ⟨0, 0, fun _ hu => absurd hu List.not_mem_nil⟩
    next t _ =>
      refine ⟨t.pc, t.id.sdom, fun u hu => ?_⟩
      obtain ⟨hmem, hshare⟩ := List.mem_filter.1 hu
      obtain ⟨hpc, hdom⟩ := Bool.and_eq_true_iff.1 hshare
      exact ⟨hsort u hmem, eq_of_beq hpc, eq_of_beq hdom⟩

/-- Looking a thread up after a change of every thread that keeps the names. -/
theorem find_mapThreads {s s' : State} {f : Thread → Thread} (hs : s'.threads = s.threads.map f) (hf : ∀ t, (f t).id = t.id) (i : Tid) :
    s'.find i = (s.find i).map f := by
  have hname : (fun t : Thread => t.id == i) ∘ f = fun t => t.id == i := funext fun t => by simp only [Function.comp, hf]
  rw [State.find, State.find, hs, List.find?_map, hname]

/-- A turn ages every thread of its phase, and changes neither a name nor a PC. -/
theorem ageTurn_threads (s : State) (core p : Nat) (l : List Tid) :
    ∃ f, (s.ageTurn core p l).threads = s.threads.map f ∧ ∀ t, (f t).id = t.id ∧ (f t).pc = t.pc := by
  refine ⟨_, rfl, fun t => ?_⟩
  split_ifs <;> exact ⟨rfl, rfl⟩

theorem find_ageTurn {s : State} {core p : Nat} {l : List Tid} {i : Tid} {t : Thread} (h : (s.ageTurn core p l).find i = some t) :
    ∃ u, s.find i = some u ∧ t.pc = u.pc ∧ t.id = u.id := by
  obtain ⟨f, hs, hf⟩ := ageTurn_threads s core p l
  rw [find_mapThreads hs fun t => (hf t).1] at h
  obtain ⟨u, hu, rfl⟩ := Option.map_eq_some_iff.1 h
  exact ⟨u, hu, (hf u).2, (hf u).1⟩

theorem cycle_nextCycle (s : State) (core : Nat) (l : List Tid) (w : Option Nat) :
    (State.core { s.setCore core { s.core core with cycle := (s.core core).cycle + 1 } with issue := l, fetched := w } core).cycle =
      (s.core core).cycle + 1 :=
  congrArg Core.cycle ((core_setCore s core core { s.core core with cycle := (s.core core).cycle + 1 }).trans (if_pos rfl))

/-- What a turn leaves, given what the evaluation of its phase found: the group issues, its phase has aged, and the cycle counts. -/
theorem turn_of_evalPhase {s s1 : State} {core : Nat} {cand : List (Tid × Option Nat)}
    (h : ((s.countCycle core).unitTurn core).evalPhase core ((((s.countCycle core).unitTurn core).core core).cycle % 16) = (s1, cand)) :
    let group := groupOf (cand.filterMap fun c => s1.find c.1)
    let s2 := (s1.ageTurn core ((((s.countCycle core).unitTurn core).core core).cycle % 16) (group.map (·.id))).tallyCycle core group
    (s.turn core).issue = group.map (·.id) ∧ (s.turn core).threads = s2.threads ∧
      ((s.turn core).core core).cycle = (s2.core core).cycle + 1 := by
  unfold State.turn
  dsimp only
  rw [h]
  exact ⟨rfl, rfl, cycle_nextCycle ..⟩

/-- The threads that a turn lets issue share one PC and one domain. -/
theorem turn_issues_one_pc (s : State) (core : Nat) : ∃ pc sdom, ∀ i ∈ (s.turn core).issue, ∀ t, (s.turn core).find i = some t →
    t.pc = pc ∧ t.id.sdom = sdom := by
  obtain ⟨s1, cand, heval⟩ : ∃ s1 cand, ((s.countCycle core).unitTurn core).evalPhase core
      ((((s.countCycle core).unitTurn core).core core).cycle % 16) = (s1, cand) := ⟨_, _, rfl⟩
  obtain ⟨hissue, hthreads, -⟩ := turn_of_evalPhase heval
  obtain ⟨pc, sdom, hgroup⟩ := groupOf_shares (cand.filterMap fun c => s1.find c.1)
  refine ⟨pc, sdom, fun i hi t ht => ?_⟩
  rw [hissue] at hi
  obtain ⟨a, ha, rfl⟩ := List.mem_map.1 hi
  obtain ⟨hcand, hpc, hdom⟩ := hgroup a ha
  obtain ⟨c, -, hfind⟩ := List.mem_filterMap.1 hcand
  rw [find_of_threads hthreads, ((Quiet.refl _).tallyCycle core _).find] at ht
  obtain ⟨u, hu, htpc, htid⟩ := find_ageTurn ht
  rw [find_id hfind, hfind] at hu
  obtain rfl := Option.some.inj hu
  exact ⟨htpc.trans hpc, htid ▸ hdom⟩

theorem evalPhase_nil {s : State} (h : s.threads = []) (core p : Nat) : s.evalPhase core p = (s, []) := by
  simp only [State.evalPhase, State.phaseThreads, h, List.filter_nil, List.foldl_nil]

/-- A turn of a core without a thread counts its cycle and issues none. -/
theorem turn_of_no_threads {s : State} (h : s.threads = []) (core : Nat) :
    (s.turn core).issue = [] ∧ ((s.turn core).core core).cycle = (s.core core).cycle + 1 := by
  have hq := ((Quiet.refl s).countCycle core).unitTurn core
  obtain ⟨hissue, -, hcycle⟩ := turn_of_evalPhase (evalPhase_nil (hq.threads.trans h) core _)
  refine ⟨hissue, ?_⟩
  rw [hcycle, ((Quiet.refl _).tallyCycle core _).cycle]
  exact congrArg (· + 1) (hq.cycle core)

theorem exec_phaseTurn (s : State) (c : Nat) : exec (.phaseTurn c) s = execPhaseTurn c s := rfl

/-- Nothing turns while threads still issue, while the package is halted, and before it runs. -/
theorem phaseTurn_idle {s : State} {c : Nat} (h : s.issue ≠ [] ∨ s.halted = true ∨ s.stage ≠ .running) :
    exec (.phaseTurn c) s = .next s := by
  have hno : ¬ (s.stage = .running ∧ s.halted = false ∧ s.issue = []) := by
    rintro ⟨hstage, hhalt, hissue⟩
    obtain h | h | h := h
    · exact h hissue
    · simp [hhalt] at h
    · exact h hstage
  rw [exec_phaseTurn, execPhaseTurn, if_neg hno, event]

/-- The step PHASE_TURN of an enabled core of the running package. -/
theorem phaseTurn_turns {s : State} {c : Nat} (hstage : s.stage = .running) (hhalt : s.halted = false) (hissue : s.issue = [])
    (hon : s.coreOn c = true) : exec (.phaseTurn c) s = .next (s.turn c) := by
  rw [exec_phaseTurn, execPhaseTurn, if_pos ⟨hstage, hhalt, hissue⟩, if_pos hon, event]

/-- A core takes its turn, or the step issues no thread that did not issue before. -/
theorem phaseTurn_cases (s : State) (c : Nat) :
    exec (.phaseTurn c) s = .next (s.turn c) ∨ ∃ s', exec (.phaseTurn c) s = .next s' ∧ s'.issue = s.issue := by
  rw [exec_phaseTurn, execPhaseTurn, event]
  split
  · split
    · exact .inl rfl
    · split
      · exact .inr ⟨_, rfl, (((Quiet.refl s).countCycle c).unitTurn c).issue⟩
      · exact .inr ⟨_, rfl, rfl⟩
  · exact .inr ⟨_, rfl, rfl⟩

/-- 02 R52, R53: threads that begin to issue together share one PC and one domain. -/
theorem phaseTurn_issues_one_pc (s : State) (c : Nat) :
    ∃ s', exec (.phaseTurn c) s = .next s' ∧ (s.issue = [] → ∀ i ∈ s'.issue, ∀ j ∈ s'.issue, ∀ t u, s'.find i = some t →
      s'.find j = some u → t.pc = u.pc ∧ t.id.sdom = u.id.sdom) := by
  obtain hturn | ⟨s', hs', hsame⟩ := phaseTurn_cases s c
  · obtain ⟨pc, sdom, hone⟩ := turn_issues_one_pc s c
    refine ⟨_, hturn, fun _ i hi j hj t u ht hu => ?_⟩
    obtain ⟨htpc, htdom⟩ := hone i hi t ht
    obtain ⟨hupc, hudom⟩ := hone j hj u hu
    exact ⟨htpc.trans hupc.symm, htdom.trans hudom.symm⟩
  · refine ⟨s', hs', fun hnone i hi => ?_⟩
    rw [hsame, hnone] at hi
    exact absurd hi List.not_mem_nil

end Sys2Proof.Proofs

/-! PROOF. Fills, line arrivals, ends of walks and ageing: the steps that release threads (02 R32, R34, R45, R50; 12 R259; 13 R290, R307). -/
namespace Sys2Proof.Proofs
open Sys2Proof.Machine Sys2Proof.Laws

theorem again_of_find {s : State} {t : Thread} (h : s.find t.id = some t) : s.again t = t := by
  simp only [State.again, h, Option.getD_some]

/-- A live thread that is replaced is found with its new value, and the others are as they were. -/
theorem put_spec {s s' : State} {t u : Thread} (hs : ∀ j, s'.find j = s.find j) (h : s.find t.id = some t) (hid : u.id = t.id) :
    (s'.put u).find t.id = some u ∧ OthersSame s (s'.put u) t.id := by
  refine ⟨?_, fun j hj => ?_⟩
  · rw [← hid]
    exact find_put (by rw [hid, hs, h]; rfl)
  · rw [find_put_ne (by rw [hid]; exact hj), hs]

/-! What binding, dropping and delivering a fill leaves of its thread. -/

@[simp] theorem dropFill_id (t : Thread) (k tick : Nat) : (t.dropFill k tick).id = t.id := by
  unfold Thread.dropFill; dsimp only; split <;> rfl
@[simp] theorem dropFill_st (t : Thread) (k tick : Nat) : (t.dropFill k tick).st = t.st := by
  unfold Thread.dropFill; dsimp only; split <;> rfl
@[simp] theorem noted_id (t : Thread) (l : List Nat) : (t.noted l).id = t.id := by
  unfold Thread.noted; split <;> rfl
@[simp] theorem noted_st (t : Thread) (l : List Nat) : (t.noted l).st = t.st := by
  unfold Thread.noted; split <;> rfl
@[simp] theorem foldl_wr_id (l : List (Nat × Word)) (t : Thread) : (l.foldl (fun t x => t.wr x.1 x.2) t).id = t.id := by
  induction l generalizing t with
  | nil => rfl
  | cons x l ih => rw [List.foldl_cons, ih, wr_id]
@[simp] theorem foldl_wr_st (l : List (Nat × Word)) (t : Thread) : (l.foldl (fun t x => t.wr x.1 x.2) t).st = t.st := by
  induction l generalizing t with
  | nil => rfl
  | cons x l ih => rw [List.foldl_cons, ih, wr_st]

/-- Binding the loads before the k-th fill leaves that fill in its place (12 R266). -/
theorem bindUpTo_fill {s : State} {t : Thread} {k : Nat} {f : Fill} (h : t.fills[k]? = some f) : (s.bindUpTo t k).fills[k]? = some f := by
  obtain ⟨hk, rfl⟩ := List.getElem?_eq_some_iff.1 h
  simp [State.bindUpTo, Nat.min_eq_left (Nat.le_of_lt hk), hk]

theorem Quiet.clearMarks {s s1 : State} (h : Quiet s s1) (t : Thread) (l : List (Nat × Word)) : Quiet s (s1.clearMarks t l) := by
  unfold State.clearMarks
  split
  · exact h
  · split
    · exact h
    · refine foldl (fun s2 r h2 => ?_) l h
      split
      · exact h2
      · exact h2.unpoison ..

/-- A RESIDENT thread stands at no condition that a fill could end. -/
theorem recheck_of_resident {s : State} {i : Tid} {t : Thread} (h : s.find i = some t) (hst : t.st = .resident) : s.recheck i = s := by
  have hblocked : t.blockedBefore = false := by simp [Thread.blockedBefore, hst]
  simp only [State.recheck, h, hblocked, Bool.false_eq_true, if_false]

/-- A fill without an answer stays outstanding (18 R420). -/
theorem deliverFill_lost {s : State} {t : Thread} {k : Nat} {f : Fill} (hf : t.fills[k]? = some f) (hl : f.req.any s.reqLost = true) :
    s.deliverFill t k = s := by
  simp only [State.deliverFill, bindUpTo_fill hf, hl, Bool.true_or, if_true]

/-- A bound fill that met no fault reaches its registers and its flags (02 R34, 07 R152). -/
theorem deliverFill_bound {s : State} {t : Thread} {k : Nat} {f : Fill} (hf : t.fills[k]? = some f) (hl : f.req.any s.reqLost = false)
    (hsrc : f.src = none) (hbad : f.bad = none) :
    let u := s.bindUpTo t k
    let v := (f.regs.foldl (fun t x => t.wr x.1 x.2) ({ u.dropFill k s.tick with saw := s.sawWith u [f] } : Thread)).noted
      (f.regs.map (16 + ·.1))
    s.deliverFill t k = ((s.clearMarks u f.regs).put { v with fpf := v.fpf ||| f.flags }).recheck u.id := by
  have hbind : s.bindFill (s.bindUpTo t k) f = f := by simp only [State.bindFill, hsrc]
  simp only [State.deliverFill, bindUpTo_fill hf, hl, hbind, hbad, hsrc, Option.any_none, Bool.or_self, Bool.false_eq_true, if_false]

theorem exec_registerFill (s : State) (i : Tid) (k : Nat) : exec (.registerFill i k) s = execRegisterFill i k s := rfl

/-- The k-th fill of a live thread, and past its fills the requests that threads of its name have left (02 R34). -/
theorem registerFill_of_find {s : State} {i : Tid} {t : Thread} (h : s.find i = some t) (k : Nat) :
    exec (.registerFill i k) s = .next (if k < t.fills.length then s.deliverFill t k else s.orphanFill i (k - t.fills.length)) := by
  simp only [exec_registerFill, execRegisterFill, h, event]

theorem registerFill_lost {s : State} {i : Tid} {t : Thread} {k : Nat} {f : Fill} (h : s.find i = some t) (hf : t.fills[k]? = some f)
    (hl : f.req.any s.reqLost = true) : exec (.registerFill i k) s = .next s := by
  rw [registerFill_of_find h, if_pos (List.getElem?_eq_some_iff.1 hf).1, deliverFill_lost hf hl]

/-- A fill of a RESIDENT thread changes nothing but the marks of its registers and the thread. -/
theorem registerFill_bound {s : State} {i : Tid} {t : Thread} {k : Nat} {f : Fill} (h : s.find i = some t) (hf : t.fills[k]? = some f)
    (hl : f.req.any s.reqLost = false) (hsrc : f.src = none) (hbad : f.bad = none) (hst : t.st = .resident) :
    let u := s.bindUpTo t k
    let v := (f.regs.foldl (fun t x => t.wr x.1 x.2) ({ u.dropFill k s.tick with saw := s.sawWith u [f] } : Thread)).noted
      (f.regs.map (16 + ·.1))
    exec (.registerFill i k) s = .next ((s.clearMarks u f.regs).put { v with fpf := v.fpf ||| f.flags }) := by
  intro u v
  obtain rfl := find_id h
  have hid : v.id = t.id := by simp [v, u, State.bindUpTo]
  have hres : v.st = .resident := by simp [v, u, State.bindUpTo, hst]
  have hput := (put_spec (u := { v with fpf := v.fpf ||| f.flags }) ((Quiet.refl s).clearMarks u f.regs).find h hid).1
  rw [registerFill_of_find h, if_pos (List.getElem?_eq_some_iff.1 hf).1, deliverFill_bound hf hl hsrc hbad]
  exact congrArg _ (recheck_of_resident hput hres)

theorem registerFill_none {s : State} {i : Tid} {t : Thread} {k : Nat} (h : s.find i = some t) (hf : t.fills[k]? = none)
    (ho : s.orphans = []) : exec (.registerFill i k) s = .next s := by
  rw [registerFill_of_find h, if_neg (Nat.not_lt.2 (List.getElem?_eq_none_iff.1 hf))]
  simp only [State.orphanFill, ho, List.filter_nil, List.getElem?_nil]

/-- The reply to a request of a thread that is DONE is discarded (02 R34). -/
theorem registerFill_orphan {s : State} {i : Tid} {t : Thread} {k : Nat} {o : Rec × Req} (h : s.find i = some t) (hf : t.fills = [])
    (ho : (s.orphans.filter (fun x => x.1.tid == some i))[k]? = some o) (hl : s.reqLost o.2 = false) :
    exec (.registerFill i k) s = .next { s with orphans := s.orphans.erase o } := by
  rw [registerFill_of_find h, hf, List.length_nil, if_neg (Nat.not_lt_zero k), Nat.sub_zero]
  simp only [State.orphanFill, ho, hl, Bool.false_eq_true, if_false]

/-! Lines of a frame (02 R32, R50). -/

theorem cacheRoom_of_room {s : State} {core : Nat} (h : (s.cachedLines core).length < 2048) : s.cacheRoom core = s := by
  simp only [State.cacheRoom, h, if_true]

theorem exec_registerLineArrival (s : State) (i : Tid) : exec (.registerLineArrival i) s = execRegisterLineArrival i s := rfl

theorem registerLineArrival_room {s : State} {i : Tid} {t : Thread} {n : Nat} {l : List Nat} (h : s.find i = some t)
    (hst : t.st = .blocked .line) (hroom : (s.cachedLines t.core).length < 2048) (hwaits : s.frameWaits (dieOf t.core) i = false)
    (hplaces : s.framePlaces (dieOf t.core) i [n] = .ok l) (hline : s.missingLine t = some n) (hpoison : s.framePoison t n = none) :
    exec (.registerLineArrival i) s = .next (s.put { t with st := .resident, linesIn := t.linesIn ++ [n] }) := by
  obtain rfl := find_id h
  simp only [exec_registerLineArrival, execRegisterLineArrival, event, h, hst, hwaits, hline, Option.toList_some, hplaces, hpoison,
    cacheRoom_of_room hroom, again_of_find h, and_self, if_true]

theorem registerLineArrival_waits {s : State} {i : Tid} {t : Thread} (h : s.find i = some t)
    (hno : t.st ≠ .blocked .line ∨ s.frameWaits (dieOf t.core) i = true) : exec (.registerLineArrival i) s = .next s := by
  obtain rfl := find_id h
  have hcond : ¬ (t.st = .blocked .line ∧ s.frameWaits (dieOf t.core) t.id = false) := by
    rintro ⟨hst, hwaits⟩
    obtain hno | hno := hno
    · exact hno hst
    · rw [hwaits] at hno; cases hno
  simp only [exec_registerLineArrival, execRegisterLineArrival, event, h, if_neg hcond]

theorem exec_controlLineArrival (s : State) (i : Tid) : exec (.controlLineArrival i) s = execControlLineArrival i s := rfl

theorem ctlArrives_room {s : State} {t : Thread} {l : List Nat} (h : s.find t.id = some t) (hroom : (s.cachedLines t.core).length < 2048)
    (hplaced : t.placed = some l) (hpoison : s.framePoison t 0 = none) : s.ctlArrives t = s.put { t with ctl := true } := by
  simp only [State.ctlArrives, State.ensureFrame, hplaced, again_of_find h, hpoison, cacheRoom_of_room hroom]

theorem controlLineArrival_room {s : State} {i : Tid} {t : Thread} {l : List Nat} (h : s.find i = some t) (hslot : t.slot.isSome = true)
    (hctl : t.ctl = false) (hroom : (s.cachedLines t.core).length < 2048) (hwaits : s.frameWaits (dieOf t.core) i = false)
    (hplaced : t.placed = some l) (hpoison : s.framePoison t 0 = none) :
    exec (.controlLineArrival i) s = .next (s.put { t with ctl := true }) := by
  obtain rfl := find_id h
  simp only [exec_controlLineArrival, execControlLineArrival, event, h, Thread.holdsSlot, hslot, hctl, hwaits, Bool.not_false, Bool.and_self,
    if_true, ctlArrives_room h hroom hplaced hpoison]

theorem controlLineArrival_waits {s : State} {i : Tid} {t : Thread} (h : s.find i = some t)
    (hno : t.slot = none ∨ t.ctl = true ∨ s.frameWaits (dieOf t.core) i = true) : exec (.controlLineArrival i) s = .next s := by
  obtain rfl := find_id h
  have hcond : (t.holdsSlot && !t.ctl && !s.frameWaits (dieOf t.core) t.id) = false := by
    obtain hno | hno | hno := hno <;> simp [Thread.holdsSlot, hno]
  simp only [exec_controlLineArrival, execControlLineArrival, event, h, hcond, Bool.false_eq_true, if_false]

/-! Ends of walks (13 R290, R298, R307). -/

theorem leafBytes_pos (e : Word) : 0 < Leaf.bytes e := by
  unfold Leaf.bytes; split <;> decide

/-- The translation that a walk gives serves the address it was made for. -/
theorem fresh_maps (f : Fresh) : f.ent.maps f.tid.sdom f.va = true := by
  have hpos : f.va % Leaf.bytes (markedLeaf f.leaf f.write) < Leaf.bytes (markedLeaf f.leaf f.write) := Nat.mod_lt _ (leafBytes_pos _)
  have hle := Nat.mod_le f.va (Leaf.bytes (markedLeaf f.leaf f.write))
  refine Bool.and_eq_true_iff.2 ⟨Bool.and_eq_true_iff.2 ⟨beq_self_eq_true _, decide_eq_true ?_⟩, decide_eq_true ?_⟩
  · exact Nat.sub_le ..
  · change f.va < f.va - f.va % Leaf.bytes (markedLeaf f.leaf f.write) + Leaf.bytes (markedLeaf f.leaf f.write)
    omega

/-- A translation that the TLB holds is found. -/
theorem tlbFind_of_mem {s : State} {core sdom va : Nat} {e : TlbEnt} (he : e ∈ (s.core core).tlb) (hm : e.maps sdom va = true) :
    ∃ x, s.tlbFind core sdom va = some x := by
  unfold State.tlbFind
  split
  · exact ⟨_, rfl⟩
  · exact Option.isSome_iff_exists.1 (List.find?_isSome.2 ⟨e, he, hm⟩)

/-- A walk that is used enters the TLB. -/
theorem mem_useFresh_tlb (s : State) (core : Nat) (f : Fresh) : f.ent ∈ ((s.useFresh core f).core core).tlb := by
  unfold State.useFresh State.tlbAdd
  rw [core_setCore, if_pos rfl]
  exact List.mem_cons_self

theorem exec_walkEnd (s : State) (i : Tid) : exec (.walkEnd i) s = execWalkEnd i s := rfl

/-- The end of the walk of a thread that stands BLOCKED EMPTY for it. -/
theorem walkEnd_of_walk {s : State} {i : Tid} {t : Thread} {w : WalkReq} (h : s.find i = some t) (hw : t.walk = some w)
    (hst : t.st = .blocked .empty) : exec (.walkEnd i) s = .next (s.endWalk t w) := by
  simp only [exec_walkEnd, execWalkEnd, event, h, hw, hst, if_true]

section
variable {s : State} {t : Thread} {w : WalkReq}

theorem endWalk_error {e : Flt} (hwaits : s.walkWaits (dieOf t.core) t.id.sdom w.va = false)
    (hwalk : s.walk (dieOf t.core) t.id.sdom w.va w.kind w.write = .error e) :
    s.endWalk t w = s.parkWhenFree t { e with fetch := w.fetch } false (if w.fetch then 0 else s.peekWord t) := by
  simp only [State.endWalk, hwaits, hwalk, Bool.false_eq_true, if_false]

theorem endWalk_leafFault {x : Walked} {e : Flt} (hwaits : s.walkWaits (dieOf t.core) t.id.sdom w.va = false)
    (hwalk : s.walk (dieOf t.core) t.id.sdom w.va w.kind w.write = .ok x) (hleaf : s.leafFault t w x.leaf = some e) :
    s.endWalk t w = s.parkWhenFree t e false (if w.fetch then 0 else s.peekWord t) := by
  simp only [State.endWalk, hwaits, hwalk, hleaf, Bool.false_eq_true, if_false]

/-- What a walk that has ended keeps for its thread: the leaf it found. -/
def walkFresh (t : Thread) (w : WalkReq) (x : Walked) : Fresh :=
  { tid := t.id, va := w.va, write := w.write, leaf := x.leaf, entryPa := x.entryPa, path := x.path }

/-- A walk for a fetch that finds a usable leaf is used at once. -/
theorem endWalk_fetch {x : Walked} (h : s.find t.id = some t) (hwaits : s.walkWaits (dieOf t.core) t.id.sdom w.va = false)
    (hwalk : s.walk (dieOf t.core) t.id.sdom w.va w.kind w.write = .ok x) (hleaf : s.leafFault t w x.leaf = none) (hf : w.fetch = true) :
    s.endWalk t w = (s.useFresh t.core (walkFresh t w x)).put { t with walk := none, st := .resident } := by
  have hagain : (s.useFresh t.core (walkFresh t w x)).again t = t :=
    again_of_find ((find_of_threads (useFresh_threads ..) _).trans h)
  simp only [State.endWalk, hwaits, hwalk, hleaf, hf, Bool.false_eq_true, if_false, if_true]
  rw [← walkFresh, hagain]

/-- A walk for an access that finds a usable leaf waits for its instruction. -/
theorem endWalk_access {x : Walked} (h : s.find t.id = some t) (hwaits : s.walkWaits (dieOf t.core) t.id.sdom w.va = false)
    (hwalk : s.walk (dieOf t.core) t.id.sdom w.va w.kind w.write = .ok x) (hleaf : s.leafFault t w x.leaf = none) (hf : w.fetch = false) :
    s.endWalk t w = (s.setCore t.core { s.core t.core with fresh := walkFresh t w x :: (s.core t.core).fresh }).put
      { t with walk := none, st := .resident } := by
  have hagain : (s.setCore t.core { s.core t.core with fresh := walkFresh t w x :: (s.core t.core).fresh }).again t = t :=
    again_of_find ((find_of_threads rfl _).trans h)
  simp only [State.endWalk, hwaits, hwalk, hleaf, hf, Bool.false_eq_true, if_false]
  rw [← walkFresh, hagain]

end

/-- 13 R290, R298, R307: a walk that finds a usable leaf releases its thread; the translation of a fetch is in the TLB, another is kept
for the thread's instruction. -/
theorem walkEnd_released {s : State} {i : Tid} {t : Thread} {w : WalkReq} {x : Walked} (h : s.find i = some t) (hw : t.walk = some w)
    (hst : t.st = .blocked .empty) (hwaits : s.walkWaits (dieOf t.core) i.sdom w.va = false)
    (hwalk : s.walk (dieOf t.core) i.sdom w.va w.kind w.write = .ok x) (hleaf : s.leafFault t w x.leaf = none) :
    ∃ s', exec (.walkEnd i) s = .next s' ∧ s'.find i = some { t with walk := none, st := .resident } ∧
      OthersSame s s' i ∧ (w.fetch = true → ∃ e, s'.tlbFind t.core i.sdom w.va = some e) ∧
      (w.fetch = false → ∃ f ∈ (s'.core t.core).fresh, f.tid = t.id ∧ f.va = w.va ∧ f.write = w.write ∧ f.leaf = x.leaf) := by
  obtain rfl := find_id h
  rw [walkEnd_of_walk h hw hst]
  cases hf : w.fetch with
  | true =>
    rw [endWalk_fetch h hwaits hwalk hleaf hf]
    obtain ⟨hown, hothers⟩ := put_spec (u := { t with walk := none, st := .resident })
      (find_of_threads (useFresh_threads s t.core (walkFresh t w x))) h rfl
    exact ⟨_, rfl, hown, hothers, fun _ => tlbFind_of_mem (mem_useFresh_tlb ..) (fresh_maps (walkFresh t w x)), nofun⟩
  | false =>
    rw [endWalk_access h hwaits hwalk hleaf hf]
    obtain ⟨hown, hothers⟩ := put_spec (u := { t with walk := none, st := .resident })
      (find_of_threads (s' := s.setCore t.core { s.core t.core with fresh := walkFresh t w x :: (s.core t.core).fresh }) rfl) h rfl
    refine ⟨_, rfl, hown, hothers, nofun, fun _ => ⟨walkFresh t w x, ?_, rfl, rfl, rfl, rfl⟩⟩
    change _ ∈ (State.core (s.setCore ..) t.core).fresh
    rw [core_setCore, if_pos rfl]
    exact List.mem_cons_self

theorem exec_priorityAging (s : State) (i : Tid) : exec (.priorityAging i) s = execPriorityAging i s := rfl

theorem priorityAging_ready {s : State} {i : Tid} {t : Thread} (h : s.find i = some t) (hst : t.st = .ready) :
    exec (.priorityAging i) s = .next (s.put { t with aged := (s.tick - t.readySince) / 50000 }) := by
  simp only [exec_priorityAging, execPriorityAging, event, h, hst, if_true]

end Sys2Proof.Proofs

/-! PROOF. Pre-emption of a thread whose stores have drained (18 R417; 12 R269). -/
namespace Sys2Proof.Proofs
open Sys2Proof.Machine Sys2Proof.Laws

theorem find_put_self {s : State} {t : Thread} (h : s.find t.id = some t) (j : Tid) : (s.put t).find j = s.find j := by
  by_cases hj : j = t.id
  · rw [hj, find_put (by rw [h]; rfl), h]
  · exact find_put_ne hj

/-- With no store of the thread buffered and none of its die before its global point, draining changes nothing. -/
theorem drainAll_of_drained {s : State} {t : Thread} (h : s.drained t) : s.drainAll t = s.put t := by
  obtain ⟨hstores, hearly⟩ := h
  have hnone : s.early.filter (fun x => dieOf x.core == dieOf t.core) = [] :=
    List.filter_eq_nil_iff.2 fun x hx => by simpa using hearly x hx
  simp only [State.drainAll, hstores, List.length_nil, Nat.mul_zero, upto, List.foldl_nil, State.landDie, State.landEarlyWhere, put_early,
    hnone, List.isEmpty_nil, if_true]

theorem drained_of_early {s s' : State} {t : Thread} (h : s.drained t) (he : s'.early = s.early) : s'.drained t := ⟨h.1, he ▸ h.2⟩

theorem vacate_of_drained {s : State} {t : Thread} (h : s.find t.id = some t) (hd : s.drained t) :
    s.vacate t = (s.put t).releaseSlot t := by
  simp only [State.vacate, drainAll_of_drained hd, find_put_self h, h, Option.getD_some]

/-- A thread that has left its slot at a tick, and is READY (02 R32, 18 R417). -/
def leftSlot (t : Thread) (tick : Nat) : Thread :=
  { t with slot := none, ctl := false, linesIn := [], age := 0, claim := none, st := .ready, readySince := tick, aged := 0
           preempt := false, walk := none }

theorem toReady_of_drained {s : State} {t : Thread} (h : s.find t.id = some t) (hd : s.drained t) :
    s.toReady t = ((s.put t).releaseSlot t).1.put (leftSlot t s.tick) := by
  simp only [State.toReady, vacate_of_drained h hd, releaseSlot_thread, leftSlot]

/-- The eviction of a RESIDENT thread whose stores have drained moves it out of its slot, and no other thread. -/
theorem evict_of_drained {s : State} {t : Thread} (h : s.find t.id = some t) (hst : t.st = .resident) (hd : s.drained t) :
    (s.evict t).find t.id = some (leftSlot t s.tick) ∧ OthersSame s (s.evict t) t.id := by
  have hq : Quiet s ((s.chainChecked t).tally t.core (some t.id.sdom) 0x09 1) := ((Quiet.refl s).chainChecked t).tally ..
  have hevict : s.evict t = (((s.chainChecked t).tally t.core (some t.id.sdom) 0x09 1).put t).toReady t := by
    simp only [State.evict, drainAll_of_drained (drained_of_early hd hq.early), again_of_find ((find_put_self ((hq.find _).trans h) _).trans
      ((hq.find _).trans h)), hst]
  generalize (s.chainChecked t).tally t.core (some t.id.sdom) 0x09 1 = q at hq hevict
  have hput : ∀ j, (q.put t).find j = s.find j := fun j => (find_put_self ((hq.find _).trans h) j).trans (hq.find j)
  have hrelease : ∀ j, (((q.put t).put t).releaseSlot t).1.find j = s.find j := fun j =>
    (((Quiet.refl _).releaseSlot t).find j).trans ((find_put_self ((hput _).trans h) j).trans (hput j))
  rw [hevict, toReady_of_drained ((hput _).trans h) (drained_of_early hd hq.early), put_tick, hq.tick]
  exact put_spec hrelease h rfl

theorem exec_preemption (s : State) (i : Tid) : exec (.preemption i) s = execPreemption i s := rfl

/-- A thread that must leave its slot and may leaves it, and is READY. -/
theorem preemption_leaves {s : State} {i : Tid} {t : Thread} (h : s.find i = some t) (hmust : s.mustLeave t = true)
    (hmay : s.mayLeave t = true) (hgang : t.gang = none) (hst : t.st = .resident) (hd : s.drained t) :
    ∃ s', exec (.preemption i) s = .next s' ∧ OthersSame s s' i ∧ s'.find i = some (leftSlot t s.tick) := by
  obtain rfl := find_id h
  obtain ⟨hown, hothers⟩ := evict_of_drained h hst hd
  refine ⟨s.evict t, ?_, hothers, hown⟩
  simp only [exec_preemption, execPreemption, event, h, hmust, hmay, hgang, Bool.and_self, if_true, Option.isSome_none, Bool.false_eq_true,
    if_false, again_of_find h]

theorem preemption_stays {s : State} {i : Tid} {t : Thread} (h : s.find i = some t)
    (hno : s.mustLeave t = false ∨ s.mayLeave t = false) : exec (.preemption i) s = .next s := by
  have hcond : (s.mustLeave t && s.mayLeave t) = false := Bool.and_eq_false_iff.2 hno
  simp only [exec_preemption, execPreemption, event, h, hcond, Bool.false_eq_true, if_false]

end Sys2Proof.Proofs

/-! PROOF. The activation of the one candidate of an idle core (02 R32, R47, R48). -/
namespace Sys2Proof.Proofs
open Sys2Proof.Machine Sys2Proof.Laws

/-- The thread of name i is all that stands on a core to be activated: it is READY there, nothing holds a slot of the core, and the package
has no gang and no poisoned word. The clock stands at n. -/
structure LoneReady (core : Nat) (i : Tid) (n : Nat) (s : State) : Prop where
  residents : ∀ v ∈ s.threads, v.core = core → v.slot = none
  gangs : s.gangs = []
  gangless : ∀ v ∈ s.threads, v.gang = none
  poison : s.poison = []
  tick : s.tick = n
  ready : ∃ u ∈ s.threads, s.find i = some u ∧ u.core = core ∧ u.st = .ready
  only : ∀ u ∈ s.threads, u.core = core → u.st = .ready → s.find i = some u

theorem mem_readyOf {s : State} {core : Nat} {u : Thread} :
    u ∈ s.readyOf core ↔ u ∈ s.threads ∧ u.core = core ∧ u.st = .ready ∧ u.gang = none := by
  simp [State.readyOf, List.mem_filter, and_assoc]

theorem mem_residentsOf {s : State} {core : Nat} {u : Thread} :
    u ∈ s.residentsOf core ↔ u ∈ s.threads ∧ u.core = core ∧ u.slot ≠ none := by
  simp [State.residentsOf, List.mem_filter, Thread.holdsSlot, Option.isSome_iff_ne_none]

/-- A thread of the list after a replacement is the new value, or another thread as it was. -/
theorem mem_put_threads {s : State} {t v : Thread} (hv : v ∈ (s.put t).threads) : v = t ∨ v ∈ s.threads ∧ v.id ≠ t.id := by
  obtain ⟨u, hu, rfl⟩ := List.mem_map.1 hv
  split
  next => exact .inl rfl
  next hne => exact .inr ⟨hu, hne⟩

theorem mem_of_find {s : State} {i : Tid} {t : Thread} (h : s.find i = some t) : t ∈ s.threads := List.mem_of_find?_eq_some h

/-- The two threads stand alike for the activation: under one name, on one core, in one state, with one slot and one gang. -/
structure SameStand (t u : Thread) : Prop where
  id : u.id = t.id
  core : u.core = t.core
  st : u.st = t.st
  slot : u.slot = t.slot
  gang : u.gang = t.gang

namespace LoneReady
variable {core n : Nat} {i : Tid} {s s' : State}

theorem of_quiet (h : LoneReady core i n s) (hq : Quiet s s') : LoneReady core i n s' where
  residents := hq.threads ▸ h.residents
  gangs := hq.gangs h.gangs
  gangless := hq.threads ▸ h.gangless
  poison := hq.poison h.poison
  tick := hq.tick.trans h.tick
  ready := by rw [hq.threads, hq.find]; exact h.ready
  only := by rw [hq.threads, hq.find]; exact h.only

/-- Replacing a live thread by one that stands alike. -/
theorem put {t u : Thread} (h : LoneReady core i n s) (ht : s.find t.id = some t) (hu : SameStand t u) : LoneReady core i n (s.put u) := by
  have hmem := mem_of_find ht
  have hnew : (s.put u).find u.id = some u := find_put (by rw [hu.id, ht]; rfl)
  refine ⟨fun v hv => ?_, h.gangs, fun v hv => ?_, h.poison, h.tick, ?_, fun v hv hcore hst => ?_⟩
  · obtain rfl | ⟨hv, -⟩ := mem_put_threads hv
    · rw [hu.core, hu.slot]; exact h.residents t hmem
    · exact h.residents v hv
  · obtain rfl | ⟨hv, -⟩ := mem_put_threads hv
    · rw [hu.gang]; exact h.gangless t hmem
    · exact h.gangless v hv
  · obtain ⟨w, hw, hfind, hcore, hst⟩ := h.ready
    by_cases hi : i = u.id
    · rw [hi, hu.id, ht] at hfind
      obtain rfl := Option.some.inj hfind
      exact ⟨u, mem_of_find hnew, hi ▸ hnew, hu.core.trans hcore, hu.st.trans hst⟩
    · have hfind' := (find_put_ne hi).trans hfind
      exact ⟨w, mem_of_find hfind', hfind', hcore, hst⟩
  · obtain rfl | ⟨hv, hne⟩ := mem_put_threads hv
    · have hi := find_id (h.only t hmem (hu.core ▸ hcore) (hu.st ▸ hst))
      rw [← hi, ← hu.id]; exact hnew
    · have hfind := h.only v hv hcore hst
      rw [find_put_ne (find_id hfind ▸ hne)]; exact hfind

end LoneReady

theorem refreshPrio_stands (s : State) (t : Thread) (path : List (Nat × Rcb)) : SameStand t (s.refreshPrio t path) := by
  unfold State.refreshPrio
  dsimp only
  split
  · exact ⟨rfl, rfl, rfl, rfl, rfl⟩
  · exact ⟨rfl, rfl, rfl, rfl, rfl⟩

/-- Replacing a thread under a name that is not live changes nothing. -/
theorem put_of_find_none {s : State} {t : Thread} (h : s.find t.id = none) : s.put t = s := by
  have hmap : s.threads.map (fun u => if u.id = t.id then t else u) = s.threads.map id :=
    List.map_congr_left fun u hu => if_neg fun hid => by simpa [hid] using List.find?_eq_none.1 h u hu
  rw [State.put, hmap, List.map_id]

/-- Refreshing the base priority of one thread of a core. -/
theorem LoneReady.put_refreshPrio {core n : Nat} {i : Tid} {s : State} (h : LoneReady core i n s) (t : Thread) (path : List (Nat × Rcb)) :
    LoneReady core i n (s.put (s.refreshPrio (s.again t) path)) := by
  have hstands := refreshPrio_stands s (s.again t) path
  cases ht : s.find t.id with
  | some u =>
    have hu : s.again t = u := by rw [State.again, ht, Option.getD_some]
    rw [hu] at hstands ⊢
    exact h.put (by rw [find_id ht]; exact ht) hstands
  | none =>
    have hself : s.again t = t := by rw [State.again, ht, Option.getD_none]
    rw [hself] at hstands ⊢
    rw [put_of_find_none (by rw [hstands.id]; exact ht)]
    exact h

theorem Quiet.noteGangReach {s s1 : State} (h : Quiet s s1) (s0 : State) : Quiet s (s1.noteGangReach s0) :=
  h.trans ⟨rfl, rfl, rfl, rfl, fun e => by simp only [State.noteGangReach, e, List.map_nil], id, fun _ => rfl⟩

/-- A decision refreshes the base priorities of a core's threads (02 R43, R45), and who stands to be activated stays the same. -/
theorem LoneReady.refreshCore {core n : Nat} {i : Tid} {s : State} (h : LoneReady core i n s) (c : Nat) :
    LoneReady core i n (s.refreshCore c) := by
  unfold State.refreshCore
  refine of_quiet ?_ ((Quiet.refl _).noteGangReach s)
  generalize s.threads.filter (fun t => t.core == c) = l
  induction l generalizing s with
  | nil => exact h
  | cons t l ih =>
    refine ih ?_
    have hread : LoneReady core i n (s.chainRead (dieOf c) t.home t.region) := h.of_quiet ((Quiet.refl s).touchPath ..)
    dsimp only
    split
    · exact hread.put_refreshPrio t _
    · exact hread

/-! The survey of a core's candidates. -/

theorem regionView_of_slotView {s : State} {t : Thread} (h : s.slotView t = .ok) :
    ∃ path, s.regionView (dieOf t.core) t.home t.region = .ok path := by
  unfold State.slotView at h
  split at h
  next path hpath => exact ⟨path, hpath⟩
  next => cases h

theorem frameWaits_of_slotView {s : State} {t : Thread} (h : s.slotView t = .ok) : s.frameWaits (dieOf t.core) t.id = false := by
  unfold State.slotView at h
  split at h
  · split at h
    next => cases h
    next hcond => exact (Bool.or_eq_false_iff.1 (Bool.not_eq_true _ ▸ hcond)).1
  · cases h

/-- A list of changes each of which takes its item over into the middle component. -/
theorem foldl_collects {σ α β : Type} {f : σ × List α × β → α → σ × List α × β} {s : σ} {r : β} {l : List α}
    (h : ∀ a ∈ l, ∀ acc, f (s, acc, r) a = (s, acc ++ [a], r)) (acc : List α) : l.foldl f (s, acc, r) = (s, acc ++ l, r) := by
  induction l generalizing acc with
  | nil => rw [List.append_nil]; rfl
  | cons a l ih =>
    rw [List.foldl_cons, h a List.mem_cons_self, ih fun b hb => h b (List.mem_cons_of_mem a hb), List.append_assoc, List.singleton_append]

/-- Candidates that may all take a slot: the survey finds no region fault and refuses none. -/
theorem surveyReady_of_ok {s : State} {core : Nat} (h : ∀ t ∈ s.readyOf core, s.slotView t = .ok) :
    s.surveyReady core = (s, s.readyOf core, []) := by
  refine foldl_collects (fun t ht acc => ?_) []
  obtain ⟨path, hview⟩ := regionView_of_slotView (h t ht)
  rw [(mem_readyOf.1 ht).2.1] at hview
  simp only [hview, h t ht]

theorem firstOf_mem (s : State) {l : List Thread} (h : l ≠ []) : ∃ u ∈ l, s.firstOf l = some u := by
  induction l with
  | nil => exact absurd rfl h
  | cons t l ih =>
    unfold State.firstOf
    split
    next => exact ⟨t, List.mem_cons_self, rfl⟩
    next u hu =>
      obtain ⟨v, hv, hfirst⟩ := ih fun hnil => by simp [hnil, State.firstOf] at hu
      obtain rfl := Option.some.inj (hu.symm.trans hfirst)
      split
      · exact ⟨t, List.mem_cons_self, rfl⟩
      · exact ⟨u, List.mem_cons_of_mem t hv, rfl⟩

/-- Rule 1 of R48 on a core without residents. -/
theorem freeSlot_of_no_residents {s : State} {core : Nat} (h : s.residentsOf core = []) : s.freeSlot core = some (0, 0) := by
  have hphase : leastBy (fun _ : Nat => (0 : Nat)) (upto 0 16) = some 0 := by decide
  unfold State.freeSlot
  rw [h]
  dsimp only [List.filterMap_nil, List.filter_nil, List.length_nil]
  rw [hphase]
  rfl

/-- The thread that has just taken a slot, at a tick (02 R32, R50): its lines are still to come. -/
def seated (t : Thread) (slot : Nat × Nat) (tick : Nat) : Thread :=
  { t with st := .resident, slot := some slot, ctl := false, linesIn := [], age := 0, slotSince := tick, aged := 0, preempt := false }

theorem framePoison_of_none {s : State} (h : s.poison = []) (t : Thread) (k : Nat) : s.framePoison t k = none := by
  unfold State.framePoison
  split
  · rfl
  · simp [State.poisonedIn, h]

/-- A thread whose frame is placed and needs no fetch takes the slot it is given, and only the counts of its region move besides. -/
theorem activate_places {s : State} {t : Thread} {l : List Nat} (h : s.find t.id = some t) (hpoison : s.poison = [])
    (hwaits : s.frameWaits (dieOf t.core) t.id = false) (hplaces : s.framePlaces (dieOf t.core) t.id t.lineList = .ok l)
    (hstale : s.frameInvalidated t = false) (hplaced : t.placed.isSome = true) (slot : Nat × Nat) :
    ∃ q, Quiet s q ∧ Quiet (q.put (seated t slot s.tick)) (s.activate t slot) := by
  have hq := (Quiet.refl s).touch (dieOf t.core) t.id.sdom (frameAddr t.id.handle) false
  refine ⟨_, hq, ?_⟩
  have hdrop : s.dropStale t = s := by simp only [State.dropStale, hstale, Bool.false_eq_true, if_false]
  have hensure : s.ensureFrame t = .ok s := by
    obtain ⟨p, hp⟩ := Option.isSome_iff_exists.1 hplaced
    simp only [State.ensureFrame, hp]
  simp only [State.activate, hwaits, hplaces, hdrop, again_of_find h, hensure, hq.again, framePoison_of_none (hq.poison hpoison),
    Bool.false_eq_true, if_false]
  exact ((Quiet.refl _).chargeSlot _).tally ..

theorem gangRegionFaults_of_no_gangs {s : State} (h : ∀ t ∈ s.threads, t.gang = none) (core : Nat) : s.gangRegionFaults core = s := by
  have hnone : s.threads.filter (fun t => t.core == core && (t.gang.bind s.gang).any (fun g => g.asks s)) = [] :=
    List.filter_eq_nil_iff.2 fun t ht => by simp [h t ht]
  simp only [State.gangRegionFaults, hnone, List.foldl_nil]

theorem gangFirst_of_no_gangs {s : State} (h : s.gangs = []) (core : Nat) (t : Thread) : s.gangFirst core t = false := by
  simp only [State.gangFirst, h, List.any_nil]

theorem budgetDecide_of_no_gangs {s : State} (h : s.gangs = []) (core : Nat) : s.budgetDecide core [] = s := by
  simp only [State.budgetDecide, h, List.filter_nil, List.filterMap_nil, List.append_nil, List.foldl_nil]

/-- The decision for the first of a core's candidates, where no gang comes before it and none is refused (02 R47). -/
theorem activateCore_of_first {s s1 : State} {core : Nat} {ok : List Thread} {t : Thread} (hon : s.coreOn core = true)
    (hsurvey : ((s.refreshCore core).gangRegionFaults core).surveyReady core = (s1, ok, [])) (hfirst : s1.firstOf ok = some t)
    (hgang : s1.gangFirst core t = false) : s.activateCore core = (s1.takeSlot t).budgetDecide core [] := by
  simp only [State.activateCore, hon, hsurvey, hfirst, hgang, Bool.not_true, Bool.false_eq_true, if_false]

/-- Every candidate of the core is its one candidate. -/
theorem LoneReady.eq_of_mem_readyOf {core n : Nat} {i : Tid} {s : State} {u v : Thread} (h : LoneReady core i n s) (hu : s.find i = some u)
    (hv : v ∈ s.readyOf core) : v = u := by
  obtain ⟨hmem, hcore, hst, -⟩ := mem_readyOf.1 hv
  exact Option.some.inj ((h.only v hmem hcore hst).symm.trans hu)

theorem LoneReady.residentsOf_nil {core n : Nat} {i : Tid} {s : State} (h : LoneReady core i n s) : s.residentsOf core = [] := by
  refine List.eq_nil_iff_forall_not_mem.2 fun v hv => ?_
  obtain ⟨hmem, hcore, hslot⟩ := mem_residentsOf.1 hv
  exact hslot (h.residents v hmem hcore)

/-- Its one candidate is the first of the core. -/
theorem LoneReady.firstOf_readyOf {core n : Nat} {i : Tid} {s : State} {u : Thread} (h : LoneReady core i n s) (hu : s.find i = some u) :
    s.firstOf (s.readyOf core) = some u := by
  obtain ⟨w, hw, -, hcore, hst⟩ := h.ready
  obtain ⟨v, hv, hfirst⟩ := firstOf_mem s (List.ne_nil_of_mem (mem_readyOf.2 ⟨hw, hcore, hst, h.gangless w hw⟩))
  rw [hfirst, h.eq_of_mem_readyOf hu hv]

/-- Its one candidate, which may take a slot, gets slot 0 of phase 0 of the core (02 R47, R48). -/
theorem LoneReady.activateCore_seats {core n : Nat} {i : Tid} {s sr : State} {u : Thread} {l : List Nat} (hsr : s.refreshCore core = sr)
    (hon : s.coreOn core = true) (h : LoneReady core i n sr) (hu : sr.find i = some u) (hcore : u.core = core) (hslot : sr.slotView u = .ok)
    (hplaces : sr.framePlaces (dieOf u.core) u.id u.lineList = .ok l) (hstale : sr.frameInvalidated u = false)
    (hplaced : u.placed.isSome = true) :
    ∃ q, Quiet sr q ∧ Quiet (q.put (seated u (0, 0) n)) (s.activateCore core) := by
  have hid : sr.find u.id = some u := by rw [find_id hu]; exact hu
  obtain ⟨q, hq, hact⟩ := activate_places hid h.poison (frameWaits_of_slotView hslot) hplaces hstale hplaced (0, 0)
  have htake : sr.takeSlot u = sr.activate u (0, 0) := by
    unfold State.takeSlot
    rw [hcore, freeSlot_of_no_residents h.residentsOf_nil]
  have hsurvey : ((s.refreshCore core).gangRegionFaults core).surveyReady core = (sr, sr.readyOf core, []) := by
    rw [hsr, gangRegionFaults_of_no_gangs h.gangless, surveyReady_of_ok fun v hv => h.eq_of_mem_readyOf hu hv ▸ hslot]
  have hgangs : (sr.activate u (0, 0)).gangs = [] := hact.gangs (hq.gangs h.gangs)
  rw [activateCore_of_first hon hsurvey (h.firstOf_readyOf hu) (gangFirst_of_no_gangs h.gangs core u), htake,
    budgetDecide_of_no_gangs hgangs]
  exact ⟨q, hq, h.tick ▸ hact⟩

theorem loneReady_of_idle {s : State} {i : Tid} {t : Thread} (h : s.find i = some t) (hready : s.readyOf t.core = [t])
    (hres : s.residentsOf t.core = []) (hgangs : s.gangs = []) (hgangless : ∀ v ∈ s.threads, v.gang = none) (hpoison : s.poison = []) :
    LoneReady t.core i s.tick s where
  residents v hv hcore := by
    by_contra hslot
    exact List.eq_nil_iff_forall_not_mem.1 hres v (mem_residentsOf.2 ⟨hv, hcore, hslot⟩)
  gangs := hgangs
  gangless := hgangless
  poison := hpoison
  tick := rfl
  ready :=
    let ⟨hmem, hcore, hst, _⟩ := mem_readyOf.1 (hready ▸ List.mem_singleton_self t)
    ⟨t, hmem, h, hcore, hst⟩
  only v hv hcore hst := by
    have hvt : v ∈ s.readyOf t.core := mem_readyOf.2 ⟨hv, hcore, hst, hgangless v hv⟩
    rw [hready, List.mem_singleton] at hvt
    rw [hvt, h]

theorem exec_activation (s : State) (core : Nat) : exec (.activation core) s = execActivation core s := rfl

/-- 02 R32, R47, R48: an idle core gives the one thread that stands READY on it slot 0 of phase 0. -/
theorem activation_seats {s : State} {i : Tid} {t : Thread} {l : List Nat} (h : s.find i = some t) :
    let sr := s.refreshCore t.core
    let ur := sr.again t
    s.coreOn t.core = true → s.readyOf t.core = [t] → s.residentsOf t.core = [] → s.gangs = [] → (∀ v ∈ s.threads, v.gang = none) →
    s.poison = [] → sr.slotView ur = .ok → sr.framePlaces (dieOf t.core) i ur.lineList = .ok l → sr.frameInvalidated ur = false →
    ur.placed.isSome = true →
    ∃ s', exec (.activation t.core) s = .next s' ∧ OthersSame sr s' i ∧ s'.find i = some (seated ur (0, 0) s.tick) := by
  intro sr ur hon hready hres hgangs hgangless hpoison hslot hplaces hstale hplaced
  obtain rfl := find_id h
  have hlone : LoneReady t.core t.id s.tick sr := (loneReady_of_idle h hready hres hgangs hgangless hpoison).refreshCore t.core
  obtain ⟨u, -, hu, hcore, -⟩ := hlone.ready
  have hur : ur = u := by simp only [ur, State.again, hu, Option.getD_some]
  have hid : u.id = t.id := find_id hu
  rw [hur] at hslot hplaces hstale hplaced ⊢
  obtain ⟨q, hq, hact⟩ := hlone.activateCore_seats rfl hon hu hcore hslot (by rw [hcore, hid]; exact hplaces) hstale hplaced
  obtain ⟨hown, hothers⟩ := put_spec (t := u) (u := seated u (0, 0) s.tick) hq.find (hid ▸ hu) rfl
  rw [hid] at hown hothers
  exact ⟨s.activateCore t.core, rfl, fun j hj => (hact.find j).trans (hothers j hj), (hact.find _).trans hown⟩

/-- Settles O46: each clause by the lemma about its step; a phase's turn first, then what releases, activates, evicts and ages a thread. -/
theorem threadAndPhaseSteps : Obligations.ThreadAndPhaseSteps := by
  unfold Obligations.ThreadAndPhaseSteps
  refine ⟨fun s c => ⟨phaseTurn_issues_one_pc s c, phaseTurn_idle, fun hstage hhalt hissue hnone hon =>
    ⟨_, phaseTurn_turns hstage hhalt hissue hon, turn_of_no_threads hnone c⟩⟩, ?_⟩
  intro s i t f k n l w x e die room left sr ur h
  refine ⟨fun hf => ⟨registerFill_lost h hf, registerFill_bound h hf⟩, registerFill_none h, fun o => registerFill_orphan h,
    registerLineArrival_room h, registerLineArrival_waits h, controlLineArrival_room h, controlLineArrival_waits h,
    fun hw hst hwaits => ?_, priorityAging_ready h, preemption_leaves h, preemption_stays h, activation_seats h⟩
  obtain rfl := find_id h
  refine ⟨fun herr => ?_, fun hwalk => ⟨fun hleaf => ?_, walkEnd_released h hw hst hwaits hwalk⟩⟩
  · rw [walkEnd_of_walk h hw hst, endWalk_error hwaits herr]
  · rw [walkEnd_of_walk h hw hst, endWalk_leafFault hwaits hwalk hleaf]

end Sys2Proof.Proofs

/-! PROOF. The outcomes that come before an instruction's own effect, in the order of 18 R410: what the gate of an instruction word
answers at each of its checks, and that the word's execution ends with that answer (02 R32; 03 R64; 05 R117; 06 R140; 08 R186). -/
namespace Sys2Proof.Proofs
open Sys2Proof.Machine Sys2Proof.Laws

/-- An instruction word whose gate answers an outcome ends with it, whatever the instruction's own effect is. -/
theorem exec_of_gate_error {s : State} {t : Thread} {i : Instr} {e : Stop} (ht : s.cur.bind s.find = some t)
    (hword : isWord i = true) (he : s.gate t i = .error e) : exec i s = .next (s.stopped t i e) := by
  obtain ⟨-, k, hk⟩ | ⟨hstep, -⟩ := exec_word_or_step i s
  · rw [hk]
    simp only [word, ht, he]
  · rw [hword] at hstep
    cases hstep

section Gate
variable {s : State} {t : Thread} {i : Instr}

/-- 05 R111: no named register lies beyond the count. -/
theorem find_beyond_count_eq_none (h : ∀ m ∈ namedRegs i, m < t.count) :
    (namedRegs i).find? (fun m => decide (t.count ≤ m)) = none := by
  simpa using h

/-- 02 R32: the line of every named register is in. -/
theorem any_line_absent_eq_false (h : ∀ m ∈ namedRegs i, m = 0 ∨ lineOf m ∈ t.linesIn) :
    (namedRegs i).any (fun m => m != 0 && !t.linesIn.contains (lineOf m)) = false := by
  simpa [or_iff_not_imp_left] using h

/-- 20 R456: the word of a feature whose enable bit is clear is illegal. -/
theorem gate_of_feature_off (h : featureOk s.featen i = false) : s.gate t i = failWith .illegal 0 := by
  simp [State.gate, h]

variable (hfeature : featureOk s.featen i = true)
include hfeature

/-- 03 R64: the first named register beyond the thread's count. -/
theorem gate_of_register_beyond_count {n : Nat} (h : (namedRegs i).find? (fun m => decide (t.count ≤ m)) = some n) :
    s.gate t i = .error (.fault { cause := .registerRange, addr := 0, kind := .none, detail := n, fetch := false }) := by
  simp [State.gate, hfeature, h]

variable (hcount : ∀ m ∈ namedRegs i, m < t.count)
include hcount

/-- 05 R117: the first empty register read whose EMT bit is set. -/
theorem gate_of_empty_register_traps {n : Nat} (h : (readRegs i).find? (fun m => !t.full m && t.emt.getLsbD m) = some n) :
    s.gate t i = .error (.fault { cause := .emptyRegister, addr := 0, kind := .none, detail := n, fetch := false }) := by
  simp [State.gate, hfeature, find_beyond_count_eq_none hcount, h]

/-- 05 R117: an empty register read blocks where no register read traps. -/
theorem gate_of_empty_register_blocks (htrap : ∀ m ∈ readRegs i, (!t.full m && t.emt.getLsbD m) = false)
    (hempty : ∃ m ∈ readRegs i, t.full m = false) : s.gate t i = .error .block := by
  have hnone : (readRegs i).find? (fun m => !t.full m && t.emt.getLsbD m) = none :=
    List.find?_eq_none.2 fun m hm => by simp only [htrap m hm, Bool.false_eq_true, not_false_eq_true]
  have hany : (readRegs i).any (fun m => !t.full m) = true := by simpa using hempty
  simp [State.gate, hfeature, find_beyond_count_eq_none hcount, hnone, hany]

variable (hfull : ∀ m ∈ readRegs i, t.full m = true)
include hfull

/-- Past the registers, the checks left are those of order, register lines, locks and the last word of a half. -/
theorem gate_of_registers_full : s.gate t i =
    if !s.eligible t (elig i) then .error .block
    else if (namedRegs i).any (fun m => m != 0 && !t.linesIn.contains (lineOf m)) then .error .line
    else if s.lockHolds t (elig i) then .error .lock
    else if lastWord t.pc && !isTransfer i then failWith .badTarget (t.pc + 4)
    else .ok () := by
  have hnone : (readRegs i).find? (fun m => !t.full m && t.emt.getLsbD m) = none :=
    List.find?_eq_none.2 fun m hm => by simp [hfull m hm]
  have hany : (readRegs i).any (fun m => !t.full m) = false := by simpa using hfull
  simp [State.gate, hfeature, find_beyond_count_eq_none hcount, hnone, hany]

/-- 11 R243: an order that holds the instruction blocks it. -/
theorem gate_of_not_eligible (h : s.eligible t (elig i) = false) : s.gate t i = .error .block := by
  simp [gate_of_registers_full hfeature hcount hfull, h]

variable (helig : s.eligible t (elig i) = true)
include helig

/-- 02 R32: a named register whose line is absent. -/
theorem gate_of_line_absent (h : ∃ m ∈ namedRegs i, ¬ (m = 0 ∨ lineOf m ∈ t.linesIn)) : s.gate t i = .error .line := by
  have hany : (namedRegs i).any (fun m => m != 0 && !t.linesIn.contains (lineOf m)) = true := by simpa using h
  rw [gate_of_registers_full hfeature hcount hfull, helig, hany]
  rfl

variable (hlines : ∀ m ∈ namedRegs i, m = 0 ∨ lineOf m ∈ t.linesIn)
include hlines

/-- 08 R186: a locked tile. -/
theorem gate_of_lock (h : s.lockHolds t (elig i) = true) : s.gate t i = .error .lock := by
  rw [gate_of_registers_full hfeature hcount hfull, helig, any_line_absent_eq_false hlines, h]
  rfl

/-- 06 R140: the last word of a canonical half. -/
theorem gate_of_last_word (hlock : s.lockHolds t (elig i) = false) (hlast : lastWord t.pc = true) (htransfer : isTransfer i = false) :
    s.gate t i = failWith .badTarget (t.pc + 4) := by
  rw [gate_of_registers_full hfeature hcount hfull, helig, any_line_absent_eq_false hlines, hlock, hlast, htransfer]
  rfl

end Gate

/-- Settles O31: each outcome is the gate's answer at its check, and the word's execution ends with it. -/
theorem outcomeOrder : Obligations.OutcomeOrder := by
  intro s t i n ht hword parked blocked counts traps present
  have stops {e : Stop} : s.gate t i = .error e → exec i s = .next (s.stopped t i e) := exec_of_gate_error ht hword
  refine ⟨fun h => stops (gate_of_feature_off h), fun hfeature => ⟨fun h => stops (gate_of_register_beyond_count hfeature h),
    fun hcount => ⟨fun h => stops (gate_of_empty_register_traps hfeature hcount h),
    fun htrap hempty => stops (gate_of_empty_register_blocks hfeature hcount htrap hempty),
    fun hfull => ⟨fun h => stops (gate_of_not_eligible hfeature hcount hfull h),
    fun helig => ⟨fun h => stops (gate_of_line_absent hfeature hcount hfull helig h), fun hlines => ?_⟩⟩⟩⟩⟩
  exact ⟨fun h => stops (gate_of_lock hfeature hcount hfull helig hlines h),
    fun hlock hlast htransfer => stops (gate_of_last_word hfeature hcount hfull helig hlines hlock hlast htransfer)⟩

end Sys2Proof.Proofs

/-! PROOF. Fields of words (00 R1; 03 R61): how a field is cut in two, how it lies within a longer one, and what the fields of a word are
that is written as a sum of its parts. -/
namespace Sys2Proof.Proofs
open Sys2Proof.Machine

/-- A field that reaches over bit k is its part from k on and its part below k. -/
theorem fld_cut {n hi lo : Nat} (k : Nat) (hlo : lo < k) (hhi : k ≤ hi) :
    fld n hi lo = fld n hi k * 2 ^ (k - lo) + fld n (k - 1) lo := by
  have hwidth : hi + 1 - lo = (k - lo) + (hi + 1 - k) := by omega
  have hbelow : k - 1 + 1 - lo = k - lo := by omega
  simp only [fld]
  rw [hwidth, hbelow, pow_add, Nat.mod_mul, Nat.div_div_eq_div_mul, ← pow_add, Nat.add_sub_cancel' hlo.le, Nat.add_comm, Nat.mul_comm]

/-- A field of a field, and shorter, so that no field is rewritten by itself. -/
theorem fld_within {n hi lo top bot v : Nat} (h : fld n top bot = v) (hbot : bot ≤ lo) (hle : lo ≤ hi) (hhi : hi ≤ top)
    (_hlt : hi - lo < top - bot) : fld n hi lo = v / 2 ^ (lo - bot) % 2 ^ (hi + 1 - lo) := by
  have hwidth : lo - bot + (top + 1 - lo) = top + 1 - bot := by omega
  have hdvd : 2 ^ (hi + 1 - lo) ∣ 2 ^ (top + 1 - lo) := pow_dvd_pow 2 (by omega)
  subst h
  simp only [fld]
  rw [← hwidth, pow_add, Nat.mod_mul_right_div_self, Nat.div_div_eq_div_mul, ← pow_add, Nat.add_sub_cancel' hbot,
    Nat.mod_mod_of_dvd _ hdvd]

/-- A field of the low k bits. -/
theorem fld_of_low {n k v hi lo : Nat} (h : n % 2 ^ k = v) (hle : lo ≤ hi) (hhi : hi < k) :
    fld n hi lo = v / 2 ^ lo % 2 ^ (hi + 1 - lo) := by
  have hwidth : lo + (k - lo) = k := by omega
  have hdvd : 2 ^ (hi + 1 - lo) ∣ 2 ^ (k - lo) := pow_dvd_pow 2 (by omega)
  subst h
  simp only [fld]
  rw [← hwidth, pow_add, Nat.mod_mul_right_div_self, Nat.mod_mod_of_dvd _ hdvd]

/-- A field above an operand: the operand does not reach it. -/
theorem fld_above {n k c z : Nat} (hi lo : Nat) (h : n % 2 ^ k = c + z) (hz : c % 2 ^ lo + z < 2 ^ lo) (hle : lo ≤ hi := by omega)
    (hhi : hi < k := by omega) : fld n hi lo = c / 2 ^ lo % 2 ^ (hi + 1 - lo) := by
  rw [fld_of_low h hle hhi, Nat.add_div_eq_of_add_mod_lt (by rwa [Nat.mod_eq_of_lt (a := z) (by omega)]),
    Nat.div_eq_of_lt (a := z) (by omega), Nat.add_zero]

/-- A bit that the field of one bit holds. -/
theorem fbit_of_fld {n k : Nat} {b : Bool} (h : fld n k k = b.toNat) : fbit n k = b := by
  cases b <;> simp [fbit, h]

/-- The fields of a word with its major opcode and selectors in c and z below the major opcode. -/
theorem layout_low {n c z : Nat} (h : c + z = n) (hz : c % 67108864 + z < 67108864 := by omega) (hc : c < 4294967296 := by omega) :
    n < 2 ^ 32 ∧ fld n 31 26 = c / 67108864 ∧ n % 2 ^ 26 = c % 67108864 + z := by
  simp only [fld]
  refine ⟨?_, ?_, ?_⟩ <;> omega

/-- The fields of a word with its major opcode and selectors in c, registers d and a in their places, and z in its low 14 bits. -/
theorem layout_da {n c d a z : Nat} (h : c + d * 1048576 + a * 16384 + z = n) (hd : d < 64 := by omega) (ha : a < 64 := by omega)
    (hz : c % 67108864 + z < 16384 := by omega) (hc : c < 4294967296 := by omega) :
    n < 2 ^ 32 ∧ fld n 31 26 = c / 67108864 ∧ fld n 25 20 = d ∧ fld n 19 14 = a ∧ n % 2 ^ 14 = c % 16384 + z := by
  simp only [fld]
  refine ⟨?_, ?_, ?_, ?_, ?_⟩ <;> omega

/-- The same with a register b in its place, and y in the low 8 bits. -/
theorem layout_dab {n c d a b y : Nat} (h : c + d * 1048576 + a * 16384 + b * 256 + y = n) (hd : d < 64 := by omega)
    (ha : a < 64 := by omega) (hb : b < 64 := by omega) (hy : c % 67108864 + y < 256 := by omega) (hc : c < 4294967296 := by omega) :
    n < 2 ^ 32 ∧ fld n 31 26 = c / 67108864 ∧ fld n 25 20 = d ∧ fld n 19 14 = a ∧ fld n 13 8 = b ∧ n % 2 ^ 8 = c % 256 + y := by
  simp only [fld]
  refine ⟨?_, ?_, ?_, ?_, ?_, ?_⟩ <;> omega

/-- The same with a register d in its place, and z in the low 20 bits. -/
theorem layout_d {n c d z : Nat} (h : c + d * 1048576 + z = n) (hd : d < 64 := by omega)
    (hz : c % 67108864 + z < 1048576 := by omega) (hc : c < 4294967296 := by omega) :
    n < 2 ^ 32 ∧ fld n 31 26 = c / 67108864 ∧ fld n 25 20 = d ∧ n % 2 ^ 20 = c % 1048576 + z := by
  simp only [fld]
  refine ⟨?_, ?_, ?_, ?_⟩ <;> omega

/-- The same with an even register, whose half d is the field, and a register a. -/
theorem layout_pair {n c d a z : Nat} (h : c + d * 2097152 + a * 16384 + z = n) (hd : d < 32 := by omega) (ha : a < 64 := by omega)
    (hz : c % 67108864 + z < 16384 := by omega) (hc : c < 4294967296 := by omega) :
    n < 2 ^ 32 ∧ fld n 31 26 = c / 67108864 ∧ fld n 25 21 = d ∧ fld n 20 20 = 0 ∧ fld n 19 14 = a ∧ n % 2 ^ 14 = c % 16384 + z := by
  simp only [fld]
  refine ⟨?_, ?_, ?_, ?_, ?_, ?_⟩ <;> omega

/-- The same with a register a only. -/
theorem layout_a {n c a z : Nat} (h : c + a * 16384 + z = n) (ha : a < 64 := by omega) (hz : c % 67108864 + z < 16384 := by omega)
    (hc : c < 4294967296 := by omega) :
    n < 2 ^ 32 ∧ fld n 31 26 = c / 67108864 ∧ fld n 25 20 = 0 ∧ fld n 19 14 = a ∧ n % 2 ^ 14 = c % 16384 + z :=
  layout_da (d := 0) (by omega) (by omega) ha hz hc

/-- The parts of a sum as one. -/
theorem add_add_add_add_eq {c x y z w n : Nat} (h : c + x + y + z + w = n) : c + (x + y + z + w) = n := by omega

end Sys2Proof.Proofs

/-! PROOF. Words decode to the instruction they are encoded from (03 R61 to R81), family by family: the layout of the family's words gives
the value of every field that the decoder tests or reads. -/
namespace Sys2Proof.Proofs
open Sys2Proof.Machine
-- The families are checked one after another: a thread for each at once is more than the check's memory limit leaves room for.
set_option Elab.async false

/-- The word of i, if it has one, is a 32-bit word that the decoder's tables read as i. -/
def Decodes (i : Instr) : Prop := ∀ n, encodeNat i = some n → n < 2 ^ 32 ∧ decodeRaw n = .ok i

theorem ok_bind {α β : Type} {x : α} {f : α → Except DecodeError β} : (Except.ok x >>= f) = f x := rfl

/-! Codes (03 R70, R71, R75 to R78): each is read back, and has its width. -/

theorem condOfCode_code (c : Cond) : Cond.ofCode c.code = .ok c := by cases c <;> rfl
theorem scopeOfCode_code (c : Scope) : Scope.ofCode c.code = .ok c := by cases c <;> rfl
theorem atomOrderOfCode_code (c : AtomOrder) : AtomOrder.ofCode c.code = .ok c := by cases c <;> rfl
theorem widthOfCode_code (c : Width) : Width.ofCode c.code = .ok c := by cases c <;> rfl
theorem ldWidthOfCode_code (c : LdWidth) : LdWidth.ofCode c.code = .ok c := by cases c <;> rfl
theorem stWidthOfCode_code (c : StWidth) : StWidth.ofCode c.code = .ok c := by cases c <;> rfl
theorem prefLevelOfCode_code (c : PrefLevel) : PrefLevel.ofCode c.code = .ok c := by cases c <;> rfl
theorem lane3OfCode_code (c : Lane3) : Lane3.ofCode c.code = .ok c := by cases c <;> rfl
theorem lane5OfCode_code (c : Lane5) : Lane5.ofCode c.code = .ok c := by cases c <;> rfl
theorem mxTypeOfCode_code (c : MxType) : MxType.ofCode c.code = .ok c := by cases c <;> rfl
theorem cvtTypeOfCode_code (c : CvtType) : CvtType.ofCode c.code = .ok c := by cases c <;> rfl
theorem rndSelOfCode_code (c : RndSel) : RndSel.ofCode c.code = .ok c := by cases c <;> rfl

theorem condCode_lt (c : Cond) : c.code < 16 := by cases c <;> decide
theorem scopeCode_lt (c : Scope) : c.code < 8 := by cases c <;> decide
theorem atomOrderCode_lt (c : AtomOrder) : c.code < 4 := by cases c <;> decide
theorem widthCode_lt (c : Width) : c.code < 4 := by cases c <;> decide
theorem ldWidthCode_lt (c : LdWidth) : c.code < 16 := by cases c <;> decide
theorem stWidthCode_lt (c : StWidth) : c.code < 16 := by cases c <;> decide
theorem prefLevelCode_lt (c : PrefLevel) : c.code < 4 := by cases c <;> decide
theorem lane3Code_lt (c : Lane3) : c.code < 4 := by cases c <;> decide
theorem lane5Code_lt (c : Lane5) : c.code < 8 := by cases c <;> decide
theorem mxTypeCode_lt (c : MxType) : c.code < 16 := by cases c <;> decide
theorem cvtTypeCode_lt (c : CvtType) : c.code < 16 := by cases c <;> decide
theorem rndSelCode_lt (c : RndSel) : c.code < 8 := by cases c <;> decide

/-- R69, R79, R81: three registers under a function code. -/
theorem decodes_threeRegs (d a b : Reg) : ∀ i ∈ [.mulhS d a b, .mulhN d a b, .and d a b, .or d a b, .xor d a b, .andn d a b, .orn d a b,
    .minS d a b, .minN d a b, .maxS d a b, .maxN d a b, .leaX1 d a b, .leaX2 d a b, .leaX4 d a b, .leaX8 d a b, .gangForm d a b,
    .send d a b, .fillInit d a b, .fillAdd d a b, .pcnt d a b, .attest d a b], Decodes i := by
  simp only [List.forall_mem_cons, List.not_mem_nil, false_imp_iff, implies_true, and_true]
  and_intros
  all_goals
    intro n h
    injection h with h
    obtain ⟨hlt, hmajor, hd, ha, hb, hy⟩ := layout_dab ((Nat.add_zero _).trans h)
    exact ⟨hlt, by simp [decodeRaw, decodeMajor01, decodeMajor2D, decodeMajor30, decodeMajor31, decodeMajor34, hmajor, hd, ha, hb,
      fld_cut 8, fld_of_low hy]⟩

/-- R69, R74: three registers, and bit 7 for the 32-bit form or the precision. -/
theorem decodes_threeRegsBit (d a b : Reg) (w : Bool) : ∀ i ∈ [.add d a b w, .sub d a b w, .mul d a b w, .divs d a b w, .divn d a b w,
    .rems d a b w, .remn d a b w, .shl d a b w, .shr d a b w, .asr d a b w, .rol d a b w, .ror d a b w, .fadd d a b w, .fsub d a b w,
    .fmul d a b w, .fdiv d a b w, .fmin d a b w, .fmax d a b w, .fcpys d a b w], Decodes i := by
  simp only [List.forall_mem_cons, List.not_mem_nil, false_imp_iff, implies_true, and_true]
  and_intros
  all_goals
    intro n h
    injection h with h
    have hw := w.toNat_lt
    obtain ⟨hlt, hmajor, hd, ha, hb, hy⟩ := layout_dab h
    exact ⟨hlt, by cases w <;> simp [decodeRaw, decodeMajor01, decodeMajor15, fbit, hmajor, hd, ha, hb, fld_of_low hy]⟩

/-- R74: FCMP names a predicate in the place of its first register. -/
theorem decodes_fcmp (p : Pred) (a b : Reg) (w : Bool) : ∀ i ∈ [.fcmpEq p a b w, .fcmpLt p a b w, .fcmpLe p a b w, .fcmpUn p a b w],
    Decodes i := by
  simp only [List.forall_mem_cons, List.not_mem_nil, false_imp_iff, implies_true, and_true]
  and_intros
  all_goals
    intro n h
    injection h with h
    have hw := w.toNat_lt
    have hp : p.toNat / 8 = 0 ∧ p.toNat % 8 = p.toNat := by omega
    obtain ⟨hlt, hmajor, hd, ha, hb, hy⟩ := layout_dab h
    exact ⟨hlt, by cases w <;> simp [decodeRaw, decodeMajor15, fbit, hmajor, ha, hb, hp, fld_within hd, fld_of_low hy]⟩

/-- R69, R74, R79, R81: two registers under a function code. -/
theorem decodes_twoRegs (d a : Reg) : ∀ i ∈ [.brev d a, .frcp d a, .frsq d a, .fexp2 d a, .flog2 d a, .gangJoin d a, .mxcfg d a,
    .wake d a, .resume d a, .kill d a, .thr d a, .sbarArrive d a, .xcnt d a, .feat d a, .dbgRd d a, .dbgStep d a], Decodes i := by
  simp only [List.forall_mem_cons, List.not_mem_nil, false_imp_iff, implies_true, and_true]
  and_intros
  all_goals
    intro n h
    injection h with h
    obtain ⟨hlt, hmajor, hd, ha, hz⟩ := layout_da ((Nat.add_zero _).trans h)
    exact ⟨hlt, by simp [decodeRaw, decodeMajor01, decodeMajor15, decodeMajor2D, decodeMajor2E, decodeMajor30, decodeMajor31,
      decodeMajor34, hmajor, hd, ha, fld_cut 14, fld_of_low hz]⟩

/-- R69, R74: two registers, and bit 7 for the 32-bit form or the precision. -/
theorem decodes_twoRegsBit (d a : Reg) (w : Bool) : ∀ i ∈ [.clz d a w, .popc d a w, .fsqrt d a w, .fabs d a w, .fneg d a w,
    .fclass d a w], Decodes i := by
  simp only [List.forall_mem_cons, List.not_mem_nil, false_imp_iff, implies_true, and_true]
  and_intros
  all_goals
    intro n h
    injection h with h
    have hw := w.toNat_lt
    obtain ⟨hlt, hmajor, hd, ha, hz⟩ := layout_da h
    exact ⟨hlt, by cases w <;> simp [decodeRaw, decodeMajor01, decodeMajor15, fbit, hmajor, hd, ha, fld_of_low hz]⟩

/-- R72, R77: two registers and a 14-bit immediate or offset, each under a major opcode of its own. -/
theorem decodes_imm14 (d a : Reg) (o : BitVec 14) : ∀ i ∈ [.addi d a o, .andi d a o, .ori d a o, .xori d a o, .ldB d a o, .ldH d a o,
    .ldW d a o, .ldD d a o, .ldBS d a o, .ldHS d a o, .ldWS d a o, .stB d a o, .stH d a o, .stW d a o, .stD d a o], Decodes i := by
  simp only [List.forall_mem_cons, List.not_mem_nil, false_imp_iff, implies_true, and_true]
  and_intros
  all_goals
    intro n h
    injection h with h
    obtain ⟨hlt, hmajor, hd, ha, hz⟩ := layout_da h
    have ho : fld n 13 0 = o.toNat := by rw [fld_of_low hz] <;> omega
    exact ⟨hlt, by simp [decodeRaw, decodeMajor04, decodeMajor05, decodeMajor06, decodeMajor07, decodeMajor1C, decodeMajor1D,
      decodeMajor1E, decodeMajor1F, decodeMajor20, decodeMajor21, decodeMajor22, decodeMajor24, decodeMajor25, decodeMajor26,
      decodeMajor27, hmajor, hd, ha, ho]⟩

/-- R72: shifts of 64 bits by a constant. -/
theorem decodes_shiftImm (d a : Reg) (k : BitVec 6) : ∀ i ∈ [.shli d a k, .shri d a k, .asri d a k, .rori d a k], Decodes i := by
  simp only [List.forall_mem_cons, List.not_mem_nil, false_imp_iff, implies_true, and_true]
  and_intros
  all_goals
    intro n h
    injection h with h
    obtain ⟨hlt, hmajor, hd, ha, hz⟩ := layout_da h
    have hsel := fld_above 13 6 hz (by omega)
    have hk : fld n 5 0 = k.toNat := by simp only [fld]; omega
    exact ⟨hlt, by simp [decodeRaw, decodeMajor08, hmajor, hd, ha, hsel, hk]⟩

/-- R72: shifts of 32 bits by a constant. -/
theorem decodes_shiftImmW (d a : Reg) (k : BitVec 5) : ∀ i ∈ [.shliW d a k, .shriW d a k, .asriW d a k, .roriW d a k], Decodes i := by
  simp only [List.forall_mem_cons, List.not_mem_nil, false_imp_iff, implies_true, and_true]
  and_intros
  all_goals
    intro n h
    injection h with h
    obtain ⟨hlt, hmajor, hd, ha, hz⟩ := layout_da h
    have hsel := fld_above 13 5 hz (by omega)
    have hselShort := fld_above 13 6 hz (by omega)
    have hk : fld n 4 0 = k.toNat := by simp only [fld]; omega
    exact ⟨hlt, by simp [decodeRaw, decodeMajor08, hmajor, hd, ha, hsel, hselShort, hk]⟩

/-- R72: bit-field instructions, with a length and a position. -/
theorem decodes_bitField (d a : Reg) (l p : BitVec 6) : ∀ i ∈ [.bfxS d a l p, .bfxN d a l p, .bfi d a l p], Decodes i := by
  simp only [List.forall_mem_cons, List.not_mem_nil, false_imp_iff, implies_true, and_true]
  and_intros
  all_goals
    intro n h
    injection h with h
    obtain ⟨hlt, hmajor, hd, ha, hz⟩ := layout_da ((Nat.add_assoc ..).symm.trans h)
    have hsel := fld_above 13 12 hz (by omega)
    have hl : fld n 11 6 = l.toNat := by simp only [fld]; omega
    have hp : fld n 5 0 = p.toNat := by simp only [fld]; omega
    exact ⟨hlt, by simp [decodeRaw, decodeMajor0C, decodeMajor0D, hmajor, hd, ha, hsel, hl, hp]⟩

/-- R78: integer atomics, of a width and an order. -/
theorem decodes_atom (d a b : Reg) (wd : Width) (o : AtomOrder) : ∀ i ∈ [.atomAdd d a b wd o, .atomAnd d a b wd o, .atomOr d a b wd o,
    .atomXor d a b wd o, .atomMinS d a b wd o, .atomMinN d a b wd o, .atomMaxS d a b wd o, .atomMaxN d a b wd o, .atomSwap d a b wd o],
    Decodes i := by
  simp only [List.forall_mem_cons, List.not_mem_nil, false_imp_iff, implies_true, and_true]
  and_intros
  all_goals
    intro n h
    injection h with h
    have hwd := widthCode_lt wd
    have ho := atomOrderCode_lt o
    obtain ⟨hlt, hmajor, hd, ha, hb, hy⟩ := layout_dab ((Nat.add_assoc ..).symm.trans h)
    have hsel := fld_above 7 4 hy (by omega)
    have hw : fld n 3 2 = wd.code := by simp only [fld]; omega
    have ho : fld n 1 0 = o.code := by simp only [fld]; omega
    exact ⟨hlt, by simp [decodeRaw, decodeMajor2A, widthOfCode_code, atomOrderOfCode_code, ok_bind, hmajor, hd, ha, hb, hsel, hw, ho]⟩

/-- R76: MX instructions of an element type. -/
theorem decodes_mx (d a b : Reg) (t : MxType) : ∀ i ∈ [.mxpack d a b t, .mxunpack d a b t, .mxscale d a b t], Decodes i := by
  simp only [List.forall_mem_cons, List.not_mem_nil, false_imp_iff, implies_true, and_true]
  and_intros
  all_goals
    intro n h
    injection h with h
    have ht := mxTypeCode_lt t
    obtain ⟨hlt, hmajor, hd, ha, hb, hy⟩ := layout_dab h
    exact ⟨hlt, by cases t <;> simp [decodeRaw, decodeMajor1B, hmajor, hd, ha, hb, fld_of_low hy, MxType.code, MxType.ofCode]⟩

/-- R75: packed arithmetic of a lane type. -/
theorem decodes_packed (d a b : Reg) (t : Lane3) : ∀ i ∈ [.padd d a b t, .psub d a b t, .pmul d a b t, .pmin d a b t, .pmax d a b t],
    Decodes i := by
  simp only [List.forall_mem_cons, List.not_mem_nil, false_imp_iff, implies_true, and_true]
  and_intros
  all_goals
    intro n h
    injection h with h
    have ht := lane3Code_lt t
    obtain ⟨hlt, hmajor, hd, ha, hb, hy⟩ := layout_dab h
    exact ⟨hlt, by cases t <;> simp [decodeRaw, decodeMajor18, hmajor, hd, ha, hb, fld_of_low hy, Lane3.code, Lane3.ofCode]⟩

/-- R75: PDOT of a lane type. -/
theorem decodes_pdot (d a b : Reg) (t : Lane5) : Decodes (.pdot d a b t) := by
  intro n h
  injection h with h
  have ht := lane5Code_lt t
  obtain ⟨hlt, hmajor, hd, ha, hb, hy⟩ := layout_dab h
  exact ⟨hlt, by cases t <;> simp [decodeRaw, decodeMajor18, hmajor, hd, ha, hb, fld_of_low hy, Lane5.code, Lane5.ofCode]⟩

/-- R78: float atomics, of an order; a width of theirs is part of the selector. -/
theorem decodes_atomFloat (d a b : Reg) (o : AtomOrder) : ∀ i ∈ [.atomFaddF32 d a b o, .atomFaddF64 d a b o, .atomFmaxF32 d a b o],
    Decodes i := by
  simp only [List.forall_mem_cons, List.not_mem_nil, false_imp_iff, implies_true, and_true]
  and_intros
  all_goals
    intro n h
    injection h with h
    have ho := atomOrderCode_lt o
    obtain ⟨hlt, hmajor, hd, ha, hb, hy⟩ := layout_dab h
    have hsel := fld_above 7 4 hy (by omega)
    have hwidth := fld_above 7 2 hy (by omega)
    have hcode : fld n 1 0 = o.code := by simp only [fld]; omega
    exact ⟨hlt, by simp [decodeRaw, decodeMajor2A, hmajor, hd, ha, hb, hsel, hwidth, hcode, atomOrderOfCode_code]⟩

/-- R70: fused multiply-adds, whose precision is the low bit of the major opcode. -/
theorem decodes_fused (t : Bool) (d a b c : Reg) : ∀ i ∈ [.fma t d a b c, .fms t d a b c, .fnma t d a b c, .fnms t d a b c],
    Decodes i := by
  simp only [List.forall_mem_cons, List.not_mem_nil, false_imp_iff, implies_true, and_true]
  and_intros
  all_goals
    intro n h
    injection h with h
    have ht := t.toNat_lt
    obtain ⟨hlt, hmajor, hd, ha, hb, hy⟩ := layout_dab h
    have hsel := fld_of_low (hi := 1) (lo := 0) hy
    have hc : fld n 7 2 = c.toNat := by simp only [fld]; omega
    exact ⟨hlt, by cases t <;> simp [decodeRaw, decodeMajor16, hmajor, hd, ha, hb, hsel, hc, fbit, fld_within hmajor]⟩

/-- R70: MAD names a fourth register. -/
theorem decodes_mad (d a b c : Reg) : Decodes (.mad d a b c) := by
  intro n h
  injection h with h
  obtain ⟨hlt, hmajor, hd, ha, hb, hy⟩ := layout_dab h
  have hsel : fld n 1 0 = 0 := by simp only [fld]; omega
  have hc : fld n 7 2 = c.toNat := by simp only [fld]; omega
  exact ⟨hlt, by simp [decodeRaw, decodeMajor02, hmajor, hd, ha, hb, hsel, hc]⟩

/-- R70: SEL holds a sense and a predicate in the place of a fourth register. -/
theorem decodes_sel (d a b : Reg) (s : Bool) (p : Pred) : Decodes (.sel d a b s p) := by
  intro n h
  injection h with h
  have hs := s.toNat_lt
  obtain ⟨hlt, hmajor, hd, ha, hb, hy⟩ := layout_dab ((Nat.add_assoc ..).symm.trans h)
  have hsel : fld n 1 0 = 1 := by simp only [fld]; omega
  have hzero : fld n 6 5 = 0 := by simp only [fld]; omega
  have hp : fld n 4 2 = p.toNat := by simp only [fld]; omega
  have hbit : fld n 7 7 = s.toNat := by simp only [fld]; omega
  exact ⟨hlt, by simp [decodeRaw, decodeMajor02, hmajor, hd, ha, hb, hsel, hzero, hp, fbit_of_fld hbit]⟩

/-- R71: CMP of a width and a condition. -/
theorem decodes_cmp (p : Pred) (a b : Reg) (w : Bool) (c : Cond) : Decodes (.cmp p a b w c) := by
  intro n h
  injection h with h
  have hw := w.toNat_lt
  have hc := condCode_lt c
  obtain ⟨hlt, hmajor, hd, ha, hb, hy⟩ := layout_dab ((Nat.add_assoc ..).symm.trans h)
  have hsel : fld n 6 4 = 0 := by simp only [fld]; omega
  have hbit : fld n 7 7 = w.toNat := by simp only [fld]; omega
  have hcode : fld n 3 0 = c.code := by simp only [fld]; omega
  have hp : p.toNat / 8 = 0 ∧ p.toNat % 8 = p.toNat := by omega
  exact ⟨hlt, by simp [decodeRaw, decodeMajor03, hmajor, fld_within hd, ha, hb, hsel, hp, fbit_of_fld hbit, hcode, condOfCode_code]⟩

/-- R71: CMPI, whose condition is one of the eight that three bits hold. -/
theorem decodes_cmpi (c : Cond) (p : Pred) (a : Reg) (k : BitVec 14) (hc : c.code < 8) : Decodes (.cmpi c p a k) := by
  intro n h
  injection h with h
  obtain ⟨hlt, hmajor, hd, ha, hz⟩ := layout_da (n := n) (c := 0x24000000) (d := c.code * 8 + p.toNat) (a := a.toNat) (z := k.toNat)
    (by omega)
  have hcode : fld n 25 23 = c.code := by simp only [fld] at *; omega
  have hp : fld n 22 20 = p.toNat := by simp only [fld] at *; omega
  have hk : fld n 13 0 = k.toNat := by simp only [fld] at *; omega
  exact ⟨hlt, by simp [decodeRaw, decodeMajor09, hmajor, hcode, hp, ha, hk, condOfCode_code]⟩

/-- R70, R78: CAS names a fourth register and an order. -/
theorem decodes_cas (d a b c : Reg) (o : AtomOrder) : ∀ i ∈ [.casW d a b c o, .casD d a b c o], Decodes i := by
  simp only [List.forall_mem_cons, List.not_mem_nil, false_imp_iff, implies_true, and_true]
  and_intros
  all_goals
    intro n h
    injection h with h
    have ho := atomOrderCode_lt o
    obtain ⟨hlt, hmajor, hd, ha, hb, hy⟩ := layout_dab ((Nat.add_assoc ..).symm.trans h)
    have hc : fld n 7 2 = c.toNat := by simp only [fld]; omega
    have hcode : fld n 1 0 = o.code := by simp only [fld]; omega
    exact ⟨hlt, by simp [decodeRaw, decodeMajor2B, decodeMajor2C, hmajor, hd, ha, hb, hc, hcode, atomOrderOfCode_code]⟩

/-- R70, R75: PFMA names a fourth register and a lane type. -/
theorem decodes_pfma (d a b c : Reg) (t : Lane3) : Decodes (.pfma d a b c t) := by
  intro n h
  injection h with h
  have ht := lane3Code_lt t
  obtain ⟨hlt, hmajor, hd, ha, hb, hy⟩ := layout_dab ((Nat.add_assoc ..).symm.trans h)
  have hc : fld n 7 2 = c.toNat := by simp only [fld]; omega
  have hcode : fld n 1 0 = t.code := by simp only [fld]; omega
  exact ⟨hlt, by simp [decodeRaw, decodeMajor19, hmajor, hd, ha, hb, hc, hcode, lane3OfCode_code]⟩

/-- R76: CVT holds its saturation, its rounding and two types. -/
theorem decodes_cvt (d a : Reg) (s : Bool) (r : RndSel) (t u : CvtType) : Decodes (.cvt d a s r t u) := by
  intro n h
  injection h with h
  have hs := s.toNat_lt
  have hr := rndSelCode_lt r
  have ht := cvtTypeCode_lt t
  have hu := cvtTypeCode_lt u
  obtain ⟨hlt, hmajor, hd, ha, hz⟩ := layout_da (add_add_add_add_eq h)
  have hsel : fld n 13 12 = 0 := by simp only [fld]; omega
  have hbit : fld n 11 11 = s.toNat := by simp only [fld]; omega
  have hround : fld n 10 8 = r.code := by simp only [fld]; omega
  have hfrom : fld n 7 4 = t.code := by simp only [fld]; omega
  have hto : fld n 3 0 = u.code := by simp only [fld]; omega
  exact ⟨hlt, by simp [decodeRaw, decodeMajor1A, hmajor, hd, ha, hsel, fbit_of_fld hbit, hround, hfrom, hto, rndSelOfCode_code,
    cvtTypeOfCode_code, ok_bind]⟩

/-- R77: LD.ACQ and ST.REL of a scope and a width. -/
theorem decodes_orderedAccess (d a : Reg) (s : Scope) (wl : LdWidth) (ws : StWidth) : ∀ i ∈ [.ldAcq d a s wl, .stRel d a s ws],
    Decodes i := by
  simp only [List.forall_mem_cons, List.not_mem_nil, false_imp_iff, implies_true, and_true]
  and_intros
  all_goals
    intro n h
    injection h with h
    have hs := scopeCode_lt s
    have hwl := ldWidthCode_lt wl
    have hws := stWidthCode_lt ws
    obtain ⟨hlt, hmajor, hd, ha, hb, hy⟩ := layout_dab h
    have hsel := fld_above 7 4 hy (by omega)
    have hreserved : s.code / 8 = 0 ∧ s.code % 8 = s.code := by omega
    have hwidth := fld_of_low (hi := 3) (lo := 0) hy
    exact ⟨hlt, by simp [decodeRaw, decodeMajor29, hmajor, hd, ha, hsel, fld_within hb, hreserved, hwidth, scopeOfCode_code,
      ldWidthOfCode_code, stWidthOfCode_code, Nat.mod_eq_of_lt hwl, Nat.mod_eq_of_lt hws, ok_bind]⟩

/-- R77: loads and stores of full/empty words, of a scope. -/
theorem decodes_fullEmpty (d a : Reg) (s : Scope) : ∀ i ∈ [.ldfe d a s, .ldfeK d a s, .stfe d a s, .stfeF d a s], Decodes i := by
  simp only [List.forall_mem_cons, List.not_mem_nil, false_imp_iff, implies_true, and_true]
  and_intros
  all_goals
    intro n h
    injection h with h
    have hs := scopeCode_lt s
    obtain ⟨hlt, hmajor, hd, ha, hb, hy⟩ := layout_dab ((Nat.add_zero _).trans h)
    have hreserved : s.code / 8 = 0 ∧ s.code % 8 = s.code := by omega
    exact ⟨hlt, by simp [decodeRaw, decodeMajor29, hmajor, hd, ha, fld_of_low hy, fld_within hb, hreserved, scopeOfCode_code]⟩

/-- R77: PREF of a level. -/
theorem decodes_pref (a : Reg) (l : PrefLevel) : Decodes (.pref a l) := by
  intro n h
  injection h with h
  have hl := prefLevelCode_lt l
  obtain ⟨hlt, hmajor, hd, ha, hz⟩ := layout_a h
  have hfunction : fld n 7 4 = 6 := by simp only [fld]; omega
  have hlow : fld n 7 0 = 96 := by simp only [fld]; omega
  have hsel : fld n 10 0 = 96 := by simp only [fld]; omega
  have htop : fld n 13 13 = 0 := by simp only [fld]; omega
  have hlevel : fld n 12 11 = l.code := by simp only [fld]; omega
  exact ⟨hlt, by simp [decodeRaw, decodeMajor29, hmajor, hd, ha, hfunction, hlow, hsel, htop, hlevel, prefLevelOfCode_code]⟩

/-- R77, R80: fences and ESYNC of a scope. -/
theorem decodes_fence (s : Scope) : ∀ i ∈ [.fence s, .fenceAcq s, .fenceRel s, .esync s], Decodes i := by
  simp only [List.forall_mem_cons, List.not_mem_nil, false_imp_iff, implies_true, and_true]
  and_intros
  all_goals
    intro n h
    cases s <;> cases h <;> exact ⟨by decide, rfl⟩

/-- R79: GANG.MMA holds three bits. -/
theorem decodes_gangMma (q g s : Bool) : Decodes (.gangMma q g s) := by
  intro n h
  cases q <;> cases g <;> cases s <;> cases h <;> exact ⟨by decide, rfl⟩

/-- R73, R79, R81: words without operands. -/
theorem decodes_nullary : ∀ i ∈ [.nop, .ret, .exit, .yield, .gangLeave, .mxwait, .eret, .halt], Decodes i := by
  simp only [List.forall_mem_cons, List.not_mem_nil, false_imp_iff, implies_true, and_true]
  and_intros
  all_goals
    rintro n ⟨⟩
    exact ⟨by decide, rfl⟩

/-- R80: engine commands of a scope and three bits. -/
theorem decodes_engine (a b : Reg) (s : Scope) (q r f : Bool) : ∀ i ∈ [.cpy a b s q r f, .cpy2d a b s q r f, .deal a b s q r f,
    .rstr a b s q r f, .mred a b s q r f], Decodes i := by
  simp only [List.forall_mem_cons, List.not_mem_nil, false_imp_iff, implies_true, and_true]
  and_intros
  all_goals
    intro n h
    injection h with h
    have hs := scopeCode_lt s
    have hq := q.toNat_lt
    have hr := r.toNat_lt
    have hf := f.toNat_lt
    obtain ⟨hlt, hmajor, hd, ha, hz⟩ := layout_da (add_add_add_add_eq h)
    have hsel := fld_above 13 11 hz (by omega)
    clear h
    have hscope : fld n 10 8 = s.code := by simp only [fld]; omega
    have h7 : fld n 7 7 = q.toNat := by simp only [fld]; omega
    have h6 : fld n 6 6 = r.toNat := by simp only [fld]; omega
    have h5 : fld n 5 5 = f.toNat := by simp only [fld]; omega
    have hlow : fld n 4 0 = 0 := by simp only [fld]; omega
    exact ⟨hlt, by simp [decodeRaw, decodeMajor2F, hmajor, hd, ha, hsel, hlow, hscope, fbit_of_fld h7, fbit_of_fld h6, fbit_of_fld h5,
      scopeOfCode_code]⟩

/-- R79: ACC.LD, ACC.ST and ACC.CVT name a tile between two registers. -/
theorem decodes_accTile (d : Reg) (t : Tile) (b : Reg) : ∀ i ∈ [.accLd d t b, .accSt d t b, .accCvt d t b], Decodes i := by
  simp only [List.forall_mem_cons, List.not_mem_nil, false_imp_iff, implies_true, and_true]
  and_intros
  all_goals
    intro n h
    injection h with h
    have ht : t.toNat / 16 = 0 ∧ t.toNat % 16 = t.toNat := by omega
    obtain ⟨hlt, hmajor, hd, ha, hb, hy⟩ := layout_dab ((Nat.add_zero _).trans h)
    exact ⟨hlt, by simp [decodeRaw, decodeMajor2D, hmajor, hd, fld_within ha, hb, ht, fld_cut 8, fld_of_low hy]⟩

/-- R79: ACC.ZERO names a tile. -/
theorem decodes_accZero (t : Tile) : Decodes (.accZero t) := by
  intro n h
  injection h with h
  have ht : t.toNat / 16 = 0 ∧ t.toNat % 16 = t.toNat := by omega
  obtain ⟨hlt, hmajor, hd, ha, hz⟩ := layout_a ((Nat.add_zero _).trans h)
  exact ⟨hlt, by simp [decodeRaw, decodeMajor2D, hmajor, hd, fld_within ha, ht, fld_cut 20, fld_cut 14, fld_of_low hz]⟩

/-- R79: ACC.SCALE names a tile and a register. -/
theorem decodes_accScale (t : Tile) (b : Reg) : Decodes (.accScale t b) := by
  intro n h
  injection h with h
  have ht : t.toNat / 16 = 0 ∧ t.toNat % 16 = t.toNat := by omega
  obtain ⟨hlt, hmajor, hd, ha, hz⟩ := layout_a h
  have hfunction : fld n 7 3 = 3 := by simp only [fld]; omega
  have hb : fld n 13 8 = b.toNat := by simp only [fld]; omega
  exact ⟨hlt, by simp [decodeRaw, decodeMajor2D, hmajor, hd, fld_within ha, ht, hb, hfunction, fld_cut 20, fld_cut 8, fld_of_low hz]⟩

/-- R81: TLBINV and DBG.WR name two registers and no destination. -/
theorem decodes_tlbinvDbgWr (a b : Reg) : ∀ i ∈ [.tlbinv a b, .dbgWr a b], Decodes i := by
  simp only [List.forall_mem_cons, List.not_mem_nil, false_imp_iff, implies_true, and_true]
  and_intros
  all_goals
    intro n h
    injection h with h
    obtain ⟨hlt, hmajor, hd, ha, hz⟩ := layout_a h
    have hb : fld n 13 8 = b.toNat := by simp only [fld]; omega
    exact ⟨hlt, by simp [decodeRaw, decodeMajor32, decodeMajor34, hmajor, hd, fld_within hd, ha, hb, fld_cut 8, fld_of_low hz]⟩

/-- R73, R79, R81: one register and no destination. -/
theorem decodes_oneReg (a : Reg) : ∀ i ∈ [.jmpr a, .callr a, .mxburst a, .migr a, .sleep a, .prio a, .gtsync a, .upret a], Decodes i := by
  simp only [List.forall_mem_cons, List.not_mem_nil, false_imp_iff, implies_true, and_true]
  and_intros
  all_goals
    intro n h
    injection h with h
    obtain ⟨hlt, hmajor, hd, ha, hz⟩ := layout_a ((Nat.add_zero _).trans h)
    exact ⟨hlt, by simp [decodeRaw, decodeMajor14, decodeMajor2D, decodeMajor30, decodeMajor32, decodeMajor34, hmajor, hd, ha,
      fld_within hd, fld_cut 20, fld_cut 14, fld_of_low hz]⟩

/-- R73: TRAP and BRK hold a 6-bit operand. -/
theorem decodes_trapBrk (c : BitVec 6) : ∀ i ∈ [.trap c, .brk c], Decodes i := by
  simp only [List.forall_mem_cons, List.not_mem_nil, false_imp_iff, implies_true, and_true]
  and_intros
  all_goals
    intro n h
    injection h with h
    obtain ⟨hlt, hmajor, hz⟩ := layout_low h
    have hc : fld n 13 8 = c.toNat := by simp only [fld]; omega
    have hsel : fld n 25 14 = 0 := by simp only [fld]; omega
    exact ⟨hlt, by simp [decodeRaw, decodeMajor14, hmajor, hsel, hc, fld_cut 14, fld_cut 8, fld_of_low hz]⟩

/-- R81: SBAR.WAIT names a predicate and two registers. -/
theorem decodes_sbarWait (p : Pred) (a b : Reg) : Decodes (.sbarWait p a b) := by
  intro n h
  injection h with h
  have hp : p.toNat / 8 = 0 ∧ p.toNat % 8 = p.toNat := by omega
  obtain ⟨hlt, hmajor, hd, ha, hb, hy⟩ := layout_dab ((Nat.add_zero _).trans h)
  exact ⟨hlt, by simp [decodeRaw, decodeMajor31, hmajor, fld_within hd, hp, ha, hb, fld_cut 8, fld_of_low hy]⟩

/-- R81: SPAWN and CALLAT name two registers and a multiple of four. -/
theorem decodes_spawn (d a : Reg) (b : BitVec 4) : ∀ i ∈ [.spawn d a b, .callat d a b], Decodes i := by
  simp only [List.forall_mem_cons, List.not_mem_nil, false_imp_iff, implies_true, and_true]
  and_intros
  all_goals
    intro n h
    injection h with h
    obtain ⟨hlt, hmajor, hd, ha, hz⟩ := layout_da h
    have hb : fld n 13 10 = b.toNat := by simp only [fld]; omega
    exact ⟨hlt, by simp [decodeRaw, decodeMajor30, hmajor, hd, ha, hb, fld_of_low hz]⟩

/-- R81: WAIT and FILL.WAIT name two registers and a register pair. -/
theorem decodes_wait (d a : Reg) (b : BitVec 5) : ∀ i ∈ [.wait d a b, .fillWait d a b], Decodes i := by
  simp only [List.forall_mem_cons, List.not_mem_nil, false_imp_iff, implies_true, and_true]
  and_intros
  all_goals
    intro n h
    injection h with h
    obtain ⟨hlt, hmajor, hd, ha, hz⟩ := layout_da h
    have hb : fld n 13 9 = b.toNat := by simp only [fld]; omega
    have hlow : fld n 7 0 = fld n 8 0 % 256 := by simp only [fld]; omega
    exact ⟨hlt, by simp [decodeRaw, decodeMajor30, decodeMajor31, hmajor, hd, ha, hb, hlow, fld_cut 9, fld_of_low hz]⟩

/-- R77: LD.P and ST.P name a register pair, a register and an offset. -/
theorem decodes_pairAccess (d : BitVec 5) (a : Reg) (o : BitVec 14) : ∀ i ∈ [.ldP d a o, .stP d a o], Decodes i := by
  simp only [List.forall_mem_cons, List.not_mem_nil, false_imp_iff, implies_true, and_true]
  and_intros
  all_goals
    intro n h
    injection h with h
    obtain ⟨hlt, hmajor, hd, hpair, ha, hz⟩ := layout_pair h
    have ho : fld n 13 0 = o.toNat := by rw [fld_of_low hz] <;> omega
    exact ⟨hlt, by simp [decodeRaw, decodeMajor23, decodeMajor28, hmajor, hd, hpair, ha, ho]⟩

/-- R81: RECV and PLACEQ name a register pair and a register. -/
theorem decodes_pairReg (d : BitVec 5) (a : Reg) : ∀ i ∈ [.recv d a, .placeq d a], Decodes i := by
  simp only [List.forall_mem_cons, List.not_mem_nil, false_imp_iff, implies_true, and_true]
  and_intros
  all_goals
    intro n h
    injection h with h
    obtain ⟨hlt, hmajor, hd, hpair, ha, hz⟩ := layout_pair ((Nat.add_zero _).trans h)
    exact ⟨hlt, by simp [decodeRaw, decodeMajor30, decodeMajor32, hmajor, hd, hpair, ha, fld_of_low hz]⟩

/-- R81: ROUTE names a register pair and two registers. -/
theorem decodes_route (d : BitVec 5) (a b : Reg) : Decodes (.route d a b) := by
  intro n h
  injection h with h
  obtain ⟨hlt, hmajor, hd, hpair, ha, hz⟩ := layout_pair h
  have hsel : fld n 7 0 = 0 := by simp only [fld]; omega
  have hb : fld n 13 8 = b.toNat := by simp only [fld]; omega
  exact ⟨hlt, by simp [decodeRaw, decodeMajor32, hmajor, hd, hpair, ha, hb, hsel]⟩

/-- R81: TSCR names a register pair. -/
theorem decodes_tscr (d : BitVec 5) : Decodes (.tscr d) := by
  intro n h
  injection h with h
  obtain ⟨hlt, hmajor, hz⟩ := layout_low h
  have hd : fld n 25 21 = d.toNat := by simp only [fld]; omega
  have hsel : fld n 20 0 = 16 := by simp only [fld]; omega
  exact ⟨hlt, by simp [decodeRaw, decodeMajor31, hmajor, hd, hsel, fld_within hsel]⟩

/-- R81: CSR instructions name a register and a 12-bit number. -/
theorem decodes_csr (d : Reg) (k : BitVec 12) : ∀ i ∈ [.csrr d k, .csrw d k, .csrs d k, .csrc d k], Decodes i := by
  simp only [List.forall_mem_cons, List.not_mem_nil, false_imp_iff, implies_true, and_true]
  and_intros
  all_goals
    intro n h
    injection h with h
    obtain ⟨hlt, hmajor, hd, hz⟩ := layout_d h
    have hk : fld n 19 8 = k.toNat := by simp only [fld]; omega
    exact ⟨hlt, by simp [decodeRaw, decodeMajor33, hmajor, hd, hk, fld_of_low hz]⟩

/-- R61: MOVI and LEA.PC hold a 20-bit immediate. -/
theorem decodes_imm20 (d : Reg) (k : BitVec 20) : ∀ i ∈ [.movi d k, .leaPc d k], Decodes i := by
  simp only [List.forall_mem_cons, List.not_mem_nil, false_imp_iff, implies_true, and_true]
  and_intros
  all_goals
    intro n h
    injection h with h
    obtain ⟨hlt, hmajor, hd, hz⟩ := layout_d h
    have hk : fld n 19 0 = k.toNat := by simp only [fld]; omega
    exact ⟨hlt, by simp [decodeRaw, decodeMajor0A, decodeMajor0E, hmajor, hd, hk]⟩

/-- R61: MOVHI holds the number of a halfword and its 16 bits. -/
theorem decodes_movhi (d : Reg) (x : BitVec 2) (k : BitVec 16) : Decodes (.movhi d x k) := by
  intro n h
  injection h with h
  obtain ⟨hlt, hmajor, hd, hz⟩ := layout_d ((Nat.add_assoc ..).symm.trans h)
  have hh : fld n 19 18 = x.toNat := by simp only [fld]; omega
  have hsel : fld n 17 16 = 0 := by simp only [fld]; omega
  have hk : fld n 15 0 = k.toNat := by simp only [fld]; omega
  exact ⟨hlt, by simp [decodeRaw, decodeMajor0B, hmajor, hd, hh, hsel, hk]⟩

/-- R62, R73: BR holds a 22-bit displacement. -/
theorem decodes_br (k : BitVec 22) : Decodes (.br k) := by
  intro n h
  injection h with h
  obtain ⟨hlt, hmajor, hz⟩ := layout_low h
  have hsel : fld n 25 22 = 0 := by simp only [fld]; omega
  have hk : fld n 21 0 = k.toNat := by simp only [fld]; omega
  exact ⟨hlt, by simp [decodeRaw, decodeMajor10, hmajor, hsel, hk]⟩

/-- R61, R62: BRP holds a sense, a predicate and a 22-bit displacement. -/
theorem decodes_brp (s : Bool) (p : Pred) (k : BitVec 22) : Decodes (.brp s p k) := by
  intro n h
  injection h with h
  have hs := s.toNat_lt
  obtain ⟨hlt, hmajor, hz⟩ := layout_low (n := n) (c := 0x44000000) (z := s.toNat * 33554432 + p.toNat * 4194304 + k.toNat) (by omega)
  have hbit : fld n 25 25 = s.toNat := by simp only [fld]; omega
  have hp : fld n 24 22 = p.toNat := by simp only [fld]; omega
  have hk : fld n 21 0 = k.toNat := by simp only [fld]; omega
  exact ⟨hlt, by simp [decodeRaw, decodeMajor11, hmajor, fbit_of_fld hbit, hp, hk]⟩

/-- R62: JMP and CALL hold a 26-bit displacement. -/
theorem decodes_jump (k : BitVec 26) : ∀ i ∈ [.jmp k, .call k], Decodes i := by
  simp only [List.forall_mem_cons, List.not_mem_nil, false_imp_iff, implies_true, and_true]
  and_intros
  all_goals
    intro n h
    injection h with h
    obtain ⟨hlt, hmajor, hz⟩ := layout_low h
    have hk : fld n 25 0 = k.toNat := by simp only [fld]; omega
    exact ⟨hlt, by simp [decodeRaw, decodeMajor12, decodeMajor13, hmajor, hk]⟩

/-- R67: HCTX and HFETCH hold six bits and 14 bits. -/
theorem decodes_hctxHfetch (a : Reg) (k : BitVec 14) : ∀ i ∈ [.hctx a k, .hfetch a k], Decodes i := by
  simp only [List.forall_mem_cons, List.not_mem_nil, false_imp_iff, implies_true, and_true]
  and_intros
  all_goals
    intro n h
    injection h with h
    obtain ⟨hlt, hmajor, hz⟩ := layout_low ((Nat.add_assoc ..).symm.trans h)
    have hsel := fld_above 25 20 hz (by omega)
    have ha : fld n 19 14 = a.toNat := by simp only [fld]; omega
    have hk : fld n 13 0 = k.toNat := by simp only [fld]; omega
    exact ⟨hlt, by simp [decodeRaw, decodeMajor3F, hmajor, hsel, ha, hk]⟩

/-- R67: HNOP holds any 20 bits. -/
theorem decodes_hnop (k : BitVec 20) : Decodes (.hnop k) := by
  intro n h
  injection h with h
  obtain ⟨hlt, hmajor, hz⟩ := layout_low h
  have hsel : fld n 25 20 = 0 := by simp only [fld]; omega
  have hk : fld n 19 0 = k.toNat := by simp only [fld]; omega
  exact ⟨hlt, by simp [decodeRaw, decodeMajor3F, hmajor, hsel, hk]⟩

/-- R67: a hint of a reserved class, which is none of the three that have a meaning. -/
theorem decodes_hintReserved (c : BitVec 6) (k : BitVec 20) (hc : 3 ≤ c.toNat) : Decodes (.hintReserved c k) := by
  intro n h
  injection h with h
  obtain ⟨hlt, hmajor, hd, hz⟩ := layout_d h
  have hk : fld n 19 0 = k.toNat := by simp only [fld]; omega
  have hcode : c.toNat ≠ 0 ∧ c.toNat ≠ 1 ∧ c.toNat ≠ 2 := by omega
  exact ⟨hlt, by simp [decodeRaw, decodeMajor3F, hmajor, hd, hk, hcode]⟩

/-- 03 R61 to R81: the word of every well-formed instruction is read as the instruction. -/
theorem decodes_of_wellFormed {i : Instr} (hwf : i.wellFormed = true) : Decodes i := by
  cases i with
  | add d a b w | sub d a b w | mul d a b w | divs d a b w | divn d a b w | rems d a b w | remn d a b w | shl d a b w | shr d a b w
  | asr d a b w | rol d a b w | ror d a b w | fadd d a b w | fsub d a b w | fmul d a b w | fdiv d a b w | fmin d a b w | fmax d a b w
  | fcpys d a b w =>
    exact decodes_threeRegsBit d a b w _ (by simp)
  | mulhS d a b | mulhN d a b | and d a b | or d a b | xor d a b | andn d a b | orn d a b | minS d a b | minN d a b | maxS d a b
  | maxN d a b | leaX1 d a b | leaX2 d a b | leaX4 d a b | leaX8 d a b | gangForm d a b | send d a b | fillInit d a b | fillAdd d a b
  | pcnt d a b | attest d a b =>
    exact decodes_threeRegs d a b _ (by simp)
  | clz d a w | popc d a w | fsqrt d a w | fabs d a w | fneg d a w | fclass d a w =>
    exact decodes_twoRegsBit d a w _ (by simp)
  | brev d a | frcp d a | frsq d a | fexp2 d a | flog2 d a | gangJoin d a | mxcfg d a | wake d a | resume d a | kill d a | thr d a
  | sbarArrive d a | xcnt d a | feat d a | dbgRd d a | dbgStep d a =>
    exact decodes_twoRegs d a _ (by simp)
  | mad d a b c =>
    exact decodes_mad d a b c
  | sel d a b s p =>
    exact decodes_sel d a b s p
  | cmp p a b w c =>
    exact decodes_cmp p a b w c
  | cmpi c p a k =>
    exact decodes_cmpi c p a k (Nat.lt_succ_of_le (of_decide_eq_true hwf))
  | addi d a o | andi d a o | ori d a o | xori d a o | ldB d a o | ldH d a o | ldW d a o | ldD d a o | ldBS d a o | ldHS d a o
  | ldWS d a o | stB d a o | stH d a o | stW d a o | stD d a o =>
    exact decodes_imm14 d a o _ (by simp)
  | shli d a k | shri d a k | asri d a k | rori d a k =>
    exact decodes_shiftImm d a k _ (by simp)
  | shliW d a k | shriW d a k | asriW d a k | roriW d a k =>
    exact decodes_shiftImmW d a k _ (by simp)
  | movi d k | leaPc d k =>
    exact decodes_imm20 d k _ (by simp)
  | movhi d x k =>
    exact decodes_movhi d x k
  | bfxS d a l p | bfxN d a l p | bfi d a l p =>
    exact decodes_bitField d a l p _ (by simp)
  | br k =>
    exact decodes_br k
  | brp s p k =>
    exact decodes_brp s p k
  | jmp k | call k =>
    exact decodes_jump k _ (by simp)
  | nop | ret | exit | yield | gangLeave | mxwait | eret | halt =>
    exact decodes_nullary _ (by simp)
  | jmpr a | callr a | mxburst a | migr a | sleep a | prio a | gtsync a | upret a =>
    exact decodes_oneReg a _ (by simp)
  | trap c | brk c =>
    exact decodes_trapBrk c _ (by simp)
  | fcmpEq p a b w | fcmpLt p a b w | fcmpLe p a b w | fcmpUn p a b w =>
    exact decodes_fcmp p a b w _ (by simp)
  | fma t d a b c | fms t d a b c | fnma t d a b c | fnms t d a b c =>
    exact decodes_fused t d a b c _ (by simp)
  | padd d a b t | psub d a b t | pmul d a b t | pmin d a b t | pmax d a b t =>
    exact decodes_packed d a b t _ (by simp)
  | pdot d a b t =>
    exact decodes_pdot d a b t
  | pfma d a b c t =>
    exact decodes_pfma d a b c t
  | cvt d a s r t u =>
    exact decodes_cvt d a s r t u
  | mxpack d a b t | mxunpack d a b t | mxscale d a b t =>
    exact decodes_mx d a b t _ (by simp)
  | ldP d a o | stP d a o =>
    exact decodes_pairAccess d a o _ (by simp)
  | ldAcq d a s wl =>
    exact decodes_orderedAccess d a s wl .b _ (by simp)
  | stRel d a s ws =>
    exact decodes_orderedAccess d a s .b ws _ (by simp)
  | ldfe d a s | ldfeK d a s | stfe d a s | stfeF d a s =>
    exact decodes_fullEmpty d a s _ (by simp)
  | pref a l =>
    exact decodes_pref a l
  | fence s | fenceAcq s | fenceRel s | esync s =>
    exact decodes_fence s _ (by simp)
  | atomAdd d a b wd o | atomAnd d a b wd o | atomOr d a b wd o | atomXor d a b wd o | atomMinS d a b wd o | atomMinN d a b wd o
  | atomMaxS d a b wd o | atomMaxN d a b wd o | atomSwap d a b wd o =>
    exact decodes_atom d a b wd o _ (by simp)
  | atomFaddF32 d a b o | atomFaddF64 d a b o | atomFmaxF32 d a b o =>
    exact decodes_atomFloat d a b o _ (by simp)
  | casW d a b c o | casD d a b c o =>
    exact decodes_cas d a b c o _ (by simp)
  | gangMma q g s =>
    exact decodes_gangMma q g s
  | accLd d t b | accSt d t b | accCvt d t b =>
    exact decodes_accTile d t b _ (by simp)
  | accZero t =>
    exact decodes_accZero t
  | accScale t b =>
    exact decodes_accScale t b
  | cpy a b s q r f | cpy2d a b s q r f | deal a b s q r f | rstr a b s q r f | mred a b s q r f =>
    exact decodes_engine a b s q r f _ (by simp)
  | spawn d a b | callat d a b =>
    exact decodes_spawn d a b _ (by simp)
  | recv d a | placeq d a =>
    exact decodes_pairReg d a _ (by simp)
  | wait d a b | fillWait d a b =>
    exact decodes_wait d a b _ (by simp)
  | sbarWait p a b =>
    exact decodes_sbarWait p a b
  | tscr d =>
    exact decodes_tscr d
  | route d a b =>
    exact decodes_route d a b
  | tlbinv a b | dbgWr a b =>
    exact decodes_tlbinvDbgWr a b _ (by simp)
  | csrr d k | csrw d k | csrs d k | csrc d k =>
    exact decodes_csr d k _ (by simp)
  | hnop k =>
    exact decodes_hnop k
  | hctx a k | hfetch a k =>
    exact decodes_hctxHfetch a k _ (by simp)
  | hintReserved c k =>
    exact decodes_hintReserved c k (by simp [Instr.wellFormed] at hwf; omega)
  | _ => nofun

end Sys2Proof.Proofs

/-! PROOF. A word that the decoder's tables read is the encoding of what they read (03 R61 to R81). Every field is a difference of two
quotients of the word, and so each test that the decoder makes and each operand that it reads are linear in the quotients: the parts of
the encoding add up to the word. -/
namespace Sys2Proof.Proofs
open Sys2Proof.Machine

/-- What lies above bit k of a word. -/
@[irreducible] def above (n k : Nat) : Int := ((n / 2 ^ k : Nat) : Int)

theorem above_zero {n : Nat} : above n 0 = n := by simp [above]

theorem above_top {n : Nat} (h : n < 2 ^ 32) : above n 32 = 0 := by simp only [above, Nat.div_eq_of_lt h, Nat.cast_zero]

theorem above_succ (n k : Nat) : 2 * above n (k + 1) ≤ above n k ∧ above n k ≤ 2 * above n (k + 1) + 1 := by
  unfold above
  rw [pow_succ, ← Nat.div_div_eq_div_mul]
  omega

theorem fld_eq_above {n hi lo : Nat} (h : lo ≤ hi) : ((fld n hi lo : Nat) : Int) = above n lo - 2 ^ (hi + 1 - lo) * above n (hi + 1) := by
  have hk : 2 ^ (hi + 1) = 2 ^ lo * 2 ^ (hi + 1 - lo) := by rw [← pow_add, Nat.add_sub_cancel' (by omega)]
  have hdiv := Int.mul_ediv_add_emod ((n / 2 ^ lo : Nat) : Int) (2 ^ (hi + 1 - lo))
  unfold fld above
  rw [hk, ← Nat.div_div_eq_div_mul]
  push_cast at hdiv ⊢
  omega

theorem fld_eq_iff {n hi lo v : Nat} (h : lo ≤ hi) : fld n hi lo = v ↔ above n lo - 2 ^ (hi + 1 - lo) * above n (hi + 1) = v := by
  rw [← fld_eq_above h, Nat.cast_inj]

theorem toNat_ofNat_fld {n hi lo k : Nat} (h : k = hi + 1 - lo) : (BitVec.ofNat k (fld n hi lo)).toNat = fld n hi lo := by
  rw [BitVec.toNat_ofNat, fld, h, Nat.mod_mod]

theorem toNat_fbit {n k : Nat} : (fbit n k).toNat = fld n k k := by
  have hbit : fld n k k < 2 := by
    rw [fld, Nat.add_sub_cancel_left]
    exact Nat.mod_lt _ (by decide)
  unfold fbit
  interval_cases fld n k k <;> rfl

/-! Codes: what is read from a code has that code. -/

theorem condOfCode_eq_ok_iff {k : Nat} {c : Cond} : Cond.ofCode k = .ok c ↔ k = c.code := by
  refine ⟨fun h => ?_, fun h => h ▸ condOfCode_code c⟩
  unfold Cond.ofCode at h
  split at h <;> cases h <;> rfl

theorem scopeOfCode_eq_ok_iff {k : Nat} {c : Scope} : Scope.ofCode k = .ok c ↔ k = c.code := by
  refine ⟨fun h => ?_, fun h => h ▸ scopeOfCode_code c⟩
  unfold Scope.ofCode at h
  split at h <;> cases h <;> rfl

theorem atomOrderOfCode_eq_ok_iff {k : Nat} {c : AtomOrder} : AtomOrder.ofCode k = .ok c ↔ k = c.code := by
  refine ⟨fun h => ?_, fun h => h ▸ atomOrderOfCode_code c⟩
  unfold AtomOrder.ofCode at h
  split at h <;> cases h <;> rfl

theorem widthOfCode_eq_ok_iff {k : Nat} {c : Width} : Width.ofCode k = .ok c ↔ k = c.code := by
  refine ⟨fun h => ?_, fun h => h ▸ widthOfCode_code c⟩
  unfold Width.ofCode at h
  split at h <;> cases h <;> rfl

theorem ldWidthOfCode_eq_ok_iff {k : Nat} {c : LdWidth} : LdWidth.ofCode k = .ok c ↔ k = c.code := by
  refine ⟨fun h => ?_, fun h => h ▸ ldWidthOfCode_code c⟩
  unfold LdWidth.ofCode at h
  split at h <;> cases h <;> rfl

theorem stWidthOfCode_eq_ok_iff {k : Nat} {c : StWidth} : StWidth.ofCode k = .ok c ↔ k = c.code := by
  refine ⟨fun h => ?_, fun h => h ▸ stWidthOfCode_code c⟩
  unfold StWidth.ofCode at h
  split at h <;> cases h <;> rfl

theorem prefLevelOfCode_eq_ok_iff {k : Nat} {c : PrefLevel} : PrefLevel.ofCode k = .ok c ↔ k = c.code := by
  refine ⟨fun h => ?_, fun h => h ▸ prefLevelOfCode_code c⟩
  unfold PrefLevel.ofCode at h
  split at h <;> cases h <;> rfl

theorem lane3OfCode_eq_ok_iff {k : Nat} {c : Lane3} : Lane3.ofCode k = .ok c ↔ k = c.code := by
  refine ⟨fun h => ?_, fun h => h ▸ lane3OfCode_code c⟩
  unfold Lane3.ofCode at h
  split at h <;> cases h <;> rfl

theorem lane5OfCode_eq_ok_iff {k : Nat} {c : Lane5} : Lane5.ofCode k = .ok c ↔ k = c.code := by
  refine ⟨fun h => ?_, fun h => h ▸ lane5OfCode_code c⟩
  unfold Lane5.ofCode at h
  split at h <;> cases h <;> rfl

theorem mxTypeOfCode_eq_ok_iff {k : Nat} {c : MxType} : MxType.ofCode k = .ok c ↔ k = c.code := by
  refine ⟨fun h => ?_, fun h => h ▸ mxTypeOfCode_code c⟩
  unfold MxType.ofCode at h
  split at h <;> cases h <;> rfl

theorem cvtTypeOfCode_eq_ok_iff {k : Nat} {c : CvtType} : CvtType.ofCode k = .ok c ↔ k = c.code := by
  refine ⟨fun h => ?_, fun h => h ▸ cvtTypeOfCode_code c⟩
  unfold CvtType.ofCode at h
  split at h <;> cases h <;> rfl

theorem rndSelOfCode_eq_ok_iff {k : Nat} {c : RndSel} : RndSel.ofCode k = .ok c ↔ k = c.code := by
  refine ⟨fun h => ?_, fun h => h ▸ rndSelOfCode_code c⟩
  unfold RndSel.ofCode at h
  split at h <;> cases h <;> rfl

/-- Every instruction that r answers has the word n. -/
def Encodes (n : Nat) (r : Except DecodeError Instr) : Prop := ∀ i, r = .ok i → encodeNat i = some n

theorem encodes_error {n : Nat} {e : DecodeError} : Encodes n (.error e) := nofun

theorem encodes_ok {n m : Nat} {i : Instr} (h : encodeNat i = some m) (e : (m : Int) = n) : Encodes n (.ok i) := by
  rintro _ ⟨⟩
  rw [h, Int.ofNat_inj.1 e]

theorem encodes_ite {n : Nat} {c : Prop} [Decidable c] {x y : Except DecodeError Instr} (hx : c → Encodes n x) (hy : Encodes n y) :
    Encodes n (if c then x else y) := by
  split
  · exact hx ‹_›
  · exact hy

theorem encodes_bind {n : Nat} {α : Type} {x : Except DecodeError α} {f : α → Except DecodeError Instr}
    (h : ∀ c, x = .ok c → Encodes n (f c)) : Encodes n (x >>= f) := by
  cases x with
  | error e => nofun
  | ok c => exact h c rfl

/-- 03 R65: each branch of each major opcode's table reads the operands of which the word is made. The type of a fused multiply-add,
bit 26, is the one operand within the major opcode, and needs its bounds. -/
theorem encodes_decodeRaw {n : Nat} (h : n < 2 ^ 32) : Encodes n (decodeRaw n) := by
  have hzero := above_zero (n := n)
  have htop := above_top h
  have htype := above_succ n 26
  clear h
  unfold decodeRaw
  split
  on_goal 53 => exact encodes_error
  all_goals simp only [decodeMajor01, decodeMajor02, decodeMajor03, decodeMajor04, decodeMajor05, decodeMajor06, decodeMajor07,
    decodeMajor08, decodeMajor09, decodeMajor0A, decodeMajor0B, decodeMajor0C, decodeMajor0D, decodeMajor0E, decodeMajor10,
    decodeMajor11, decodeMajor12, decodeMajor13, decodeMajor14, decodeMajor15, decodeMajor16, decodeMajor18, decodeMajor19,
    decodeMajor1A, decodeMajor1B, decodeMajor1C, decodeMajor1D, decodeMajor1E, decodeMajor1F, decodeMajor20, decodeMajor21,
    decodeMajor22, decodeMajor23, decodeMajor24, decodeMajor25, decodeMajor26, decodeMajor27, decodeMajor28, decodeMajor29,
    decodeMajor2A, decodeMajor2B, decodeMajor2C, decodeMajor2D, decodeMajor2E, decodeMajor2F, decodeMajor30, decodeMajor31,
    decodeMajor32, decodeMajor33, decodeMajor34, decodeMajor3F]
  all_goals repeat' first
    | with_reducible refine encodes_ite (fun _ => ?_) ?_
    | with_reducible refine encodes_bind (fun _ _ => ?_)
  all_goals first | exact encodes_error | refine encodes_ok rfl ?_
  all_goals simp only [fld_eq_iff, fld_eq_above, toNat_ofNat_fld, toNat_fbit, Int.natCast_add, Int.natCast_mul,
    Int.cast_ofNat_Int, Nat.reduceAdd, Nat.reduceSub, Nat.reduceLeDiff, Int.reducePow, condOfCode_eq_ok_iff, scopeOfCode_eq_ok_iff,
    atomOrderOfCode_eq_ok_iff, widthOfCode_eq_ok_iff, ldWidthOfCode_eq_ok_iff, stWidthOfCode_eq_ok_iff, prefLevelOfCode_eq_ok_iff,
    lane3OfCode_eq_ok_iff, lane5OfCode_eq_ok_iff, mxTypeOfCode_eq_ok_iff, cvtTypeOfCode_eq_ok_iff, rndSelOfCode_eq_ok_iff] at *
  all_goals lia

end Sys2Proof.Proofs

/-! PROOF. Decoding and encoding agree (03 R59, R61 to R81): every well-formed instruction's word decodes to it, every word that decodes is
the encoding of what it decodes to, and words written out from the encoding tables. -/
namespace Sys2Proof.Proofs
open Sys2Proof.Machine

theorem length_leBytes (k v : Nat) : (leBytes k v).length = k := by
  induction k generalizing v with
  | zero => rfl
  | succ k ih => rw [leBytes, List.length_cons, ih]

/-- 00 R2: the bytes of a value are read back as its low bytes. -/
theorem leNat_leBytes (k v : Nat) : leNat (leBytes k v) = v % 256 ^ k := by
  induction k generalizing v with
  | zero => rw [pow_zero, Nat.mod_one]; rfl
  | succ k ih => rw [leBytes, leNat, ih, BitVec.toNat_ofNat, pow_succ' 256, Nat.mod_mul]

/-- 03 R59: the stored bytes of a 32-bit word decode as the word does. -/
theorem decodeTableWord_eq_toOption {w : Nat} (b : Nat) (h : w < 2 ^ 32) : decodeTableWord b w = (decodeWord w).toOption := by
  have hbytes : leNat ((leBytes 4 w).take 4) = w := by
    rw [List.take_of_length_le (length_leBytes 4 w).le, leNat_leBytes, Nat.mod_eq_of_lt (by simpa using h)]
  rw [decodeTableWord, decode, if_neg (by rw [length_leBytes]; decide), hbytes]
  cases decodeWord w <;> rfl

/-- The word of all ones has the fields of a hint whose code is reserved, and that one is not well formed (03 R66). -/
theorem ne_allOnes_of_decodeRaw {n : Nat} {i : Instr} (hwf : i.wellFormed = true) (h : decodeRaw n = .ok i) : n ≠ 0xFFFFFFFF := by
  rintro rfl
  have hones : decodeRaw 0xFFFFFFFF = .ok (.hintReserved 63 0xFFFFF) := rfl
  rw [hones] at h
  cases h
  exact absurd hwf (by decide)

/-- 03 R66, R68: a word decodes to an instruction exactly if the tables read it so and the instruction is well formed. -/
theorem decodeWord_eq_ok_iff {n : Nat} {i : Instr} : decodeWord n = .ok i ↔ decodeRaw n = .ok i ∧ i.wellFormed = true := by
  constructor
  · intro h
    unfold decodeWord at h
    split at h
    · cases h
    · split at h
      · cases h
      · split at h
        · cases h
          exact ⟨‹_›, ‹_›⟩
        · cases h
  · rintro ⟨h, hwf⟩
    rw [decodeWord, if_neg (ne_allOnes_of_decodeRaw hwf h), h]
    exact if_pos hwf

/-- 03 R61 to R81: the word of a well-formed instruction decodes to it. -/
theorem decodeWord_of_encodeNat {i : Instr} {w : Nat} (hwf : i.wellFormed = true) (h : encodeNat i = some w) :
    w < 2 ^ 32 ∧ decodeWord w = .ok i := by
  obtain ⟨hlt, hraw⟩ := decodes_of_wellFormed hwf w h
  exact ⟨hlt, decodeWord_eq_ok_iff.2 ⟨hraw, hwf⟩⟩

theorem decodeTableWord_of_encodeNat {i : Instr} {w : Nat} (hwf : i.wellFormed = true) (h : encodeNat i = some w) :
    decodeTableWord 32 w = some i := by
  obtain ⟨hlt, hdecode⟩ := decodeWord_of_encodeNat hwf h
  rw [decodeTableWord_eq_toOption 32 hlt, hdecode]
  rfl

/-- Settles O56, forth family by family from the layout of the words, and back by adding up the fields that the decoder reads. -/
theorem decodeOfEncode : Obligations.DecodeOfEncode := by
  intro i w
  constructor
  · intro hwf h
    obtain ⟨hlt, hdecode⟩ := decodeWord_of_encodeNat hwf h
    exact ⟨hlt, hdecode, decodeTableWord_of_encodeNat hwf h⟩
  · intro hlt h
    obtain ⟨hraw, -⟩ := decodeWord_eq_ok_iff.1 h
    exact encodes_decodeRaw hlt i hraw

/-- Settles O55: each word is the encoding of the instruction it is to decode to; the last six are no instruction. -/
theorem decodedWords : Obligations.DecodedWords := by
  refine ⟨?_, ?_, ?_, ?_, ?_, ?_, ?_, ?_, ?_, ?_, ?_, ?_, ?_, ?_⟩
  on_goal 14 => decide +kernel
  all_goals exact decodeTableWord_of_encodeNat rfl rfl

end Sys2Proof.Proofs

/-! PROOF. NaN operands of scalar and packed lanes (04 R94), and encodings that are their own rounding (04 R89, R90, R95 to R97). -/
namespace Sys2Proof.Proofs
open Sys2Proof.Machine

/-! NaN: what an operation makes of a NaN operand, before it is delivered. -/

theorem isNan_iff {x : Val} : x.isNan = true ↔ ∃ invalid, x = .nan invalid := by
  cases x <;> simp [Val.isNan]

/-- Two addends of which one is NaN are not infinities of both signs. -/
theorem not_opposed_of_isNan {x y : Val} (h : x.isNan = true ∨ y.isNan = true) :
    ([x, y].any (Val.isInf true) && [x, y].any (Val.isInf false)) = false := by
  simp only [isNan_iff] at h
  obtain ⟨a, rfl⟩ | ⟨b, rfl⟩ := h
  · cases y <;> simp [Val.isInf]
  · cases x <;> simp [Val.isInf]

theorem sum_pair_of_isNan (r : RMode) {x y : Val} (h : x.isNan = true ∨ y.isNan = true) :
    Val.sum r [x, y] = .nan (x.isInvalid || y.isInvalid) := by
  have hany : [x, y].any Val.isNan = true := by simpa using h
  rw [Val.sum, if_pos hany, not_opposed_of_isNan h]
  simp

theorem mul_of_isNan {x y : Val} (h : x.isNan = true ∨ y.isNan = true) : x.mul y = .nan (x.isInvalid || y.isInvalid) := by
  simp only [isNan_iff] at h
  obtain ⟨a, rfl⟩ | ⟨b, rfl⟩ := h
  · cases y <;> simp [Val.mul, Val.isInvalid]
  · cases x <;> simp [Val.mul, Val.isInvalid]

theorem div_of_isNan (f : Fmt) (r : RMode) {x y : Val} (h : x.isNan = true ∨ y.isNan = true) :
    f.div r x y = f.deliver r false (.nan (x.isInvalid || y.isInvalid)) := by
  simp only [isNan_iff] at h
  obtain ⟨a, rfl⟩ | ⟨b, rfl⟩ := h
  · cases y <;> simp [Fmt.div, Val.isInvalid]
  · cases x <;> simp [Fmt.div, Val.isInvalid]

theorem sqrt_of_isNan (f : Fmt) (r : RMode) {x : Val} (h : x.isNan = true) : f.sqrt r x = f.deliver r false (.nan x.isInvalid) := by
  cases x with
  | nan => rfl
  | inf | fin => cases h

/-- A format with quiet and signalling NaNs delivers its canonical NaN, with NV exactly if the value is invalid. -/
theorem deliver_nan {f : Fmt} (hf : f.spec = .ieee) (r : RMode) (sat invalid : Bool) :
    f.deliver r sat (.nan invalid) = (f.nan, if !invalid then 0 else flagNV) := by
  cases invalid <;> simp [Fmt.deliver, hf, flagIf]

theorem spec_of_scalar {f : Fmt} (h : f ∈ [f64, f32, bf16, f16]) : f.spec = .ieee := by
  simp only [List.mem_cons, List.not_mem_nil, or_false] at h
  obtain rfl | rfl | rfl | rfl := h <;> rfl

/-! The fields of an encoding (04 R89). -/

/-- The sign of an encoding, and below it its exponent field and its mantissa. -/
def signField (f : Fmt) (n : Nat) : Bool := bit n (f.eb + f.mb)
def expField (f : Fmt) (n : Nat) : Nat := bits n (f.eb + f.mb - 1) f.mb
def manField (f : Fmt) (n : Nat) : Nat := bits n (f.mb - 1) 0

/-- What the arithmetic below needs of a format, and every format of 04 R89 and R90 has: an exponent field of two bits or more, a mantissa,
and E4M3's fields where the one NaN is E4M3's. -/
structure Regular (f : Fmt) : Prop where
  eb_ge : 2 ≤ f.eb
  mb_pos : 1 ≤ f.mb
  e4m3 : f.spec = .e4m3 → f.eb = 4 ∧ f.mb = 3

theorem regular_of_mem {f : Fmt} (h : f ∈ [f64, f32, bf16, f16, e5m2, e4m3, e3m2, e2m3, e2m1]) : Regular f := by
  simp only [List.mem_cons, List.not_mem_nil, or_false] at h
  obtain rfl | rfl | rfl | rfl | rfl | rfl | rfl | rfl | rfl := h <;> exact ⟨by decide, by decide, by decide⟩

theorem manField_eq {f : Fmt} (h : 1 ≤ f.mb) (n : Nat) : manField f n = n % 2 ^ f.mb := by
  simp [manField, bits, Nat.sub_add_cancel h]

theorem expField_eq {f : Fmt} (h : 1 ≤ f.mb) (n : Nat) : expField f n = n / 2 ^ f.mb % 2 ^ f.eb := by
  have hwidth : f.eb + f.mb - 1 + 1 - f.mb = f.eb := by omega
  rw [expField, bits, hwidth]

theorem manField_lt {f : Fmt} (h : 1 ≤ f.mb) (n : Nat) : manField f n < 2 ^ f.mb := by
  rw [manField_eq h]
  exact Nat.mod_lt _ (by positivity)

theorem expField_lt {f : Fmt} (h : 1 ≤ f.mb) (n : Nat) : expField f n < 2 ^ f.eb := by
  rw [expField_eq h]
  exact Nat.mod_lt _ (by positivity)

/-- An encoding is its fields put together. -/
theorem pack_fields {f : Fmt} {n : Nat} (h : 1 ≤ f.mb) (hn : n < 2 ^ f.width) :
    f.pack (signField f n) (expField f n) (manField f n) = n := by
  have hsplit : n / 2 ^ (f.eb + f.mb) * 2 ^ (f.eb + f.mb) + n / 2 ^ f.mb % 2 ^ f.eb * 2 ^ f.mb + n % 2 ^ f.mb = n := by
    have hexp := Nat.div_add_mod' (n / 2 ^ f.mb) (2 ^ f.eb)
    rw [Nat.div_div_eq_div_mul, ← pow_add, Nat.add_comm f.mb] at hexp
    calc _ = (n / 2 ^ (f.eb + f.mb) * 2 ^ f.eb + n / 2 ^ f.mb % 2 ^ f.eb) * 2 ^ f.mb + n % 2 ^ f.mb := by ring
      _ = n := by rw [hexp, Nat.div_add_mod']
  have hsign : b2n (signField f n) = n / 2 ^ (f.eb + f.mb) := by
    have htop : n / 2 ^ (f.eb + f.mb) < 2 := by
      rw [Nat.div_lt_iff_lt_mul (by positivity), ← pow_succ']
      exact hn.trans_eq (congrArg (2 ^ ·) (by rw [Fmt.width]; omega))
    rw [signField, b2n, bit]
    generalize n / 2 ^ (f.eb + f.mb) = b at htop
    interval_cases b <;> rfl
  rw [Fmt.pack, hsign, expField_eq h, manField_eq h, hsplit]

/-! The finite encodings: the value of one, and what rounding makes of that value. -/

/-- The quantum of the subnormals (04 R89, R96). -/
def minQuantum (f : Fmt) : Int := 1 - (f.bias : Int) - f.mb

/-- The value with exponent field e and mantissa m, where these are not special (04 R89). -/
def finiteVal (f : Fmt) (neg : Bool) (e m : Nat) : Val :=
  if e = 0 then .fin neg m (minQuantum f) else .fin neg (2 ^ f.mb + m) ((e : Int) - f.bias - f.mb)

/-- Exponent field e and mantissa m do not exceed those of the largest finite value. -/
def Fits (f : Fmt) (e m : Nat) : Prop := ¬ (f.topE < e ∨ (e = f.topE ∧ f.topM < m))

/-- What an encoding stands for: a NaN, an infinity of a format that has one, or the finite value of its fields, which do not exceed
those of the largest (04 R89, R90). -/
theorem decode_cases {f : Fmt} (h : Regular f) (n : Nat) :
    (f.decode n).isNan = true ∨
    (f.decode n = .inf (signField f n) ∧ f.spec = .ieee ∧ expField f n = 2 ^ f.eb - 1 ∧ manField f n = 0) ∨
    (f.decode n = finiteVal f (signField f n) (expField f n) (manField f n) ∧ Fits f (expField f n) (manField f n)) := by
  have he := expField_lt h.mb_pos n
  have hm := manField_lt h.mb_pos n
  have hdecode : f.decode n = if f.spec = .ieee ∧ expField f n = 2 ^ f.eb - 1 then
      if manField f n = 0 then .inf (signField f n) else .nan (!bit (manField f n) (f.mb - 1) && decide (16 ≤ f.width))
    else if f.spec = .e4m3 ∧ expField f n = 15 ∧ manField f n = 7 then .nan false
    else finiteVal f (signField f n) (expField f n) (manField f n) := rfl
  rw [hdecode]
  by_cases hspecial : f.spec = .ieee ∧ expField f n = 2 ^ f.eb - 1
  · rw [if_pos hspecial]
    by_cases hzero : manField f n = 0
    · exact .inr (.inl ⟨if_pos hzero, hspecial.1, hspecial.2, hzero⟩)
    · exact .inl (by rw [if_neg hzero]; rfl)
  rw [if_neg hspecial]
  by_cases hnan : f.spec = .e4m3 ∧ expField f n = 15 ∧ manField f n = 7
  · exact .inl (by rw [if_pos hnan]; rfl)
  rw [if_neg hnan]
  refine .inr (.inr ⟨rfl, ?_⟩)
  have heb : 0 < 2 ^ f.eb := by positivity
  cases hspec : f.spec with
  | ieee =>
    have hne : expField f n ≠ 2 ^ f.eb - 1 := fun hc => hspecial ⟨hspec, hc⟩
    simp only [Fits, Fmt.topE, Fmt.topM, hspec, reduceCtorEq, if_true, if_false]
    omega
  | e4m3 =>
    obtain ⟨heb4, hmb3⟩ := h.e4m3 hspec
    have hne : ¬ (expField f n = 15 ∧ manField f n = 7) := fun hc => hnan ⟨hspec, hc⟩
    rw [heb4] at he
    rw [hmb3] at hm
    simp only [Fits, Fmt.topE, Fmt.topM, hspec, heb4, hmb3, reduceCtorEq, if_true, if_false]
    omega
  | none =>
    simp only [Fits, Fmt.topE, Fmt.topM, hspec, reduceCtorEq, if_false]
    omega

/-- Nothing discarded, nothing rounded up. -/
theorem roundsUp_exact (r : RMode) (neg : Bool) (kept : Nat) : roundsUp r neg kept 0 0 false = false := by
  cases r <;> rfl

/-- Nothing discarded, no flag. -/
theorem roundFlags_exact (tiny : Bool) : roundFlags false tiny = 0 := by
  simp [roundFlags, flagIf]

/-- 04 R96: a significand m of at most mb + 1 bits keeps the quantum q it is given with, where that is the least of the format or the
significand has all its bits. -/
theorem quantum_kept {f : Fmt} {m : Nat} {q : Int} (hpos : m ≠ 0) (hm : m < 2 ^ (f.mb + 1)) (hq : minQuantum f ≤ q)
    (hfull : q = minQuantum f ∨ 2 ^ f.mb ≤ m) :
    (if (bitLen m : Int) - 1 + q - f.mb < minQuantum f then minQuantum f else (bitLen m : Int) - 1 + q - f.mb) = q := by
  have hlog : Nat.log2 m < f.mb + 1 := (Nat.log2_lt hpos).2 hm
  have hbits : bitLen m = Nat.log2 m + 1 := if_neg hpos
  obtain hmin | hge := hfull
  · split <;> omega
  · have := (Nat.le_log2 hpos).2 hge
    split <;> omega

/-- 04 R96, R97, R100: what rounding makes of a significand that keeps its quantum. -/
theorem round_of_quantum_kept {f : Fmt} {m : Nat} {q : Int} (r : RMode) (sat neg : Bool) (hpos : m ≠ 0) (hm : m < 2 ^ (f.mb + 1))
    (hq : minQuantum f ≤ q) (hfull : q = minQuantum f ∨ 2 ^ f.mb ≤ m)
    (hfits : Fits f (if m < 2 ^ f.mb then 0 else (q + f.mb + f.bias).toNat) (m % 2 ^ f.mb)) :
    f.round r sat neg m q false = (f.pack neg (if m < 2 ^ f.mb then 0 else (q + f.mb + f.bias).toNat) (m % 2 ^ f.mb), 0) := by
  have hkept := quantum_kept hpos hm hq hfull
  rw [minQuantum] at hkept
  simp only [Fmt.round, hpos, false_and, if_false, hkept, sub_self, Int.toNat_zero, pow_zero, Nat.mul_one, Nat.div_one, Nat.mod_one,
    roundsUp_exact, roundFlags_exact, bne_self_eq_false, Bool.or_false, Bool.false_eq_true, hm.ne]
  exact if_neg hfits

/-- A finite encoding is the rounding of its value, in every mode, and raises no flag. -/
theorem deliver_finiteVal {f : Fmt} {e m : Nat} (r : RMode) (sat neg : Bool) (hm : m < 2 ^ f.mb) (hfits : Fits f e m) :
    f.deliver r sat (finiteVal f neg e m) = (f.pack neg e m, 0) := by
  have hdouble : 2 ^ (f.mb + 1) = 2 ^ f.mb + 2 ^ f.mb := by omega
  have hmod : m % 2 ^ f.mb = m := Nat.mod_eq_of_lt hm
  by_cases he : e = 0
  · subst he
    rw [finiteVal, if_pos rfl, Fmt.deliver]
    by_cases hzero : m = 0
    · subst hzero
      exact if_pos ⟨rfl, rfl⟩
    · have hround := round_of_quantum_kept (f := f) r sat neg hzero (by omega) le_rfl (.inl rfl) (by rwa [if_pos hm, hmod])
      rwa [if_pos hm, hmod] at hround
  · rw [finiteVal, if_neg he, Fmt.deliver]
    have hlow : ¬ 2 ^ f.mb + m < 2 ^ f.mb := by omega
    have hexp : ((e : Int) - f.bias - f.mb + f.mb + f.bias).toNat = e := by omega
    have hman : (2 ^ f.mb + m) % 2 ^ f.mb = m := by rw [Nat.add_mod_left, hmod]
    have hround := round_of_quantum_kept (f := f) (m := 2 ^ f.mb + m) (q := (e : Int) - f.bias - f.mb) r sat neg (by omega) (by omega)
      (by rw [minQuantum]; omega) (.inr (by omega)) (by rwa [if_neg hlow, hexp, hman])
    rwa [if_neg hlow, hexp, hman] at hround

theorem deliver_inf {f : Fmt} (hf : f.spec = .ieee) (r : RMode) (neg : Bool) : f.deliver r false (.inf neg) = (f.inf neg, 0) := by
  simp [Fmt.deliver, hf]

/-- An encoding that is no NaN is delivered as itself, without a flag. -/
theorem deliver_decode {f : Fmt} {n : Nat} (h : Regular f) (r : RMode) (hn : n < 2 ^ f.width) (hnan : (f.decode n).isNan = false) :
    f.deliver r false (f.decode n) = (n, 0) := by
  have hpack := pack_fields h.mb_pos hn
  obtain hc | ⟨hinf, hspec, he, hm⟩ | ⟨hfin, hfits⟩ := decode_cases h n
  · rw [hc] at hnan
    cases hnan
  · rw [he, hm] at hpack
    rw [hinf, deliver_inf hspec, Fmt.inf, hpack]
  · rw [hfin, deliver_finiteVal r false _ (manField_lt h.mb_pos n) hfits, hpack]

/-- Settles O9: a NaN operand makes the value before delivery a NaN, invalid exactly if an operand signals; and the significand of a finite
encoding keeps its quantum, so that nothing is discarded. -/
theorem roundingAndNaN : Obligations.RoundingAndNaN := by
  refine ⟨fun f r x y z hf => ⟨fun hxy => ?_, fun hx => ?_, fun hz hquiet => ?_⟩, fun f r n hf => deliver_decode (regular_of_mem hf) r⟩
  · have hsum := sum_pair_of_isNan r hxy
    simp [Fmt.add, Fmt.mul, div_of_isNan f r hxy, hsum, mul_of_isNan hxy, deliver_nan (spec_of_scalar hf)]
  · simp [sqrt_of_isNan f r hx, deliver_nan (spec_of_scalar hf)]
  · have hvalid : (x.mul y).isInvalid = false := by simpa using hquiet
    simp [Fmt.fma, sum_pair_of_isNan r (.inr hz), hvalid, deliver_nan (spec_of_scalar hf)]

end Sys2Proof.Proofs

/-! PROOF. How an instruction word ends, from the effect of its own in the frame `word`: it leaves a next state, it completes its thread,
or it takes a fault (18 R402, R410, R411). -/
namespace Sys2Proof.Proofs
open Sys2Proof.Machine Sys2Proof.Laws

theorem put_put {s : State} {t u : Thread} (h : t.id = u.id) : (s.put t).put u = s.put u := by
  simp only [State.put, List.map_map]
  congr 2
  funext v
  by_cases hv : v.id = u.id <;> simp [h, hv]

/-- A thread put in the place of a live one of its name is found. -/
theorem find_put_of_find {s s' : State} {i : Tid} {t u : Thread} (hs : s'.threads = s.threads) (h : s.find i = some t) (hid : u.id = i) :
    (s'.put u).find i = some u := by
  subst hid
  exact find_put (by rw [find_of_threads hs, h]; rfl)

/-- A word whose effect, for the thread t that issues it, is the next state s' with nothing queued for the boundary of t, leaves s'. -/
theorem yields_of_ok {s s' : State} {t u : Thread} {i : Instr} {k : State → Thread → Except Stop State} (hexec : exec i s = word i s k)
    (hk : k s t = .ok s') (hfind : s'.find t.id = some u) (hsettled : u.settled = t.settled) : Yields s t i s' := fun h => by
  obtain ⟨-, -, hquiet⟩ := id h
  rw [hexec, word_next h hk hfind (hsettled.trans hquiet)]

/-- A word whose effect is the completion of its thread as u, which stands under its name at its PC, leaves its thread as u. -/
theorem completes_of_retire {s : State} {t u : Thread} {i : Instr} {k : State → Thread → Except Stop State} (hexec : exec i s = word i s k)
    (hk : k s t = .ok (s.retire u)) (hid : u.id = t.id) (hpc : u.pc = t.pc) (hsettled : u.settled = t.settled) :
    Completes s t i u := fun h => by
  obtain ⟨-, -, hquiet⟩ := id h
  rw [hexec, word_retire h hk hid (hsettled.trans hquiet), State.retire, hpc]

/-- A word whose effect, for the thread t that issues it, is a fault, takes it. -/
theorem parks_of_fault {s : State} {t : Thread} {i : Instr} {k : State → Thread → Except Stop State} {f : Flt}
    (hexec : exec i s = word i s k) (hk : k s t = .error (.fault f)) : Parks s t i f := fun h => by
  obtain ⟨hcur, hgate, -⟩ := h
  simp only [hexec, word, hcur, hgate, hk, State.stopped, State.parkWhenFree]

end Sys2Proof.Proofs

/-! PROOF. The control and status registers (05 R119, R120): what each reads, what a write leaves, and that CSRR, CSRW, CSRS and CSRC
complete with no other effect. -/
namespace Sys2Proof.Proofs
open Sys2Proof.Machine Sys2Proof.Laws

theorem csrr_writes (s : State) (t : Thread) (d : Reg) (c : BitVec 12) :
    Writes s t (.csrr d c) d.toNat (s.readCsr t c.toNat) :=
  completes_of_retire (u := t.wr d.toNat (s.readCsr t c.toNat)) (k := fun s t => .ok (s.retireReg t d.toNat (s.readCsr t c.toNat)))
    rfl rfl (wr_id ..) (wr_pc ..) (wr_settled ..)

/-! A thread with a CSR set stands under its name, at its PC, and with what is queued for it as before. -/

@[simp] theorem setCsr_id (t : Thread) (c : Nat) (v : Word) : (t.setCsr c v).id = t.id := by
  unfold Thread.setCsr; split <;> simp only [setRnd_id]
@[simp] theorem setCsr_pc (t : Thread) (c : Nat) (v : Word) : (t.setCsr c v).pc = t.pc := by
  unfold Thread.setCsr; split <;> simp only [setRnd_pc]
theorem setCsr_settled (t : Thread) (c : Nat) (v : Word) : (t.setCsr c v).settled = t.settled := by
  unfold Thread.setCsr; split <;> simp only [Thread.settled, setRnd_killed, setRnd_asyncs, setRnd_stepped]

/-- CSRW, CSRS and CSRC leave their thread with the CSR set to what the old value, the source and the mask give. -/
theorem csrOp_completes {s : State} {i : Instr} {v : Reg} {c : BitVec 12} {f : Word → Word → Word → Word} (t : Thread)
    (hexec : exec i s = csrOp i v c f s) :
    Completes s t i (t.setCsr c.toNat (f (s.readCsr t c.toNat) (t.rd v.toNat) (t.csrMask c.toNat))) :=
  completes_of_retire hexec rfl (setCsr_id ..) (setCsr_pc ..) (setCsr_settled ..)

/-- 05 R119: PRIO with the bit PRIOL above it. -/
theorem readCsr_prio (s : State) (t : Thread) :
    s.readCsr t 0x003 = BitVec.ofNat 64 (t.prio % 64 + if t.priol then 64 else 0) := by
  cases h : t.priol <;> simp only [State.readCsr, h] <;> rfl

/-- 05 R119: RND takes the values 1 to 5. -/
theorem setCsr_rnd (t : Thread) (v : Word) :
    t.setCsr 0x008 v = if 1 ≤ v.toNat % 8 ∧ v.toNat % 8 ≤ 5 then { t with rnd := v.setWidth 3 } else t := by
  simp only [Thread.setCsr, Thread.setRnd, BitVec.ofNat_toNat]

/-- Settles O20: the three tables of the statement (what is read, the mask, what is left) are those of the model row by row, and each word
completes with its thread as they say. -/
theorem csrResults : Obligations.CsrResults := by
  intro s t r c read mask left g
  have hread : read = s.readCsr t c.toNat := by
    unfold read
    generalize c.toNat = n
    split
    case h_4 => exact (readCsr_prio s t).symm
    case h_15 => simp [State.readCsr, *]
    all_goals rfl
  have hmask : mask = t.csrMask c.toNat := by
    unfold mask
    generalize c.toNat = n
    split
    case h_6 => simp [Thread.csrMask, *]
    all_goals rfl
  have hleft : left = t.setCsr c.toNat := by
    funext v
    unfold left
    generalize c.toNat = n
    split
    case h_3 => exact (setCsr_rnd t v).symm
    case h_6 => simp [Thread.setCsr, *]
    all_goals rfl
  rw [hread, hmask, hleft]
  exact ⟨csrr_writes s t r c, csrOp_completes (f := fun x g w => (x &&& ~~~w) ||| (g &&& w)) t rfl,
    csrOp_completes (f := fun x g w => x ||| (g &&& w)) t rfl, csrOp_completes (f := fun x g w => x &&& ~~~(g &&& w)) t rfl⟩

end Sys2Proof.Proofs

/-! PROOF. Bytes and words (00 R2): the number that bytes hold, a word of a line, and bytes put over others. -/
namespace Sys2Proof.Proofs
open Sys2Proof.Machine Sys2Proof.Laws

@[simp] theorem length_toBytes (k v : Nat) : (toBytes k v).length = k := by
  induction k generalizing v with
  | zero => rfl
  | succ k ih => rw [toBytes, List.length_cons, ih]

theorem ofBytes_toBytes (k v : Nat) : ofBytes (toBytes k v) = v % 256 ^ k := by
  induction k generalizing v with
  | zero => simp [toBytes, ofBytes, Nat.mod_one]
  | succ k ih =>
    rw [toBytes, ofBytes, ih, BitVec.toNat_ofNat, pow_succ' 256]
    exact Nat.mod_mul.symm

@[simp] theorem length_low (t : Thread) (r n : Nat) : (t.low r n).length = n := length_toBytes ..

/-- The eight low bytes of a register are its value. -/
theorem w64_ofBytes_low (t : Thread) (r : Nat) : w64 (ofBytes (t.low r 8)) = t.rd r := by
  have hbytes : (t.rd r).toNat % 256 ^ 8 = (t.rd r).toNat := Nat.mod_eq_of_lt (t.rd r).isLt
  rw [Thread.low, ofBytes_toBytes, hbytes, w64, BitVec.ofNat_toNat, BitVec.setWidth_eq]

/-- Word j of a list of bytes is the number that its eight bytes hold. -/
theorem getD_wordsOf {m j : Nat} (bs : List Byte) (h : j < m) : (wordsOf bs m).getD j 0 = w64 (ofBytes ((bs.drop (8 * j)).take 8)) := by
  induction m generalizing bs j with
  | zero => exact absurd h (Nat.not_lt_zero j)
  | succ m ih =>
    cases j with
    | zero => rfl
    | succ j =>
      rw [wordsOf, List.getD_cons_succ, ih _ (Nat.lt_of_succ_lt_succ h), List.drop_drop, Nat.mul_succ, Nat.add_comm 8]

/-- The bytes that were put over a list stand there. -/
theorem take_drop_overlay {old bs : List Byte} {k : Nat} (h : k ≤ old.length) : ((overlay old k bs).drop k).take bs.length = bs := by
  have hlen : (old.take k).length = k := List.length_take_of_le h
  rw [overlay, List.append_assoc, List.drop_left' hlen, List.take_left]

theorem length_flatMap_wordBytes (l : List Word) : (l.flatMap wordBytes).length = 8 * l.length := by
  induction l with
  | nil => rfl
  | cons w l ih => rw [List.flatMap_cons, List.length_append, ih, wordBytes, length_toBytes, List.length_cons]; omega

end Sys2Proof.Proofs

/-! PROOF. Stores to the lines of live threads' frames (05 R111, R122, R123, R125; 10 R225). -/
namespace Sys2Proof.Proofs
open Sys2Proof.Machine Sys2Proof.Laws

/-- 05 R111: a register line has 128 bytes. -/
theorem length_lineBytes {i : Nat} (t : Thread) (h1 : 1 ≤ i) (h4 : i ≤ 4) : (t.lineBytes i).length = 128 := by
  have hwords : (t.lineWords i).length = 16 := by
    interval_cases i <;> rfl
  rw [Thread.lineBytes, length_flatMap_wordBytes, hwords]

/-- Of the sixteen words of a line, the eight bytes from word n on touch that word alone. -/
theorem touched_by_word : ∀ n < 16, (upto 0 16).filter (fun w => decide (8 * w + 8 > 8 * n) && decide (8 * w < 8 * n + 8)) = [n] := by
  decide

/-- 05 R123: a store of a whole word of a register line writes that register alone. -/
theorem storeRegs_word {u : Thread} {i n : Nat} {bs : List Byte} (h1 : 1 ≤ i) (h4 : i ≤ 4) (hn : n < 16) (hbs : bs.length = 8) :
    u.storeRegs i (8 * n) bs = u.wr (16 * (i - 1) + n) (w64 (ofBytes bs)) := by
  have hfits : 8 * n ≤ (u.lineBytes i).length := by rw [length_lineBytes u h1 h4]; omega
  have hword : (wordsOf (overlay (u.lineBytes i) (8 * n) bs) 16).getD n 0 = w64 (ofBytes bs) := by
    have hbytes := take_drop_overlay (bs := bs) hfits
    rw [hbs] at hbytes
    rw [getD_wordsOf _ hn, hbytes]
  simp only [Thread.storeRegs, hbs, touched_by_word n hn, List.foldl_cons, List.foldl_nil, hword]

/-- The store of a register into a whole word of a live thread's register line. -/
theorem writeRegs_word (s : State) {t u : Thread} {r i n pa : Nat} (h1 : 1 ≤ i) (h4 : i ≤ 4) (hpa : pa % 128 = 8 * n) :
    s.writeRegs u i pa (t.low r 8) = (s.unpoison pa 8).put (u.wr (16 * (i - 1) + n) (t.rd r)) := by
  rw [State.writeRegs, length_low, hpa, storeRegs_word h1 h4 (by omega) (length_low ..), w64_ofBytes_low]

/-- 05 R125: an access to a frame that is in its place loads nothing. -/
theorem syncFrame_of_placed {s : State} {u : Thread} {sdom va : Nat} (g : Target)
    (h : s.find { sdom := sdom, handle := handleOf va } = some u) (hplaced : u.placed.isSome = true) : s.syncFrame sdom va g = s := by
  obtain ⟨l, hl⟩ := Option.isSome_iff_exists.1 hplaced
  unfold State.syncFrame
  split
  · rfl
  · simp only [h, State.ensureFrame, hl, ite_self]

section
variable {s : State} {t u : Thread} {va pa i : Nat} {kd : AccKind} {bs : List Byte}

/-- 10 R225, 05 R122: the control line of a live thread takes no store but of the handler of a FAULTED thread; of its own it is checked once
no floating-point producer is outstanding (05 R118). -/
theorem storeCtx_control (hhnd : t.hnd = false) (hown : u.id ≠ t.id ∨ t.fills.any (·.float) = false) :
    s.storeCtx t u 0 pa va kd bs = failAcc .controlLineWrite va kd 0 := by
  by_cases hid : u.id = t.id
  · have hfloat := hown.resolve_left (not_not_intro hid)
    simp [State.storeCtx, hid, hfloat]
  · simp [State.storeCtx, hid, hhnd]

theorem storeCtx_own (hid : u.id = t.id) (h1 : 1 ≤ i) (h4 : i ≤ 4) :
    s.storeCtx t u i pa va kd bs = .ok (s.writeRegs (s.bindLoads t) i pa bs) := by
  have h0 : i ≠ 0 := by omega
  have h5 : i ≠ 5 := by omega
  simp [State.storeCtx, hid, h0, h5]

theorem storeCtx_other (hid : u.id ≠ t.id) (h1 : 1 ≤ i) (h4 : i ≤ 4) (hstores : t.stores = []) (hbarred : t.barred = false)
    (hfenced : ∀ q ∈ t.fenced, s.earlyIn (dieOf t.core) q = false) :
    s.storeCtx t u i pa va kd bs = .ok ((s.put (s.bindLoads { t with fenced := [] })).writeRegs u i pa bs) := by
  have h0 : i ≠ 0 := by omega
  have h5 : i ≠ 5 := by omega
  have hany : t.fenced.any (s.earlyIn (dieOf t.core)) = false := List.any_eq_false.2 fun q hq => by simp [hfenced q hq]
  simp [State.storeCtx, hid, h0, h5, hstores, hbarred, hany]

end

/-- 10 R217: the address of an access whose checks pass is not negative. -/
theorem access_nonneg {s : State} {core sdom al : Nat} {a : Access} {g : Target} (h : s.access core sdom al a = .ok g) : 0 ≤ a.ea := by
  by_contra hneg
  simp [State.access, check1, hneg, failAcc] at h

theorem reach_nonneg {s : State} {t : Thread} {al : Nat} {a : Access} {g : Target} (h : s.reach t al a = .ok g) : 0 ≤ a.ea := by
  unfold State.reach at h
  split at h
  · cases h
  · exact access_nonneg ‹_›

theorem storeBytes_frameLine {s : State} {u : Thread} {l : Loc} {i : Nat} (hline : s.lineAt l.spot.pa = some (u, i)) (t : Thread) (va : Nat)
    (kd : AccKind) (bs : List Byte) : s.storeBytes t va (.mem l) kd bs = s.storeCtx t u i l.spot.pa va kd bs := by
  simp only [State.storeBytes, Target.pa, hline]

/-! A store whose checks pass, to an address of a frame that is in its place. -/
section
variable {s : State} {t w : Thread} {ea : Int} {al n : Nat} {bs : List Byte} {g : Target} (ht : s.find t.id = some t)
  (hreach : s.reach t al { ea := ea, n := n, kind := .store, write := true } = .ok g) (hlen : bs.length = n)
  (hframe : s.find { sdom := t.id.sdom, handle := handleOf ea.toNat } = some w) (hplaced : w.placed.isSome = true)
include ht hreach hlen hframe hplaced

theorem storeInstr_of_error {e : Stop} (h : s.storeBytes t ea.toNat g .store bs = .error e) : s.storeInstr t ea al bs = .error e := by
  subst hlen
  simp only [State.storeInstr, hreach, syncFrame_of_placed g hframe hplaced, again_of_find ht, h]

theorem storeInstr_of_ok {s1 : State} {b : Thread} (h : s.storeBytes t ea.toNat g .store bs = .ok s1) (hfind : s1.find t.id = some b) :
    s.storeInstr t ea al bs = .ok (s1.retire b) := by
  subst hlen
  have hagain : s1.again t = b := by rw [State.again, hfind, Option.getD_some]
  simp only [State.storeInstr, hreach, syncFrame_of_placed g hframe hplaced, again_of_find ht, h, hagain]

end

theorem exec_stD (v a : Reg) (o : BitVec 14) (s : State) :
    exec (.stD v a o) s = word (.stD v a o) s fun s t => s.storeInstr t (eaOf t a o) 8 (t.low v.toNat 8) := rfl

section
variable {s : State} {t u w : Thread} {v a : Reg} {o : BitVec 14} {l : Loc} {k n : Nat}
  (hreach : s.reach t 8 { ea := eaOf t a o, n := 8, kind := .store, write := true } = .ok (.mem l))
  (hframe : s.find { sdom := t.id.sdom, handle := handleOf (eaOf t a o).toNat } = some w) (hplaced : w.placed.isSome = true)
include hreach hframe hplaced

/-- ST.D to the control line of a live thread. -/
theorem stD_control_parks (hline : s.lineAt l.spot.pa = some (u, 0)) (hhnd : t.hnd = false)
    (hown : u.id ≠ t.id ∨ t.fills.any (·.float) = false) :
    Parks s t (.stD v a o)
      { cause := .controlLineWrite, addr := BitVec.ofInt 64 (eaOf t a o), kind := .store, detail := 0, fetch := false } := fun h => by
  refine parks_of_fault (exec_stD v a o s) ?_ h
  refine storeInstr_of_error (issues_find h) hreach (length_low ..) hframe hplaced ?_
  rw [storeBytes_frameLine hline, storeCtx_control hhnd hown, Int.toNat_of_nonneg (reach_nonneg hreach)]
  rfl

/-- ST.D to a line that takes its bytes: the store is performed, and its thread completes as it is then. -/
theorem stD_frameLine_yields {s1 : State} {b : Thread} (hline : s.lineAt l.spot.pa = some (u, k))
    (hctx : s.storeCtx t u k l.spot.pa (eaOf t a o).toNat .store (t.low v.toNat 8) = .ok s1)
    (hfind : s.find t.id = some t → s1.find t.id = some b) (hpc : b.pc = t.pc) (hsettled : b.settled = t.settled) :
    Yields s t (.stD v a o) (s1.put { b with pc := t.pc + 4 }) := fun h => by
  have hb := hfind (issues_find h)
  have hid : b.id = t.id := find_id hb
  refine yields_of_ok (u := { b with pc := t.pc + 4 }) (exec_stD v a o s) ?_ ?_ hsettled h
  · rw [storeInstr_of_ok (issues_find h) hreach (length_low ..) hframe hplaced ((storeBytes_frameLine hline ..).trans hctx) hb,
      State.retire, hpc]
  · exact find_put_of_find rfl hb hid

/-- ST.D to a word of another thread's register line. -/
theorem stD_other_yields (hline : s.lineAt l.spot.pa = some (u, k)) (h1 : 1 ≤ k) (h4 : k ≤ 4) (hpa : l.spot.pa % 128 = 8 * n)
    (hid : u.id ≠ t.id) (hstores : t.stores = []) (hbarred : t.barred = false)
    (hfenced : ∀ q ∈ t.fenced, s.earlyIn (dieOf t.core) q = false) :
    let b := s.bindLoads { t with fenced := [] }
    Yields s t (.stD v a o) ((((s.put b).unpoison l.spot.pa 8).put (u.wr (16 * (k - 1) + n) (t.rd v.toNat))).put
      { b with pc := t.pc + 4 }) := by
  intro b
  refine stD_frameLine_yields hreach hframe hplaced hline (b := b) ?_ (fun ht => ?_) rfl rfl
  · rw [storeCtx_other hid h1 h4 hstores hbarred hfenced, writeRegs_word _ h1 h4 hpa]
  · rw [find_put_ne (by rw [wr_id]; exact hid.symm)]
    exact find_put_of_find rfl ht rfl

/-- ST.D to a word of the thread's own register line. -/
theorem stD_own_yields (hline : s.lineAt l.spot.pa = some (u, k)) (h1 : 1 ≤ k) (h4 : k ≤ 4) (hpa : l.spot.pa % 128 = 8 * n)
    (hid : u.id = t.id) :
    let b := (s.bindLoads t).wr (16 * (k - 1) + n) (t.rd v.toNat)
    Yields s t (.stD v a o) ((s.unpoison l.spot.pa 8).put { b with pc := t.pc + 4 }) := by
  intro b
  have hctx : s.storeCtx t u k l.spot.pa (eaOf t a o).toNat .store (t.low v.toNat 8) = .ok ((s.unpoison l.spot.pa 8).put b) := by
    rw [storeCtx_own hid h1 h4, writeRegs_word _ h1 h4 hpa]
  rw [← put_put (s := s.unpoison l.spot.pa 8) (t := b) (u := { b with pc := t.pc + 4 }) rfl]
  exact stD_frameLine_yields hreach hframe hplaced hline hctx (fun ht => find_put_of_find rfl ht (wr_id ..)) (wr_pc ..) (wr_settled ..)

end

/-- Settles O17: the line that holds the address is a register line of another thread or of the storing thread, or a control line, and the store
does there what `State.storeCtx` does for such a line; of a register line a whole word is one register. -/
theorem frameLineStores : Obligations.FrameLineStores := by
  intro s t u v a o l k n ea b b' pa hreach hframe hplaced
  exact ⟨fun hline h1 h4 hpa => ⟨stD_other_yields hreach hframe hplaced hline h1 h4 hpa,
    stD_own_yields hreach hframe hplaced hline h1 h4 hpa⟩, stD_control_parks hreach hframe hplaced⟩

end Sys2Proof.Proofs

/-! PROOF. The integer instructions (06 R131 to R139): what each writes to its destination, from the model's formula for its value. -/
namespace Sys2Proof.Proofs
open Sys2Proof.Machine Sys2Proof.Laws

/-- An instruction of one destination writes there the value that its formula gives. -/
theorem writes_of_regOp {i : Instr} {d : Reg} {f : Thread → Word} {s : State} {t : Thread} {v : Word} (hexec : exec i s = regOp i d f s)
    (hv : f t = v) : Writes s t i d.toNat v := by
  subst hv
  exact completes_of_retire (u := t.wr d.toNat (f t)) hexec rfl (wr_id ..) (wr_pc ..) (wr_settled ..)

/-! Shifts and rotations (06 R131). -/

/-- An arithmetic shift to the right divides by a power of two and rounds down. -/
theorem sshiftRight_eq_ofInt_div {n : Nat} (x : BitVec n) (k : Nat) : x.sshiftRight k = BitVec.ofInt n (x.toInt / 2 ^ k) := by
  rw [BitVec.sshiftRight, Int.shiftRight_eq_div_pow]
  norm_cast

theorem rotateLeft_shAmt {n : Nat} (h : 0 < n) (x y : BitVec n) :
    x.rotateLeft (shAmt n y) = x <<< (y.toNat % n) ||| x >>> (n - y.toNat % n) :=
  BitVec.rotateLeft_eq_rotateLeftAux_of_lt (Nat.mod_lt _ h)

theorem rotateRight_shAmt {n : Nat} (h : 0 < n) (x y : BitVec n) :
    x.rotateRight (shAmt n y) = x >>> (y.toNat % n) ||| x <<< (n - y.toNat % n) :=
  BitVec.rotateRight_eq_rotateRightAux_of_lt (Nat.mod_lt _ h)

/-! Counts and the reversal of bits (06 R131). -/

theorem upto_eq_range' (a n : Nat) : upto a n = List.range' a n := by
  induction n generalizing a with
  | zero => rfl
  | succ n ih => rw [upto, ih, List.range'_succ]

theorem upto_zero_eq_range (n : Nat) : upto 0 n = List.range n := by
  rw [upto_eq_range', List.range_eq_range']

/-- A number that is not negative as a word of 32 bits is itself when the word is extended. -/
theorem signExtend_ofNat_of_lt {v : Nat} (h : v < 2 ^ 31) : (BitVec.ofNat 32 v).signExtend 64 = BitVec.ofNat 64 v := by
  have hmsb : (BitVec.ofNat 32 v).msb = false := by
    rw [BitVec.msb_eq_false_iff_two_mul_lt, BitVec.toNat_ofNat]
    omega
  rw [BitVec.signExtend_eq_setWidth_of_msb_false hmsb, BitVec.setWidth_ofNat_of_le_of_lt (by omega) (by omega)]

/-- The width of a form: the .w form reads the low 32 bits. -/
abbrev formWidth (w : Bool) : Nat := if w then 32 else 64

/-- A form whose result is a number below 2^31 writes that number, in both widths. -/
theorem wForm_count (w : Bool) (f : (n : Nat) → BitVec n → Nat) (x : Word) (hf : f 32 (x.setWidth 32) < 2 ^ 31) :
    wForm w (fun n x _ => BitVec.ofNat n (f n x)) x 0 = BitVec.ofNat 64 (f (formWidth w) (x.setWidth (formWidth w))) := by
  cases w with
  | false => exact congrArg (BitVec.ofNat 64 ∘ f 64) (BitVec.setWidth_eq x).symm
  | true => exact signExtend_ofNat_of_lt hf

theorem popc_value (w : Bool) (x : Word) :
    wForm w (fun n x _ => popc n x) x 0 =
      BitVec.ofNat 64 ((List.range (formWidth w)).countP (fun j => (x.toNat % 2 ^ formWidth w).testBit j)) := by
  have hcount : ∀ n (y : BitVec n),
      ((upto 0 n).filter (fun k => y.getLsbD k)).length = (List.range n).countP (fun j => y.toNat.testBit j) := fun n y => by
    rw [upto_zero_eq_range, List.countP_eq_length_filter]
    rfl
  have h32 : (List.range 32).countP (fun j => (x.setWidth 32).toNat.testBit j) < 2 ^ 31 :=
    lt_of_le_of_lt List.countP_le_length (by simp)
  simp only [popc, hcount]
  rw [wForm_count w (fun n y => (List.range n).countP (fun j => y.toNat.testBit j)) x h32, BitVec.toNat_setWidth]

theorem clz_value (w : Bool) (x : Word) :
    wForm w (fun n x _ => clz n x) x 0 =
      BitVec.ofNat 64 (if x.toNat % 2 ^ formWidth w = 0 then formWidth w
        else formWidth w - 1 - Nat.log2 (x.toNat % 2 ^ formWidth w)) := by
  have h32 : (if (x.setWidth 32) = 0 then 32 else 32 - 1 - Nat.log2 (x.setWidth 32).toNat) < 2 ^ 31 := by
    split <;> omega
  simp only [clz]
  rw [wForm_count w (fun n y => if y = 0 then n else n - 1 - Nat.log2 y.toNat) x h32]
  simp only [BitVec.toNat_eq, BitVec.toNat_setWidth, BitVec.ofNat_eq_ofNat, BitVec.toNat_ofNat, Nat.zero_mod]


theorem foldl_add_eq_sum (g : Nat → Nat) (n : Nat) : (List.range n).foldl (fun a k => a + g k) 0 = ∑ k ∈ Finset.range n, g k := by
  induction n with
  | zero => rfl
  | succ n ih => rw [List.range_succ, List.foldl_concat, ih, Finset.sum_range_succ]

/-- Bit k of a word of w bits stands at w - 1 - k in its reversal. -/
theorem toNat_reverse {w : Nat} (x : BitVec w) :
    x.reverse.toNat = ∑ k ∈ Finset.range w, b2n (x.getLsbD k) * 2 ^ (w - 1 - k) := by
  induction w with
  | zero => simp [BitVec.of_length_zero]
  | succ w ih =>
    have hlow : ∀ k ∈ Finset.range w, b2n (x.getLsbD k) * 2 ^ (w - k) = b2n ((x.truncate w).getLsbD k) * 2 ^ (w - 1 - k) * 2 := by
      intro k hk
      have hk := Finset.mem_range.1 hk
      obtain ⟨j, hj⟩ : ∃ j, w - k = j + 1 := ⟨w - 1 - k, by omega⟩
      have hj' : w - 1 - k = j := by omega
      rw [hj, hj', pow_succ, mul_assoc]
      simp [hk]
    have hmsb : x.msb = x.getLsbD w := by simp [BitVec.msb_eq_getLsbD_last]
    rw [BitVec.reverse, BitVec.toNat_concat, ih, Finset.sum_range_succ, Finset.sum_mul, hmsb]
    simp only [Nat.add_sub_cancel, Finset.sum_congr rfl hlow, Nat.sub_self, pow_zero, mul_one]
    cases x.getLsbD w <;> rfl

theorem brev_eq_reverse (x : Word) : brev x = x.reverse := by
  refine BitVec.eq_of_toNat_eq ?_
  rw [brev, w64, upto_zero_eq_range, foldl_add_eq_sum, ← toNat_reverse, BitVec.ofNat_toNat, BitVec.setWidth_eq]

/-- Settles O1: each instruction's formula has the value of its row; for shifts, rotations, counts and reversals by a lemma. -/
theorem integerResults : Obligations.IntegerResults := by
  refine ⟨fun s t d a b => ?_, fun s t d a w k => ?_, fun s t d a b c p => ?_⟩
  · intro x y xw yw w
    exact ⟨writes_of_regOp rfl rfl, writes_of_regOp rfl rfl, writes_of_regOp rfl rfl, writes_of_regOp rfl rfl,
      writes_of_regOp rfl rfl, writes_of_regOp rfl rfl, writes_of_regOp rfl rfl, writes_of_regOp rfl rfl,
      writes_of_regOp rfl rfl, writes_of_regOp rfl rfl, writes_of_regOp rfl rfl, writes_of_regOp rfl rfl,
      writes_of_regOp rfl rfl, writes_of_regOp rfl rfl, writes_of_regOp rfl rfl, writes_of_regOp rfl rfl, writes_of_regOp rfl rfl,
      writes_of_regOp rfl (sshiftRight_eq_ofInt_div ..), writes_of_regOp rfl (congrArg w (sshiftRight_eq_ofInt_div ..)),
      writes_of_regOp rfl (rotateLeft_shAmt (by decide) ..), writes_of_regOp rfl (congrArg w (rotateLeft_shAmt (by decide) ..)),
      writes_of_regOp rfl (rotateRight_shAmt (by decide) ..), writes_of_regOp rfl (congrArg w (rotateRight_shAmt (by decide) ..)),
      writes_of_regOp rfl rfl, writes_of_regOp rfl rfl, writes_of_regOp rfl rfl, writes_of_regOp rfl rfl,
      writes_of_regOp rfl (brev_eq_reverse x), writes_of_regOp rfl (congrArg (x + ·) (BitVec.mul_one y)), writes_of_regOp rfl rfl,
      writes_of_regOp rfl rfl, writes_of_regOp rfl rfl⟩
  · intro n x
    refine ⟨writes_of_regOp rfl (popc_value ..), fun hzero => writes_of_regOp rfl ((clz_value ..).trans ?_),
      fun hlow hhigh => writes_of_regOp rfl ((clz_value ..).trans ?_)⟩
    · rw [if_pos hzero]
    · have hpos : x ≠ 0 := fun h => by rw [h] at hlow; exact absurd hlow (by simp)
      rw [if_neg hpos, (Nat.log2_eq_iff hpos).2 ⟨hlow, hhigh⟩]
  · refine ⟨writes_of_regOp rfl rfl, writes_of_regOp rfl ?_, writes_of_regOp rfl ?_⟩
    · rw [Bool.xor_false]
    · cases t.rp p <;> rfl

end Sys2Proof.Proofs

/-! PROOF. Quotients, remainders and compares (06 R132, R134). -/
namespace Sys2Proof.Proofs
open Sys2Proof.Machine Sys2Proof.Laws

/-! Quotients and remainders (06 R132). -/

theorem produce_pc (t : Thread) (f : Fill) : (t.produce f).pc = t.pc := by
  rw [Thread.produce, foldl_clr]

/-- A division fills its destination with the value that its formula gives. -/
theorem fills_of_divOp {i : Instr} {d : Reg} {f : Thread → Word} {s : State} {t : Thread} {v : Word} (hexec : exec i s = divOp i d f s)
    (hv : f t = v) : Fills s t i (regFill d.toNat v) := by
  subst hv
  exact completes_of_retire (u := t.produce (regFill d.toNat (f t))) hexec rfl (produce_id ..) (produce_pc ..) (produce_settled ..)

/-- Both widths of a form are one formula at the width of the form. -/
theorem wForm_eq_signExtend (w : Bool) (f : (n : Nat) → BitVec n → BitVec n → BitVec n) (x y : Word) :
    wForm w f x y = (f (formWidth w) (x.setWidth (formWidth w)) (y.setWidth (formWidth w))).signExtend 64 := by
  cases w with
  | false => exact ((BitVec.signExtend_eq _).trans (congrArg₂ (f 64) (BitVec.setWidth_eq x) (BitVec.setWidth_eq y))).symm
  | true => rfl

section
variable {n : Nat} {x y : BitVec n}

theorem ofInt_two_pow : BitVec.ofInt n (2 ^ n) = 0 := by
  have hpow : ((2 ^ n : Nat) : Int) = 2 ^ n := by norm_cast
  rw [← hpow, BitVec.ofInt_natCast]
  exact BitVec.eq_of_toNat_eq (by rw [BitVec.toNat_ofNat, Nat.mod_self, BitVec.ofNat_eq_ofNat, BitVec.toNat_zero])

theorem ofInt_neg_one : BitVec.ofInt n (-1) = BitVec.allOnes n := by
  rw [BitVec.ofInt_neg, ← BitVec.neg_one_eq_allOnes]
  rfl

theorem ofInt_two_pow_sub_one : BitVec.ofInt n (2 ^ n - 1) = BitVec.allOnes n := by
  rw [sub_eq_add_neg, BitVec.ofInt_add, ofInt_two_pow, ofInt_neg_one, BitVec.ofNat_eq_ofNat, BitVec.zero_add]

theorem divS_zero (x : BitVec n) : divS n x 0 = BitVec.ofInt n (-1) := (if_pos rfl).trans ofInt_neg_one.symm

theorem divN_zero (x : BitVec n) : divN n x 0 = BitVec.ofInt n (2 ^ n - 1) := (if_pos rfl).trans ofInt_two_pow_sub_one.symm

theorem remS_zero (x : BitVec n) : remS n x 0 = BitVec.ofInt n x.toInt := (if_pos rfl).trans BitVec.ofInt_toInt.symm

theorem remN_zero (x : BitVec n) : remN n x 0 = BitVec.ofInt n x.toInt := (if_pos rfl).trans BitVec.ofInt_toInt.symm

theorem divS_of_ne_zero (h : y ≠ 0) : divS n x y = BitVec.ofInt n (Int.tdiv x.toInt y.toInt) := if_neg h

theorem remS_of_ne_zero (h : y ≠ 0) : remS n x y = BitVec.ofInt n (x.toInt - y.toInt * Int.tdiv x.toInt y.toInt) := by
  rw [remS, if_neg h, Int.tmod_def]

theorem divN_of_ne_zero (h : y ≠ 0) : divN n x y = BitVec.ofInt n (x.toNat / y.toNat) := by
  rw [divN, if_neg h, ← BitVec.ofInt_natCast, Int.natCast_div]

theorem remN_of_ne_zero (h : y ≠ 0) : remN n x y = BitVec.ofInt n (x.toNat - y.toNat * (x.toNat / y.toNat)) := by
  rw [remN, if_neg h, ← BitVec.ofInt_natCast, Int.natCast_mod, Int.emod_def]

/-- The quotient of the least number by -1 lies one past the greatest, and its low bits are the least number again. -/
theorem divS_of_overflow (hn : 0 < n) (hne : y ≠ 0) (hx : x.toInt = -2 ^ (n - 1)) (hy : y.toInt = -1) :
    divS n x y = BitVec.ofInt n x.toInt := by
  have hwrap : Int.tdiv x.toInt y.toInt = x.toInt + 2 ^ n := by
    obtain ⟨m, rfl⟩ : ∃ m, n = m + 1 := ⟨n - 1, by omega⟩
    rw [hy, Int.tdiv_neg, Int.tdiv_one, hx, Nat.add_sub_cancel, pow_succ]
    omega
  rw [divS_of_ne_zero hne, hwrap, BitVec.ofInt_add, ofInt_two_pow, BitVec.ofNat_eq_ofNat, BitVec.add_zero]

theorem remS_of_overflow (hne : y ≠ 0) (hy : y.toInt = -1) : remS n x y = BitVec.ofInt n 0 := by
  rw [remS_of_ne_zero hne, hy, Int.tdiv_neg, Int.tdiv_one]
  congr 1
  omega

end

/-- Settles O2: a division is its formula at the width of the form, whose value the lemma about its case gives. -/
theorem divisionResults : Obligations.DivisionResults := by
  intro s t d a b w n x y fill
  have hn : 0 < n := by cases w <;> decide
  have fills {i : Instr} {f : (n : Nat) → BitVec n → BitVec n → BitVec n} {v : Int}
      (hexec : exec i s = divOp i d (fun t => wForm w f (t.rd a.toNat) (t.rd b.toNat)) s) (hv : f n x y = BitVec.ofInt n v) :
      Fills s t i (fill v) :=
    fills_of_divOp hexec ((wForm_eq_signExtend ..).trans (congrArg (BitVec.signExtend 64) hv))
  refine ⟨fun hy => ?_, fun hne hx hy => ⟨fills rfl (divS_of_overflow hn hne hx hy), fills rfl (remS_of_overflow hne hy)⟩,
    fun hne _ => ⟨fills rfl (divS_of_ne_zero hne), fills rfl (remS_of_ne_zero hne)⟩,
    fun hne => ⟨fills rfl (divN_of_ne_zero hne), fills rfl (remN_of_ne_zero hne)⟩⟩
  rw [hy] at fills
  exact ⟨fills rfl (divS_zero x), fills rfl (divN_zero x), fills rfl (remS_zero x), fills rfl (remN_zero x)⟩

/-! Compares (06 R134). -/

/-- The bit of predicate p in the byte of predicates. -/
theorem predBit_eq (p : Pred) : BitVec.ofNat 8 (2 ^ p.toNat) = 1#8 <<< p.toNat := by
  rw [← BitVec.twoPow_eq]
  exact BitVec.eq_of_toNat_eq (by rw [BitVec.toNat_ofNat, BitVec.toNat_twoPow])

/-- 05 R115: a predicate written has its bit replaced, and p0 keeps its own. -/
theorem wp_eq (t : Thread) (p : Pred) (b : Bool) :
    t.wp p b = if p = 0 then t else { t with pred := t.pred &&& ~~~(1#8 <<< p.toNat) ||| (if b then 1#8 <<< p.toNat else 0) } := by
  have hset (x m : BitVec 8) : x ||| m = x &&& ~~~m ||| m := by
    ext i hi
    simp
    cases x[i] <;> simp
  have hclear (x m : BitVec 8) : x &&& ~~~m = x &&& ~~~m ||| 0 := (BitVec.or_zero).symm
  rw [Thread.wp, predBit_eq]
  cases b with
  | true => simp only [if_true, ← hset]
  | false => simp only [Bool.false_eq_true, if_false, ← hclear]

/-- A compare leaves the predicate that its condition gives. -/
theorem compare_completes {s : State} {t u : Thread} {i : Instr} {p : Pred} {f : Thread → Bool}
    (hexec : exec i s = word i s (fun s t => .ok (s.retire (t.wp p (f t))))) (hu : u = t.wp p (f t)) : Completes s t i u := by
  subst hu
  exact completes_of_retire hexec rfl (wp_id ..) (wp_pc ..) (wp_settled ..)

/-- Settles O3: the model's conditions are those of the statement, and a compare writes its predicate. -/
theorem compareResults : Obligations.CompareResults := by
  intro s t p a b w c imm holds r ri
  have hcond : ∀ n (x y : BitVec n), condHolds c x y = holds n x y := by
    intro n x y
    cases c with
    | ne => exact (decide_not ..).symm
    | eq | ltS | leS | gtS | geS | ltN | leN | gtN | geN => rfl
  have hr : (if w then condHolds c ((t.rd a.toNat).setWidth 32) ((t.rd b.toNat).setWidth 32)
      else condHolds c (t.rd a.toNat) (t.rd b.toNat)) = r := by
    simp only [hcond, r]
  refine ⟨fun u hu => compare_completes (i := .cmp p a b w c) rfl ?_, fun u hu => compare_completes (i := .cmpi c p a imm) rfl ?_⟩
  · rw [hu, hr, wp_eq]
  · rw [hu, hcond, sext, wp_eq]

end Sys2Proof.Proofs

/-! PROOF. The immediate forms (06 R135 to R139). -/
namespace Sys2Proof.Proofs
open Sys2Proof.Machine Sys2Proof.Laws

/-! Bit fields (06 R137, R138). -/

/-- A field of a number that is replaced: the bits below and above it stay. -/
theorem testBit_setBits {n lo len v : Nat} (hlen : 0 < len) (j : Nat) :
    (setBits n lo len v).testBit j = if lo ≤ j ∧ j < lo + len then v.testBit (j - lo) else n.testBit j := by
  have hfield : bits n (lo + len - 1) lo = n / 2 ^ lo % 2 ^ len := by
    rw [bits, Nat.sub_add_cancel (by omega), Nat.add_sub_cancel_left]
  have hlow : n % 2 ^ lo < 2 ^ lo := Nat.mod_lt _ (Nat.two_pow_pos lo)
  have hnew : v % 2 ^ len < 2 ^ len := Nat.mod_lt _ (Nat.two_pow_pos len)
  have hold : n / 2 ^ lo % 2 ^ len < 2 ^ len := Nat.mod_lt _ (Nat.two_pow_pos len)
  have hsplit : n = 2 ^ lo * (2 ^ len * (n / 2 ^ lo / 2 ^ len) + n / 2 ^ lo % 2 ^ len) + n % 2 ^ lo := by
    rw [Nat.div_add_mod, Nat.div_add_mod]
  have hset : setBits n lo len v = 2 ^ lo * (2 ^ len * (n / 2 ^ lo / 2 ^ len) + v % 2 ^ len) + n % 2 ^ lo := by
    rw [setBits, hfield]
    conv_lhs => arg 1; arg 1; rw [hsplit]
    simp only [Nat.mul_add, Nat.mul_comm _ (2 ^ lo)]
    omega
  rw [hset]
  conv_rhs => arg 3; rw [hsplit]
  rw [Nat.testBit_two_pow_mul_add _ hlow, Nat.testBit_two_pow_mul_add _ hlow, Nat.testBit_two_pow_mul_add _ hnew,
    Nat.testBit_two_pow_mul_add _ hold, Nat.testBit_mod_two_pow, Nat.testBit_mod_two_pow]
  by_cases hj : j < lo
  · simp [hj, Nat.not_le.2 hj]
  · by_cases hk : j < lo + len
    · simp [hj, hk, Nat.not_lt.1 hj, show j - lo < len by omega]
    · simp [hj, hk, show ¬ j - lo < len by omega]

/-- A word with a field replaced is the word without the field, joined with the new one in its place. -/
theorem w64_setBits {m lo len : Nat} (hlen : 0 < len) (x : Word) (v : BitVec m) :
    w64 (setBits x.toNat lo len v.toNat) =
      x &&& ~~~(((BitVec.allOnes len).zeroExtend 64) <<< lo) ||| ((v.setWidth len).zeroExtend 64) <<< lo := by
  refine BitVec.eq_of_getLsbD_eq fun j hj => ?_
  rw [w64, BitVec.getLsbD_ofNat, testBit_setBits hlen]
  by_cases hlow : j < lo
  · simp [hj, hlow, Nat.not_le.2 hlow]; rfl
  · by_cases hk : j < lo + len
    · simp [hj, hlow, hk, Nat.not_lt.1 hlow, show j - lo < len by omega]; rfl
    · simp [hj, hlow, hk, show ¬ j - lo < len by omega]; rfl

theorem putHalf_eq (x : Word) (h : BitVec 2) (i : BitVec 16) :
    putHalf x h i = x &&& ~~~(0xFFFF#64 <<< (16 * h.toNat)) ||| i.zeroExtend 64 <<< (16 * h.toNat) := by
  rw [putHalf, w64_setBits (by decide), BitVec.setWidth_eq]
  rfl

/-- The bits of a field are a word of its length. -/
theorem wbits_eq_toNat_extractLsb' (x : Word) (l p : Nat) : wbits x (p + l) p = (x.extractLsb' p (l + 1)).toNat := by
  rw [wbits, bits, BitVec.extractLsb'_toNat, Nat.shiftRight_eq_div_pow, Nat.add_assoc, Nat.add_sub_cancel_left]

/-- The signed value of the low bits of a word's number (00 R4). -/
theorem sval_toNat {n : Nat} (x : BitVec n) (hn : 0 < n) : sval x.toNat n = x.toInt := by
  obtain ⟨m, rfl⟩ : ∃ m, n = m + 1 := ⟨n - 1, by omega⟩
  rw [sval, BitVec.toInt_eq_toNat_cond, Nat.mod_eq_of_lt x.isLt, Nat.add_sub_cancel, pow_succ]
  by_cases hneg : 2 ^ m ≤ x.toNat
  · rw [if_pos hneg, if_neg (by omega)]
    push_cast
    rfl
  · rw [if_neg hneg, if_pos (by omega)]

/-- Settles O4: each instruction's formula has the value of its row; of a field by the lemma about it. -/
theorem immediateResults : Obligations.ImmediateResults := by
  intro s t d a i n m j h k l p x xw w field
  refine ⟨writes_of_regOp rfl rfl, writes_of_regOp rfl rfl, writes_of_regOp rfl rfl, writes_of_regOp rfl rfl, writes_of_regOp rfl rfl,
    writes_of_regOp rfl rfl, writes_of_regOp rfl rfl, writes_of_regOp rfl rfl, writes_of_regOp rfl rfl, writes_of_regOp rfl rfl,
    writes_of_regOp rfl rfl, writes_of_regOp rfl rfl, writes_of_regOp rfl rfl, writes_of_regOp rfl (putHalf_eq ..),
    writes_of_regOp rfl rfl, fun _ => ⟨writes_of_regOp rfl ?_, writes_of_regOp rfl ?_,
    writes_of_regOp rfl (w64_setBits (Nat.succ_pos _) ..)⟩⟩
  · rw [wbits_eq_toNat_extractLsb', sval_toNat _ (Nat.succ_pos _)]
    rfl
  · rw [wbits_eq_toNat_extractLsb', w64, BitVec.ofNat_toNat]

end Sys2Proof.Proofs

/-! PROOF. Control flow without the stack, NOP, hints, fences, TRAP and BRK (03 R67; 06 R140 to R147; 12 R265, R276). -/
namespace Sys2Proof.Proofs
open Sys2Proof.Machine Sys2Proof.Laws

/-- Settles O30: neither word has an effect but its fault. -/
theorem trapAndBreak : Obligations.TrapAndBreak := by
  intro s t c flt
  exact ⟨parks_of_fault (k := fun _ _ => failWith .trap (c.setWidth 64)) rfl rfl,
    parks_of_fault (k := fun _ _ => failWith .breakpoint (c.setWidth 64)) rfl rfl, rfl, rfl⟩

/-! Targets (06 R140, R144). -/

/-- A target on unbounded integers is good exactly if it lies in one of the two canonical halves. -/
theorem targetOk_iff {v : Int} :
    targetOk v = true ↔ 0 ≤ v ∧ (v < 2 ^ 56 ∨ (0xFF00000000000000 ≤ v ∧ v < 2 ^ 64)) := by
  simp only [targetOk, canonical, Bool.and_eq_true, Bool.or_eq_true, decide_eq_true_eq]
  omega

theorem and_three_eq_zero_iff {w : Word} : w &&& 3 = 0 ↔ w.toNat % 4 = 0 := by
  rw [BitVec.toNat_eq, BitVec.toNat_and]
  exact Iff.of_eq (congrArg (· = 0) (Nat.and_two_pow_sub_one_eq_mod w.toNat 2))

/-- A register or stack target is good exactly if it is a multiple of 4 in one of the two canonical halves. -/
theorem regTargetOk_iff {w : Word} :
    regTargetOk w = true ↔
      w &&& 3 = 0 ∧ (0 ≤ (w.toNat : Int) ∧
        ((w.toNat : Int) < 2 ^ 56 ∨ (0xFF00000000000000 ≤ (w.toNat : Int) ∧ (w.toNat : Int) < 2 ^ 64))) := by
  rw [and_three_eq_zero_iff]
  simp only [regTargetOk, canonical, Bool.and_eq_true, Bool.or_eq_true, decide_eq_true_eq, beq_iff_eq]
  omega

theorem branch_of_ok {s : State} {t : Thread} {disp : Int} (h : targetOk (dispTarget t.pc disp) = true) :
    s.branch t disp = .ok (s.put { t with pc := i64 (dispTarget t.pc disp) }) := by
  simp only [State.branch, h, if_true]

theorem branch_of_bad {s : State} {t : Thread} {disp : Int} (h : ¬ targetOk (dispTarget t.pc disp) = true) :
    s.branch t disp = .error (.fault (.plain .badTarget (i64 (dispTarget t.pc disp)))) := by
  simp only [State.branch, h]
  rfl

/-- A word whose effect is to leave its thread at another PC. -/
theorem yields_of_goto {s : State} {t : Thread} {i : Instr} {k : State → Thread → Except Stop State} {pc : Word}
    (hexec : exec i s = word i s k) (hk : k s t = .ok (s.put { t with pc := pc })) : Yields s t i (s.put { t with pc := pc }) := fun h =>
  yields_of_ok (u := { t with pc := pc }) hexec hk (find_put_of_find rfl (issues_find h) rfl) rfl h

theorem exec_br (i : BitVec 22) (s : State) : exec (.br i) s = word (.br i) s fun s t => s.branch t i.toInt := rfl
theorem exec_jmp (i : BitVec 26) (s : State) : exec (.jmp i) s = word (.jmp i) s fun s t => s.branch t i.toInt := rfl
theorem exec_brp (sense : Bool) (p : Pred) (i : BitVec 22) (s : State) :
    exec (.brp sense p i) s = word (.brp sense p i) s fun s t =>
      if t.rp p ^^ sense then s.branch t i.toInt
      else if lastWord t.pc then failWith .badTarget (t.pc + 4) else .ok (s.retire t) := rfl
theorem exec_jmpr (a : Reg) (s : State) :
    exec (.jmpr a) s = word (.jmpr a) s fun s t =>
      if regTargetOk (t.rd a.toNat) then .ok (s.put { t with pc := t.rd a.toNat }) else failWith .badTarget (t.rd a.toNat) := rfl
theorem exec_call (i : BitVec 26) (s : State) :
    exec (.call i) s = word (.call i) s fun s t =>
      if targetOk (dispTarget t.pc i.toInt) then s.callTo t (i64 (dispTarget t.pc i.toInt))
      else failWith .badTarget (i64 (dispTarget t.pc i.toInt)) := rfl
theorem exec_callr (a : Reg) (s : State) :
    exec (.callr a) s = word (.callr a) s fun s t =>
      if regTargetOk (t.rd a.toNat) then s.callTo t (t.rd a.toNat) else failWith .badTarget (t.rd a.toNat) := rfl

/-- A displacement counts words (06 R140). -/
theorem dispTarget_eq (pc : Word) (d : Int) : dispTarget pc d = pc.toNat + 4 * d := by rw [dispTarget, Int.mul_comm]

/-- Settles O5: a target is judged as the statement says, and the words go there or take the fault; of BRP the branch and the way on. -/
theorem branchResults : Obligations.BranchResults := by
  intro s t i j sense p a ok target taken bad w
  have hok {d : Int} : targetOk (dispTarget t.pc d) = true ↔ ok (target d) := dispTarget_eq t.pc d ▸ targetOk_iff
  have hgoes {d : Int} (h : ok (target d)) : s.branch t d = .ok (taken (target d)) := by
    rw [branch_of_ok (hok.2 h), dispTarget_eq]
    rfl
  have hstops {d : Int} (h : ¬ ok (target d)) : s.branch t d = .error (.fault (bad (target d))) := by
    rw [branch_of_bad (mt hok.1 h), dispTarget_eq]
    rfl
  refine ⟨fun h => yields_of_goto (exec_br i s) (hgoes h), fun h => parks_of_fault (exec_br i s) (hstops h),
    fun h => yields_of_goto (exec_jmp j s) (hgoes h),
    fun h => ⟨parks_of_fault (exec_jmp j s) (hstops h), parks_of_fault (exec_call j s) ?_⟩,
    fun hp => ⟨fun h => yields_of_goto (exec_brp sense p i s) ?_, fun h => parks_of_fault (exec_brp sense p i s) ?_⟩,
    fun hp => ⟨fun hlast => completes_of_retire (exec_brp sense p i s) ?_ rfl rfl rfl,
      fun hlast => parks_of_fault (exec_brp sense p i s) ?_⟩,
    fun hw hc => yields_of_goto (exec_jmpr a s) (if_pos (regTargetOk_iff.2 ⟨hw, hc⟩)), fun h => ?_⟩
  · rw [if_neg (mt hok.1 h), dispTarget_eq]
    rfl
  · rw [if_pos hp, hgoes h]
  · rw [if_pos hp, hstops h]
  · rw [if_neg (by simp [hp]), if_neg (by simp [hlast])]
  · rw [if_neg (by simp [hp]), if_pos hlast]
    rfl
  · have hbad : ¬ regTargetOk w = true := fun hc => by
      obtain ⟨hw, hcanon⟩ := regTargetOk_iff.1 hc
      exact h.elim (absurd hw) (absurd hcanon)
    exact ⟨parks_of_fault (exec_jmpr a s) (if_neg hbad), parks_of_fault (exec_callr a s) (if_neg hbad)⟩

/-! What the gate of a fence has found (12 R265, R276). -/

/-- A word whose gate lets it pass is eligible (11 R243). -/
theorem eligible_of_gate {s : State} {t : Thread} {i : Instr} (h : s.gate t i = .ok ()) : s.eligible t (elig i) = true := by
  by_contra helig
  have herr : ∀ e, .error e ≠ s.gate t i := fun e he => by rw [h] at he; cases he
  unfold State.gate at herr
  split at herr
  · exact herr _ rfl
  · split at herr
    · exact herr _ rfl
    · split at herr
      · exact herr _ rfl
      · rw [Bool.not_eq_true] at helig
        rw [helig] at herr
        split at herr
        · exact herr _ rfl
        · exact herr _ rfl

theorem acq_of_not_acquiring {s : State} {t : Thread} (h : s.acquiring t = false) : ∀ f ∈ t.fills, f.acq = false := by
  obtain ⟨hacq, -⟩ := Bool.or_eq_false_iff.1 h
  simpa using List.any_eq_false.1 hacq

theorem settledIn_iff {s : State} {t : Thread} {q : Scope} :
    s.settledIn t q = true ↔ s.acquiring t = false ∧ t.stores = [] ∧ (∀ f ∈ t.fills, s.awaits t q f = false) ∧
      s.earlyIn (dieOf t.core) q = false := by
  simp [State.settledIn, and_assoc]

/-- Settles O6: none of the words has an effect of its own but FENCE.rel, and what the fences wait for is their eligibility. -/
theorem nopsHintsFences : Obligations.NopsHintsFences := by
  intro s t a x h y c q
  have plain {i : Instr} (hexec : exec i s = word i s fun s t => .ok (s.retire t)) : Completes s t i t :=
    completes_of_retire hexec rfl rfl rfl rfl
  refine ⟨plain rfl, plain rfl, plain rfl, plain rfl, plain rfl, plain rfl, plain rfl, ?_, fun hq hissues => ?_, fun hq hissues => ?_⟩
  · refine completes_of_retire (k := fun s t => .ok (s.retire (if q = .thread then t else s.release t q))) rfl rfl ?_ ?_ ?_
    · split <;> rfl
    · split <;> rfl
    · split <;> rfl
  · obtain ⟨-, hgate, -⟩ := hissues
    have helig := eligible_of_gate hgate
    simp only [elig, hq, if_false, State.eligible] at helig
    obtain ⟨hacq, hstores, hawaits, hearly⟩ := settledIn_iff.1 helig
    exact ⟨hstores, fun f hf => ⟨acq_of_not_acquiring hacq f hf, hawaits f hf⟩, hearly⟩
  · obtain ⟨-, hgate, -⟩ := hissues
    have helig := eligible_of_gate hgate
    simp only [elig, hq, if_false, State.eligible, Bool.and_eq_true, Bool.not_eq_true'] at helig
    obtain ⟨hacq, hloading⟩ := helig
    have hmem : ∀ f ∈ t.fills, f.mem = false := by simpa using List.any_eq_false.1 hloading
    exact fun f hf => ⟨hmem f hf, acq_of_not_acquiring hacq f hf⟩

end Sys2Proof.Proofs

/-! PROOF. Calls and returns: the push of CALL and CALLR, the load of RET and its return (06 R142, R143). -/
namespace Sys2Proof.Proofs
open Sys2Proof.Machine Sys2Proof.Laws

theorem toBytes_eq_map (n v : Nat) : toBytes n v = (List.range n).map fun k => BitVec.ofNat 8 (v / 2 ^ (8 * k)) := by
  induction n generalizing v with
  | zero => rfl
  | succ n ih =>
    have hdiv : ∀ k, v / 256 / 2 ^ (8 * k) = v / 2 ^ (8 * (k + 1)) := fun k => by
      rw [Nat.div_div_eq_div_mul, show 256 = 2 ^ 8 from rfl, ← pow_add, Nat.mul_succ, Nat.add_comm]
    rw [toBytes, ih, List.range_succ_eq_map, List.map_cons, List.map_map]
    simp [hdiv, Function.comp_def]

/-- 00 R2: the bytes of a word are its bits in eights. -/
theorem wordBytes_eq_lowBytes (w : Word) : wordBytes w = lowBytes w 8 := by
  rw [wordBytes, toBytes_eq_map, lowBytes]
  refine List.map_congr_left fun k _ => ?_
  rw [BitVec.extractLsb', Nat.shiftRight_eq_div_pow]

theorem and_seven_eq_zero_iff {w : Word} : w &&& 7 = 0 ↔ w.toNat % 8 = 0 := by
  rw [BitVec.toNat_eq, BitVec.toNat_and]
  exact Iff.of_eq (congrArg (· = 0) (Nat.and_two_pow_sub_one_eq_mod w.toNat 3))

/-- The thread t with the bytes bs for the target g entered in its store buffer (11 R241, R243). -/
def buffered (s : State) (t : Thread) (g : Target) (va : Nat) (bs : List Byte) : Thread :=
  { t with fenced := [], stores := t.stores ++ [{ va := va, pa := g.pa, bytes := bs, leaf := g.leaf?, rel := t.fenced
                                                  since := if t.stores = [] then s.tick else 0 }] }

section
variable {s : State} {t : Thread} {al : Nat} {a : Access} {g : Target}

/-- An access that reaches no page of class CTX loads no frame (05 R125). -/
theorem syncFrame_of_reaches (h : Reaches s t al a g) (sdom va : Nat) : s.syncFrame sdom va g = s := by
  obtain ⟨-, -, hcls⟩ := h
  cases g with
  | pad => rfl
  | mem l => simp only [State.syncFrame, Target.leaf?, hcls l rfl, if_false]

/-- A store that reaches no context line enters the store buffer (11 R241). -/
theorem storeBytes_of_reaches (h : Reaches s t al a g) (va : Nat) (k : AccKind) (bs : List Byte) :
    s.storeBytes t va g k bs = .ok (s.put (buffered s t g va bs)) := by
  obtain ⟨-, hline, -⟩ := h
  simp only [State.storeBytes, hline, buffered]

/-- A load that reaches no context line makes the request of its target (11 R240, 18 R420). -/
theorem loadBytes_of_reaches (h : Reaches s t al a g) (k : AccKind) (va n : Nat) :
    ∃ x, s.loadBytes t va g n = .ok x ∧ s.loadReq t k va x = g.request s t k va := by
  obtain ⟨-, hline, -⟩ := h
  cases g with
  | pad c off =>
    by_cases hcore : c = t.core
    · exact ⟨_, if_pos hcore, rfl⟩
    · exact ⟨_, if_neg hcore, rfl⟩
  | mem l =>
    have hnone : s.lineAt l.spot.pa = none := hline
    exact ⟨.away l.spot.pa (some l.leaf) (some l.spot), by simp only [State.loadBytes, hnone], rfl⟩

end

/-! CALL and CALLR (06 R142). -/

/-- The thread t once it has pushed its return address through the store buffer to the target g and gone to v. -/
def calledTo (s : State) (t : Thread) (g : Target) (v : Word) : Thread :=
  { buffered s t g (t.stkp - 8).toNat (lowBytes (t.pc + 4) 8) with pc := v, stkp := t.stkp - 8 }

theorem callTo_of_reaches {s : State} {t : Thread} {g : Target} (ht : s.find t.id = some t) (hsp : t.stkp &&& 7 = 0)
    (h : Reaches s t 8 { ea := (t.stkp - 8).toNat, n := 8, kind := .store, write := true } g) (v : Word) :
    s.callTo t v = .ok (s.put (calledTo s t g v)) := by
  obtain ⟨hreach, -⟩ := id h
  have hagain : (s.put (buffered s t g (t.stkp - 8).toNat (lowBytes (t.pc + 4) 8))).again t =
      buffered s t g (t.stkp - 8).toNat (lowBytes (t.pc + 4) 8) := by
    have hfind := find_put_of_find (u := buffered s t g (t.stkp - 8).toNat (lowBytes (t.pc + 4) 8)) (s := s) rfl ht rfl
    rw [State.again, hfind, Option.getD_some]
  simp only [State.callTo, and_seven_eq_zero_iff.1 hsp, ne_eq, not_true_eq_false, if_false, hreach, syncFrame_of_reaches h,
    again_of_find ht, storeBytes_of_reaches h, wordBytes_eq_lowBytes, hagain]
  exact congrArg Except.ok (put_put rfl)

theorem callTo_of_misaligned {s : State} {t : Thread} (hsp : t.stkp &&& 7 ≠ 0) (v : Word) :
    s.callTo t v = .error (.fault (.plain .misalignedStack t.stkp)) :=
  if_pos (mt and_seven_eq_zero_iff.2 hsp)

/-- CALL and CALLR, once their target is judged good. -/
theorem yields_of_callTo {s : State} {t : Thread} {g : Target} {i : Instr} {k : State → Thread → Except Stop State} {v : Word}
    (hexec : exec i s = word i s k) (hk : k s t = s.callTo t v) (hsp : t.stkp &&& 7 = 0)
    (h : Reaches s t 8 { ea := (t.stkp - 8).toNat, n := 8, kind := .store, write := true } g) :
    Yields s t i (s.put (calledTo s t g v)) := fun hi =>
  yields_of_ok hexec (hk.trans (callTo_of_reaches (issues_find hi) hsp h v)) (find_put_of_find rfl (issues_find hi) rfl) rfl hi

/-! RET and RET_COMPLETION (06 R142, R143). -/

theorem exec_ret (s : State) : exec .ret s = execRet s := rfl

/-- The load of RET from the target g. -/
def retLoad (t : Thread) (g : Target) : LoadSrc :=
  { va := t.stkp.toNat, pa := g.pa, n := 8, leaf := g.leaf?, conv := .zero 0, kind := .load, half := none }

theorem ret_issues_load {s : State} {t : Thread} {g : Target} (hsp : t.stkp &&& 7 = 0)
    (h : Reaches s t 8 { ea := t.stkp.toNat, n := 8, kind := .load, write := false } g) :
    Yields s t .ret (s.put { t with st := .blocked .empty, pend := some (.ret (retLoad t g))
                                    req := g.request s t .load t.stkp.toNat }) := by
  intro hi
  obtain ⟨x, hload, hreq⟩ := loadBytes_of_reaches h .load t.stkp.toNat 8
  have ht := issues_find hi
  have hreach := h.1
  refine yields_of_ok ((exec_ret s).trans rfl) ?_ (find_put_of_find rfl ht rfl) rfl hi
  simp only [and_seven_eq_zero_iff.1 hsp, ne_eq, not_true_eq_false, if_false, hreach, syncFrame_of_reaches h, again_of_find ht, hload, hreq]
  rfl

theorem ret_parks_of_misaligned {s : State} {t : Thread} (hsp : t.stkp &&& 7 ≠ 0) :
    Parks s t .ret (.plain .misalignedStack t.stkp) :=
  parks_of_fault ((exec_ret s).trans rfl) (if_pos (mt and_seven_eq_zero_iff.2 hsp))

/-- 12 R261: what a load finds in memory is what its thread sees there. -/
theorem loadAt_of_memory {s : State} {t : Thread} {pa : Nat} (h : s.lineAt pa = none) (n : Nat) : s.loadAt t pa n = s.seenBytes t pa n := by
  simp only [State.loadAt, h, upto_eq_range', State.seenBytes, List.range'_eq_map_range, List.map_map]
  rfl

/-- A page that is in no transition serves a load where it lay at its issue (13 R303). -/
theorem srcPa_of_stable {s : State} {t : Thread} {x : LoadSrc} (h : ∀ e, x.leaf = some e → Leaf.trans e = false) :
    s.srcPa t x = x.pa := by
  unfold State.srcPa
  split
  next => rfl
  next e he => rw [h e he]; rfl

/-- The thread of a RET whose load has returned. -/
def retReturned (s : State) (t : Thread) : Thread := { s.bindLoads t with pend := none, req := none, st := .resident }

/-- The thread of a RET that has completed with the target v. -/
def retDone (s : State) (t : Thread) (v : Word) : Thread := { retReturned s t with stkp := t.stkp + 8, pc := v }

section
variable {s : State} {i : Tid} {t : Thread} {x : LoadSrc} (h : s.find i = some t) (hpend : t.pend = some (.ret x)) (hn : x.n = 8)
  (hhalf : x.half = none) (hreq : t.req.any s.reqLost = false) (hleaf : ∀ e, x.leaf = some e → Leaf.trans e = false)
  (hpoison : s.viewPoison t x.va x.pa 8 = none) (hline : s.lineAt x.pa = none)
include h hpend hn hhalf hreq hleaf hpoison hline

/-- The word that the load of RET returns is judged as a target. -/
theorem exec_retCompletion :
    let v := BitVec.ofNat 64 (s.seen t x.pa 8)
    exec (.retCompletion i) s = .next (
      if regTargetOk v then (s.put (retDone s t v)).boundary i (wordOf .ret)
      else s.parkWhenFree (retReturned s t) (.plain .badTarget v) false (wordOf .ret)) := by
  have hbytes : s.srcBytes t x = s.seenBytes t x.pa 8 := by
    simp only [State.srcBytes, hhalf, srcPa_of_stable hleaf, hn, loadAt_of_memory hline]
  have hclean : s.loadPoison t x.va x.pa 8 = none := by simp only [State.loadPoison, hline, hpoison]
  show execRetCompletion i s = _
  simp only [execRetCompletion, event, h, hpend, hreq, srcPa_of_stable hleaf, hclean, hbytes, Bool.false_eq_true, if_false]
  rfl

theorem retCompletion_goes (hsettled : t.settled = true) :
    let v := BitVec.ofNat 64 (s.seen t x.pa 8)
    regTargetOk v = true → exec (.retCompletion i) s = .next (s.put (retDone s t v)) := by
  intro v hv
  rw [exec_retCompletion h hpend hn hhalf hreq hleaf hpoison hline, if_pos hv]
  have hid : t.id = i := find_id h
  exact congrArg _ (boundary_settled (find_put_of_find (s := s) (u := retDone s t v) rfl h hid) hsettled)

theorem retCompletion_parks :
    let v := BitVec.ofNat 64 (s.seen t x.pa 8)
    ¬ regTargetOk v = true → s.stuck (retReturned s t) = false →
    exec (.retCompletion i) s = .next (s.park (retReturned s t) (.plain .badTarget v) false false (wordOf .ret)) := by
  intro v hv hfree
  rw [exec_retCompletion h hpend hn hhalf hreq hleaf hpoison hline, if_neg hv, State.parkWhenFree, hfree]
  rfl

end

/-- Settles O18: the target is judged before the stack pointer; a call then pushes through the store buffer, and a return waits for its
load. -/
theorem callAndReturn : Obligations.CallAndReturn := by
  intro s t j a g i x ok target w sp pushed bad
  have hok : targetOk (dispTarget t.pc j.toInt) = true ↔ ok target := dispTarget_eq t.pc j.toInt ▸ targetOk_iff
  have hcall (h : ok target) : (if targetOk (dispTarget t.pc j.toInt) then s.callTo t (i64 (dispTarget t.pc j.toInt))
      else failWith .badTarget (i64 (dispTarget t.pc j.toInt))) = s.callTo t (BitVec.ofInt 64 target) := by
    rw [if_pos (hok.2 h), dispTarget_eq]
    rfl
  refine ⟨fun hsp h => ⟨fun hc => yields_of_callTo (exec_call j s) (hcall hc) hsp h,
      fun hw hc => yields_of_callTo (exec_callr a s) (if_pos (regTargetOk_iff.2 ⟨hw, hc⟩)) hsp h⟩,
    fun hsp h => ret_issues_load hsp h,
    fun hsp => ⟨ret_parks_of_misaligned hsp, fun hc => parks_of_fault (exec_call j s) ((hcall hc).trans (callTo_of_misaligned hsp _)),
      fun hw hc => parks_of_fault (exec_callr a s) ((if_pos (regTargetOk_iff.2 ⟨hw, hc⟩)).trans (callTo_of_misaligned hsp _))⟩,
    fun h hsettled hpend hn hhalf hreq hleaf hpoison hline =>
      ⟨fun hv hc => retCompletion_goes h hpend hn hhalf hreq hleaf hpoison hline hsettled (regTargetOk_iff.2 ⟨hv, hc⟩),
      fun hbad hfree => retCompletion_parks h hpend hn hhalf hreq hleaf hpoison hline ?_ hfree⟩⟩
  rintro hgood
  obtain ⟨hv, hc⟩ := regTargetOk_iff.1 hgood
  exact hbad.elim (absurd hv) (absurd hc)

end Sys2Proof.Proofs

/-! PROOF. What the ends of waits, frames and drained stores leave of the threads: their names always, and where no thread waits for a word
the threads that are not concerned (05 R125; 12 R269; 16 R361). -/
namespace Sys2Proof.Proofs
open Sys2Proof.Machine Sys2Proof.Laws

/-! Waits for a word of memory. -/

/-- The thread waits for no word of memory. -/
structure WatchesNothing (u : Thread) : Prop where
  watch : ∀ pa val reg, u.cond ≠ some (.watch pa val reg)
  fill : ∀ pa val reg, u.cond ≠ some (.fill pa val reg)
  gangTest : ∀ g pa leaf reg, u.cond ≠ some (.gangTest g pa leaf reg)

theorem watchesNothing_of_cond {u v : Thread} (h : WatchesNothing u) (hcond : v.cond = u.cond) : WatchesNothing v :=
  ⟨hcond ▸ h.watch, hcond ▸ h.fill, hcond ▸ h.gangTest⟩

theorem watchesNothing_of_none {u : Thread} (h : u.cond = none) : WatchesNothing u := by
  constructor <;> simp [h]

theorem unwatched_iff {s : State} : s.unwatched ↔ ∀ u ∈ s.threads, WatchesNothing u := by
  refine forall₂_congr fun u _ => ⟨fun h => ?_, fun h => ?_⟩
  · constructor <;> intros <;> intro hc <;> rw [hc] at h <;> exact h
  · obtain ⟨hwatch, hfill, htest⟩ := h
    split
    · exact hwatch _ _ _ ‹_›
    · exact hfill _ _ _ ‹_›
    · exact htest _ _ _ _ ‹_›
    · trivial

theorem unwatched_of_threads {s s' : State} (h : s.unwatched) (hs : s'.threads = s.threads) : s'.unwatched := fun u hu => h u (hs ▸ hu)

theorem unwatched_put {s : State} {w : Thread} (h : s.unwatched) (hw : WatchesNothing w) : (s.put w).unwatched :=
  unwatched_iff.2 fun u hu => by
    obtain rfl | ⟨hu, -⟩ := mem_put_threads hu
    · exact hw
    · exact unwatched_iff.1 h u hu

/-! Names: which threads live. -/

/-- The names of the live threads, in the order of the list. -/
def names (s : State) : List Tid := s.threads.map (·.id)

theorem find_eq_none_iff {s : State} {i : Tid} : s.find i = none ↔ i ∉ names s := by
  simp [State.find, names]

theorem names_of_threads {s s' : State} (h : s'.threads = s.threads) : names s' = names s := by rw [names, h, names]

@[simp] theorem names_put (s : State) (t : Thread) : names (s.put t) = names s := by
  simp only [names, State.put, List.map_map]
  refine List.map_congr_left fun u _ => ?_
  by_cases hid : u.id = t.id <;> simp [hid]

theorem foldl_names {α : Type} {f : State → α → State} (hf : ∀ s a, names (f s a) = names s) (l : List α) (s : State) :
    names (l.foldl f s) = names s := by
  induction l generalizing s with
  | nil => rfl
  | cons a l ih => rw [List.foldl_cons, ih, hf]

theorem names_endWaitMove (s : State) (t : Thread) : names (s.endWaitMove t) = names s := by
  unfold State.endWaitMove
  split <;> exact names_put ..

theorem names_completeWait (s : State) (t : Thread) (regs : List (Nat × Word)) : names (s.completeWait t regs) = names s :=
  names_endWaitMove ..

/-! Gangs (09 R196 to R200): the writes of a record, and what convening a gang does to its members. -/

theorem gangWrite_threads (s : State) (g : Gang) (k off : Nat) (bs : List Byte) : (s.gangWrite g k off bs).1.threads = s.threads := by
  unfold State.gangWrite
  split
  · dsimp only
    split
    · exact writeAs_threads ..
    · rfl
  · split
    · rfl
    · split
      · rfl
      · dsimp only
        split
        · rw [writeAs_threads, writeAs_threads]
        · exact writeAs_threads ..

theorem gangWrites_threads (s : State) (g : Gang) (k : Nat) (l : List (Nat × List Byte)) : (s.gangWrites g k l).1.threads = s.threads := by
  have h : ∀ x : State × Bool,
      (l.foldl (fun x p => let (s1, b) := x.1.gangWrite g k p.1 p.2; (s1, x.2 || b)) x).1.threads = x.1.threads := by
    induction l with
    | nil => exact fun _ => rfl
    | cons p l ih => exact fun x => (ih _).trans (gangWrite_threads ..)
  exact h (s, false)

theorem recPut_threads (s : State) (g : Gang) (ks : List Nat) : (s.recPut g ks).threads = s.threads := gangWrites_threads ..

theorem foldl_threads {α : Type} {f : State → α → State} (hf : ∀ s a, (f s a).threads = s.threads) (l : List α) (s : State) :
    (l.foldl f s).threads = s.threads := by
  induction l generalizing s with
  | nil => rfl
  | cons a l ih => rw [List.foldl_cons, ih, hf]

theorem names_releaseMember (s : State) (t : Thread) : names (s.releaseMember t) = names s := by
  unfold State.releaseMember
  split
  · exact (names_put ..).trans (names_of_threads (((Quiet.refl s).tally ..).releaseSlot t).threads)
  · rfl

theorem names_seatGang (s : State) (g : Gang) : names (s.seatGang g) = names s := by
  unfold State.seatGang
  split
  · refine names_of_threads ((recPut_threads ..).trans ((foldl_threads (fun s k => ((Quiet.refl s).touch ..).threads) ..).trans ?_))
    exact foldl_threads (f := fun s c => s.modUnit c _) (fun _ _ => rfl) _ s
  · exact (names_of_threads rfl).trans (foldl_names names_releaseMember _ s)

theorem names_completeForming (s : State) (g : Gang) : names (s.completeForming g) = names s := by
  refine foldl_names (fun s t => ?_) _ s
  split
  · exact names_completeWait ..
  · exact names_put ..

theorem names_convene (s : State) (g : Gang) : names (s.convene g) = names s := by
  refine (names_seatGang ..).trans ((names_completeForming ..).trans (names_of_threads ?_))
  exact recPut_threads ..

theorem names_joinGang (s : State) (t : Thread) (g : Gang) (pa : Nat) (leaf : Option Word) (k reg : Nat) :
    names (s.joinGang t g pa leaf k reg) = names s := by
  have hrec (u : Thread) (g : Gang) (ks : List Nat) : names (((s.put u).setGang g).recPut g ks) = names s :=
    (names_of_threads (recPut_threads ..)).trans ((names_of_threads rfl).trans (names_put s u))
  unfold State.joinGang
  dsimp only
  split
  · exact (names_convene ..).trans (hrec ..)
  · exact hrec ..

/-- The state that a test leaves, if it leaves one, has the names of s. -/
def KeepsNames (s : State) (r : Except Flt State) : Prop := ∀ s', r = .ok s' → names s' = names s

theorem keepsNames_error (s : State) (f : Flt) : KeepsNames s (.error f) := fun _ hs => by cases hs

theorem keepsNames_ok {s s1 : State} (h : names s1 = names s) : KeepsNames s (.ok s1) := fun s' hs => by
  rw [← Except.ok.inj hs, h]

theorem keepsNames_ite {s : State} {c : Prop} [Decidable c] {a b : Except Flt State} (ha : KeepsNames s a) (hb : KeepsNames s b) :
    KeepsNames s (if c then a else b) := by
  split
  · exact ha
  · exact hb

theorem names_joinTest (s : State) (t : Thread) (id : GangId) (pa : Nat) (leaf : Option Word) (reg : Nat) :
    KeepsNames s (s.joinTest t id pa leaf reg) := by
  unfold State.joinTest
  split
  · exact keepsNames_error _ _
  · exact keepsNames_ok rfl
  · refine keepsNames_ite (keepsNames_ok rfl) ?_
    split
    · exact keepsNames_ok (names_completeWait ..)
    · split
      · exact keepsNames_ok rfl
      · dsimp only
        split
        · exact keepsNames_error _ _
        · refine keepsNames_ite (keepsNames_error _ _) (keepsNames_ite (keepsNames_error _ _) ?_)
          split
          · exact keepsNames_error _ _
          · exact keepsNames_ok (names_joinGang ..)
      · exact keepsNames_error _ _

theorem names_parkJoiner (s : State) (t : Thread) (f : Flt) : names (s.parkJoiner t f) = names s := by
  unfold State.parkJoiner
  dsimp only
  exact (names_of_threads ((Quiet.refl _).pushRec ..).threads).trans
    ((names_put ..).trans (names_of_threads ((Quiet.refl s).releaseSlot t).threads))

theorem names_checkJoiners (s : State) : names s.checkJoiners = names s := by
  refine foldl_names (fun s u => ?_) _ s
  split
  · rfl
  · split
    · split
      · exact names_joinTest _ _ _ _ _ _ _ ‹_›
      · exact names_parkJoiner ..
    · rfl

/-- The ends of waits leave every name (16 R361). -/
theorem names_checkWatches (s : State) : names s.checkWatches = names s := by
  refine (foldl_names (fun s u => ?_) _ s.checkJoiners).trans (names_checkJoiners s)
  dsimp only
  split
  · split
    · exact (names_completeWait ..).trans (names_of_threads rfl)
    · split
      · exact names_completeWait ..
      · rfl
  · split
    · exact names_completeWait ..
    · rfl
  · rfl

/-! Properties that rest on the threads alone and that the ends of waits keep. -/

structure Steady (R : State → Prop) : Prop where
  of_threads : ∀ {s s'}, R s → s'.threads = s.threads → R s'
  checkWatches : ∀ {s}, R s → R s.checkWatches

theorem steady_names (l : List Tid) : Steady fun s => names s = l :=
  ⟨fun h hs => (names_of_threads hs).trans h, fun h => (names_checkWatches _).trans h⟩

/-- A property that rests on the threads, of states in which no thread waits for a word. -/
theorem steady_of_unwatched {R : State → Prop} (hthreads : ∀ {s s'}, R s → s'.threads = s.threads → R s')
    (hquiet : ∀ {s}, R s → s.unwatched) : Steady R :=
  ⟨hthreads, fun h => (checkWatches_of_unwatched (hquiet h)).symm ▸ h⟩

end Sys2Proof.Proofs

/-! PROOF. YIELD (06 R145): who stands to take the slot, and what becomes of the thread that gives it up. -/
namespace Sys2Proof.Proofs
open Sys2Proof.Machine Sys2Proof.Laws

/-! A decision refreshes base priorities (02 R43, R45), and changes nothing else of a thread. -/

/-- The thread u is t but for its priority. -/
def Reprioritised (t u : Thread) : Prop := u = { t with prio := u.prio, priol := u.priol, reach := u.reach }

theorem Reprioritised.refl (t : Thread) : Reprioritised t t := rfl

theorem Reprioritised.trans {t u v : Thread} (h : Reprioritised t u) (h' : Reprioritised u v) : Reprioritised t v := by
  rw [Reprioritised] at h h' ⊢
  rw [h] at h'
  exact h'

theorem Reprioritised.eq {t u : Thread} (h : Reprioritised t u) : u = { t with prio := u.prio, priol := u.priol, reach := u.reach } := h
theorem Reprioritised.id_eq {t u : Thread} (h : Reprioritised t u) : u.id = t.id := by rw [h.eq]
theorem Reprioritised.core_eq {t u : Thread} (h : Reprioritised t u) : u.core = t.core := by rw [h.eq]
theorem Reprioritised.st_eq {t u : Thread} (h : Reprioritised t u) : u.st = t.st := by rw [h.eq]
theorem Reprioritised.gang_eq {t u : Thread} (h : Reprioritised t u) : u.gang = t.gang := by rw [h.eq]
theorem Reprioritised.cond_eq {t u : Thread} (h : Reprioritised t u) : u.cond = t.cond := by rw [h.eq]

theorem refreshPrio_reprioritised (s : State) (t : Thread) (path : List (Nat × Rcb)) : Reprioritised t (s.refreshPrio t path) := by
  unfold State.refreshPrio
  dsimp only
  split <;> rfl

/-- From s to s' the threads are as they were but for their priorities, no store has come before its global point, and no gang has come
where there was none. -/
structure Refreshed (s s' : State) : Prop where
  mem : ∀ v ∈ s'.threads, ∃ w ∈ s.threads, Reprioritised w v
  find : ∀ i w, s.find i = some w → ∃ v, s'.find i = some v ∧ Reprioritised w v
  early : s'.early = s.early
  gangs : s.gangs = [] → s'.gangs = []

namespace Refreshed
variable {s s1 s2 : State}

theorem refl (s : State) : Refreshed s s := ⟨fun v hv => ⟨v, hv, .refl v⟩, fun _ w hw => ⟨w, hw, .refl w⟩, rfl, id⟩

theorem quiet (h : Refreshed s s1) (hq : Quiet s1 s2) : Refreshed s s2 where
  mem := hq.threads ▸ h.mem
  find i w hw := by rw [hq.find]; exact h.find i w hw
  early := hq.early.trans h.early
  gangs e := hq.gangs (h.gangs e)

/-- A thread of the list gets another priority. -/
theorem put {t u : Thread} (h : Refreshed s s1) (ht : s1.find t.id = some t) (hu : Reprioritised t u) : Refreshed s (s1.put u) where
  mem v hv := by
    obtain rfl | ⟨hv, -⟩ := mem_put_threads hv
    · obtain ⟨w, hw, hwt⟩ := h.mem t (mem_of_find ht)
      exact ⟨w, hw, hwt.trans hu⟩
    · exact h.mem v hv
  find i w hw := by
    obtain ⟨v, hv, hwv⟩ := h.find i w hw
    by_cases hi : i = t.id
    · subst hi
      obtain rfl := Option.some.inj (ht.symm.trans hv)
      exact ⟨u, find_put_of_find rfl ht hu.id_eq, hwv.trans hu⟩
    · exact ⟨v, (find_put_ne (by rw [hu.id_eq]; exact hi)).trans hv, hwv⟩
  early := h.early
  gangs := h.gangs

theorem put_again (h : Refreshed s s1) (t : Thread) (path : List (Nat × Rcb)) :
    Refreshed s (s1.put (s1.refreshPrio (s1.again t) path)) := by
  have hprio := refreshPrio_reprioritised s1 (s1.again t) path
  cases ht : s1.find t.id with
  | some u =>
    have hu : s1.again t = u := by rw [State.again, ht, Option.getD_some]
    rw [hu] at hprio ⊢
    exact h.put (by rw [find_id ht]; exact ht) hprio
  | none =>
    have hself : s1.again t = t := by rw [State.again, ht, Option.getD_none]
    rw [hself] at hprio ⊢
    rw [put_of_find_none (by rw [hprio.id_eq]; exact ht)]
    exact h

theorem refreshCore (h : Refreshed s s1) (core : Nat) : Refreshed s (s1.refreshCore core) := by
  unfold State.refreshCore
  refine quiet ?_ ((Quiet.refl _).noteGangReach s1)
  generalize s1.threads.filter (fun t => t.core == core) = l
  induction l generalizing s1 with
  | nil => exact h
  | cons t l ih =>
    refine ih ?_
    have hread : Refreshed s (s1.chainRead (dieOf core) t.home t.region) := h.quiet ((Quiet.refl s1).touchPath ..)
    dsimp only
    split
    · exact hread.put_again t _
    · exact hread

theorem unwatched (h : Refreshed s s1) (hs : s.unwatched) : s1.unwatched :=
  unwatched_iff.2 fun v hv => by
    obtain ⟨w, hw, hwv⟩ := h.mem v hv
    exact watchesNothing_of_cond (unwatched_iff.1 hs w hw) hwv.cond_eq

theorem readyOf_nil (h : Refreshed s s1) {core : Nat} (hs : s.readyOf core = []) : s1.readyOf core = [] := by
  refine List.eq_nil_iff_forall_not_mem.2 fun v hv => ?_
  obtain ⟨hmem, hcore, hst, hgang⟩ := mem_readyOf.1 hv
  obtain ⟨w, hw, hwv⟩ := h.mem v hmem
  have hready : w ∈ s.readyOf core := mem_readyOf.2 ⟨hw, hwv.core_eq ▸ hcore, hwv.st_eq ▸ hst, hwv.gang_eq ▸ hgang⟩
  rw [hs] at hready
  cases hready

end Refreshed

/-! The survey of a core's candidates raises region faults, and takes its candidates from the READY threads of the core. -/

/-- What a survey of the READY threads of a core has come to: the state it leaves, and its candidates among them. -/
def Surveyed (s : State) (core : Nat) (x : State × List Thread × List (Thread × Nat)) : Prop :=
  Quiet s x.1 ∧ ∀ u ∈ x.2.1, u ∈ s.readyOf core

theorem surveyReady_spec (s : State) (core : Nat) : Surveyed s core (s.surveyReady core) := by
  refine List.foldlRecOn (motive := Surveyed s core) _ _ ⟨.refl s, fun _ hu => absurd hu List.not_mem_nil⟩ ?_
  intro x ⟨hq, hx⟩ t ht
  split
  · exact ⟨hq.regionFault .., hx⟩
  · split
    · refine ⟨hq, fun u hu => ?_⟩
      obtain hu | hu := List.mem_append.1 hu
      · exact hx u hu
      · exact List.mem_singleton.1 hu ▸ ht
    · exact ⟨hq, hx⟩
    · exact ⟨hq, hx⟩

theorem mem_of_firstOf {s : State} {l : List Thread} {u : Thread} (h : s.firstOf l = some u) : u ∈ l := by
  have hne : l ≠ [] := by rintro rfl; cases h
  obtain ⟨v, hv, hfirst⟩ := firstOf_mem s hne
  rw [hfirst] at h
  exact Option.some.inj h ▸ hv

/-! What YIELD does (06 R145). -/

theorem exec_yield (s : State) :
    exec .yield s = word .yield s fun s t =>
      .ok (if t.killed || !t.asyncs.isEmpty || t.stepped then s.retire t else (s.retire t).yieldTo t.id) := rfl

/-- With nothing queued for its boundary a thread yields as it completes. -/
theorem yields_of_yieldTo {s s' : State} {t u : Thread} (h : (s.retire t).yieldTo t.id = s') (hfind : s'.find t.id = some u)
    (hsettled : u.settled = t.settled) : Yields s t .yield s' := fun hissues => by
  obtain ⟨-, -, hquiet⟩ := id hissues
  refine yields_of_ok (exec_yield s) ?_ hfind hsettled hissues
  have hnone : (t.killed || !t.asyncs.isEmpty || t.stepped) = false := by
    simpa [Thread.settled, and_assoc] using hquiet
  rw [hnone, h]
  rfl

theorem yieldTo_of_gang {s : State} {i : Tid} {t : Thread} (h : s.find i = some t) (hgang : t.gang.isSome = true) : s.yieldTo i = s := by
  simp only [State.yieldTo, h, hgang, Bool.true_or, if_true]

section
variable {s s1 : State} {i : Tid} {t : Thread} {ok : List Thread} {r : List (Thread × Nat)} (h : s.find i = some t)
  (hgang : t.gang = none) (hst : t.st = .resident) (hsurvey : (s.refreshCore t.core).surveyReady t.core = (s1, ok, r))
  (hgangs : s1.gangs = [])
include h hgang hst hsurvey hgangs

/-- A thread whose core has no candidate keeps its slot. -/
theorem yieldTo_of_no_candidate (hfirst : s1.firstOf ok = none) : s.yieldTo i = s1 := by
  simp [State.yieldTo, h, hgang, hst, hsurvey, hgangs, hfirst]

/-- A thread that may leave gives its slot up for a candidate of no lower priority. -/
theorem yieldTo_of_candidate {c : Thread} {sl : Nat × Nat} (hfirst : s1.firstOf ok = some c) (hslot : (s1.again t).slot = some sl)
    (hprio : (s1.again t).prio ≤ s1.prioOf c) (hleave : s1.mayLeave (s1.again t) = true) :
    s.yieldTo i = (s1.evict (s1.again t)).activate ((s1.evict (s1.again t)).again c) sl := by
  simp [State.yieldTo, h, hgang, hst, hsurvey, hgangs, hfirst, hslot, hprio, hleave]

end

/-- A member of a gang goes on at the next word. -/
theorem yield_of_gang {s : State} {t : Thread} (hgang : t.gang.isSome = true) : Completes s t .yield t := fun hissues => by
  have hfind : (s.retire t).find t.id = some { t with pc := t.pc + 4 } := find_put_of_find rfl (issues_find hissues) rfl
  exact yields_of_yieldTo (yieldTo_of_gang hfind hgang) hfind rfl hissues

/-- Where a word has left s', a thread found there is found once what was walked has been used (13 R307). -/
theorem exists_next_of_yields {s s' : State} {t : Thread} {i : Instr} (h : Yields s t i s') (hissues : Issues s t i) :
    ∃ s2, exec i s = .next s2 ∧ ∀ j, s2.find j = s'.find j :=
  ⟨_, h hissues, find_commitFresh _ _ _ _⟩

/-- A thread whose core has no READY thread, where there is no gang, goes on at the next word; only its priority may change. -/
theorem yield_of_no_ready {s : State} {t : Thread} (hgang : t.gang = none) (hready : s.readyOf t.core = []) (hgangs : s.gangs = [])
    (hst : t.st = .resident) (hissues : Issues s t .yield) :
    ∃ s' u, exec .yield s = .next s' ∧ s'.find t.id = some u ∧ Reprioritised { t with pc := t.pc + 4 } u := by
  have hfind : (s.retire t).find t.id = some { t with pc := t.pc + 4 } := find_put_of_find rfl (issues_find hissues) rfl
  have hnone : (s.retire t).readyOf t.core = [] := by
    refine List.eq_nil_iff_forall_not_mem.2 fun v hv => ?_
    obtain ⟨hmem, hcore, hv, hgangless⟩ := mem_readyOf.1 hv
    obtain rfl | ⟨hmem, -⟩ := mem_put_threads hmem
    · rw [hst] at hv
      cases hv
    · have hold : v ∈ s.readyOf t.core := mem_readyOf.2 ⟨hmem, hcore, hv, hgangless⟩
      rw [hready] at hold
      cases hold
  have hrefresh : Refreshed (s.retire t) ((s.retire t).refreshCore t.core) := (Refreshed.refl _).refreshCore t.core
  have hsurvey : ((s.retire t).refreshCore t.core).surveyReady t.core = ((s.retire t).refreshCore t.core, [], []) := by
    rw [State.surveyReady, hrefresh.readyOf_nil hnone]
    rfl
  obtain ⟨u, hu, hprio⟩ := hrefresh.find _ _ hfind
  have hyield := yieldTo_of_no_candidate hfind hgang hst hsurvey (hrefresh.gangs hgangs) rfl
  obtain ⟨s', hexec, hsame⟩ := exists_next_of_yields (yields_of_yieldTo hyield hu (by rw [hprio.eq]; rfl)) hissues
  exact ⟨s', u, hexec, (hsame _).trans hu, hprio⟩

end Sys2Proof.Proofs

/-! PROOF. A thread that has given its slot up stays READY at its word while the device loads frames, drains stores and parks threads of
other names, as long as no thread waits for a word (05 R125; 12 R269, R273; 18 R402). -/
namespace Sys2Proof.Proofs
open Sys2Proof.Machine Sys2Proof.Laws

/-- The thread u waits for no word; if it bears the name of t, it is READY without a slot at the PC of t with nothing queued. -/
structure Stands (t u : Thread) : Prop where
  waits : WatchesNothing u
  own : u.id = t.id → u.pc = t.pc ∧ u.st = .ready ∧ u.slot = none ∧ u.settled = true

/-- A thread that another stands for in all that `Stands` speaks of. -/
theorem Stands.of_eq {t u v : Thread} (h : Stands t u) (hid : v.id = u.id) (hcond : v.cond = u.cond) (hpc : v.pc = u.pc)
    (hst : v.st = u.st) (hslot : v.slot = u.slot) (hsettled : v.settled = u.settled) : Stands t v where
  waits := watchesNothing_of_cond h.waits hcond
  own hown := by rw [hpc, hst, hslot, hsettled]; exact h.own (hid ▸ hown)

theorem stands_of_ne {t u : Thread} (hid : u.id ≠ t.id) (hwaits : WatchesNothing u) : Stands t u := ⟨hwaits, fun h => absurd h hid⟩

/-- Every thread stands as `Stands` says, and one bears the name of t. -/
structure Left (t : Thread) (s : State) : Prop where
  stands : ∀ u ∈ s.threads, Stands t u
  live : (s.find t.id).isSome = true

namespace Left
variable {t : Thread} {s s' : State}

theorem of_threads (h : Left t s) (hs : s'.threads = s.threads) : Left t s' :=
  ⟨hs ▸ h.stands, by rw [find_of_threads hs]; exact h.live⟩

theorem unwatched (h : Left t s) : s.unwatched := unwatched_iff.2 fun u hu => (h.stands u hu).waits

theorem checkWatches (h : Left t s) : Left t s.checkWatches := by
  rw [checkWatches_of_unwatched h.unwatched]
  exact h

theorem put {w : Thread} (h : Left t s) (hw : Stands t w) : Left t (s.put w) where
  stands u hu := by
    obtain rfl | ⟨hu, -⟩ := mem_put_threads hu
    · exact hw
    · exact h.stands u hu
  live := by
    by_cases hid : t.id = w.id
    · rw [hid, find_put (hid ▸ h.live)]
      rfl
    · rw [find_put_ne hid]
      exact h.live

theorem map {f : Thread → Thread} (h : Left t s) (hs : s'.threads = s.threads.map f) (hid : ∀ u, (f u).id = u.id)
    (hf : ∀ u, Stands t u → Stands t (f u)) : Left t s' where
  stands v hv := by
    obtain ⟨u, hu, rfl⟩ := List.mem_map.1 (hs ▸ hv)
    exact hf u (h.stands u hu)
  live := by
    rw [find_mapThreads hs hid, Option.isSome_map]
    exact h.live

theorem foldl {α : Type} {f : State → α → State} (hf : ∀ s a, Left t s → Left t (f s a)) (l : List α) (h : Left t s) :
    Left t (l.foldl f s) :=
  List.foldlRecOn (motive := Left t) l f h fun s hs a _ => hf s a hs

/-- The thread found under a name, or one in its place that stands. -/
theorem stands_getD (h : Left t s) {w : Thread} (hw : Stands t w) (i : Tid) : Stands t ((s.find i).getD w) := by
  cases hi : s.find i with
  | none => exact hw
  | some u => exact h.stands u (mem_of_find hi)

/-! Writes where they lie, in memory or in the lines of a frame (05 R123). -/

theorem storeRegs_stands {u : Thread} (hu : Stands t u) (i k : Nat) (bs : List Byte) : Stands t (u.storeRegs i k bs) := by
  unfold Thread.storeRegs
  refine List.foldlRecOn (motive := Stands t) _ _ hu fun v hv w _ => ?_
  exact hv.of_eq (wr_id ..) (wr_cond ..) (wr_pc ..) (wr_st ..) (wr_slot ..) (wr_settled ..)

theorem mem_of_lineAt {u : Thread} {pa i : Nat} (h : s.lineAt pa = some (u, i)) : u ∈ s.threads := by
  obtain ⟨v, hv, hline⟩ := List.exists_of_findSome?_eq_some h
  split at hline
  · cases hline
  · obtain ⟨j, -, hj⟩ := Option.map_eq_some_iff.1 hline
    cases hj
    exact hv

theorem writeRaw (h : Left t s) (d pa : Nat) (bs : List Byte) : Left t (s.writeRaw d pa bs) := by
  unfold State.writeRaw
  split
  next u i hline =>
    split
    · exact h
    · exact (h.of_threads (s' := s.unpoison pa bs.length) rfl).put (storeRegs_stands (h.stands u (mem_of_lineAt hline)) ..)
  next =>
    refine h.of_threads ?_
    unfold State.noteOperand
    split
    · exact writeAs_threads ..
    · exact writeAs_threads ..

theorem perform (h : Left t s) (d pa : Nat) (m : Option Nat) (bs : List Byte) : Left t (s.perform d pa m bs) := by
  unfold State.perform
  refine checkWatches ?_
  split
  · exact (h.writeRaw ..).of_threads (writeAs_threads ..)
  · exact h.writeRaw ..

/-! Late writes of engines and stores before their global point become visible (12 R273, R279). -/

theorem landWhere (h : Left t s) (p : Landing → Bool) : Left t (s.landWhere p) := by
  unfold State.landWhere
  dsimp only
  split
  · exact h
  · exact foldl (fun s x hs => hs.perform ..) _ (h.of_threads rfl)

theorem landEarly (h : Left t s) (x : Early) : Left t (s.landEarly x) := by
  unfold State.landEarly
  split
  · exact h
  · exact (h.of_threads (s' := { s with early := s.early.erase x }) rfl).perform ..

theorem landEarlyWhere (h : Left t s) (p : Early → Bool) : Left t (s.landEarlyWhere p) := by
  unfold State.landEarlyWhere
  dsimp only
  split
  · exact h
  · refine (foldl (fun s x hs => hs.landEarly x) _ h).map rfl (fun u => ?_) (fun u hu => ?_)
    · split <;> rfl
    · split
      · exact hu.of_eq rfl rfl rfl rfl rfl rfl
      · exact hu

theorem landStore (h : Left t s) (u : Thread) : Left t (s.landStore u) := by
  unfold State.landStore
  split
  · exact h
  · split
    · exact h
    · exact h.landWhere ..

/-! Draining the store buffer of a thread (12 R269). -/

theorem drainWith (h : Left t s) {u : Thread} (hu : Stands t u) (later : Bool) : Left t (s.drainWith u later) := by
  unfold State.drainWith
  extract_lets s1 s2 v
  have hland : Left t s2 := by
    unfold s2
    split
    · exact (h.landStore u).landEarlyWhere _
    · exact h.landStore u
  have hbound : Stands t v := (hland.stands_getD hu u.id).of_eq rfl rfl rfl rfl rfl rfl
  clear_value v s2
  have hput {w : Thread} (hw : w = { v with stores := w.stores, fills := w.fills }) : Left t (s2.put w) :=
    hland.put (hbound.of_eq (by rw [hw]) (by rw [hw]) (by rw [hw]) (by rw [hw]) (by rw [hw]) (by rw [hw]; rfl))
  split
  · exact hland
  · split
    · exact hland
    · split
      · exact hland
      · split
        · exact (hput rfl).perform ..
        · split
          · exact checkWatches ((hput (w := v.popStore s2.tick) rfl).of_threads rfl)
          · exact (hput (w := v.popStore s2.tick) rfl).perform ..

theorem drainAll (h : Left t s) {u : Thread} (hu : Stands t u) : Left t (s.drainAll u) := by
  refine foldl (fun s _ hs => ?_) _ ((h.put hu).landEarlyWhere _)
  split
  next v hv => exact hs.drainWith (hs.stands v (mem_of_find hv)) false
  next => exact hs

/-! Parking a thread of another name (18 R402). -/

theorem vacate (h : Left t s) {u : Thread} (hu : Stands t u) : Left t (s.vacate u).1 :=
  (h.drainAll hu).of_threads ((Quiet.refl _).releaseSlot _).threads

theorem vacate_id {u : Thread} : (s.vacate u).2.id = u.id := by
  rw [State.vacate, releaseSlot_thread]
  cases hfind : (s.drainAll u).find u.id with
  | none => rfl
  | some v =>
    have hid := find_id hfind
    exact hid

theorem unstep_threads (s : State) (i : Tid) : (s.unstep i).threads = s.threads := by
  unfold State.unstep
  split <;> rfl

theorem gangParked_threads (s : State) (u : Thread) : (s.gangParked u).threads = s.threads := by
  unfold State.gangParked
  split <;> rfl

theorem park (h : Left t s) {u : Thread} (hu : Stands t u) (hid : u.id ≠ t.id) (f : Flt) (async ctx : Bool) (word : Nat) (own : Bool) :
    Left t (s.park u f async ctx word own) := by
  unfold State.park
  dsimp only
  refine of_threads ?_ ((gangParked_threads ..).trans ((Quiet.refl _).pushRec ..).threads)
  refine ((h.vacate hu).of_threads (unstep_threads ..)).put (stands_of_ne ?_ (watchesNothing_of_none rfl))
  exact fun h => hid (vacate_id.symm.trans h)

end Left
end Sys2Proof.Proofs

/-! PROOF. The frames the device loads, writes back and drops (05 R125): only the thread whose frame it is changes, in what its frame holds
and where. -/
namespace Sys2Proof.Proofs
open Sys2Proof.Machine Sys2Proof.Laws

namespace Quiet
variable {s s1 : State}

theorem writeOwned (h : Quiet s s1) (d pa : Nat) (bs : List Byte) : Quiet s (s1.writeOwned d pa bs) := by
  unfold State.writeOwned
  split
  · exact h.writeAs ..
  · exact h

theorem writeFrameLine (h : Quiet s s1) (u : Thread) (i pa : Nat) (ws : List Word) : Quiet s (s1.writeFrameLine u i pa ws) := by
  unfold State.writeFrameLine
  dsimp only
  split
  · exact h.trans ⟨rfl, rfl, rfl, rfl, id, id, fun _ => rfl⟩
  · split
    · split
      · exact ((h.touch ..).writeOwned ..).writeOwned ..
      · exact (h.touch ..).writeOwned ..
    · exact h.writeOwned ..

/-- The poison marks of a state reached before. -/
theorem withPoison {s2 : State} (h : Quiet s s1) (h' : Quiet s s2) : Quiet s { s2 with poison := s1.poison } :=
  ⟨h'.threads, h'.tick, h'.issue, h'.early, h'.gangs, h.poison, h'.cycle⟩

theorem writeBack (h : Quiet s s1) (u : Thread) (st sub : Nat) (kept : Nat → Bool) : Quiet s (s1.writeBack u st sub kept) := by
  unfold State.writeBack
  split
  · exact h
  · refine foldl (fun s2 i h2 => ?_) _ h
    dsimp only
    split
    · exact h2.writeFrameLine ..
    · exact h2.withPoison (h2.writeFrameLine ..)

theorem unpoisonNoted (h : Quiet s s1) (u : Thread) (l : List Nat) : Quiet s (s1.unpoisonNoted u l) := by
  unfold State.unpoisonNoted
  split
  · exact h
  · exact foldl (fun _ _ h2 => h2.unpoison ..) _ h

theorem finishHeld (h : Quiet s s1) (u : Thread) : Quiet s (s1.finishHeld u) := by
  unfold State.finishHeld
  split
  · exact h
  · split
    · exact h
    · exact ((h.unpoisonNoted ..).writeBack ..).trans ⟨rfl, rfl, rfl, rfl, id, id, fun _ => rfl⟩

theorem settleHeld (h : Quiet s s1) (i : Tid) : Quiet s (s1.settleHeld i) := foldl (fun _ _ h2 => h2.finishHeld _) _ h

end Quiet

/-- Loading a frame changes no thread of another name. -/
theorem ensureFrame_spec {s s' : State} {t : Thread} (h : s.ensureFrame t = .ok s') :
    s' = s ∨ ∃ s1 u, s' = s1.put u ∧ Quiet s s1 ∧ u.id = t.id ∧ u.cond = t.cond := by
  unfold State.ensureFrame at h
  split at h
  · exact .inl (Except.ok.inj h).symm
  · split at h
    · cases h
    · exact .inr ⟨_, _, (Except.ok.inj h).symm, (((Quiet.refl s).settleHeld _).unpoisonNoted ..).touch .., rfl, rfl⟩

namespace Left
variable {t c : Thread} {s : State}

theorem again (h : Left t s) (hc : Stands t c) : Stands t (s.again c) := h.stands_getD hc c.id

theorem again_id (s : State) (u : Thread) : (s.again u).id = u.id := by
  unfold State.again
  cases hfind : s.find u.id with
  | none => rfl
  | some v =>
    have hid := find_id hfind
    exact hid

section
variable (h : Left t s) (hc : Stands t c) (hid : c.id ≠ t.id)
include h hc hid

theorem dropStale : Left t (s.dropStale c) := by
  unfold State.dropStale
  split
  · unfold State.dropFrame
    split
    · exact h
    · exact (h.of_threads ((Quiet.refl s).writeBack ..).threads).put (stands_of_ne hid (watchesNothing_of_cond hc.waits rfl))
  · exact h

theorem ensureFrame {s' : State} (hs : s.ensureFrame c = .ok s') : Left t s' := by
  obtain rfl | ⟨s1, u, rfl, hq, huid, hcond⟩ := ensureFrame_spec hs
  · exact h
  · exact (h.of_threads hq.threads).put (stands_of_ne (huid ▸ hid) (watchesNothing_of_cond hc.waits hcond))

/-- The activation of another thread (02 R32), or its parking where its frame cannot be fetched (10 R224). -/
theorem activate (slot : Nat × Nat) : Left t (s.activate c slot) := by
  unfold State.activate
  split
  · exact h
  · split
    · exact h.park hc hid ..
    · have hdrop := h.dropStale hc hid
      split
      · exact h.park hc hid ..
      next s0 hs0 =>
        have hload : Left t s0 := hdrop.ensureFrame (hdrop.again hc) ((again_id _ c).symm ▸ hid) hs0
        extract_lets s1 u
        have hs1 : Left t s1 := hload.of_threads ((Quiet.refl _).touch ..).threads
        have hu : Stands t u := hs1.again hc
        have huid : u.id ≠ t.id := (again_id s1 c).symm ▸ hid
        clear_value u s1
        split
        · exact hs1.park hu huid ..
        · refine of_threads (hs1.put ?_) (((Quiet.refl _).chargeSlot _).tally ..).threads
          exact stands_of_ne huid (watchesNothing_of_cond hu.waits rfl)

end
end Left
end Sys2Proof.Proofs

/-! PROOF. YIELD gives the slot up where a candidate of no lower priority stands (06 R145). -/
namespace Sys2Proof.Proofs
open Sys2Proof.Machine Sys2Proof.Laws

theorem storeReq_of_nil {s : State} {t : Thread} (h : t.stores = []) : s.storeReq t = none := by
  simp [State.storeReq, h]

/-- No store holds a thread whose stores have drained. -/
theorem stuck_of_drained {s : State} {t : Thread} (h : s.drained t) : s.stuck t = false := by
  obtain ⟨hstores, hearly⟩ := h
  simp only [State.stuck, Bool.or_eq_false_iff]
  refine ⟨⟨⟨List.any_eq_false.2 fun f _ => ?_, ?_⟩, ?_⟩, List.any_eq_false.2 fun x hx => ?_⟩
  · split <;> simp [hstores]
  · rw [State.storeLost, storeReq_of_nil hstores]
    rfl
  · rw [hstores]
    rfl
  · simp [hearly x hx]

/-- The eviction of a RESIDENT thread whose stores have drained leaves it READY at its word (02 R32). -/
theorem left_evict {s : State} {t : Thread} (h : s.find t.id = some t) (hst : t.st = .resident) (hd : s.drained t)
    (hsettled : t.settled = true) (hs : s.unwatched) (hwaits : WatchesNothing t) : Left t (s.evict t) := by
  have hq : Quiet s ((s.chainChecked t).tally t.core (some t.id.sdom) 0x09 1) := ((Quiet.refl s).chainChecked t).tally ..
  have hfind := (hq.find t.id).trans h
  have hevict : s.evict t = (((s.chainChecked t).tally t.core (some t.id.sdom) 0x09 1).put t).toReady t := by
    simp only [State.evict, drainAll_of_drained (drained_of_early hd hq.early), again_of_find ((find_put_self hfind _).trans hfind), hst]
  generalize (s.chainChecked t).tally t.core (some t.id.sdom) 0x09 1 = q at hq hevict hfind
  have hput : (q.put t).find t.id = some t := (find_put_self hfind _).trans hfind
  rw [hevict, toReady_of_drained hput (drained_of_early hd hq.early)]
  have hrelease : Quiet ((q.put t).put t) (((q.put t).put t).releaseSlot t).1 := (Quiet.refl _).releaseSlot t
  have hunwatched : (((q.put t).put t).releaseSlot t).1.unwatched :=
    unwatched_of_threads (unwatched_put (unwatched_put (unwatched_of_threads hs hq.threads) hwaits) hwaits) hrelease.threads
  constructor
  · intro u hu
    obtain rfl | ⟨hu, hne⟩ := mem_put_threads hu
    · exact ⟨watchesNothing_of_cond hwaits rfl, fun _ => ⟨rfl, rfl, rfl, hsettled⟩⟩
    · exact stands_of_ne hne (unwatched_iff.1 hunwatched u hu)
  · have hlive : (((q.put t).put t).releaseSlot t).1.find t.id = some t := (hrelease.find _).trans ((find_put_self hput _).trans hput)
    exact Option.isSome_iff_exists.2 ⟨_, find_put_of_find rfl hlive rfl⟩

section
variable {s : State} {t : Thread} (hgang : t.gang = none) (hgangs : s.gangs = []) (hst : t.st = .resident) (hslot : t.slot.isSome = true)
  (hpend : t.pend = none) (hd : s.drained t) (hs : s.unwatched)
include hgang hgangs hst hslot hpend hd hs

/-- A thread gives its slot up for a candidate of no lower priority and is READY at the next word. -/
theorem yield_of_candidate {seen : State × List Thread × List (Thread × Nat)} {c : Thread}
    (hsurvey : ((s.retire t).refreshCore t.core).surveyReady t.core = seen) (hfirst : seen.1.firstOf seen.2.1 = some c)
    (hprio : (seen.1.again t).prio ≤ seen.1.prioOf c) (hissues : Issues s t .yield) :
    ∃ s' u, exec .yield s = .next s' ∧ s'.find t.id = some u ∧ u.pc = t.pc + 4 ∧ u.st = .ready ∧ u.slot = none := by
  obtain ⟨s1, ok, r⟩ := seen
  obtain ⟨-, -, hsettled⟩ := id hissues
  have hfind : (s.retire t).find t.id = some { t with pc := t.pc + 4 } := find_put_of_find rfl (issues_find hissues) rfl
  have hwaits : WatchesNothing t := unwatched_iff.1 hs t (mem_of_find (issues_find hissues))
  have hretired : (s.retire t).unwatched := unwatched_put hs (watchesNothing_of_cond hwaits rfl)
  have hrefresh : Refreshed (s.retire t) ((s.retire t).refreshCore t.core) := (Refreshed.refl _).refreshCore t.core
  have hspec := surveyReady_spec ((s.retire t).refreshCore t.core) t.core
  rw [hsurvey] at hspec
  obtain ⟨hq, hok⟩ := hspec
  -- the thread as the survey leaves it
  obtain ⟨v, hv, hsame⟩ := (hrefresh.quiet hq).find _ _ hfind
  have hveq := hsame.eq
  have hvid : v.id = t.id := hsame.id_eq
  have hagain : s1.again { t with pc := t.pc + 4 } = v := by rw [State.again, hv, Option.getD_some]
  have hagain' : s1.again t = v := by rw [State.again, hv, Option.getD_some]
  have hvd : s1.drained v := by
    refine ⟨by rw [hveq]; exact hd.1, fun x hx => ?_⟩
    rw [(hrefresh.quiet hq).early] at hx
    rw [hsame.core_eq]
    exact hd.2 x hx
  have hvslot : v.slot = t.slot := by rw [hveq]
  have hleave : s1.mayLeave v = true := by
    have hvpend : v.pend = none := by rw [hveq]; exact hpend
    rw [State.mayLeave, hvpend, stuck_of_drained hvd]
    rfl
  obtain ⟨sl, hsl⟩ := Option.isSome_iff_exists.1 hslot
  -- the candidate is another thread
  obtain ⟨hcmem, -, hcst, -⟩ := mem_readyOf.1 (hok c (mem_of_firstOf hfirst))
  have hcid : c.id ≠ v.id := by
    obtain ⟨w, hw, hwc⟩ := hrefresh.mem c hcmem
    obtain rfl | ⟨-, hne⟩ := mem_put_threads hw
    · rw [hwc.st_eq, hst] at hcst
      cases hcst
    · rw [hvid, hwc.id_eq]
      exact hne
  have hcwaits : WatchesNothing c := unwatched_iff.1 (hrefresh.unwatched hretired) c hcmem
  have hleft : Left v (s1.evict v) := by
    refine left_evict (by rw [hvid]; exact hv) (hsame.st_eq.trans hst) hvd (by rw [hveq]; exact hsettled)
      ((hrefresh.quiet hq).unwatched hretired) (watchesNothing_of_cond hwaits hsame.cond_eq)
  have hafter : Left v ((s1.evict v).activate ((s1.evict v).again c) sl) :=
    hleft.activate (hleft.again (stands_of_ne hcid hcwaits)) ((Left.again_id _ c).symm ▸ hcid) sl
  have hyield := yieldTo_of_candidate hfind hgang hst hsurvey ((hrefresh.quiet hq).gangs hgangs) hfirst (hagain ▸ hvslot.trans hsl)
    (by rw [hagain, ← hagain']; exact hprio) (hagain ▸ hleave)
  rw [hagain] at hyield
  obtain ⟨u, hu⟩ := Option.isSome_iff_exists.1 hafter.live
  obtain ⟨hpc, hready, hnone, hquiet⟩ := (hafter.stands u (mem_of_find hu)).own (find_id hu)
  rw [hvid] at hu
  obtain ⟨s', hexec, hnext⟩ := exists_next_of_yields (yields_of_yieldTo hyield hu (hquiet.trans hsettled.symm)) hissues
  exact ⟨s', u, hexec, (hnext _).trans hu, hpc.trans (by rw [hveq]), hready, hnone⟩

end
end Sys2Proof.Proofs

/-! PROOF. EXIT ends its thread (06 R146), and with it YIELD and EXIT are settled. -/
namespace Sys2Proof.Proofs
open Sys2Proof.Machine Sys2Proof.Laws

/-! What follows the end of a thread: its pool bit, reservations, commands and launch (02 R35, R404; 15 R335, R339). -/
namespace Steady
variable {R : State → Prop} {s : State} (hR : Steady R)
include hR

theorem of_quiet {s' : State} (h : R s) (hq : Quiet s s') : R s' := hR.of_threads h hq.threads

theorem clearPool (h : R s) (die : Nat) (p : Option (Nat × Nat × Nat)) : R (s.clearPool die p) := by
  unfold State.clearPool
  split
  · exact h
  · split
    next hdo => exact hR.of_quiet h ((Quiet.refl s).devDo hdo)
    next => exact h

theorem storeStatus (h : R s) (die home addr idx status : Nat) : R (s.storeStatus die home addr idx status) := by
  unfold State.storeStatus
  split
  · exact h
  · split
    next hdo => exact hR.checkWatches (hR.of_quiet h ((Quiet.refl s).devDo hdo))
    next => exact hR.of_threads h rfl

theorem lqdAdd (h : R s) (q : QueueEnt) (off n : Nat) (d : Int) : R (s.lqdAdd q off n d) := by
  unfold State.lqdAdd
  split
  next hdo => exact hR.checkWatches (hR.of_quiet h ((Quiet.refl s).devDo hdo))
  next => exact h

theorem endLaunches (h : R s) : R s.endLaunches := by
  unfold State.endLaunches
  refine List.foldlRecOn (motive := R) _ _ h fun s1 h1 l _ => ?_
  split
  · extract_lets s2 s3
    have h2 : R s2 := hR.of_threads h1 rfl
    exact hR.lqdAdd (hR.storeStatus h2 ..) ..
  · exact h1

theorem launchThreadDone (h : R s) (l : Option (Nat × Nat)) : R (s.launchThreadDone l) := by
  unfold State.launchThreadDone
  split
  · exact h
  · exact hR.endLaunches (hR.of_threads h rfl)

theorem ended (h : R s) (die : Nat) (pool : Option (Nat × Nat × Nat)) (i : Tid) (launch : Option (Nat × Nat)) :
    R ((((s.clearPool die pool).dropReservations i).orphanCmds i).launchThreadDone launch).checkWatches := by
  have hdropped : R ((s.clearPool die pool).dropReservations i) := hR.of_threads (hR.clearPool h die pool) rfl
  have horphaned : R (((s.clearPool die pool).dropReservations i).orphanCmds i) := hR.of_threads hdropped rfl
  exact hR.checkWatches (hR.launchThreadDone horphaned launch)

end Steady

/-- No live thread bears the name of a thread that is DONE (16 R359). -/
theorem find_makeDone (s : State) (t : Thread) : (s.makeDone t).find t.id = none := by
  unfold State.makeDone
  extract_lets s0 u die
  generalize s0.releaseSlot u = p
  obtain ⟨s1, t1⟩ := p
  dsimp -zeta only
  extract_lets parted absent s2 s2' core gone s3 s3' s4 s5
  rw [find_eq_none_iff, (steady_names _).ended rfl]
  simp [names, s5, u]

/-- In s' the threads but for the name i are as in s, and none waits for a word. -/
structure Bystanders (i : Tid) (s s' : State) : Prop where
  others : OthersSame s s' i
  unwatched : s'.unwatched

theorem steady_bystanders (i : Tid) (s : State) : Steady (Bystanders i s) :=
  steady_of_unwatched (fun h hs => ⟨fun j hj => (find_of_threads hs j).trans (h.others j hj), unwatched_of_threads h.unwatched hs⟩)
    (·.unwatched)

namespace Bystanders
variable {i : Tid} {s s1 : State}

theorem put {w : Thread} (h : Bystanders i s s1) (hid : w.id = i) (hw : WatchesNothing w) : Bystanders i s (s1.put w) :=
  ⟨fun j hj => (find_put_ne (hid ▸ hj)).trans (h.others j hj), unwatched_put h.unwatched hw⟩

/-- The threads of the name i leave the list. -/
theorem filter {s2 : State} (h : Bystanders i s s1) (hs : s2.threads = s1.threads.filter (fun u => u.id ≠ i)) : Bystanders i s s2 where
  others j hj := by
    rw [← h.others j hj, State.find, State.find, hs, List.find?_filter]
    refine congrFun (congrArg _ (funext fun u => ?_)) _
    by_cases hu : u.id = j <;> simp [hu, hj]
  unwatched u hu := h.unwatched u (List.mem_filter.1 (hs ▸ hu)).1

theorem ensureFrame {u : Thread} {s2 : State} (h : Bystanders i s s1) (hid : u.id = i) (hu : WatchesNothing u)
    (hs : s1.ensureFrame u = .ok s2) : Bystanders i s s2 := by
  obtain rfl | ⟨q, v, rfl, hq, hv, hcond⟩ := ensureFrame_spec hs
  · exact h
  · exact ((steady_bystanders i s).of_quiet h hq).put (hv.trans hid) (watchesNothing_of_cond hu hcond)

end Bystanders

theorem logDone_threads (s : State) (r : Rec) : (s.logDone r).threads = s.threads := by
  unfold State.logDone
  extract_lets fd
  clear_value fd
  split
  · rfl
  · dsimp only
    split
    · rfl
    · exact ((Quiet.refl _).pushRec ..).threads

theorem logLast_threads (s : State) (t : Thread) : (s.logLast t).threads = s.threads := by
  unfold State.logLast
  extract_lets rec' fills s1 l
  have hs1 : s1.threads = s.threads := foldl_threads logDone_threads ..
  split <;> exact hs1

/-- The end of a thread whose stores have drained leaves every other thread as it was, where none waits for a word. -/
theorem bystanders_makeDone {s : State} {t : Thread} (hd : s.drained t) (hs : s.unwatched) (ht : WatchesNothing t) :
    Bystanders t.id s (s.makeDone t) := by
  have hR := steady_bystanders t.id s
  unfold State.makeDone
  extract_lets s0 u die
  generalize hp : s0.releaseSlot u = p
  obtain ⟨s1, t1⟩ := p
  dsimp -zeta only
  extract_lets parted absent s2 s2' core gone s3 s3' s4 s5
  have h0 : Bystanders t.id s s0 := by
    unfold s0
    rw [drainAll_of_drained hd]
    exact Bystanders.put ⟨fun _ _ => rfl, hs⟩ rfl ht
  have ht1 : t1 = (s0.releaseSlot u).2 := by rw [hp]
  have hid : t1.id = t.id := by rw [ht1, releaseSlot_thread]
  have hwaits : WatchesNothing t1 := watchesNothing_of_cond ht (by rw [ht1, releaseSlot_thread])
  have h1 : Bystanders t.id s s1 := hR.of_quiet h0 (by have h := (Quiet.refl s0).releaseSlot u; rwa [hp] at h)
  have hparted : Bystanders t.id s parted := h1.put hid hwaits
  have habsent : Bystanders t.id s absent := hR.of_threads hparted rfl
  have h2 : Bystanders t.id s s2 := by
    unfold s2
    split
    · exact habsent
    · split
      next hload =>
        have hloaded := hparted.ensureFrame hid hwaits hload
        split
        · exact hR.of_quiet hloaded ((Quiet.refl _).writeBack ..)
        · exact hloaded
      next => exact habsent
  have h2' : Bystanders t.id s s2' := hR.of_threads h2 (Left.unstep_threads ..)
  have h3 : Bystanders t.id s s3 := hR.of_threads h2' rfl
  have h3' : Bystanders t.id s s3' := hR.of_threads h3 (logLast_threads ..)
  have h4 : Bystanders t.id s s4 := hR.of_quiet h3' ((Quiet.refl _).charge ..)
  have h5 : Bystanders t.id s s5 := h4.filter rfl
  exact hR.ended h5 ..

/-! EXIT (06 R146; 16 R359). -/

theorem exec_exit (s : State) :
    exec .exit s = word .exit s fun s t =>
      if t.gang.isSome then failWith .gangBound t.gangRecord
      else
        let g1 := t.rd 1
        if bit g1.toNat 63 && wbits g1 46 0 != 0 then
          match s.frameNamed t (wbits g1 46 0) true with
          | .error e => .error e
          | .ok (s, _) => .ok (s.hold (s.again t) (wordOf .exit) .exit)
        else if s.stuck t then .error .block
        else .ok (s.makeDone { t with pc := t.pc + 4 }) := rfl

/-- The register g1 names no thread for a return message. -/
theorem no_returnMessage {w : Word} (h : w.getLsbD 63 = false ∨ w.extractLsb' 0 47 = 0) :
    (bit w.toNat 63 && wbits w 46 0 != 0) = false := by
  obtain h | h := h
  · have hbit : bit w.toNat 63 = false := by rw [← h, BitVec.getLsbD, Nat.testBit_eq_decide_div_mod_eq]; rfl
    rw [hbit, Bool.false_and]
  · rw [wbits_eq_toNat_extractLsb' w 46 0, h]
    exact Bool.and_false _

theorem boundary_of_find_none {s : State} {i : Tid} (h : s.find i = none) (w : Nat) : s.boundary i w = s := by
  rw [State.boundary, h]

/-- A word that ends its own thread: no boundary follows. -/
theorem word_of_ended {s s' : State} {t : Thread} {i : Instr} {k : State → Thread → Except Stop State} (h : Issues s t i)
    (hk : k s t = .ok s') (hfind : s'.find t.id = none) : word i s k = .next (s'.commitFresh t.core t.id (s.freshOf t)) := by
  obtain ⟨hcur, hgate, -⟩ := h
  simp only [word, hcur, hgate, hk, boundary_of_find_none ((find_commitFresh ..).trans hfind)]

/-- EXIT without a return message ends its thread and, where no thread waits for a word, changes no other. -/
theorem exit_ends {s : State} {t : Thread} (hgang : t.gang = none) (hg1 : (t.rd 1).getLsbD 63 = false ∨ (t.rd 1).extractLsb' 0 47 = 0)
    (hstuck : s.stuck t = false) (h : Issues s t .exit) :
    ∃ s', exec .exit s = .next s' ∧ s'.find t.id = none ∧ (s.drained t → s.unwatched → OthersSame s s' t.id) := by
  have hdone : (s.makeDone { t with pc := t.pc + 4 }).find t.id = none := find_makeDone s { t with pc := t.pc + 4 }
  refine ⟨_, (exec_exit s).trans (word_of_ended h ?_ hdone), (find_commitFresh ..).trans hdone, fun hd hs j hj => ?_⟩
  · simp only [hgang, no_returnMessage hg1, hstuck, Option.isSome_none, Bool.false_eq_true, if_false]
  · have hwaits : WatchesNothing t := unwatched_iff.1 hs t (mem_of_find (issues_find h))
    have hsame := bystanders_makeDone (t := { t with pc := t.pc + 4 }) hd hs (watchesNothing_of_cond hwaits rfl)
    exact (find_commitFresh ..).trans (hsame.others j hj)

theorem parks_exit_of_gang {s : State} {t : Thread} (hgang : t.gang.isSome = true) : Parks s t .exit (.plain .gangBound t.gangRecord) :=
  parks_of_fault (exec_exit s) (if_pos hgang)

/-- Settles O25: YIELD keeps or gives up the slot by the survey of its core's candidates, and EXIT ends its thread. -/
theorem yieldAndExit : Obligations.YieldAndExit := by
  unfold Obligations.YieldAndExit
  intro s t c
  refine ⟨yield_of_gang, ?_, ?_, parks_exit_of_gang, exit_ends⟩
  · exact fun hgang hready hgangs hst => yield_of_no_ready hgang hready hgangs hst
  · exact fun hgang hgangs hst hslot hpend hd hs hfirst hprio => yield_of_candidate hgang hgangs hst hslot hpend hd hs rfl hfirst hprio

end Sys2Proof.Proofs

/-! PROOF. How floating-point words end: a result written with its flags, or a fill with its flags (07 R150 to R152); scalar arithmetic
(07 R155, R161) and FEXP2 and FLOG2 (07 R160). -/
namespace Sys2Proof.Proofs
open Sys2Proof.Machine Sys2Proof.Laws

/-! Raising flags and writing a register or a predicate. -/

theorem wr_raise (t : Thread) (fl : Fpf) (n : Nat) (v : Word) :
    (t.raise fl).wr n v = { t.wr n v with fpf := t.fpf ||| fl } := by
  by_cases h : n = 0 ∨ t.count ≤ n
  · have hraised : n = 0 ∨ (t.raise fl).count ≤ n := h
    rw [Thread.wr, if_pos hraised, Thread.wr, if_pos h]
    rfl
  · have hraised : ¬ (n = 0 ∨ (t.raise fl).count ≤ n) := h
    rw [Thread.wr, if_neg hraised, Thread.wr, if_neg h]
    rfl

theorem wp_raise (t : Thread) (fl : Fpf) (p : Pred) (b : Bool) :
    (t.raise fl).wp p b = { t.wp p b with fpf := t.fpf ||| fl } := by
  unfold Thread.wp
  split <;> rfl

/-- A floating-point word that completes at issue writes the result of its formula, and raises the flags of it. -/
theorem floatWrites_of_floatOp {i : Instr} {d : Reg} {f : Thread → Nat × Fpf} {s : State} {t : Thread} {r : Nat × Fpf}
    (hexec : exec i s = floatOp i d f s) (hr : f t = r) : FloatWrites s t i d.toNat r := by
  subst hr
  exact completes_of_retire (u := { t.wr d.toNat (w64 (f t).1) with fpf := t.fpf ||| (f t).2 }) hexec
    (congrArg (Except.ok ∘ s.retire) (wr_raise ..)) (wr_id ..) (wr_pc ..) (wr_settled ..)

/-- A floating-point producer fills its destination with the result of its formula; the flags of it come with the fill. -/
theorem floatFills_of_floatFill {i : Instr} {d : Reg} {f : Thread → Nat × Fpf} {s : State} {t : Thread} {r : Nat × Fpf}
    (hexec : exec i s = floatFill i d f s) (hr : f t = r) : FloatFills s t i d.toNat r := by
  subst hr
  exact completes_of_retire hexec rfl (produce_id ..) (produce_pc ..) (produce_settled ..)

/-- A floating-point compare leaves its predicate and raises its flags. -/
theorem completes_of_floatCmp {i : Instr} {p : Pred} {f : Thread → Bool × Fpf} {s : State} {t : Thread} {r : Bool} {fl : Fpf}
    (hexec : exec i s = floatCmp i p f s) (hr : f t = (r, fl)) : Completes s t i { t.wp p r with fpf := t.fpf ||| fl } := by
  obtain ⟨rfl, rfl⟩ := Prod.ext_iff.1 hr
  exact completes_of_retire hexec (congrArg (Except.ok ∘ s.retire) (wp_raise ..)) (wp_id ..) (wp_pc ..) (wp_settled ..)

/-- Settles O7: each word's formula is the statement's: one delivery of the exact sum or product, or the quotient or root of the format. -/
theorem floatArithmetic : Obligations.FloatArithmetic := by
  intro s t d a b c ty f v sum
  exact ⟨floatWrites_of_floatOp rfl rfl, floatWrites_of_floatOp rfl rfl, floatWrites_of_floatOp rfl rfl,
    floatWrites_of_floatOp rfl rfl, floatWrites_of_floatOp rfl rfl, floatWrites_of_floatOp rfl rfl, floatWrites_of_floatOp rfl rfl,
    floatFills_of_floatFill rfl rfl, floatFills_of_floatFill rfl rfl, floatFills_of_floatFill rfl rfl, floatFills_of_floatFill rfl rfl⟩

/-! The special operands of FEXP2 and FLOG2. -/

theorem isZero_iff {x : Val} : x.isZero = true ↔ ∃ neg e, x = .fin neg 0 e := by
  cases x <;> simp [Val.isZero]

theorem fexp2Val_of_isZero (r : RMode) {x : Val} (h : x.isZero = true) : fexp2Val r x = (0x3F800000, 0) := by
  obtain ⟨neg, e, rfl⟩ := isZero_iff.1 h
  rfl

theorem flog2Val_of_isZero (r : RMode) {x : Val} (h : x.isZero = true) : flog2Val r x = (0xFF800000, flagDZ) := by
  obtain ⟨neg, e, rfl⟩ := isZero_iff.1 h
  rfl

theorem flog2Val_of_negative (r : RMode) {m : Nat} (e : Int) (h : m ≠ 0) : flog2Val r (.fin true m e) = (0x7FC00000, flagNV) :=
  (if_neg h).trans (deliver_nan (f := f32) rfl r false true)

/-- The FP32 result of a NaN operand (04 R94). -/
theorem deliver_f32_nan (r : RMode) (invalid : Bool) :
    f32.deliver r false (.nan invalid) = (0x7FC00000, if invalid then flagNV else 0) := by
  cases invalid <;> rfl

theorem fexp2Val_of_isNan (r : RMode) {x : Val} (h : x.isNan = true) :
    fexp2Val r x = (0x7FC00000, if x.isInvalid then flagNV else 0) := by
  obtain ⟨invalid, rfl⟩ := isNan_iff.1 h
  exact deliver_f32_nan r invalid

theorem flog2Val_of_isNan (r : RMode) {x : Val} (h : x.isNan = true) :
    flog2Val r x = (0x7FC00000, if x.isInvalid then flagNV else 0) := by
  obtain ⟨invalid, rfl⟩ := isNan_iff.1 h
  exact deliver_f32_nan r invalid

/-- Settles O8: both words fill with the model's evaluation, whose branch for each special operand gives what the rule lists. -/
theorem exponentialResults : Obligations.ExponentialResults := by
  intro s t d a v
  refine ⟨floatFills_of_floatFill rfl rfl, floatFills_of_floatFill rfl rfl, fun h => ?_, fun h => ?_,
    fun h => ⟨fexp2Val_of_isZero _ h, flog2Val_of_isZero _ h⟩, fun m e h hm => ?_,
    fun h => ⟨fexp2Val_of_isNan _ h, flog2Val_of_isNan _ h⟩⟩
  · rw [h]
    exact ⟨rfl, rfl⟩
  · rw [h]
    exact ⟨rfl, deliver_f32_nan t.mode true⟩
  · rw [h, flog2Val_of_negative _ e hm]

end Sys2Proof.Proofs

/-! PROOF. Minimum and maximum, sign operations, class and compares (07 R156 to R159), and the packed lanes (07 R162, R164). -/
namespace Sys2Proof.Proofs
open Sys2Proof.Machine Sys2Proof.Laws

/-- Of two encodings the one that is kept: of two numbers the lesser, or the greater where the maximum is wanted (07 R156). -/
theorem minmax_eq {f : Fmt} {a b : Nat} (wantMax : Bool) (ha : a < 2 ^ f.width) (hb : b < 2 ^ f.width) :
    f.minmax wantMax a b =
      (if (f.decode a).isNan && (f.decode b).isNan then f.nan else if (f.decode a).isNan then b else if (f.decode b).isNan then a
        else if wantMax then if (f.decode a).leZ (f.decode b) then b else a
        else if (f.decode a).leZ (f.decode b) then a else b,
       if (f.decode a).isInvalid || (f.decode b).isInvalid then flagNV else 0) := by
  have hkept (le : Bool) : (if le ^^ wantMax then a else b) = if wantMax then if le then b else a else if le then a else b := by
    cases wantMax <;> cases le <;> rfl
  simp only [Fmt.minmax, Nat.mod_eq_of_lt ha, Nat.mod_eq_of_lt hb, hkept, flagIf]
  split_ifs <;> rfl

/-- A sign operation gives the magnitude with the sign named; of a NaN the canonical NaN (07 R157). -/
theorem signOp_eq (f : Fmt) (x : Nat) (neg : Bool) :
    signOp f x neg = if (f.decode x).isNan then (f.nan, if (f.decode x).isInvalid then flagNV else 0)
      else (x % 2 ^ (f.width - 1) + (if neg then 2 ^ (f.width - 1) else 0), 0) := by
  have hsign : b2n neg * 2 ^ (f.width - 1) = if neg then 2 ^ (f.width - 1) else 0 := by cases neg <;> simp [b2n]
  cases h : f.decode x with
  | nan invalid => simp only [signOp, h]; rfl
  | inf | fin => simp [signOp, h, Val.isNan, hsign]

theorem width_pos (f : Fmt) : 0 < f.width := by
  rw [Fmt.width]
  omega

/-- The top bit of a number of w bits. -/
theorem bit_top {w n : Nat} (hw : 0 < w) (h : n < 2 ^ w) : bit n (w - 1) = decide (2 ^ (w - 1) ≤ n) := by
  obtain ⟨k, rfl⟩ : ∃ k, w = k + 1 := ⟨w - 1, by omega⟩
  have hquot : n / 2 ^ k < 2 := by
    rw [Nat.div_lt_iff_lt_mul (Nat.two_pow_pos k)]
    omega
  have hpos : 0 < n / 2 ^ k ↔ 2 ^ k ≤ n := Nat.div_pos_iff.trans (and_iff_right (Nat.two_pow_pos k))
  rw [Nat.add_sub_cancel, bit, Nat.mod_eq_of_lt hquot, beq_eq_decide, decide_eq_decide, ← hpos]
  omega

/-- A compare that only a signalling NaN makes invalid (07 R159). -/
theorem cmpFlags_quiet (x y : Val) : cmpFlags false x y = if x.isInvalid || y.isInvalid then flagNV else 0 := by
  rw [cmpFlags, Bool.false_and, Bool.or_false, flagIf]

/-- Settles O10: the operations on encodings are those of the statement, and a compare gives what its formula gives. -/
theorem floatSelection : Obligations.FloatSelection := by
  intro s t p d a b ty f n x y top anyNan nv signed cmp
  have hlt (r : Reg) : n r < 2 ^ f.width := Nat.mod_lt _ (Nat.two_pow_pos _)
  have hsigned (neg : Bool) : signOp f (n a) neg = signed neg := signOp_eq ..
  have htop (r : Reg) : bit (n r) (f.width - 1) = decide (top ≤ n r) := bit_top (width_pos f) (hlt r)
  have hflipped : (!bit (n a) (f.width - 1)) = decide (n a < top) := by
    rw [htop, ← decide_not, decide_eq_decide, Nat.not_le]
  exact ⟨floatWrites_of_floatOp rfl (minmax_eq false (hlt a) (hlt b)), floatWrites_of_floatOp rfl (minmax_eq true (hlt a) (hlt b)),
    floatWrites_of_floatOp rfl (hsigned false), floatWrites_of_floatOp rfl ((hsigned _).trans (congrArg signed hflipped)),
    floatWrites_of_floatOp rfl ((hsigned _).trans (congrArg signed (htop b))), floatWrites_of_floatOp rfl rfl,
    completes_of_floatCmp rfl (Prod.ext rfl (cmpFlags_quiet x y)), completes_of_floatCmp rfl rfl, completes_of_floatCmp rfl rfl,
    completes_of_floatCmp rfl (Prod.ext rfl (cmpFlags_quiet x y))⟩

/-! Lanes (04 R88; 07 R162). -/

/-- Elements cut from a number and put together again are its low bits. -/
theorem packElems_elemOf (w n x : Nat) : packElems w ((List.range n).map (elemOf x w)) = x % 2 ^ (w * n) := by
  induction n generalizing x with
  | zero => exact (Nat.mod_one x).symm
  | succ n ih =>
    have hnext : elemOf x w ∘ Nat.succ = elemOf (x / 2 ^ w) w := by
      funext k
      rw [Function.comp_apply, elemOf, elemOf, Nat.div_div_eq_div_mul, ← pow_add, Nat.mul_succ, Nat.add_comm w]
    rw [List.range_succ_eq_map, List.map_cons, List.map_map, hnext, packElems, ih, elemOf, Nat.mul_zero, pow_zero, Nat.div_one,
      Nat.mod_mod, Nat.mul_succ, Nat.add_comm (w * n), pow_add, Nat.mod_mul]

theorem map_fst_lanes (n : Nat) (op : Nat → Nat × Fpf) :
    ((upto 0 n).map op).map (·.1) = (List.range n).map (fun j => (op j).1) := by
  rw [upto_zero_eq_range, List.map_map]
  rfl

theorem flags_lanes (n : Nat) (op : Nat → Nat × Fpf) :
    ((upto 0 n).map op).foldl (fun a x => a ||| x.2) 0 = ((List.range n).map (fun j => (op j).2)).foldl (· ||| ·) 0 := by
  rw [upto_zero_eq_range, List.foldl_map, List.foldl_map]

/-- A packed word writes the word whose lanes are the results of the lanes, and raises the flags of all of them. -/
theorem floatWrites_of_lanesOp {i : Instr} {d : Reg} {f : Fmt} {op : Thread → Nat → Nat × Fpf} {s : State} {t : Thread} {w : Nat}
    (hexec : exec i s = lanesOp i d f op s) (hwidth : f.width * (64 / f.width) = 64)
    (hlanes : ∀ j, j < 64 / f.width → w / 2 ^ (f.width * j) % 2 ^ f.width = (op t j).1) (hw : w < 2 ^ 64) :
    FloatWrites s t i d.toNat (w, ((List.range (64 / f.width)).map (fun j => (op t j).2)).foldl (· ||| ·) 0) := by
  have hresults : (List.range (64 / f.width)).map (fun j => (op t j).1) = (List.range (64 / f.width)).map (elemOf w f.width) :=
    List.map_congr_left fun j hj => (hlanes j (List.mem_range.1 hj)).symm
  have hword : packElems f.width (((upto 0 (64 / f.width)).map (op t)).map (·.1)) = w := by
    rw [map_fst_lanes, hresults, packElems_elemOf, hwidth, Nat.mod_eq_of_lt hw]
  exact floatWrites_of_floatOp hexec (Prod.ext hword (flags_lanes ..))

/-- The lanes of a packed format fill the register. -/
theorem width_mul_lanes (ty : Lane3) : (Lane3.fmt ty).width * (64 / (Lane3.fmt ty).width) = 64 := by
  cases ty <;> rfl

/-- Settles O11: each packed word's lanes are the scalar operation on the lanes of its sources. -/
theorem packedResults : Obligations.PackedResults := by
  intro s t d a b c ty f n bitsOf v sum lanes
  have packs {i : Instr} {op : Thread → Nat → Nat × Fpf} {op' : Nat → Nat × Fpf}
      (hexec : exec i s = lanesOp i d f op s) (hop : op t = op') : lanes i op' := by
    subst hop
    exact fun w => floatWrites_of_lanesOp hexec (width_mul_lanes ty)
  exact ⟨packs rfl rfl, packs rfl rfl, packs rfl rfl, packs rfl rfl, packs rfl rfl, packs rfl rfl⟩

end Sys2Proof.Proofs

/-! PROOF. Conversions (07 R165, R166; 04 R97 to R99): what a source is read as, and what each kind of target delivers. -/
namespace Sys2Proof.Proofs
open Sys2Proof.Machine Sys2Proof.Laws

/-- The signed value of the low bits of a number (00 R4). -/
theorem sval_eq_toInt_ofNat (n : Nat) {w : Nat} (hw : 0 < w) : sval n w = (BitVec.ofNat w n).toInt := by
  rw [← sval_toNat _ hw, BitVec.toNat_ofNat, sval, sval, Nat.mod_mod]

theorem cvtRead_i8 (w : Word) : cvtRead .i8 w = Val.ofInt (BitVec.ofNat 8 w.toNat).toInt :=
  congrArg Val.ofInt (sval_eq_toInt_ofNat _ (by decide))

theorem cvtRead_i4 (w : Word) : cvtRead .i4 w = Val.ofInt (BitVec.ofNat 4 w.toNat).toInt :=
  congrArg Val.ofInt (sval_eq_toInt_ofNat _ (by decide))

/-! The word that CVT writes, by the kind of its target. -/

theorem convert_of_fmt {u : CvtType} {f : Fmt} (h : cvtFmt u = some f) (v : CvtType) (r : RMode) (sat : Bool) (w : Word) :
    convert u v r sat w = (w64 (f.deliver r sat (cvtRead v w)).1, (f.deliver r sat (cvtRead v w)).2) := by
  rw [convert, h]

theorem convert_e8m0 (v : CvtType) (r : RMode) (sat : Bool) (w : Word) :
    convert .e8m0 v r sat w = (w64 (toE8m0 r sat (cvtRead v w)).1, (toE8m0 r sat (cvtRead v w)).2) := rfl

/-- The types of integers have a range (03 R76; 04 R92). -/
theorem integer_of_mem {u : CvtType} (h : u ∈ [CvtType.s, .n, .i8, .i4]) :
    cvtFmt u = none ∧ u ≠ .e8m0 ∧ (cvtRange u).1 ≤ (cvtRange u).2 := by
  simp only [List.mem_cons, List.not_mem_nil, or_false] at h
  obtain rfl | rfl | rfl | rfl := h <;> decide

theorem convert_of_integer {u : CvtType} (h : u ∈ [CvtType.s, .n, .i8, .i4]) (v : CvtType) (r : RMode) (sat : Bool) (w : Word) :
    convert u v r sat w = (i64 (toInt u r (cvtRead v w)).1, (toInt u r (cvtRead v w)).2) := by
  obtain ⟨hfmt, hne, -⟩ := integer_of_mem h
  simp only [convert, hfmt, if_neg hne]

section
variable {s : State} {t : Thread} {d a : Reg} {sat : Bool} {r : RndSel} {u v : CvtType} {m : RMode} {x : Val}

/-- CVT writes the word that `convert` gives, and raises its flags. -/
theorem cvt_writes {w : Word} {fl : Fpf} (h : convert u v (selMode r t) sat (t.rd a.toNat) = (w, fl)) :
    FloatWrites s t (.cvt d a sat r u v) d.toNat (w.toNat, fl) :=
  floatWrites_of_floatOp rfl (by simp only [h])

/-- A number is written as its word. -/
theorem floatWrites_toNat_w64 {i : Instr} {n : Nat} {fl : Fpf} :
    FloatWrites s t i d.toNat ((w64 n).toNat, fl) ↔ FloatWrites s t i d.toNat (n, fl) := by
  have hword : BitVec.ofNat 64 (w64 n).toNat = BitVec.ofNat 64 n := by
    rw [BitVec.ofNat_toNat, BitVec.setWidth_eq, w64]
  simp only [FloatWrites, hword]

variable (hm : selMode r t = m) (hx : cvtRead v (t.rd a.toNat) = x)
include hm hx

theorem cvt_writes_of_fmt {f : Fmt} (h : cvtFmt u = some f) :
    FloatWrites s t (.cvt d a sat r u v) d.toNat (f.deliver m sat x) := by
  subst hm hx
  exact floatWrites_toNat_w64.1 (cvt_writes (convert_of_fmt h ..))

theorem cvt_writes_of_e8m0 (hu : u = .e8m0) {p : Nat × Fpf} (h : toE8m0 m sat x = p) :
    FloatWrites s t (.cvt d a sat r u v) d.toNat p := by
  subst hm hx h hu
  exact floatWrites_toNat_w64.1 (cvt_writes (convert_e8m0 ..))

theorem cvt_writes_of_integer (hu : u ∈ [CvtType.s, .n, .i8, .i4]) {y : Int} {fl : Fpf} (h : toInt u m x = (y, fl)) :
    FloatWrites s t (.cvt d a sat r u v) d.toNat ((BitVec.ofInt 64 y).toNat, fl) := by
  subst hm hx
  exact cvt_writes ((convert_of_integer hu ..).trans (by rw [h, i64]))

end

/-! A finite value rounded to an integer and held to the range of its type (04 R98). -/

/-- What rounds a magnitude up, by the mode, of which `rem` out of `2 ^ k` is discarded and nothing below (04 R96). -/
theorem roundsUp_of_not_sticky (r : RMode) (neg : Bool) (kept rem k : Nat) :
    roundsUp r neg kept rem k false = match r with
      | .rtz => false
      | .rup => decide (rem ≠ 0) && !neg
      | .rdn => decide (rem ≠ 0) && neg
      | .rne => decide (2 ^ k < 2 * rem) || (decide (2 * rem = 2 ^ k) && decide (kept % 2 = 1))
      | .rna => decide (2 ^ k ≤ 2 * rem) := by
  have hinexact : (rem != 0 || false) = decide (rem ≠ 0) := by rw [Bool.or_false, bne, beq_eq_decide, decide_not]
  cases r with
  | rup | rdn => exact congrArg (· && _) hinexact
  | rne | rtz | rna => rfl

/-- The integer that a finite value is rounded to: its whole part, or one more. -/
theorem roundInt_fst {r : RMode} {neg : Bool} {k : Nat} {e : Int} {up : Bool}
    (hup : roundsUp r neg (k * 2 ^ e.toNat / 2 ^ (-e).toNat) (k * 2 ^ e.toNat % 2 ^ (-e).toNat) (-e).toNat false = up) :
    (roundInt r neg k e).1 =
      let mag : Int := (k * 2 ^ e.toNat / 2 ^ (-e).toNat : Nat) + (if up then 1 else 0)
      if neg then -mag else mag := by
  rw [roundInt, hup]
  cases up with
  | true => rfl
  | false => simp only [Bool.false_eq_true, if_false, Int.add_zero]

theorem roundInt_flag (r : RMode) (neg : Bool) (k : Nat) (e : Int) :
    flagIf (roundInt r neg k e).2 flagNX = if k * 2 ^ e.toNat % 2 ^ (-e).toNat = 0 then 0 else flagNX := by
  simp only [flagIf, roundInt, bne_iff_ne, ite_not]

section
variable {u : CvtType} {r : RMode} {neg : Bool} {k : Nat} {e lo hi y : Int}

theorem toInt_of_isNan {x : Val} (h : x.isNan = true) : toInt u r x = (0, flagNV) := by
  obtain ⟨invalid, rfl⟩ := isNan_iff.1 h
  rfl

variable (hrange : cvtRange u = (lo, hi))
include hrange

theorem toInt_of_inf : toInt u r (.inf neg) = (if neg then lo else hi, flagNV) := by
  rw [toInt, hrange]

variable (hy : (roundInt r neg k e).1 = y)
include hy

theorem toInt_of_below (h : y < lo) : toInt u r (.fin neg k e) = (lo, flagNV) := by
  subst hy
  rw [toInt, hrange]
  exact if_pos h

theorem toInt_of_above (hle : lo ≤ hi) (h : hi < y) : toInt u r (.fin neg k e) = (hi, flagNV) := by
  subst hy
  rw [toInt, hrange]
  exact (if_neg (not_lt.2 (hle.trans h.le))).trans (if_pos h)

theorem toInt_of_inside (hlow : lo ≤ y) (hhigh : y ≤ hi) :
    toInt u r (.fin neg k e) = (y, flagIf (roundInt r neg k e).2 flagNX) := by
  subst hy
  rw [toInt, hrange]
  exact (if_neg (not_lt.2 hlow)).trans (if_neg (not_lt.2 hhigh))

end

/-! A value as a power of two (04 R99). -/

theorem toE8m0_of_not_positive {r : RMode} {sat : Bool} {x : Val} (h : ∀ k e, x = .fin false k e → k = 0) :
    toE8m0 r sat x = (0xFF, flagNV) := by
  cases x with
  | nan | inf => rfl
  | fin neg k e =>
    refine if_pos ?_
    cases neg with
    | true => exact .inr rfl
    | false => exact .inl (h k e rfl)

/-- Whether a magnitude k * 2^e goes to the power of two above it; half way lies 1.5 times the one below it (04 R99). -/
def powerUp (r : RMode) (k : Nat) (e : Int) : Bool :=
  match r with
  | .rtz | .rdn => false
  | .rup => k != 2 ^ k.log2
  | .rne => decide (3 * 2 ^ k.log2 < 2 * k) || (2 * k == 3 * 2 ^ k.log2 && (k.log2 + e + 127) % 2 != 0)
  | .rna => decide (3 * 2 ^ k.log2 ≤ 2 * k)

theorem powerUp_eq (r : RMode) (k : Nat) (e : Int) :
    powerUp r k e = match r with
      | .rtz | .rdn => false
      | .rup => decide (k ≠ 2 ^ k.log2)
      | .rne => decide (3 * 2 ^ k.log2 < 2 * k) || (decide (2 * k = 3 * 2 ^ k.log2) && decide ((k.log2 + e + 127) % 2 ≠ 0))
      | .rna => decide (3 * 2 ^ k.log2 ≤ 2 * k) := by
  have hne {α : Type} [DecidableEq α] (x y : α) : (x != y) = decide (x ≠ y) := by rw [bne, beq_eq_decide, decide_not]
  cases r with
  | rtz | rdn | rna => rfl
  | rup => exact hne ..
  | rne => exact congrArg (decide (3 * 2 ^ k.log2 < 2 * k) || decide (2 * k = 3 * 2 ^ k.log2) && ·) (hne ..)

/-- The code of the power of two, were there one for every power. -/
def powerCode (r : RMode) (k : Nat) (e : Int) : Int := k.log2 + e + (if powerUp r k e then 1 else 0) + 127

/-- A positive magnitude has the code of its power of two, and the ends of the codes where there is none. -/
theorem toE8m0_of_positive (r : RMode) (sat : Bool) {k : Nat} (e : Int) (hk : k ≠ 0) :
    toE8m0 r sat (.fin false k e) =
      if powerCode r k e < 0 then (0, flagUF ||| flagNX)
      else if 254 < powerCode r k e then (if sat then 0xFE else 0xFF, flagOF ||| flagNX)
      else ((powerCode r k e).toNat, if k = 2 ^ k.log2 ∧ powerUp r k e = false then 0 else flagNX) := by
  have hlog : bitLen k - 1 = k.log2 := by rw [bitLen, if_neg hk, Nat.add_sub_cancel]
  have hcode : (if powerUp r k e then (k.log2 : Int) + e + 1 else k.log2 + e) + 127 = powerCode r k e := by
    rw [powerCode]
    split <;> omega
  have hflag : flagIf (!(k == 2 ^ k.log2) || powerUp r k e) flagNX =
      if k = 2 ^ k.log2 ∧ powerUp r k e = false then 0 else flagNX := by
    cases powerUp r k e <;> simp [flagIf]
  rw [← hcode, ← hflag, toE8m0, if_neg (by simp [hk]), hlog]
  rfl

end Sys2Proof.Proofs

/-! PROOF. MXPACK, MXUNPACK and MXSCALE (07 R167 to R171), and with them the dot products and conversions of 07. -/
namespace Sys2Proof.Proofs
open Sys2Proof.Machine Sys2Proof.Laws

/-! The fields of a control word (07 R168), and elements put together (04 R88). -/

theorem bit_eq_testBit (n k : Nat) : bit n k = n.testBit k := by
  rw [bit, Nat.testBit_eq_decide_div_mod_eq, beq_eq_decide]

theorem bits_low (n k : Nat) : bits n k 0 = n % 2 ^ (k + 1) := by
  rw [bits, pow_zero, Nat.div_one, Nat.sub_zero]

theorem packElems_eq_sum (w n : Nat) (g : Nat → Nat) :
    packElems w ((List.range n).map g) = ((List.range n).map (fun k => g k % 2 ^ w * 2 ^ (w * k))).sum := by
  induction n generalizing g with
  | zero => rfl
  | succ n ih =>
    have hshift (k : Nat) : g (k + 1) % 2 ^ w * 2 ^ (w * (k + 1)) = 2 ^ w * (g (k + 1) % 2 ^ w * 2 ^ (w * k)) := by ring
    rw [List.range_succ_eq_map, List.map_cons, List.map_map, packElems, ih, List.map_cons, List.map_map, List.sum_cons]
    simp only [Function.comp_def, Nat.succ_eq_add_one, hshift, List.sum_map_mul_left, Nat.mul_zero, pow_zero, Nat.mul_one]

/-- The results and the flags of lanes put together. -/
theorem lanes_packed (w n : Nat) (op : Nat → Nat × Fpf) :
    (packElems w (((upto 0 n).map op).map (·.1)), ((upto 0 n).map op).foldl (fun a x => a ||| x.2) 0) =
      (((List.range n).map (fun k => (op k).1 % 2 ^ w * 2 ^ (w * k))).sum,
       ((List.range n).map (fun j => (op j).2)).foldl (· ||| ·) 0) := by
  rw [map_fst_lanes, packElems_eq_sum, flags_lanes]

/-! MXUNPACK (07 R171). -/

/-- Flags raised before registers are written or after them are the same. -/
theorem wr_raise_eq_raise_wr (t : Thread) (fl : Fpf) (n : Nat) (v : Word) : (t.raise fl).wr n v = (t.wr n v).raise fl := by
  rw [wr_raise, Thread.raise, wr_fpf]

/-- What MXUNPACK gives for an element, by its kind. -/
theorem unpackElem_eq (f : Fmt) (r : RMode) (sat : Bool) (x n : Nat) :
    unpackElem f r sat x n = match f.decode n with
      | .nan _ => (0x7FC00000, 0)
      | .inf neg => if x = 255 then (0x7FC00000, 0) else (if neg then 0xFF800000 else 0x7F800000, 0)
      | .fin neg k e => if x = 255 then (0x7FC00000, 0) else f32.deliver r sat (.fin neg k (e + ((x : Int) - 127))) := by
  cases h : f.decode n with
  | nan invalid => simp only [unpackElem, h, Val.isNan, or_true, if_true]; rfl
  | inf neg =>
    simp only [unpackElem, h, Val.isNan, Bool.false_eq_true, or_false]
    cases neg <;> rfl
  | fin neg k e => simp only [unpackElem, h, Val.isNan, Bool.false_eq_true, or_false]; rfl

/-- The four words that MXUNPACK writes, each of two results. -/
theorem unpacked_words (t : Thread) (d : Nat) (fl : Fpf) (op : Nat → Nat × Fpf) (words : Nat → Word)
    (hword : ∀ k, words k = BitVec.ofNat 64 ((op (2 * k)).1 + 2 ^ 32 * (op (2 * k + 1)).1)) :
    (upto 0 4).foldl (fun t k => t.wr (d + k) (w64 ((((upto 0 8).map op).getD (2 * k) (0, 0)).1 +
      2 ^ 32 * (((upto 0 8).map op).getD (2 * k + 1) (0, 0)).1))) (t.raise fl) =
    ((((t.wr d (words 0)).wr (d + 1) (words 1)).wr (d + 2) (words 2)).wr (d + 3) (words 3)).raise fl := by
  simp only [upto, List.foldl_cons, List.foldl_nil, wr_raise_eq_raise_wr, hword]
  rfl

/-! MXSCALE (07 R169). -/

/-- One step of the maximum of magnitudes, which a NaN stops. -/
def maxMagStep (a : Option Nat) (v : Nat) : Option Nat :=
  match a with
  | none => none
  | some m => if (f32.decode v).isNan then none else some (max m (v % 2 ^ 31))

theorem maxMag_eq_foldl (l : List Nat) : maxMag l = l.foldl maxMagStep (some 0) := rfl

theorem foldl_maxMagStep_none (l : List Nat) : l.foldl maxMagStep none = none := by
  induction l with
  | nil => rfl
  | cons v l ih => exact ih

/-- Where the maximum of magnitudes is a number no operand is NaN. -/
theorem noNan_of_foldl_maxMagStep {l : List Nat} {a : Option Nat} {m : Nat} (h : l.foldl maxMagStep a = some m) :
    ∀ v ∈ l, (f32.decode v).isNan = false := by
  induction l generalizing a with
  | nil => exact fun v hv => absurd hv List.not_mem_nil
  | cons w l ih =>
    have hw : (f32.decode w).isNan = false := by
      by_contra hnan
      have hstep : maxMagStep a w = none := by
        cases a with
        | none => rfl
        | some n => exact if_pos (by simpa using hnan)
      rw [List.foldl_cons, hstep, foldl_maxMagStep_none] at h
      cases h
    exact List.forall_mem_cons.2 ⟨hw, ih h⟩

theorem isInvalid_of_not_isNan {x : Val} (h : x.isNan = false) : x.isInvalid = false := by
  cases x with
  | nan => cases h
  | inf | fin => rfl

/-- Where the maximum of magnitudes is a number no operand signals. -/
theorem any_isInvalid_eq_false_of_maxMag {l : List Nat} {m : Nat} (h : maxMag l = some m) :
    l.any (fun v => (f32.decode v).isInvalid) = false := by
  rw [maxMag_eq_foldl] at h
  exact List.any_eq_false.2 fun v hv => by simp [isInvalid_of_not_isNan (noNan_of_foldl_maxMagStep h v hv)]

/-- The operands of MXSCALE: the magnitude so far, in the high half of the control word, and the eight values. -/
theorem scale_operands (t : Thread) (a : Reg) (c : Word) :
    bits c.toNat 63 32 :: (upto 0 8).map (t.groupLane a) = c.toNat / 2 ^ 32 :: (List.range 8).map (t.groupLane a) := by
  have hhigh : c.toNat / 2 ^ 32 < 2 ^ 32 := by omega
  rw [upto_zero_eq_range, bits, Nat.mod_eq_of_lt hhigh]

/-! What the three words leave. -/

theorem exec_mxunpack (d a b : Reg) (ty : MxType) (s : State) :
    exec (.mxunpack d a b ty) s = word (.mxunpack d a b ty) s fun s t =>
      let c := (t.rd b.toNat).toNat
      let f := MxType.fmt ty
      let l := (upto 0 8).map fun k => unpackElem f (ctlMode c t) (bit c 11) (bits c 7 0) (elemOf (t.rd a.toNat).toNat f.width k)
      let t1 := t.raise (l.foldl (fun a x => a ||| x.2) 0)
      .ok (s.retire ((upto 0 4).foldl (fun t k => t.wr (d.toNat + k)
        (w64 ((l.getD (2 * k) (0, 0)).1 + 2 ^ 32 * (l.getD (2 * k + 1) (0, 0)).1))) t1)) := rfl

section
variable {s : State} {t : Thread} {d a b : Reg} {ty : MxType} {op : Nat → Nat × Fpf}

theorem mxpack_writes (hop : (fun k => packElem (MxType.fmt ty) (ctlMode (t.rd b.toNat).toNat t) (bit (t.rd b.toNat).toNat 11)
    (bits (t.rd b.toNat).toNat 7 0) (t.groupLane a k)) = op) :
    FloatWrites s t (.mxpack d a b ty) d.toNat
      (((List.range 8).map (fun k => (op k).1 % 2 ^ (MxType.fmt ty).width * 2 ^ ((MxType.fmt ty).width * k))).sum,
       ((List.range 8).map (fun j => (op j).2)).foldl (· ||| ·) 0) := by
  subst hop
  exact floatWrites_of_floatOp rfl (lanes_packed ..)

theorem mxunpack_completes (hop : (fun k => unpackElem (MxType.fmt ty) (ctlMode (t.rd b.toNat).toNat t) (bit (t.rd b.toNat).toNat 11)
    (bits (t.rd b.toNat).toNat 7 0) (elemOf (t.rd a.toNat).toNat (MxType.fmt ty).width k)) = op) {words : Nat → Word}
    (hword : ∀ k, words k = BitVec.ofNat 64 ((op (2 * k)).1 + 2 ^ 32 * (op (2 * k + 1)).1)) :
    Completes s t (.mxunpack d a b ty)
      (((((t.wr d.toNat (words 0)).wr (d.toNat + 1) (words 1)).wr (d.toNat + 2) (words 2)).wr (d.toNat + 3) (words 3)).raise
        (((List.range 8).map (fun j => (op j).2)).foldl (· ||| ·) 0)) := by
  subst hop
  exact completes_of_retire (exec_mxunpack ..)
    (congrArg (Except.ok ∘ s.retire) ((unpacked_words _ _ _ _ _ hword).trans (congrArg _ (flags_lanes ..))))
    (by simp [Thread.raise]) (by simp [Thread.raise]) (by simp [Thread.raise, Thread.settled])

/-- The bits of a control word that MXSCALE keeps (07 R169). -/
theorem scale_kept (n : Nat) : bits n 31 8 = n / 256 % 2 ^ 24 := rfl

theorem mxscale_writes_of_some {m : Nat} (h : maxMag ((t.rd b.toNat).toNat / 2 ^ 32 :: (List.range 8).map (t.groupLane a)) = some m) :
    FloatWrites s t (.mxscale d a b ty) d.toNat (m * 2 ^ 32 + (t.rd b.toNat).toNat / 256 % 2 ^ 24 * 2 ^ 8 + scaleOf ty m, 0) :=
  floatWrites_of_floatOp rfl (by simp only [scale_operands, h, any_isInvalid_eq_false_of_maxMag h, scale_kept]; rfl)

theorem mxscale_writes_of_none (h : maxMag ((t.rd b.toNat).toNat / 2 ^ 32 :: (List.range 8).map (t.groupLane a)) = none) :
    FloatWrites s t (.mxscale d a b ty) d.toNat (0x7FC00000 * 2 ^ 32 + (t.rd b.toNat).toNat / 256 % 2 ^ 24 * 2 ^ 8 + 255,
      if ((t.rd b.toNat).toNat / 2 ^ 32 :: (List.range 8).map (t.groupLane a)).any (fun v => (f32.decode v).isInvalid) then flagNV
      else 0) :=
  floatWrites_of_floatOp rfl (by simp only [scale_operands, h, scale_kept]; rfl)

end

/-- Settles O12: a dot product is one delivery of the exact sum; CVT delivers what its source is read as, by the kind of its target; and the
elements of MXPACK and MXUNPACK are those of the statement, one by one. -/
theorem dotAndConversionResults : Obligations.DotAndConversionResults := by
  intro s t d a b l5 sat r u v ty f lane g ctl x mode in32 packed opened word flags bits num src m gives int range
  have hm : selMode r t = m := by cases r <;> rfl
  have hsrc : cvtRead v (t.rd a.toNat) = src := by
    cases v with
    | i8 => exact cvtRead_i8 _
    | i4 => exact cvtRead_i4 _
    | _ => rfl
  have hrange : cvtRange u = range := by cases u <;> rfl
  have hpacked : (fun k => packElem g (ctlMode ctl t) (bit ctl 11) (Machine.bits ctl 7 0) (t.groupLane a k)) = packed := by
    rw [bit_eq_testBit, bits_low]
    rfl
  have hopened : (fun k => unpackElem g (ctlMode ctl t) (bit ctl 11) (Machine.bits ctl 7 0) (elemOf bits g.width k)) = opened := by
    rw [bit_eq_testBit, bits_low]
    exact funext fun k => unpackElem_eq ..
  refine ⟨floatWrites_of_floatOp rfl ?_, fun fd hfd => cvt_writes_of_fmt hm hsrc hfd,
    fun hu => ⟨fun hnan => cvt_writes_of_integer hm hsrc hu (toInt_of_isNan hnan),
      fun neg hinf => cvt_writes_of_integer hm (hsrc.trans hinf) hu (toInt_of_inf hrange), fun neg k e hfin => ?_⟩,
    fun hu => ⟨fun h => cvt_writes_of_e8m0 hm hsrc hu (toE8m0_of_not_positive h), fun k e hfin hk => ?_⟩,
    mxpack_writes hpacked, ?_, fun m hmax => mxscale_writes_of_some hmax, fun hmax => mxscale_writes_of_none hmax⟩
  · exact congrArg (fun l : List Nat => f32.deliver t.mode false (Val.sum t.mode (t.fval f32 d :: l.map fun k =>
      (lane a k).mul (lane b k)))) (upto_zero_eq_range _)
  · intro den kept rem up mag y
    obtain ⟨-, -, hle⟩ := integer_of_mem hu
    rw [hrange] at hle
    have hy : (roundInt m neg k e).1 = y := roundInt_fst (roundsUp_of_not_sticky ..)
    have writes {z : Int} {fl : Fpf} (h : toInt u m (.fin neg k e) = (z, fl)) : int z fl :=
      cvt_writes_of_integer hm (hsrc.trans hfin) hu h
    exact ⟨fun h => writes (toInt_of_below hrange hy h), fun h => writes (toInt_of_above hrange hy hle h),
      fun hlow hhigh => writes ((toInt_of_inside hrange hy hlow hhigh).trans (congrArg _ (roundInt_flag ..)))⟩
  · intro b up c
    have hup : powerUp m k e = up := powerUp_eq ..
    have hcode : powerCode m k e = c := by rw [powerCode, hup]
    have hvalue := toE8m0_of_positive m sat e hk
    rw [hcode, hup] at hvalue
    have writes {p : Nat × Fpf} (h : toE8m0 m sat (.fin false k e) = p) : gives p := cvt_writes_of_e8m0 hm (hsrc.trans hfin) hu h
    exact ⟨fun h => writes (hvalue.trans (if_pos h)), fun h => writes (hvalue.trans ((if_neg (by omega)).trans (if_pos h))),
      fun hlow hhigh => writes (hvalue.trans ((if_neg (not_lt.2 hlow)).trans (if_neg (not_lt.2 hhigh))))⟩
  · have h := mxunpack_completes (s := s) (d := d) hopened (words := word) (fun _ => rfl)
    simpa only [Thread.raise, wr_fpf] using h

end Sys2Proof.Proofs

/-! PROOF. The ends of ramps of matrix units (08 R187, R188). -/
namespace Sys2Proof.Proofs
open Sys2Proof.Machine Sys2Proof.Laws

/-- A value that every change leaves alone is the same after a list of changes. -/
theorem foldl_keeps {σ α β : Type} {p : σ → β} {f : σ → α → σ} (hf : ∀ s a, p (f s a) = p s) (l : List α) (s : σ) :
    p (l.foldl f s) = p s := by
  induction l generalizing s with
  | nil => rfl
  | cons a l ih => rw [List.foldl_cons, ih, hf]

/-! Gangs by name. -/

theorem gang_id {s : State} {i : GangId} {g : Gang} (h : s.gang i = some g) : g.id = i := by
  simpa using List.find?_some h

theorem find_mapGangs {f : Gang → Gang} (hf : ∀ g, (f g).id = g.id) (l : List Gang) (i : GangId) :
    (l.map f).find? (fun g => g.id == i) = (l.find? (fun g => g.id == i)).map f := by
  have hname : (fun g : Gang => g.id == i) ∘ f = fun g => g.id == i := funext fun g => by simp only [Function.comp, hf]
  rw [List.find?_map, hname]

/-- A gang of the list is found with its new value. -/
theorem gang_setGang {s : State} {g : Gang} (h : (s.gang g.id).isSome = true) : (s.setGang g).gang g.id = some g := by
  obtain ⟨x, hx⟩ := Option.isSome_iff_exists.1 h
  refine (find_mapGangs (fun x => ?_) s.gangs g.id).trans ?_
  · split
    next hid => exact hid.symm
    next => rfl
  · rw [State.gang] at hx
    rw [hx, Option.map_some, if_pos (gang_id hx)]

/-! Units of cores. -/

/-- A change of one unit changes no other core. -/
theorem core_modUnit (s : State) (c j : Nat) (f : MatUnit → MatUnit) :
    (s.modUnit c f).core j = if j = c then { s.core c with unit := f (s.core c).unit } else s.core j := core_setCore ..

theorem unit_modUnit (s : State) (c j : Nat) (f : MatUnit → MatUnit) :
    ((s.modUnit c f).core j).unit = if j = c then f (s.core c).unit else (s.core j).unit := by
  rw [core_modUnit]
  split <;> rfl

theorem noteUp_core (s : State) (i : Option GangId) (j : Nat) : (s.noteUp i).core j = s.core j := by
  unfold State.noteUp
  split
  · rfl
  · split
    · split <;> rfl
    · rfl

/-- The operation of a gang whose units are all UP goes (08 R187). -/
theorem noteUp_of_up {s : State} {g : Gang} {op : MatOp} (h : s.gang g.id = some g) (hop : g.op = some op) (hgoing : op.going = false)
    (hup : s.unitsUp g = true) : s.noteUp (some g.id) = s.setGang { g with op := some { op with going := true } } := by
  simp only [State.noteUp, Option.bind_some, h, hop, hgoing, hup, Bool.not_false, Bool.and_self, if_true]

theorem exec_rampUpEnd (s : State) (c : Nat) : exec (.rampUpEnd c) s = execRampUpEnd c s := rfl
theorem exec_rampDownStart (s : State) (c : Nat) : exec (.rampDownStart c) s = execRampDownStart c s := rfl
theorem exec_rampDownEnd (s : State) (c : Nat) : exec (.rampDownEnd c) s = execRampDownEnd c s := rfl

section
variable {s : State} {c : Nat}

/-- A unit at the end of its ramp up. -/
def risen (u : MatUnit) : MatUnit := { u with ramp := .up, idle := 0, stag := 0 }

theorem rampUpEnd_of_due (hramp : (s.core c).unit.ramp = .rampUp) (hleft : (s.core c).unit.left = 0) :
    exec (.rampUpEnd c) s = .next ((s.modUnit c risen).noteUp (s.core c).unit.gang) := by
  rw [exec_rampUpEnd, execRampUpEnd, if_pos (by simp [MatUnit.upDue, hramp, hleft])]
  rfl

theorem rampUpEnd_of_not_due (h : (s.core c).unit.ramp ≠ .rampUp ∨ (s.core c).unit.left ≠ 0) : exec (.rampUpEnd c) s = .next s := by
  rw [exec_rampUpEnd, execRampUpEnd, if_neg (by simpa [MatUnit.upDue, imp_iff_not_or] using h)]

theorem rampDownStart_of_due (hramp : (s.core c).unit.ramp = .up) (hidle : 256 ≤ (s.core c).unit.idle) :
    exec (.rampDownStart c) s = .next (s.modUnit c (fun u => { u with ramp := .rampDown, left := 64, idle := 0 })) := by
  rw [exec_rampDownStart, execRampDownStart, if_pos (by simp [MatUnit.idleDue, hramp, hidle])]

theorem rampDownStart_of_not_due (h : (s.core c).unit.ramp ≠ .up ∨ (s.core c).unit.idle < 256) :
    exec (.rampDownStart c) s = .next s := by
  rw [exec_rampDownStart, execRampDownStart, if_neg (by simpa [MatUnit.idleDue, imp_iff_not_or] using h)]

theorem rampDownEnd_of_due (hramp : (s.core c).unit.ramp = .rampDown) (hleft : (s.core c).unit.left = 0) :
    exec (.rampDownEnd c) s = .next (s.modUnit c (fun u => { u with ramp := .down, idle := 0 })) := by
  rw [exec_rampDownEnd, execRampDownEnd, if_pos (by simp [MatUnit.downDue, hramp, hleft])]

theorem rampDownEnd_of_not_due (h : (s.core c).unit.ramp ≠ .rampDown ∨ (s.core c).unit.left ≠ 0) :
    exec (.rampDownEnd c) s = .next s := by
  rw [exec_rampDownEnd, execRampDownEnd, if_neg (by simpa [MatUnit.downDue, imp_iff_not_or] using h)]

/-- With the last unit of a gang UP its operation goes. -/
theorem noteUp_of_last_risen {g : Gang} {op : MatOp} (h : s.gang g.id = some g) (hop : g.op = some op) (hgoing : op.going = false)
    (hothers : ∀ x ∈ g.cores, x ≠ c → (s.core x).unit.ramp = .up) :
    ((s.modUnit c risen).noteUp (some g.id)).gang g.id = some { g with op := some { op with going := true } } := by
  have hup : (s.modUnit c risen).unitsUp g = true := by
    refine List.all_eq_true.2 fun x hx => beq_iff_eq.2 ?_
    rw [unit_modUnit]
    split
    next => rfl
    next hne => exact hothers x hx hne
  have hgang : (s.modUnit c risen).gang g.id = some g := h
  rw [noteUp_of_up hgang hop hgoing hup]
  exact gang_setGang (g := { g with op := some { op with going := true } }) (by rw [hgang]; rfl)

/-- The end of a ramp up: the unit is UP, no other core and no thread changes, and an operation whose units are all UP goes. -/
theorem rampUpEnd_rises (hramp : (s.core c).unit.ramp = .rampUp) (hleft : (s.core c).unit.left = 0) :
    ∃ s', exec (.rampUpEnd c) s = .next s' ∧ (s'.core c).unit = risen (s.core c).unit ∧ (∀ x, x ≠ c → s'.core x = s.core x) ∧
      s'.threads = s.threads ∧
      (∀ g op, (s.core c).unit.gang = some g.id → s.gang g.id = some g → g.op = some op → op.going = false →
        (∀ x ∈ g.cores, x ≠ c → (s.core x).unit.ramp = .up) → s'.gang g.id = some { g with op := some { op with going := true } }) := by
  refine ⟨_, rampUpEnd_of_due hramp hleft, ?_, fun x hx => ?_, ((Quiet.refl s).modUnit ..).noteUp _ |>.threads,
    fun g op hholds hgang hop hgoing hothers => ?_⟩
  · rw [noteUp_core, unit_modUnit, if_pos rfl]
  · rw [noteUp_core, core_modUnit, if_neg hx]
  · rw [hholds]
    exact noteUp_of_last_risen hgang hop hgoing hothers

end

end Sys2Proof.Proofs

/-! PROOF. What the device does beside the matrix units leaves their state alone, and of a gang all but what is asked of it and who has
arrived (09 R199, R212, R214). -/
namespace Sys2Proof.Proofs
open Sys2Proof.Machine Sys2Proof.Laws

/-- The gang but for the requests made of it and its members counted in ARRIVED. -/
def lasting (g : Gang) : Gang := { g with arrived := [], saving := false, breaking := false }

/-- The gangs, as far as they last, and the matrix units of the cores. -/
def footing (s : State) : List Gang × (Nat → MatUnit) := (s.gangs.map lasting, fun c => (s.core c).unit)

theorem unit_of_footing {s s' : State} (h : footing s' = footing s) (c : Nat) : (s'.core c).unit = (s.core c).unit :=
  congrFun (congrArg Prod.snd h) c

theorem gang_of_footing {s s' : State} (h : footing s' = footing s) (i : GangId) : (s'.gang i).map lasting = (s.gang i).map lasting := by
  have hfind (s : State) : (footing s).1.find? (fun g => g.id == i) = (s.gang i).map lasting :=
    find_mapGangs (f := lasting) (fun _ => rfl) ..
  rw [← hfind, h, hfind]

theorem exists_gang_of_footing {s s' : State} (h : footing s' = footing s) {i : GangId} {g : Gang} (hg : s.gang i = some g) :
    ∃ g', s'.gang i = some g' ∧ lasting g' = lasting g := by
  have hsame := gang_of_footing h i
  rw [hg] at hsame
  exact Option.map_eq_some_iff.1 hsame

theorem gang_eq_none_of_footing {s s' : State} (h : footing s' = footing s) {i : GangId} (hg : s.gang i = none) : s'.gang i = none := by
  have hsame := gang_of_footing h i
  rw [hg] at hsame
  exact Option.map_eq_none_iff.1 hsame

theorem footing_foldl {α : Type} {f : State → α → State} (hf : ∀ s a, footing (f s a) = footing s) (l : List α) (s : State) :
    footing (l.foldl f s) = footing s := foldl_keeps hf l s

/-- A core may change in all but its unit. -/
theorem footing_setCore {s : State} {c : Nat} {x : Core} (hx : x.unit = (s.core c).unit) : footing (s.setCore c x) = footing s := by
  refine Prod.ext rfl (funext fun j => (congrArg Core.unit (core_setCore s c j x)).trans ?_)
  split
  next hj => exact hj ▸ hx
  next => rfl

theorem unit_get_map {f : Core → Core} (hf : ∀ x, (f x).unit = x.unit) (l : List (Nat × Core)) (c : Nat) :
    (Sparse.get Core.init (l.map fun x => (x.1, f x.2)) c).unit = (Sparse.get Core.init l c).unit := by
  induction l with
  | nil => rfl
  | cons x l ih =>
    simp only [List.map_cons, Sparse.get]
    split
    · exact hf x.2
    · exact ih

/-- The cores may change in all but their units. -/
theorem footing_mapCores {s s' : State} {f : Core → Core} (hf : ∀ x, (f x).unit = x.unit) (hg : s'.gangs = s.gangs)
    (hc : s'.cores = s.cores.map fun x => (x.1, f x.2)) : footing s' = footing s :=
  Prod.ext (congrArg (List.map lasting) hg) (funext fun c => by
    simp only [footing, State.core, hc]
    exact unit_get_map hf s.cores c)

/-- The gangs may change in what does not last. -/
theorem footing_mapGangs {s s' : State} {f : Gang → Gang} (hf : ∀ g, lasting (f g) = lasting g) (hg : s'.gangs = s.gangs.map f)
    (hc : s'.cores = s.cores) : footing s' = footing s := by
  refine Prod.ext ?_ (funext fun c => by simp only [footing, State.core, hc])
  simp only [footing, hg, List.map_map]
  exact List.map_congr_left fun g _ => hf g

/-! Writes of bytes (10 R230). -/

@[simp] theorem footing_pokeBytes (s : State) (a : Nat) (bs : List Byte) : footing (s.pokeBytes a bs) = footing s := by
  induction bs generalizing s a with
  | nil => rfl
  | cons b bs ih => exact ih (s.pokeByte a b) (a + 1)

theorem footing_withKeys (s : State) (l : List (Nat × Nat)) : footing { s with lineKey := l } = footing s := rfl

@[simp] theorem footing_rekey (s : State) (d a : Nat) : footing (s.rekey d a) = footing s := by
  unfold State.rekey
  split
  · rfl
  · exact (footing_withKeys ..).trans (footing_pokeBytes ..)

@[simp] theorem footing_writeLine (s : State) (d a : Nat) (bs : List Byte) : footing (s.writeLine d a bs) = footing s := by
  unfold State.writeLine
  refine (footing_pokeBytes ..).trans ?_
  split
  · rfl
  · split
    · rfl
    · exact footing_rekey ..

@[simp] theorem footing_unpoison (s : State) (a n : Nat) : footing (s.unpoison a n) = footing s := rfl

@[simp] theorem footing_writeAs (s : State) (d a : Nat) (bs : List Byte) : footing (s.writeAs d a bs) = footing s := by
  unfold State.writeAs
  dsimp only
  split
  · simp
  · refine (footing_foldl (fun s k => ?_) ..).trans (footing_unpoison ..)
    generalize (if k = 0 then 0 else 128 - a % 128 + 128 * (k - 1)) = lo
    split
    · rfl
    · simp

@[simp] theorem footing_markLeaf (s : State) (d : Nat) (x : Walked) (w : Bool) : footing (s.markLeaf d x w) = footing s := by
  unfold State.markLeaf
  split
  · rfl
  · exact footing_writeAs ..

@[simp] theorem footing_touch (s : State) (die d a : Nat) (w : Bool) : footing (s.touch die d a w) = footing s := by
  unfold State.touch
  split
  · simp
  · rfl

/-! Writes of the device and its charges (13 R303; 02 R43). -/

theorem footing_devPut {s s' : State} {die d a : Nat} {bs : List Byte} {free : Bool} (e : s.devPut die d a bs free = .ok s') :
    footing s' = footing s := by
  unfold State.devPut at e
  split at e
  · cases e
  · split at e
    · obtain rfl := Except.ok.inj e
      split <;> simp
    · cases e

@[simp] theorem footing_takeEntry (s : State) (w : Waiter) (src home d p old : Nat) :
    footing (s.takeEntry w src home d p old) = footing s := by
  unfold State.takeEntry
  split <;> rfl

theorem footing_devPerform {s s' : State} {o : DevOp} (e : s.devPerform o = .ok s') : footing s' = footing s := by
  unfold State.devPerform at e
  split at e
  · exact footing_devPut e
  · exact footing_devPut e
  · exact footing_devPut e
  · split at e
    · cases e
    · split at e
      · cases e
      next hput =>
        obtain rfl := Except.ok.inj e
        exact (footing_takeEntry ..).trans (footing_devPut hput)
  all_goals
    split at e
    · cases e
    · exact footing_devPut e

@[simp] theorem footing_awaitCredit (s : State) (src home : Nat) (w : Waiter) : footing (s.awaitCredit src home w) = footing s := by
  unfold State.awaitCredit
  split <;> rfl

theorem footing_devDo {s s' : State} {o : DevOp} (e : s.devDo o = .ok s') : footing s' = footing s := by
  unfold State.devDo at e
  split at e
  · obtain rfl := Except.ok.inj e
    dsimp only
    split
    · exact footing_awaitCredit ..
    · rfl
  · exact footing_devPerform e

@[simp] theorem footing_noteWaits (s : State) : footing s.noteWaits = footing s := by
  unfold State.noteWaits
  dsimp only
  split <;> rfl

@[simp] theorem footing_charge (s : State) (die home : Nat) (c : Charge) (d : Int) (l : List Nat) :
    footing (s.charge die home c d l) = footing s := by
  refine footing_foldl (fun s a => ?_) l s
  unfold State.addCount
  dsimp only
  split
  next hdo => exact (footing_noteWaits _).trans (footing_devDo hdo)
  next => rfl

/-! Counts of events, fault records, logs and credits. -/

@[simp] theorem footing_tally (s : State) (core : Nat) (dom : Option Nat) (code n : Nat) : footing (s.tally core dom code n) = footing s := by
  unfold State.tally
  dsimp only
  split
  · exact footing_setCore rfl
  · rfl

@[simp] theorem footing_pushRec (s : State) (d : Nat) (r : Rec) : footing (s.pushRec d r) = footing s := by
  unfold State.pushRec
  split <;> rfl

@[simp] theorem footing_chainChecked (s : State) (t : Thread) : footing (s.chainChecked t) = footing s := by
  unfold State.chainChecked
  split
  · unfold State.regionFault
    dsimp only
    split
    · rfl
    · exact (footing_pushRec ..).trans (footing_setCore rfl)
  · rfl

@[simp] theorem footing_dropFresh (s : State) (core : Nat) (i : Tid) : footing (s.dropFresh core i) = footing s := by
  unfold State.dropFresh
  dsimp only
  split
  · exact footing_setCore rfl
  · rfl

@[simp] theorem footing_dropCredit (s : State) (i : Tid) : footing (s.dropCredit i) = footing s := rfl

@[simp] theorem footing_releaseSlot (s : State) (t : Thread) : footing (s.releaseSlot t).1 = footing s := by
  unfold State.releaseSlot
  dsimp only
  split <;> simp

@[simp] theorem footing_chargeSlot (s : State) (t : Thread) : footing (s.chargeSlot t) = footing s :=
  footing_charge s ..

@[simp] theorem footing_unstep (s : State) (i : Tid) : footing (s.unstep i) = footing s := by
  unfold State.unstep
  split
  · exact footing_mapCores (f := fun c => { c with steps := c.steps.filter (· ≠ i) }) (fun _ => rfl) rfl rfl
  · rfl

@[simp] theorem footing_machineCheck (s : State) (die d : Nat) (w : Word) : footing (s.machineCheck die d w) = footing s :=
  footing_foldl (fun s _ => footing_pushRec s ..) _ s

@[simp] theorem footing_logDone (s : State) (r : Rec) : footing (s.logDone r) = footing s := by
  unfold State.logDone
  extract_lets fd
  clear_value fd
  split
  · rfl
  · dsimp only
    split
    · rfl
    · exact (footing_pushRec ..).trans rfl

@[simp] theorem footing_logLast (s : State) (t : Thread) : footing (s.logLast t) = footing s := by
  unfold State.logLast
  extract_lets rec' fills s1 l
  have hs1 : footing s1 = footing s := footing_foldl footing_logDone ..
  split <;> exact hs1

/-! Gangs: the writes of a record, and requests (09 R212, R214). -/

@[simp] theorem footing_gangWrite (s : State) (g : Gang) (k off : Nat) (bs : List Byte) :
    footing (s.gangWrite g k off bs).1 = footing s := by
  unfold State.gangWrite
  split
  · dsimp only
    split
    · simp
    · rfl
  · split
    · rfl
    · split
      · rfl
      · dsimp only
        split <;> simp

@[simp] theorem footing_gangWrites (s : State) (g : Gang) (k : Nat) (l : List (Nat × List Byte)) :
    footing (s.gangWrites g k l).1 = footing s := by
  refine foldl_keeps (p := fun x : State × Bool => footing x.1) (fun x p => ?_) l (s, false)
  exact footing_gangWrite x.1 g k p.1 p.2

@[simp] theorem footing_gangDropped (s : State) (g : Gang) (k : Nat) (b : Bool) : footing (s.gangDropped g k b) = footing s := by
  unfold State.gangDropped
  split
  · simp
  · rfl

theorem footing_gangSaveReq (s : State) (i : Option GangId) : footing (s.gangSaveReq i) = footing s := by
  unfold State.gangSaveReq
  split
  · rfl
  next i =>
    exact footing_mapGangs (f := fun x : Gang => if x.id = i then { x with saving := x.resident } else x)
      (fun g => by split <;> rfl) rfl rfl

@[simp] theorem footing_gangParked (s : State) (t : Thread) : footing (s.gangParked t) = footing s := by
  unfold State.gangParked
  split
  · rfl
  next i _ =>
    refine (footing_gangSaveReq ..).trans (footing_mapGangs (f := fun x =>
      if x.id = i then { x with arrived := x.arrived.filter (fun a => some a.1 ≠ x.indexOf t.id) } else x) (fun g => ?_) rfl rfl)
    split <;> rfl

@[simp] theorem footing_gangBreakReq (s : State) (t : Thread) : footing (s.gangBreakReq t) = footing s :=
  footing_mapGangs (f := fun x => if (x.indexOf t.id).isSome then { x with breaking := true } else x) (fun g => by split <;> rfl) rfl rfl

/-! Frames of threads (05 R125). -/

@[simp] theorem footing_writeOwned (s : State) (d pa : Nat) (bs : List Byte) : footing (s.writeOwned d pa bs) = footing s := by
  unfold State.writeOwned
  split
  · simp
  · rfl

@[simp] theorem footing_writeFrameLine (s : State) (u : Thread) (i pa : Nat) (ws : List Word) :
    footing (s.writeFrameLine u i pa ws) = footing s := by
  unfold State.writeFrameLine
  dsimp only
  split
  · rfl
  · split
    · split <;> simp
    · simp

@[simp] theorem footing_writeBack (s : State) (u : Thread) (st sub : Nat) (kept : Nat → Bool) :
    footing (s.writeBack u st sub kept) = footing s := by
  unfold State.writeBack
  split
  · rfl
  · refine footing_foldl (fun s i => ?_) _ s
    dsimp only
    split <;> exact footing_writeFrameLine s ..

@[simp] theorem footing_unpoisonNoted (s : State) (u : Thread) (l : List Nat) : footing (s.unpoisonNoted u l) = footing s := by
  unfold State.unpoisonNoted
  split
  · rfl
  · exact footing_foldl (fun _ _ => footing_unpoison ..) _ s

@[simp] theorem footing_settleHeld (s : State) (i : Tid) : footing (s.settleHeld i) = footing s := by
  refine footing_foldl (fun s u => ?_) _ s
  unfold State.finishHeld
  split
  · rfl
  · split
    · rfl
    · exact (footing_writeBack ..).trans (footing_unpoisonNoted ..)

end Sys2Proof.Proofs

/-! PROOF. Where no thread waits for a word of memory and no store is buffered or before its global point, threads leave slots, take them, are
parked and end, and the footing stays (02 R32, R35; 05 R125; 16 R367; 18 R402, R411). -/
namespace Sys2Proof.Proofs
open Sys2Proof.Machine Sys2Proof.Laws

namespace Quiet
variable {s s1 : State}

theorem gangWrites (h : Quiet s s1) (g : Gang) (k : Nat) (l : List (Nat × List Byte)) : Quiet s (s1.gangWrites g k l).1 := by
  refine List.foldlRecOn (motive := fun x : State × Bool => Quiet s x.1) l _ h fun x hx p _ => ?_
  show Quiet s (x.1.gangWrite g k p.1 p.2).1
  unfold State.gangWrite
  split
  · dsimp only
    split
    · exact hx.writeAs ..
    · exact hx
  · split
    · exact hx
    · split
      · exact hx
      · dsimp only
        split
        · exact (hx.writeAs ..).writeAs ..
        · exact hx.writeAs ..

theorem gangDropped (h : Quiet s s1) (g : Gang) (k : Nat) (b : Bool) : Quiet s (s1.gangDropped g k b) := by
  unfold State.gangDropped
  split
  · exact (foldl (fun _ _ h2 => h2.pushRec ..) _ h).trans ⟨rfl, rfl, rfl, rfl, id, id, fun _ => rfl⟩
  · exact h

theorem logLast (h : Quiet s s1) (t : Thread) : Quiet s (s1.logLast t) := by
  have hlog (s2 : State) (r : Rec) (h2 : Quiet s s2) : Quiet s (s2.logDone r) := by
    unfold State.logDone
    extract_lets fd
    clear_value fd
    have hrec (sdom fdom root : Nat) : Quiet s (s2.logRec r sdom fdom root) := h2.trans ⟨rfl, rfl, rfl, rfl, id, id, fun _ => rfl⟩
    split
    · exact hrec ..
    · dsimp only
      split
      · exact hrec ..
      · exact (hrec ..).pushRec ..
  unfold State.logLast
  extract_lets rec' fills s2 l
  have h2 : Quiet s s2 := foldl hlog _ h
  split
  · exact h2
  · exact h2.trans ⟨rfl, rfl, rfl, rfl, id, id, fun _ => rfl⟩

end Quiet

/-- The thread waits for no word of memory and has no store buffered. -/
structure Idle (u : Thread) : Prop where
  waits : WatchesNothing u
  stores : u.stores = []

theorem Idle.of_eq {u v : Thread} (h : Idle u) (hcond : v.cond = u.cond) (hstores : v.stores = u.stores) : Idle v :=
  ⟨watchesNothing_of_cond h.waits hcond, hstores.trans h.stores⟩

theorem Idle.emptied {u : Thread} (h : Idle u) : Idle { u with stores := [] } := ⟨watchesNothing_of_cond h.waits rfl, rfl⟩

/-- Idle threads, no store before its global point, and the footing F. -/
structure Calm (F : List Gang × (Nat → MatUnit)) (s : State) : Prop where
  idle : ∀ u ∈ s.threads, Idle u
  early : s.early = []
  holds : footing s = F

theorem releaseSlot_idle {s : State} {t : Thread} (h : Idle t) : Idle (s.releaseSlot t).2 := by
  rw [releaseSlot_thread]
  exact h.of_eq rfl rfl

namespace Calm
variable {F : List Gang × (Nat → MatUnit)} {s s' : State} {t : Thread}

/-- The footing of a state whose threads and stores are those of a calm one is its own. -/
theorem refooted (h : Calm F s) (ht : s'.threads = s.threads) (he : s'.early = s.early) : Calm (footing s') s' :=
  ⟨ht ▸ h.idle, he.trans h.early, rfl⟩

theorem of_same (h : Calm F s) (ht : s'.threads = s.threads) (he : s'.early = s.early) (hf : footing s' = footing s) :
    Calm F s' :=
  ⟨ht ▸ h.idle, he.trans h.early, hf.trans h.holds⟩

theorem of_quiet (h : Calm F s) (hq : Quiet s s') (hf : footing s' = footing s) : Calm F s' :=
  h.of_same hq.threads hq.early hf

theorem unwatched (h : Calm F s) : s.unwatched := unwatched_iff.2 fun u hu => (h.idle u hu).waits

theorem checkWatches (h : Calm F s) : Calm F s.checkWatches := by
  rw [checkWatches_of_unwatched h.unwatched]
  exact h

theorem drained (h : Calm F s) (ht : Idle t) : s.drained t := ⟨ht.stores, by simp [h.early]⟩

theorem not_stuck (h : Calm F s) (ht : Idle t) : s.stuck t = false := stuck_of_drained (h.drained ht)

theorem idle_of_find (h : Calm F s) {i : Tid} (hi : s.find i = some t) : Idle t := h.idle t (mem_of_find hi)

theorem idle_getD (h : Calm F s) (ht : Idle t) (i : Tid) : Idle ((s.find i).getD t) := by
  cases hi : s.find i with
  | none => exact ht
  | some u => exact h.idle_of_find hi

theorem put (h : Calm F s) (ht : Idle t) : Calm F (s.put t) where
  idle u hu := by
    obtain rfl | ⟨hu, -⟩ := mem_put_threads hu
    · exact ht
    · exact h.idle u hu
  early := h.early
  holds := h.holds

theorem foldl {α : Type} {f : State → α → State} (hf : ∀ s a, Calm F s → Calm F (f s a)) (l : List α) (h : Calm F s) :
    Calm F (l.foldl f s) :=
  List.foldlRecOn (motive := Calm F) l f h fun s hs a _ => hf s a hs

/-! Slots and frames. -/

theorem releaseSlot (h : Calm F s) (t : Thread) : Calm F (s.releaseSlot t).1 :=
  h.of_quiet ((Quiet.refl s).releaseSlot t) (footing_releaseSlot ..)

theorem drainAll (h : Calm F s) (ht : Idle t) : Calm F (s.drainAll t) := by
  rw [drainAll_of_drained (h.drained ht)]
  exact h.put ht

theorem vacate (h : Calm F s) (ht : Idle t) : Calm F (s.vacate t).1 ∧ Idle (s.vacate t).2 :=
  ⟨(h.drainAll ht).releaseSlot _, releaseSlot_idle ((h.drainAll ht).idle_getD ht.emptied t.id)⟩

theorem toReady (h : Calm F s) (ht : Idle t) : Calm F (s.toReady t) := by
  obtain ⟨hleft, hidle⟩ := h.vacate ht
  exact hleft.put (hidle.of_eq rfl rfl)

theorem evict (h : Calm F s) (ht : Idle t) : Calm F (s.evict t) := by
  unfold State.evict
  extract_lets s0 u
  have h0 : Calm F s0 := by
    refine drainAll (h.of_quiet (((Quiet.refl s).chainChecked t).tally ..) ?_) ht
    exact (footing_tally ..).trans (footing_chainChecked ..)
  have hu : Idle u := h0.idle_getD ht t.id
  clear_value u s0
  split
  · exact (h0.releaseSlot u).put ((releaseSlot_idle hu).of_eq rfl rfl)
  · exact h0.toReady hu

theorem unstep (h : Calm F s) (i : Tid) : Calm F (s.unstep i) := by
  refine h.of_same (Left.unstep_threads ..) ?_ (footing_unstep ..)
  unfold State.unstep
  split <;> rfl

theorem pushRec (h : Calm F s) (d : Nat) (r : Rec) : Calm F (s.pushRec d r) :=
  h.of_quiet ((Quiet.refl s).pushRec ..) (footing_pushRec ..)

theorem gangParked (h : Calm F s) (t : Thread) : Calm F (s.gangParked t) := by
  refine h.of_same (Left.gangParked_threads ..) ?_ (footing_gangParked ..)
  unfold State.gangParked
  split <;> rfl

/-- What parking ends with: the thread, without a wait and off its slot, is put, its record is queued, and its gang parked. -/
theorem parked {u v : Thread} (h : Calm F s) (hu : Idle u) (i : Tid) (d : Nat) (r : Rec) (hcond : v.cond = none)
    (hstores : v.stores = u.stores) : Calm F ((((s.unstep i).put v).pushRec d r).gangParked t) :=
  (((h.unstep i).put ⟨watchesNothing_of_none hcond, hstores.trans hu.stores⟩).pushRec ..).gangParked t

theorem park (h : Calm F s) (ht : Idle t) (f : Flt) (async ctx : Bool) (word : Nat) (own : Bool) :
    Calm F (s.park t f async ctx word own) := by
  obtain ⟨hleft, hidle⟩ := h.vacate ht
  exact hleft.parked hidle _ _ _ rfl rfl

theorem dropStale (h : Calm F s) (ht : Idle t) : Calm F (s.dropStale t) := by
  unfold State.dropStale
  split
  · unfold State.dropFrame
    split
    · exact h
    · exact (h.of_quiet ((Quiet.refl s).writeBack ..) (footing_writeBack ..)).put (ht.of_eq rfl rfl)
  · exact h

theorem ensureFrame (h : Calm F s) (ht : Idle t) (hs : s.ensureFrame t = .ok s') : Calm F s' := by
  unfold State.ensureFrame at hs
  split at hs
  · exact Except.ok.inj hs ▸ h
  · split at hs
    · cases hs
    · obtain rfl := Except.ok.inj hs
      refine (h.of_quiet ((((Quiet.refl s).settleHeld _).unpoisonNoted ..).touch ..) ?_).put (ht.of_eq rfl rfl)
      simp

theorem activate (h : Calm F s) (ht : Idle t) (slot : Nat × Nat) : Calm F (s.activate t slot) := by
  unfold State.activate
  split
  · exact h
  · split
    · exact h.park ht ..
    · have hdrop := h.dropStale ht
      split
      · exact h.park ht ..
      next s0 hs0 =>
        have hload : Calm F s0 := hdrop.ensureFrame (hdrop.idle_getD ht t.id) hs0
        extract_lets s1 u
        have hs1 : Calm F s1 := hload.of_quiet ((Quiet.refl _).touch ..) (footing_touch ..)
        have hu : Idle u := hs1.idle_getD ht t.id
        clear_value u s1
        split
        · exact hs1.park hu ..
        · refine of_quiet (put hs1 ?_) (((Quiet.refl _).chargeSlot u).tally ..) ((footing_tally ..).trans (footing_chargeSlot ..))
          exact hu.of_eq rfl rfl

/-! The ends of waits, and messages (16 R357, R367). -/

theorem completeWait (h : Calm F s) (ht : Idle t) (regs : List (Nat × Word)) : Calm F (s.completeWait t regs) := by
  have hnoted (u : Thread) (l : List Nat) : (u.noted l).stores = u.stores := by
    unfold Thread.noted
    split <;> rfl
  have hwr : (regs.foldl (fun t x => t.wr x.1 x.2) t).stores = t.stores := foldl_keeps (fun _ _ => wr_stores ..) ..
  have hstores := (hnoted _ ([0, 6, 7] ++ regs.map (fun x => 16 + x.1))).trans (hwr.trans ht.stores)
  unfold State.completeWait State.endWaitMove
  dsimp only
  split <;> exact h.put ⟨watchesNothing_of_none rfl, hstores⟩

theorem deliver (h : Calm F s) (ht : Idle t) (m : Msg) : Calm F (s.deliver t m) := by
  unfold State.deliver
  dsimp only
  split
  · refine h.completeWait ?_ _
    exact ht.of_eq rfl rfl
  · exact h.put (ht.of_eq rfl rfl)

theorem offerKill (h : Calm F s) (m : KillMsg) : Calm F (s.offerKill m).1 := by
  unfold State.offerKill
  split
  · exact h
  next t hnamed =>
    have ht : Idle t := by
      unfold State.named at hnamed
      split at hnamed
      · cases hnamed
      next hi =>
        have hidle := h.idle_of_find hi
        split at hnamed
        · split at hnamed
          · exact Option.some.inj hnamed ▸ hidle
          · cases hnamed
        · exact Option.some.inj hnamed ▸ hidle
    split
    · exact h.deliver ht _
    · exact h

theorem killCompletes (h : Calm F s) (i : Option Tid) : Calm F (s.killCompletes i) := by
  unfold State.killCompletes
  split
  · exact h
  next t hi =>
    obtain ⟨j, -, hj⟩ := Option.bind_eq_some_iff.1 hi
    have ht := h.idle_of_find hj
    split
    · unfold State.endWaitMove
      dsimp only
      split <;> exact h.put (ht.of_eq (wr_cond ..) (wr_stores ..))
    · exact h

theorem killWaiting (h : Calm F s) (i : Option Tid) : Calm F (s.killWaiting i) := by
  unfold State.killWaiting
  split
  · exact h
  next t hi =>
    obtain ⟨j, -, hj⟩ := Option.bind_eq_some_iff.1 hi
    split
    · exact h.put ((h.idle_of_find hj).of_eq rfl rfl)
    · exact h

/-! The end of a thread (02 R35, 16 R359). -/

theorem devDo {o : DevOp} (h : Calm F s) (e : s.devDo o = .ok s') : Calm F s' :=
  h.of_quiet ((Quiet.refl s).devDo e) (footing_devDo e)

theorem clearPool (h : Calm F s) (die : Nat) (p : Option (Nat × Nat × Nat)) : Calm F (s.clearPool die p) := by
  unfold State.clearPool
  split
  · exact h
  · split
    next hdo => exact h.devDo hdo
    next => exact h

theorem storeStatus (h : Calm F s) (die home addr idx status : Nat) : Calm F (s.storeStatus die home addr idx status) := by
  unfold State.storeStatus
  split
  · exact h
  · split
    next hdo => exact (h.devDo hdo).checkWatches
    next => exact h.of_same rfl rfl rfl

theorem lqdAdd (h : Calm F s) (q : QueueEnt) (off n : Nat) (d : Int) : Calm F (s.lqdAdd q off n d) := by
  unfold State.lqdAdd
  split
  next hdo => exact (h.devDo hdo).checkWatches
  next => exact h

theorem launchThreadDone (h : Calm F s) (l : Option (Nat × Nat)) : Calm F (s.launchThreadDone l) := by
  unfold State.launchThreadDone
  split
  · exact h
  · refine foldl (fun s l hs => ?_) _ (h.of_same rfl rfl rfl)
    split
    · extract_lets s1 s2
      have h1 : Calm F s1 := hs.of_same rfl rfl rfl
      exact (h1.storeStatus ..).lqdAdd ..
    · exact hs

theorem dropReservations (h : Calm F s) (i : Tid) : Calm F (s.dropReservations i) :=
  h.of_same rfl rfl (footing_mapCores (f := fun c => { c with taskRes := c.taskRes.leave i s.tick }) (fun _ => rfl) rfl rfl)

theorem makeDone (h : Calm F s) (ht : Idle t) : Calm F (s.makeDone t) := by
  unfold State.makeDone
  extract_lets s0 u die
  have h0 : Calm F s0 := h.drainAll ht
  have hu : Idle u := ht.emptied
  have h1 : Calm F (s0.releaseSlot u).1 := h0.releaseSlot u
  have ht1 : Idle (s0.releaseSlot u).2 := releaseSlot_idle hu
  generalize s0.releaseSlot u = p at h1 ht1
  obtain ⟨s1, t1⟩ := p
  dsimp -zeta only at h1 ht1 ⊢
  extract_lets parted absent s2 s2' core gone s3 s3' s4 s5
  have hparted : Calm F parted := h1.put ht1
  have habsent : Calm F absent := hparted.of_same rfl rfl rfl
  have h2 : Calm F s2 := by
    unfold s2
    split
    · exact habsent
    · split
      next hload =>
        have hloaded := hparted.ensureFrame ht1 hload
        split
        · exact hloaded.of_quiet ((Quiet.refl _).writeBack ..) (footing_writeBack ..)
        · exact hloaded
      next => exact habsent
  have h3 : Calm F s3 := (h2.unstep t.id).of_same rfl rfl (footing_setCore rfl)
  have h3' : Calm F s3' := h3.of_quiet ((Quiet.refl _).logLast _) (footing_logLast ..)
  have h4 : Calm F s4 := h3'.of_quiet ((Quiet.refl _).charge ..) (footing_charge ..)
  have h5 : Calm F s5 := ⟨fun u hu => h4.idle u (List.mem_filter.1 hu).1, h4.early, h4.holds⟩
  have horphaned : Calm F (((s5.clearPool die t.pool).dropReservations t.id).orphanCmds t.id) :=
    ((h5.clearPool ..).dropReservations t.id).of_same rfl rfl rfl
  exact (horphaned.launchThreadDone _).checkWatches

theorem killNow (h : Calm F s) (ht : Idle t) (issuer : Option Tid) : Calm F (s.killNow t issuer) := by
  unfold State.killNow
  extract_lets g1 s1
  have hbreak : Calm F (s.gangBreakReq t) := h.of_same rfl rfl (footing_gangBreakReq ..)
  have hdrop : Calm F ((s.gangBreakReq t).dropRecords t.id) := hbreak.of_same rfl rfl rfl
  have h1 : Calm F s1 := hdrop.makeDone (ht.of_eq rfl rfl)
  clear_value s1
  split
  · dsimp only
    split
    · exact (h1.offerKill _).killCompletes _
    · exact (h1.offerKill _).of_same rfl rfl rfl
  · exact h1.killCompletes _

/-- A thread at its boundary (18 R411). -/
theorem boundary (h : Calm F s) (i : Tid) (word : Nat) : Calm F (s.boundary i word) := by
  unfold State.boundary
  split
  · exact h
  next t hi =>
    have ht := h.idle_of_find hi
    split
    · exact h
    · split
      · split
        · exact (h.unstep i).put (ht.of_eq rfl rfl)
        · exact h
      · split
        · exact (h.killWaiting _).killNow ht _
        · split
          next r l _ =>
            obtain ⟨hleft, hidle⟩ := h.vacate (t := { t with asyncs := l }) (ht.of_eq rfl rfl)
            exact hleft.parked hidle _ _ _ rfl rfl
          next =>
            split
            · exact h.park ht ..
            · exact h

theorem raiseAsync (h : Calm F s) (i : Tid) (c : Cause) (k : AccKind) (detail : Nat) (a : Word) :
    Calm F (s.raiseAsync i c k detail a) := by
  unfold State.raiseAsync
  split
  · exact h
  next t hi =>
    have hput {l : List Rec} : Calm F (s.put { t with asyncs := l }) := h.put ((h.idle_of_find hi).of_eq rfl rfl)
    dsimp only
    split
    · exact hput
    · exact hput.boundary ..

end Calm
end Sys2Proof.Proofs

/-! PROOF. Gangs are saved, come back and break (08 R190, R191, R478; 09 R214), and with them the life of units and gangs is settled. -/
namespace Sys2Proof.Proofs
open Sys2Proof.Machine Sys2Proof.Laws

/-! The units of a gang (08 R185, R188). -/

/-- One change made of the unit of every core of a list changes a unit as often as its core is listed. -/
theorem unit_foldl_modUnit (f : MatUnit → MatUnit) (l : List Nat) (s : State) (c : Nat) :
    ((l.foldl (fun s c => s.modUnit c f) s).core c).unit = f^[l.count c] (s.core c).unit := by
  induction l generalizing s with
  | nil => rfl
  | cons a l ih =>
    rw [List.foldl_cons, ih, unit_modUnit, List.count_cons]
    by_cases hac : c = a
    · rw [if_pos hac, if_pos (beq_iff_eq.2 hac.symm), Function.iterate_succ_apply, hac]
    · rw [if_neg hac, if_neg (by simpa using Ne.symm hac), Nat.add_zero]

/-- A unit that a gang has freed. -/
def freed (u : MatUnit) : MatUnit := { u with gang := none, burst := 0, tiles := [], lock := 0, run := none, steps := 0, latch := [] }

/-- What a gang that frees its units makes of a unit. -/
def freedFrom (i : GangId) (u : MatUnit) : MatUnit := if u.gang = some i then freed u else u

theorem freedFrom_freed (i : GangId) (u : MatUnit) : freedFrom i (freed u) = freed u := if_neg nofun

/-- The units that a gang holds are free once it has freed them. -/
theorem unit_freeUnits {s : State} {g : Gang} {c : Nat} (hc : c ∈ g.cores) (h : (s.core c).unit.gang = some g.id) :
    ((s.freeUnits g).core c).unit = freed (s.core c).unit := by
  obtain ⟨n, hn⟩ := Nat.exists_eq_succ_of_ne_zero (List.count_pos_iff.2 hc).ne'
  calc ((s.freeUnits g).core c).unit = (freedFrom g.id)^[g.cores.count c] (s.core c).unit := unit_foldl_modUnit (freedFrom g.id) ..
    _ = (freedFrom g.id)^[n] (freed (s.core c).unit) := by rw [hn, Function.iterate_succ_apply, freedFrom, if_pos h]
    _ = freed (s.core c).unit := Function.iterate_fixed (freedFrom_freed ..) n

theorem gang_takeUnits (s : State) {g : Gang} {c : Nat} (hc : c ∈ g.cores) : ((s.takeUnits g).core c).unit.gang = some g.id := by
  obtain ⟨n, hn⟩ := Nat.exists_eq_succ_of_ne_zero (List.count_pos_iff.2 hc).ne'
  rw [State.takeUnits, unit_foldl_modUnit, hn, Function.iterate_succ_apply']

/-- A gang that loads its units holds them. -/
theorem gang_loadUnits (s : State) {g : Gang} {c : Nat} (tiles : List (List (Nat × Nat))) (hc : c ∈ g.cores) :
    ((s.loadUnits g tiles).core c).unit.gang = some g.id := by
  refine (foldl_keeps (p := fun s : State => (s.core c).unit.gang) (fun s q => ?_) ..).trans (gang_takeUnits s hc)
  rw [unit_modUnit]
  split
  next hq => rw [hq]
  next => rfl

/-- From s to s' no thread, no store before its global point and no gang has changed. -/
structure UnitsOnly (s s' : State) : Prop where
  threads : s'.threads = s.threads
  early : s'.early = s.early
  gangs : s'.gangs = s.gangs

namespace UnitsOnly
variable {s s' s'' : State}

theorem trans (h : UnitsOnly s s') (h' : UnitsOnly s' s'') : UnitsOnly s s'' :=
  ⟨h'.threads.trans h.threads, h'.early.trans h.early, h'.gangs.trans h.gangs⟩

theorem gang (h : UnitsOnly s s') (i : GangId) : s'.gang i = s.gang i := by
  rw [State.gang, h.gangs, State.gang]

theorem foldl_modUnit {α : Type} (core : α → Nat) (f : α → MatUnit → MatUnit) (l : List α) (s : State) :
    UnitsOnly s (l.foldl (fun s a => s.modUnit (core a) (f a)) s) :=
  List.foldlRecOn (motive := UnitsOnly s) l _ ⟨rfl, rfl, rfl⟩ fun _ hs _ _ => hs.trans ⟨rfl, rfl, rfl⟩

theorem freeUnits (s : State) (g : Gang) : UnitsOnly s (s.freeUnits g) := foldl_modUnit id _ g.cores s

theorem loadUnits (s : State) (g : Gang) (tiles : List (List (Nat × Nat))) : UnitsOnly s (s.loadUnits g tiles) :=
  (foldl_modUnit id (fun _ _ => _) g.cores s).trans (foldl_modUnit (fun q => g.cores.getD q 0) _ (upto 0 g.cores.length) (s.takeUnits g))

end UnitsOnly

/-- A gang as its reactivation makes it (08 R191). -/
def returned (s : State) (g : Gang) : Gang :=
  { g with resident := true, first := false, shadow := s.gangShadow g, places := s.gangPlaces g, pad := none }

theorem reactivate_of_found {s : State} {g : Gang} {tiles : List (List (Nat × Nat))} (h : s.gangFinding g = .ok tiles)
    (seats : List (Tid × (Nat × Nat) × Option Tid)) :
    s.reactivate g seats = (seats.foldl State.seatMember
      ((((s.loadUnits (returned s g) tiles).setGang (returned s g)).touchPieces (returned s g)).recPut (returned s g) [4])).checkWatches := by
  simp only [State.reactivate, h, returned]

namespace Calm
variable {F : List Gang × (Nat → MatUnit)} {s : State} {g : Gang}

/-! GANG_SAVE (08 R190). -/

theorem gangWrites (h : Calm F s) (g : Gang) (k : Nat) (l : List (Nat × List Byte)) : Calm F (s.gangWrites g k l).1 :=
  h.of_quiet ((Quiet.refl s).gangWrites ..) (footing_gangWrites ..)

theorem gangDropped (h : Calm F s) (g : Gang) (k : Nat) (b : Bool) : Calm F (s.gangDropped g k b) :=
  h.of_quiet ((Quiet.refl s).gangDropped ..) (footing_gangDropped ..)

theorem saveState (h : Calm F s) (g : Gang) : Calm F (s.saveState g).1 := by
  unfold State.saveState
  extract_lets frames r
  have hframes : Calm F r.1 := by
    refine List.foldlRecOn (motive := fun x : State × Bool => Calm F x.1) frames _ h fun x hx qp _ => ?_
    dsimp only
    exact (hx.gangWrites ..).gangDropped ..
  exact (hframes.gangWrites ..).gangDropped ..

theorem evictMember (h : Calm F s) (i : Tid) : Calm F (s.evictMember i) := by
  unfold State.evictMember
  split
  · exact h
  next t hi =>
    have ht := h.idle_of_find hi
    split
    · exact h
    · split
      · exact h.put (ht.of_eq rfl rfl)
      · exact h.evict ht

/-- A gang that is saved leaves its slots and its units. -/
theorem saveGang (h : Calm F s) (hg : s.gang g.id = some g) :
    ∃ g', (s.saveGang g).gang g.id = some g' ∧ g'.resident = false ∧ g'.saving = false ∧ g'.members = g.members ∧ g'.shadow = g.shadow ∧
      ∀ c, c ∈ g.cores → (s.core c).unit.gang = some g.id → ((s.saveGang g).core c).unit.gang = none := by
  unfold State.saveGang
  have hsaved := h.saveState g
  generalize s.saveState g = r at hsaved
  obtain ⟨s1, b⟩ := r
  dsimp -zeta only at hsaved ⊢
  extract_lets s2 s3
  have h2 : Calm F s2 := hsaved.foldl (fun _ i hs => hs.evictMember i) _
  have h3 : UnitsOnly s2 s3 := .freeUnits s2 g
  have hfooting : footing s2 = footing s := h2.holds.trans h.holds.symm
  obtain ⟨g1, hg1, hsame⟩ := exists_gang_of_footing hfooting hg
  have hg3 : s3.gang g.id = some g1 := (h3.gang _).trans hg1
  have hid : g1.id = g.id := gang_id hg1
  simp only [hg3]
  rw [checkWatches_of_unwatched (s := s3.setGang _) (unwatched_of_threads h2.unwatched h3.threads)]
  rw [← hid] at hg3 ⊢
  refine ⟨_, gang_setGang (Option.isSome_of_eq_some hg3), rfl, rfl, (congrArg Gang.members hsame :), (congrArg Gang.shadow hsame :),
    fun c hc hunit => ?_⟩
  rw [hid, ← unit_of_footing hfooting] at hunit
  exact (congrArg MatUnit.gang (unit_freeUnits hc hunit) :)

/-! GANG_REACTIVATION (08 R191). -/

theorem seatMember (h : Calm F s) (x : Tid × (Nat × Nat) × Option Tid) : Calm F (s.seatMember x) := by
  unfold State.seatMember
  extract_lets s1
  have h1 : Calm F s1 := by
    unfold s1
    split
    next v hv =>
      obtain ⟨i, -, hi⟩ := Option.bind_eq_some_iff.1 hv
      exact h.evict (h.idle_of_find hi)
    next => exact h
  clear_value s1
  split
  · exact h1
  next t ht =>
    have h2 := h1.activate (h1.idle_of_find ht) x.2.1
    dsimp only
    split
    next u _ hu =>
      split
      · exact h2.put ((h2.idle_of_find hu).of_eq rfl rfl)
      · exact h2
    next => exact h2

theorem touchPieces (h : Calm F s) (g : Gang) : Calm F (s.touchPieces g) :=
  h.foldl (fun _ _ hs => hs.of_quiet ((Quiet.refl _).touch ..) (footing_touch ..)) _

theorem recPut (h : Calm F s) (g : Gang) (ks : List Nat) : Calm F (s.recPut g ks) := h.gangWrites ..

/-- A gang that finds its record and tiles is resident at its seats, and holds its units. -/
theorem reactivate (h : Calm F s) (hg : s.gang g.id = some g) {tiles : List (List (Nat × Nat))} (hfound : s.gangFinding g = .ok tiles)
    (seats : List (Tid × (Nat × Nat) × Option Tid)) :
    ∃ g', (s.reactivate g seats).gang g.id = some g' ∧ g'.resident = true ∧ g'.first = false ∧
      ∀ c, c ∈ g.cores → ((s.reactivate g seats).core c).unit.gang = some g.id := by
  rw [reactivate_of_found hfound]
  have hload : UnitsOnly s (s.loadUnits (returned s g) tiles) := .loadUnits ..
  have hgang : ((s.loadUnits (returned s g) tiles).setGang (returned s g)).gang g.id = some (returned s g) :=
    gang_setGang (g := returned s g) (Option.isSome_of_eq_some ((hload.gang _).trans hg))
  have hloaded : Calm _ ((s.loadUnits (returned s g) tiles).setGang (returned s g)) := h.refooted hload.threads hload.early
  have hseated := (((hloaded.touchPieces (returned s g)).recPut (returned s g) [4]).foldl (fun _ x hs => hs.seatMember x) seats).checkWatches
  obtain ⟨g', hg', hsame⟩ := exists_gang_of_footing hseated.holds hgang
  refine ⟨g', hg', (congrArg Gang.resident hsame :), (congrArg Gang.first hsame :), fun c hc => ?_⟩
  exact (congrArg MatUnit.gang (unit_of_footing hseated.holds c)).trans (gang_loadUnits s (g := returned s g) tiles hc)

/-- A thread that is parked is FAULTED with the fault's code (18 R402). -/
theorem find_park (h : Calm F s) {t : Thread} (ht : s.find t.id = some t) (f : Flt) (async ctx : Bool) (word : Nat) (own : Bool) :
    ∃ v, (s.park t f async ctx word own).find t.id = some v ∧ v.st = .faulted ∧ v.fcause = f.cause.code := by
  have hvacate := vacate_of_drained ht (h.drained (h.idle_of_find ht))
  have hlive : ((s.vacate t).1.unstep t.id).find t.id = some t := by
    rw [hvacate]
    refine (find_of_threads ((Left.unstep_threads ..).trans ((Quiet.refl _).releaseSlot t).threads) _).trans ?_
    exact (find_put_self ht _).trans ht
  have hid : (s.vacate t).2.id = t.id := Left.vacate_id
  unfold State.park
  dsimp only
  generalize (s.vacate t).2 = t1 at hid
  refine ⟨{ t1 with st := .faulted, fcause := f.cause.code, walk := none, pend := none, req := none, stepped := false, cond := none
                    waitarg := 0, deadline := w64 (2 ^ 64 - 1) }, ?_, rfl, rfl⟩
  refine (find_of_threads ((Left.gangParked_threads ..).trans ((Quiet.refl _).pushRec ..).threads) _).trans ?_
  exact find_put_of_find rfl hlive hid

/-- A gang whose record or frames are not as they should be has its leader parked. -/
theorem reactivate_parks (h : Calm F s) {f : Flt} {t : Thread} (hfound : s.gangFinding g = .error f) (hleader : g.leader = some t.id)
    (ht : s.find t.id = some t) (seats : List (Tid × (Nat × Nat) × Option Tid)) :
    ∃ v, (s.reactivate g seats).find t.id = some v ∧ v.st = .faulted ∧ v.fcause = f.cause.code := by
  simp only [State.reactivate, hfound, hleader, Option.bind_some, ht]
  exact h.find_park ht ..

/-! GANG_BREAK (09 R214). -/

theorem drainMembers (h : Calm F s) (g : Gang) : Calm F (s.drainMembers g) := by
  refine h.foldl (fun s x hs => ?_) _
  split
  next hi => exact hs.drainAll (hs.idle_of_find hi)
  next => exact hs

theorem membersDrain (h : Calm F s) (g : Gang) : s.membersDrain g = true := by
  have hnone : (s.gangThreads g).any s.stuck = false := List.any_eq_false.2 fun t ht => by
    obtain ⟨x, -, hx⟩ := List.mem_filterMap.1 ht
    rw [h.not_stuck (h.idle_of_find hx)]
    exact Bool.false_ne_true
  rw [State.membersDrain, hnone]
  rfl

/-- A gang that has dissolved is no more, and its units are free. -/
theorem dissolve (h : Calm F s) (g : Gang) :
    Calm (footing (s.dissolve g)) (s.dissolve g) ∧ (s.dissolve g).gang g.id = none ∧
      ∀ c, c ∈ g.cores → (s.core c).unit.gang = some g.id → ((s.dissolve g).core c).unit = freed (s.core c).unit := by
  have hfree : UnitsOnly s (s.freeUnits g) := .freeUnits s g
  have hzeroed := ((h.refooted hfree.threads hfree.early).gangWrites g 0 (g.recLines true)).gangDropped g 0
    ((s.freeUnits g).gangWrites g 0 (g.recLines true)).2
  refine ⟨⟨fun u hu => ?_, hzeroed.early, rfl⟩, ?_, fun c hc hunit => ?_⟩
  · obtain ⟨v, hv, rfl⟩ := List.mem_map.1 hu
    refine (hzeroed.idle v hv).of_eq ?_ ?_ <;> split <;> rfl
  · refine List.find?_eq_none.2 fun x hx => ?_
    simpa using (List.mem_filter.1 hx).2
  · exact (unit_of_footing hzeroed.holds c).trans (unit_freeUnits hc hunit)

theorem breakGang (h : Calm F s) (g : Gang) :
    (s.breakGang g).checkWatches.gang g.id = none ∧
      ∀ c, c ∈ g.cores → (s.core c).unit.gang = some g.id → ((s.breakGang g).checkWatches.core c).unit = freed (s.core c).unit := by
  obtain ⟨hcalm, hgone, hfreed⟩ := h.dissolve g
  have hbroken := (hcalm.foldl (fun _ t hs => hs.raiseAsync t.id .gangDissolved .none 0 (w64 g.id.record))
    ((s.gangThreads g).filter (fun t => t.st == .waiting .gang))).checkWatches
  exact ⟨gang_eq_none_of_footing hbroken.holds hgone, fun c hc hunit => (unit_of_footing hbroken.holds c).trans (hfreed c hc hunit)⟩

end Calm

/-! The steps. -/

section
variable {s : State} {g : Gang} (hg : s.gang g.id = some g)
include hg

theorem exec_gangSave : exec (.gangSave g.id) s = .next (if s.canSave g && !g.breaking then s.saveGang g else s) := by
  show execGangSave g.id s = _
  simp only [execGangSave, event, hg]

theorem exec_gangReactivation {l : List (Tid × (Nat × Nat) × Option Tid)} (hmay : s.gangMayReturn g = true)
    (hwaits : s.gangReadWaits g = false) (hroom : s.gangRoom g = .seats l) :
    exec (.gangReactivation g.id) s = .next (s.reactivate g l) := by
  show execGangReactivation g.id s = _
  simp only [execGangReactivation, event, hg, hmay, hwaits, hroom, Bool.not_false, Bool.and_self, if_true]

theorem exec_gangBreak {h : Gang} (hbreaking : g.breaking = true) (hop : g.op = none) (hdrain : s.membersDrain g = true)
    (hwaits : s.gangWaits g 1 = false) (hlive : (s.drainMembers g).gang g.id = some h) :
    exec (.gangBreak g.id) s = .next ((s.drainMembers g).breakGang h).checkWatches := by
  show execGangBreak g.id s = _
  simp only [execGangBreak, event, hg, hbreaking, hop, hdrain, hwaits, hlive, Option.isNone_none, Bool.not_false, Bool.and_self, if_true]

/-- A gang that breaks, with no operation in flight, is no more, and its units are free. -/
theorem gangBreak_dissolves {F : List Gang × (Nat → MatUnit)} (hcalm : Calm F s) (hbreaking : g.breaking = true) (hop : g.op = none)
    (hwaits : s.gangWaits g 1 = false) :
    ∃ s', exec (.gangBreak g.id) s = .next s' ∧ s'.gang g.id = none ∧
      ∀ c, c ∈ g.cores → (s.core c).unit.gang = some g.id → (s'.core c).unit = freed (s.core c).unit := by
  have hdrained := hcalm.drainMembers g
  have hfooting : footing (s.drainMembers g) = footing s := hdrained.holds.trans hcalm.holds.symm
  obtain ⟨h, hlive, hsame⟩ := exists_gang_of_footing hfooting hg
  have hid : h.id = g.id := gang_id hlive
  have hcores : h.cores = g.cores := (congrArg Gang.cores hsame :)
  obtain ⟨hgone, hfreed⟩ := hdrained.breakGang h
  rw [hid] at hgone
  rw [hid, hcores] at hfreed
  refine ⟨_, exec_gangBreak hg hbreaking hop (hcalm.membersDrain g) hwaits hlive, hgone, fun c hc hunit => ?_⟩
  rw [← unit_of_footing hfooting] at hunit ⊢
  exact hfreed c hc hunit

end

/-- Settles O41: the ends of ramps change their unit alone, and where no thread waits for a word and no store is buffered a gang is saved,
comes back or finds its record amiss, and breaks, with its units freed or taken. -/
theorem unitAndGangLifecycle : Obligations.UnitAndGangLifecycle := by
  unfold Obligations.UnitAndGangLifecycle
  refine ⟨fun s c => ⟨rampUpEnd_rises, rampUpEnd_of_not_due, rampDownStart_of_due, rampDownStart_of_not_due, rampDownEnd_of_due,
    rampDownEnd_of_not_due⟩, fun s g c l tiles f t hg => ⟨fun hno => ?_, fun hquiet hstores hearly => ?_⟩⟩
  · have hcond : (s.canSave g && !g.breaking) = false := by
      obtain hno | hno := hno <;> simp [hno]
    rw [exec_gangSave hg, hcond, if_neg Bool.false_ne_true]
  · have hcalm : Calm (footing s) s := ⟨fun u hu => ⟨unwatched_iff.1 hquiet u hu, hstores u hu⟩, hearly, rfl⟩
    refine ⟨fun hsave hbreaking => ?_, fun hmay hwaits hroom => ⟨fun hfound => ?_, fun hfound hleader ht => ?_⟩,
      fun hbreaking hop hwaits => ?_⟩
    · obtain ⟨g', hg', hresident, hsaving, hmembers, hshadow, hfree⟩ := hcalm.saveGang hg
      refine ⟨_, g', (exec_gangSave hg).trans ?_, hg', hresident, hsaving, hmembers, hshadow, hfree c⟩
      simp only [hsave, hbreaking, Bool.not_false, Bool.and_self, if_true]
    · obtain ⟨g', hg', hresident, hfirst, htake⟩ := hcalm.reactivate hg hfound l
      exact ⟨_, g', exec_gangReactivation hg hmay hwaits hroom, hg', hresident, hfirst, htake c⟩
    · obtain ⟨v, hv, hfaulted, hcause⟩ := hcalm.reactivate_parks hfound hleader ht l
      exact ⟨_, v, exec_gangReactivation hg hmay hwaits hroom, hv, hfaulted, hcause⟩
    · obtain ⟨s', hexec, hgone, hfree⟩ := gangBreak_dissolves hg hcalm hbreaking hop hwaits
      exact ⟨s', hexec, hgone, fun hc hunit => by rw [hfree c hc hunit]; exact ⟨rfl, rfl⟩⟩

end Sys2Proof.Proofs

/-! PROOF. The completion of a matrix operation on a unit, and what its elements become (04 R103 to R107; 08 R185, R186; 09 R202). -/
namespace Sys2Proof.Proofs
open Sys2Proof.Machine Sys2Proof.Laws

/-! Tables of elements: a list of changes, each of one key, in place. -/

section
variable {ι : Type} {key val : ι → Nat}

/-- A table once every key of a list has been set to its value. -/
def updated (key val : ι → Nat) (l : List ι) (ts : List (Nat × Nat)) : List (Nat × Nat) :=
  l.foldl (fun ts x => Sparse.set 0 ts (key x) (val x)) ts

theorem get_updated_of_not_mem {l : List ι} {k : Nat} (hk : ∀ x ∈ l, k ≠ key x) (ts : List (Nat × Nat)) :
    Sparse.get 0 (updated key val l ts) k = Sparse.get 0 ts k := by
  induction l generalizing ts with
  | nil => rfl
  | cons a l ih =>
    refine (ih (fun x hx => hk x (List.mem_cons_of_mem a hx)) _).trans ?_
    rw [get_set, if_neg (hk a List.mem_cons_self)]

/-- A key of the list, where no two share a key, has its value. -/
theorem get_updated_of_mem {l : List ι} (hl : (l.map key).Nodup) {x : ι} (hx : x ∈ l) (ts : List (Nat × Nat)) :
    Sparse.get 0 (updated key val l ts) (key x) = val x := by
  induction l generalizing ts with
  | nil => cases hx
  | cons a l ih =>
    obtain ⟨ha, hl⟩ := List.nodup_cons.1 hl
    obtain rfl | hx := List.mem_cons.1 hx
    · refine (get_updated_of_not_mem (l := l) (fun y hy h => ha (List.mem_map.2 ⟨y, hy, h.symm⟩)) _).trans ?_
      rw [get_set, if_pos rfl]
    · exact ih hl hx _

end

/-! Operands where no word is poisoned (18 R418). -/

section
variable {s : State} (h : s.poison = [])
include h

theorem padPoison_of_no_poison (core off n : Nat) : s.padPoison core off n = none := by
  unfold State.padPoison
  split
  · rfl
  · simp [State.poisonedIn, h]

theorem rowPoison_of_no_poison (q : Quadrant) (i : Nat) : s.rowPoison q i = [] := by
  simp [State.rowPoison, padPoison_of_no_poison h]

theorem colPoison_of_no_poison (q : Quadrant) (j : Nat) : s.colPoison q j = [] := by
  simp [State.colPoison, padPoison_of_no_poison h]

theorem quadrantPoison_of_no_poison (g : Gang) (q : Quadrant) : s.quadrantPoison g q = none := by
  simp only [State.quadrantPoison, rowPoison_of_no_poison h, colPoison_of_no_poison h, List.map_nil, List.flatMap_eq_nil_iff.2,
    implies_true, List.append_nil]
  rfl

end

/-! The elements of a quadrant (08 R180, R185). -/

/-- The places of the elements of a quadrant, row by row. -/
def quadrantElems (q : Quadrant) : List (Nat × Nat) := List.range (q.eng.rows q.h) ×ˢ List.range (q.eng.cols q.c)

/-- The key of an element in the tile that a quadrant writes. -/
def elemKey (q : Quadrant) (x : Nat × Nat) : Nat := tileKey q.eng.tile x.1 x.2

theorem mem_elems {q : Quadrant} {x : Nat × Nat} : x ∈ quadrantElems q ↔ x.1 < q.eng.rows q.h ∧ x.2 < q.eng.cols q.c := by
  rw [← List.mem_range, ← List.mem_range]
  exact List.mem_product

theorem rows_le (e : Eng) (h : Nat) : e.rows h ≤ 32 := Nat.min_le_left ..
theorem cols_le (e : Eng) (c : Nat) : e.cols c ≤ 32 := Nat.min_le_left ..

/-- No two elements of a quadrant share a key: a half has no more than 32 rows and columns. -/
theorem nodup_elemKeys (q : Quadrant) : ((quadrantElems q).map (elemKey q)).Nodup := by
  refine List.Nodup.map_on (fun x hx y hy hkey => ?_) (List.nodup_range.product List.nodup_range)
  have hx := mem_elems.1 hx
  have hy := mem_elems.1 hy
  have hrows := rows_le q.eng q.h
  have hcols := cols_le q.eng q.c
  simp only [elemKey, tileKey] at hkey
  exact Prod.ext (by omega) (by omega)

/-- Where no operand is poisoned every element of the quadrant is made anew from its value, in place. -/
theorem quadrantResult_of_no_poison {s : State} (h : s.poison = []) (q : Quadrant) (ts : List (Nat × Nat)) :
    s.quadrantResult q ts = updated (elemKey q) (fun x => s.matElem q x.1 x.2 (Sparse.get 0 ts (elemKey q x))) (quadrantElems q) ts := by
  simp only [State.quadrantResult, rowPoison_of_no_poison h, colPoison_of_no_poison h, List.isEmpty_nil, Bool.not_true, Bool.or_self,
    Bool.false_eq_true, if_false, upto_zero_eq_range, updated, quadrantElems, List.product, SProd.sprod, List.foldl_flatMap,
    List.foldl_map]
  rfl

/-! The step. -/

/-- A unit whose part of an operation is over, with the tiles that it leaves. -/
def rested (tiles : List (Nat × Nat)) (u : MatUnit) : MatUnit := { u with tiles := tiles, lock := 0, run := none, idle := 0 }

/-- The threads that the end of a unit's part releases change, and no core. -/
theorem core_releaseLocks (s : State) (g : Gang) (c : Nat) : (s.releaseLocks g).core c = s.core c := by
  refine foldl_keeps (p := fun s : State => s.core c) (fun s t => ?_) ..
  unfold State.relock
  split
  · split <;> rfl
  · rfl

theorem unit_completeUnit {s : State} (h : s.poison = []) (c : Nat) (g : Gang) (op : MatOp) (j : Nat) :
    ((s.completeUnit c g op).core j).unit =
      if j = c then rested (s.quadrantResult (s.quadrantOf g op c) (s.core c).unit.tiles) (s.core c).unit else (s.core j).unit := by
  unfold State.completeUnit
  simp only [quadrantPoison_of_no_poison h]
  refine (congrArg Core.unit (core_releaseLocks ..)).trans (Eq.trans ?_ (unit_modUnit s c j _))
  split <;> rfl

theorem exec_matrixOperationCompletion {s : State} {c : Nat} {g : Gang} {op : MatOp} (hunit : (s.core c).unit.gang = some g.id)
    (hg : s.gang g.id = some g) (hop : g.op = some op) (hrun : (s.core c).unit.run = some 0) :
    exec (.matrixOperationCompletion c) s = .next (s.completeUnit c g op) := by
  show execMatrixOperationCompletion c s = _
  simp only [execMatrixOperationCompletion, event, hunit, Option.bind_some, hg, hop, MatUnit.opDue, hrun, beq_self_eq_true, if_true]

/-! What one element becomes (04 R103 to R107). -/

theorem matElem_of_integer {s : State} {q : Quadrant} (h : 12 ≤ q.eng.ta) (i j old : Nat) :
    (s.matElem q i j old : Int) =
      (((if q.eng.zero then 0 else old : Nat) : Int) + ((List.range q.eng.k).map (s.intProduct q i j)).sum) % 2 ^ 32 := by
  unfold State.matElem
  dsimp only
  rw [if_pos h, upto_zero_eq_range, Int.toNat_of_nonneg (Int.emod_nonneg _ (by decide))]

/-- The products of a group, in their order. -/
theorem map_upto {α : Type} (f : Nat → α) (a n : Nat) : (upto a n).map f = (List.range n).map fun k => f (a + k) := by
  rw [upto_eq_range', List.range'_eq_map_range, List.map_map]
  rfl

theorem matElem_of_float {s : State} {q : Quadrant} (h : ¬ 12 ≤ q.eng.ta) (i j old : Nat) {size : Nat}
    (hsize : (if matWidth q.eng.ta = 16 then 8 else 32) = size) :
    s.matElem q i j old = (List.range ((q.eng.k + size - 1) / size)).foldl (s.addGroup q i j size) (if q.eng.zero then 0 else old) := by
  unfold State.matElem
  dsimp only
  rw [if_neg h, hsize, upto_zero_eq_range, ceilDiv]

/-- Settles O43: without poison the unit's part rewrites the elements of its quadrant, each under its own key, and clears the lock; one
element is the model's sum, its group read as the statement reads it. -/
theorem matrixOperation : Obligations.MatrixOperation := by
  unfold Obligations.MatrixOperation
  refine ⟨fun s c g op => ?_, fun s q i j old => ?_⟩
  · intro u q hunit hg hop hrun hpoison
    have hown : ((s.completeUnit c g op).core c).unit = rested (s.quadrantResult q u.tiles) u := by
      rw [unit_completeUnit hpoison, if_pos rfl]
    have htiles : ((s.completeUnit c g op).core c).unit.tiles = 
        updated (elemKey q) (fun x => s.matElem q x.1 x.2 (Sparse.get 0 u.tiles (elemKey q x))) (quadrantElems q) u.tiles :=
      (congrArg MatUnit.tiles hown).trans (quadrantResult_of_no_poison hpoison q u.tiles)
    refine ⟨_, exec_matrixOperationCompletion hunit hg hop hrun, congrArg MatUnit.lock hown, congrArg MatUnit.run hown,
      fun i j hi hj => ?_, fun k hk => ?_, fun c' hc' => ?_⟩
    · rw [htiles]
      exact get_updated_of_mem (nodup_elemKeys q) (x := (i, j)) (mem_elems.2 ⟨hi, hj⟩) u.tiles
    · rw [htiles]
      exact get_updated_of_not_mem (fun x hx => hk x.1 x.2 (mem_elems.1 hx).1 (mem_elems.1 hx).2) u.tiles
    · rw [unit_completeUnit hpoison, if_neg hc']
  · intro acc size scale sum add
    refine ⟨fun hint _ => ⟨_, matElem_of_integer hint i j old, rfl⟩, fun hfloat => ?_⟩
    have hgroup : s.addGroup q i j size = add := by
      funext a n
      simp only [State.addGroup, map_upto, add, sum, scale]
    rw [matElem_of_float (by omega) i j old rfl, ← hgroup]

end Sys2Proof.Proofs

/-! PROOF. The words that need a convened gang (09 R195): how they end, and what waits, sets a shadow register or lights a burst
(08 R187, R188; 09 R199, R204 to R206). -/
namespace Sys2Proof.Proofs
open Sys2Proof.Machine Sys2Proof.Laws

/-! What was walked for a word touches no matrix unit when it is used (13 R307). -/

theorem footing_tlbAdd (s : State) (core : Nat) (e : TlbEnt) : footing (s.tlbAdd core e) = footing s := footing_setCore rfl

theorem footing_useFresh (s : State) (core : Nat) (f : Fresh) : footing (s.useFresh core f) = footing s :=
  (footing_tlbAdd ..).trans ((footing_markLeaf ..).trans rfl)

theorem footing_commitFresh (s : State) (core : Nat) (i : Tid) (l : List Fresh) : footing (s.commitFresh core i l) = footing s := by
  unfold State.commitFresh
  split
  · rfl
  · refine (List.foldrRecOn (motive := fun s' => footing s' = footing (s.dropFresh core i)) l _ rfl fun s' hs f _ => ?_).trans
      (footing_dropFresh ..)
    exact (footing_useFresh ..).trans hs

/-- The gang with a shadow register set, but for its reserved bits (09 R204). -/
def configured (g : Gang) (sel : Nat) (v : Word) : Gang := { g with shadow := g.shadow.set sel (v &&& engMask sel) }

/-- The BURST of a unit is set, and it ramps up where that is not 0 (08 R188). -/
def State.light (n : Nat) (s : State) (c : Nat) : State :=
  let s' := s.modUnit c (fun u => { u with burst := n })
  if n = 0 then s' else s'.rampUp c

/-! What each word does with the gang of its thread. -/

theorem exec_gangLeave (s : State) : exec .gangLeave s =
    gangWord .gangLeave s (fun s t g => .ok (s.arrive t g (wordOf .gangLeave) 2)) := rfl
theorem exec_gangMma (q ga sp : Bool) (s : State) : exec (.gangMma q ga sp) s = gangWord (.gangMma q ga sp) s (fun s t c =>
    if q ≠ c.quad then failWith .gangShape (w64 c.id.record)
    else .ok (s.arrive t c (wordOf (.gangMma q ga sp)) (8 + b2n q * 4 + b2n ga * 2 + b2n sp))) := rfl
theorem exec_mxwait (s : State) : exec .mxwait s =
    gangWord .mxwait s (fun s t g => if g.op.isSome then .error .lock else .ok (s.retire t)) := rfl
theorem exec_mxcfg (a b : Reg) (s : State) : exec (.mxcfg a b) s = gangWord (.mxcfg a b) s (fun s t g =>
    if 0x0A < (t.rd a.toNat).toNat then failWith .engineSelector (t.rd a.toNat)
    else .ok ((s.setGang (configured g (t.rd a.toNat).toNat (t.rd b.toNat))).retire t)) := rfl
theorem exec_mxburst (a : Reg) (s : State) : exec (.mxburst a) s = gangWord (.mxburst a) s (fun s t g =>
    .ok ((g.cores.foldl (State.light (min (t.rd a.toNat).toNat 0xFFFFF)) s).retire t)) := rfl

/-- The words that need a gang run in the frame that looks for it (09 R195). -/
theorem exec_eq_gangWord {i : Instr} {q ga sp : Bool} {a b : Reg} {tile : Tile} (s : State)
    (hi : i ∈ [Instr.gangLeave, .gangMma q ga sp, .mxwait, .mxcfg a b, .mxburst a, .accLd a tile b, .accSt a tile b, .accZero tile,
      .accScale tile b, .accCvt a tile b]) : ∃ k, exec i s = gangWord i s k := by
  unfold exec
  simp only [List.mem_cons, List.not_mem_nil, or_false] at hi
  obtain rfl | rfl | rfl | rfl | rfl | rfl | rfl | rfl | rfl | rfl := hi <;> exact ⟨_, rfl⟩

/-! The frame of a word that needs a gang: its end is that of its own effect on its gang. -/

section
variable {s : State} {t : Thread} {i : Instr} {k : State → Thread → Gang → Except Stop State}

theorem parks_of_no_gang (hexec : exec i s = gangWord i s k) (hg : s.myGang t = none) : Parks s t i (.plain .gangAbsent 0) :=
  parks_of_fault hexec (by simp only [hg]; rfl)

variable {g : Gang} (hexec : exec i s = gangWord i s k) (hg : s.myGang t = some g)
include hexec hg

theorem yields_of_gangWord {s' : State} {u : Thread} (hk : k s t g = .ok s') (hfind : s.find t.id = some t → s'.find t.id = some u)
    (hsettled : u.settled = t.settled) : Yields s t i s' := fun h =>
  yields_of_ok hexec (by simp only [hg, hk]) (hfind (issues_find h)) hsettled h

theorem completes_of_gangWord {u : Thread} (hk : k s t g = .ok (s.retire u)) (hid : u.id = t.id) (hpc : u.pc = t.pc)
    (hsettled : u.settled = t.settled) : Completes s t i u :=
  completes_of_retire hexec (by simp only [hg, hk]) hid hpc hsettled

/-- A word that changes the state beside its threads and completes its own. -/
theorem yields_of_gangWord_retire {s1 : State} (hk : k s t g = .ok (s1.retire t)) (hs : s1.threads = s.threads) :
    Yields s t i (s1.put { t with pc := t.pc + 4 }) :=
  yields_of_gangWord hexec hg (u := { t with pc := t.pc + 4 }) hk (fun h => find_put_of_find hs h rfl) rfl

theorem parks_of_gangWord {f : Flt} (hk : k s t g = .error (.fault f)) : Parks s t i f :=
  parks_of_fault hexec (by simp only [hg, hk])

end

/-! GANG.LEAVE and GANG.MMA (09 R199): the member is counted, and waits. -/

/-- A thread that waits for its gang's collective at a word. -/
def waitsForGang (s : State) (t : Thread) (g : GangId) (w : Nat) : Thread :=
  { s.bindLoads t with iword := w, st := .waiting .gang, cond := some (.coll g), waitarg := 0, deadline := BitVec.allOnes 64
                       waitSince := s.tick }

/-- The gang with a member's form counted in ARRIVED. -/
def counted (g : Gang) (k fn : Nat) : Gang := { g with arrived := Sparse.put g.arrived k fn }

theorem arrive_of_member {g : Gang} {t : Thread} {k : Nat} (hk : g.indexOf t.id = some k) (s : State) (w fn : Nat) :
    s.arrive t g w fn = (s.setGang (counted g k fn)).put (waitsForGang (s.setGang (counted g k fn)) t g.id w) := by
  simp only [State.arrive, hk]
  rfl

section
variable {s : State} {t : Thread} {g : Gang} (hg : s.myGang t = some g)
include hg

theorem arrives_of_gangWord {i : Instr} {k : State → Thread → Gang → Except Stop State} {n fn : Nat} (hexec : exec i s = gangWord i s k)
    (hn : g.indexOf t.id = some n) (hk : k s t g = .ok (s.arrive t g (wordOf i) fn)) :
    Yields s t i ((s.setGang (counted g n fn)).put (waitsForGang (s.setGang (counted g n fn)) t g.id (wordOf i))) :=
  yields_of_gangWord hexec hg (u := waitsForGang (s.setGang (counted g n fn)) t g.id (wordOf i))
    (hk.trans (congrArg _ (arrive_of_member hn ..))) (fun h => find_put_of_find rfl h rfl) rfl

theorem gangMma_arrives {q ga sp : Bool} {n : Nat} (hn : g.indexOf t.id = some n) (hq : q = g.quad) {fn : Nat}
    (hfn : 8 + b2n q * 4 + b2n ga * 2 + b2n sp = fn) :
    Yields s t (.gangMma q ga sp) ((s.setGang (counted g n fn)).put
      (waitsForGang (s.setGang (counted g n fn)) t g.id (wordOf (.gangMma q ga sp)))) := by
  refine arrives_of_gangWord hg (exec_gangMma ..) hn ?_
  rw [if_neg (not_not.2 hq), hfn]

theorem gangMma_parks {q ga sp : Bool} (hq : q ≠ g.quad) :
    Parks s t (.gangMma q ga sp) (.plain .gangShape (BitVec.ofNat 64 g.id.record)) :=
  parks_of_gangWord (exec_gangMma ..) hg (if_pos hq)

/-! MXWAIT and MXCFG (09 R204, R206). -/

theorem mxwait_completes (hop : g.op = none) : Completes s t .mxwait t :=
  completes_of_gangWord (exec_mxwait s) hg (by simp only [hop, Option.isSome_none, Bool.false_eq_true, if_false]) rfl rfl rfl

theorem mxcfg_sets {a b : Reg} (hsel : (t.rd a.toNat).toNat ≤ 10) :
    Yields s t (.mxcfg a b) ((s.setGang (configured g (t.rd a.toNat).toNat (t.rd b.toNat))).put { t with pc := t.pc + 4 }) :=
  yields_of_gangWord_retire (exec_mxcfg ..) hg (if_neg (Nat.not_lt.2 hsel)) rfl

theorem mxcfg_parks {a b : Reg} (hsel : 10 < (t.rd a.toNat).toNat) : Parks s t (.mxcfg a b) (.plain .engineSelector (t.rd a.toNat)) :=
  parks_of_gangWord (exec_mxcfg ..) hg (if_pos hsel)

end

/-! MXBURST (08 R187, R188; 09 R205). -/

/-- Of a unit its BURST, its tiles and its ramp state. -/
def face (u : MatUnit) : Nat × List (Nat × Nat) × Ramp := (u.burst, u.tiles, u.ramp)

/-- The ramp state of a unit that has been told to ramp up. -/
def raised : Ramp → Ramp
  | .down | .rampDown => .rampUp
  | r => r

theorem face_modUnit (s : State) (c j : Nat) (f : MatUnit → MatUnit) :
    face ((s.modUnit c f).core j).unit = if j = c then face (f (s.core c).unit) else face (s.core j).unit := by
  rw [unit_modUnit, apply_ite face]

theorem face_tallyUnit (s : State) (c j code n : Nat) : face ((s.tallyUnit c code n).core j).unit = face (s.core j).unit := by
  unfold State.tallyUnit
  split
  · exact congrArg face (unit_of_footing (footing_tally ..) j)
  · rfl

/-- A unit that begins its ramp may delay others, and changes nothing else of them (01 R30). -/
theorem face_beginRamp (s : State) (c n j : Nat) :
    face ((s.beginRamp c n).core j).unit =
      if j = c then ((s.core c).unit.burst, (s.core c).unit.tiles, .rampUp) else face (s.core j).unit := by
  unfold State.beginRamp
  extract_lets cycle l below stag s1
  have hothers (j : Nat) : face (s1.core j).unit = face (s.core j).unit := by
    refine foldl_keeps (p := fun s : State => face (s.core j).unit) (fun s a => ?_) ..
    split
    · rw [face_modUnit]
      split
      next hja => rw [hja]; rfl
      next => rfl
    · rfl
  rw [face_modUnit, hothers]
  obtain ⟨hburst, hrest⟩ := Prod.ext_iff.1 (hothers c)
  have htiles := congrArg Prod.fst hrest
  split
  · exact Prod.ext hburst (Prod.ext htiles rfl)
  · rfl

theorem face_rampUp (s : State) (c j : Nat) :
    face ((s.rampUp c).core j).unit =
      if j = c then ((s.core c).unit.burst, (s.core c).unit.tiles, raised (s.core c).unit.ramp) else face (s.core j).unit := by
  unfold State.rampUp
  dsimp only
  split
  next hramp => rw [face_tallyUnit, face_beginRamp, hramp]; rfl
  next hramp => rw [face_beginRamp, hramp]; rfl
  next hdown hrampDown =>
    have hsame : raised (s.core c).unit.ramp = (s.core c).unit.ramp := by
      unfold raised
      split
      next h => exact absurd h hdown
      next h => exact absurd h hrampDown
      next => rfl
    rw [face_modUnit, hsame]
    rfl

/-- What lighting makes of a unit's face. -/
def lit (n : Nat) (x : Nat × List (Nat × Nat) × Ramp) : Nat × List (Nat × Nat) × Ramp := (n, x.2.1, if n = 0 then x.2.2 else raised x.2.2)

theorem lit_lit (n : Nat) (x : Nat × List (Nat × Nat) × Ramp) : lit n (lit n x) = lit n x := by
  have hraised (r : Ramp) : raised (raised r) = raised r := by cases r <;> rfl
  simp only [lit]
  split
  · rfl
  · rw [hraised]

theorem face_light (n : Nat) (s : State) (c j : Nat) :
    face ((State.light n s c).core j).unit = if j = c then lit n (face (s.core c).unit) else face (s.core j).unit := by
  unfold State.light
  dsimp only
  split
  next hn =>
    rw [face_modUnit]
    split
    · simp only [lit, hn, if_true, face]
    · rfl
  next hn =>
    rw [face_rampUp, unit_modUnit, if_pos rfl, face_modUnit]
    split
    · simp only [lit, hn, if_false, face]
    · rfl

theorem face_foldl_light (n : Nat) (l : List Nat) (s : State) (c : Nat) :
    face ((l.foldl (State.light n) s).core c).unit = (lit n)^[l.count c] (face (s.core c).unit) := by
  induction l generalizing s with
  | nil => rfl
  | cons a l ih =>
    rw [List.foldl_cons, ih, face_light, List.count_cons]
    by_cases hac : c = a
    · rw [if_pos hac, if_pos (beq_iff_eq.2 hac.symm), Function.iterate_succ_apply, hac]
    · rw [if_neg hac, if_neg (by simpa using Ne.symm hac), Nat.add_zero]

/-- Every unit of the list is lit, however often it is listed. -/
theorem face_foldl_light_of_mem (n : Nat) {l : List Nat} (s : State) {c : Nat} (hc : c ∈ l) :
    face ((l.foldl (State.light n) s).core c).unit = lit n (face (s.core c).unit) := by
  obtain ⟨m, hm⟩ := Nat.exists_eq_succ_of_ne_zero (List.count_pos_iff.2 hc).ne'
  rw [face_foldl_light, hm, Function.iterate_succ_apply]
  exact Function.iterate_fixed (lit_lit ..) m

theorem threads_light (n : Nat) (s : State) (c : Nat) : (State.light n s c).threads = s.threads := by
  have hbegin (s : State) (c n : Nat) : (s.beginRamp c n).threads = s.threads := by
    refine foldl_threads (fun s a => ?_) _ s
    split <;> rfl
  unfold State.light State.rampUp
  dsimp only
  split
  · rfl
  · split
    · exact (((Quiet.refl _).tallyUnit ..).threads).trans (hbegin ..)
    · exact hbegin ..
    · rfl

/-- MXBURST sets the BURST of every unit of its gang, keeps its tiles, and ramps it up. -/
theorem mxburst_lights {s : State} {t : Thread} {g : Gang} {a : Reg} (hg : s.myGang t = some g) (h : Issues s t (.mxburst a)) :
    ∃ s', exec (.mxburst a) s = .next s' ∧ s'.threads = (s.put { t with pc := t.pc + 4 }).threads ∧
      ∀ c ∈ g.cores, face (s'.core c).unit = lit (min (t.rd a.toNat).toNat 0xFFFFF) (face (s.core c).unit) := by
  have hthreads : (g.cores.foldl (State.light (min (t.rd a.toNat).toNat 0xFFFFF)) s).threads = s.threads :=
    foldl_threads (threads_light _) ..
  refine ⟨_, yields_of_gangWord_retire (s1 := g.cores.foldl (State.light (min (t.rd a.toNat).toNat 0xFFFFF)) s) (exec_mxburst a s) hg rfl hthreads h, ?_,
    fun c hc => ?_⟩
  · rw [commitFresh_threads]
    simp only [State.put, hthreads]
  · exact (congrArg face (unit_of_footing (footing_commitFresh ..) c)).trans (face_foldl_light_of_mem _ s hc)

/-- Settles O39: each word is its effect on the gang of its thread, which counts and waits, completes, or takes its fault. -/
theorem gangInstructions : Obligations.GangInstructions := by
  unfold Obligations.GangInstructions
  intro s t g k q ga sp a b tile waits sel
  refine ⟨fun hg hk => ⟨arrives_of_gangWord hg (exec_gangLeave s) hk rfl, fun hq => gangMma_arrives hg hk hq ?_, gangMma_parks hg⟩,
    fun hg hop => mxwait_completes hg hop, fun hg hsel => mxcfg_sets hg hsel, fun hg hsel => mxcfg_parks hg hsel,
    fun hg h => ?_, fun hg i hi => ?_⟩
  · cases q <;> cases ga <;> cases sp <;> rfl
  · obtain ⟨s', hexec, hthreads, hface⟩ := mxburst_lights hg h
    refine ⟨s', hexec, hthreads, fun c hc => ?_⟩
    obtain ⟨hburst, hrest⟩ := Prod.ext_iff.1 (hface c hc)
    obtain ⟨htiles, hramp⟩ := Prod.ext_iff.1 hrest
    refine ⟨hburst, htiles, fun hsel hdown => ?_⟩
    have hne : min (t.rd a.toNat).toNat 0xFFFFF ≠ 0 := by omega
    refine hramp.trans ?_
    simp only [lit, hne, if_false, face, hdown, raised]
  · obtain ⟨k, hexec⟩ := exec_eq_gangWord s hi
    exact parks_of_no_gang hexec hg

end Sys2Proof.Proofs

/-! PROOF. The accumulator instructions (09 R207 to R210; 08 R185, R186). -/
namespace Sys2Proof.Proofs
open Sys2Proof.Machine Sys2Proof.Laws

/-! What each word does with the gang of its thread. -/

theorem exec_accLd (d : Reg) (tile : Tile) (b : Reg) (s : State) : exec (.accLd d tile b) s = gangWord (.accLd d tile b) s (fun s t g =>
    match s.tileAccess g tile (t.rd b.toNat) 2 false with
    | .error e => .error e
    | .ok _ => .ok (s.retire (t.produce (regFill d.toNat
      (w64 (s.tileWord g tile (t.rd b.toNat) 0 + s.tileWord g tile (t.rd b.toNat) 1 * 2 ^ 32)))))) := rfl

/-- The unit with two elements of a row set to the halves of a word (09 R208). -/
def withPair (key : Nat) (x : Word) (u : MatUnit) : MatUnit :=
  { u with tiles := Sparse.set 0 (Sparse.set 0 u.tiles key (wbits x 31 0)) (key + 1) (wbits x 63 32) }

theorem withPair_eq (key : Nat) (x : Word) : withPair key x = fun u =>
    { u with tiles := Sparse.set 0 (Sparse.set 0 u.tiles key (x.toNat % 2 ^ 32)) (key + 1) (x.toNat / 2 ^ 32) } := by
  have hhigh : wbits x 63 32 = x.toNat / 2 ^ 32 := Nat.mod_eq_of_lt (by omega)
  funext u
  rw [withPair, hhigh, wbits, bits_low]

theorem exec_accSt (v : Reg) (tile : Tile) (b : Reg) (s : State) : exec (.accSt v tile b) s = gangWord (.accSt v tile b) s (fun s t g =>
    match s.tileAccess g tile (t.rd b.toNat) 2 false with
    | .error e => .error e
    | .ok _ => .ok ((s.modUnit (g.elemCore (t.rd b.toNat)) (withPair
      (tileKey tile.toNat (wbits (t.rd b.toNat) 5 0 % 32) (wbits (t.rd b.toNat) 13 8 % 32)) (t.rd v.toNat))).retire t)) := rfl

theorem exec_accZero (tile : Tile) (s : State) : exec (.accZero tile) s = gangWord (.accZero tile) s (fun s t g =>
    s.wholeTile t g tile (fun l => l.filter (fun x => x.1 / 1024 ≠ tile.toNat))) := rfl

/-- The keys of a tile's elements, in their order (08 R185). -/
def tileKeys (tile : Tile) : List Nat := upto (tile.toNat * 1024) 1024

/-- A tile's elements scaled by an FP32 number (09 R209). -/
def scaled (tile : Tile) (f : Nat) (l : List (Nat × Nat)) : List (Nat × Nat) :=
  updated id (fun k => f32Mul (Sparse.get 0 l k) f) (tileKeys tile) l

theorem exec_accScale (tile : Tile) (b : Reg) (s : State) : exec (.accScale tile b) s = gangWord (.accScale tile b) s (fun s t g =>
    s.wholeTile t g tile (scaled tile (wbits (t.rd b.toNat) 31 0))) := rfl

/-- The rounding mode that an index word of ACC.CVT names (09 R210). -/
def accMode (t : Thread) (w : Word) : RMode := if wbits w 22 20 = 0 then t.mode else RMode.ofCode (wbits w 22 20)

/-- The fill of ACC.CVT from the results of its elements. -/
def accFill (d : Reg) (u : CvtType) (l : List (Nat × Fpf)) : Fill :=
  { regs := [(d.toNat, w64 (packElems (accBits u) (l.map (·.1))))], flags := l.foldl (fun a x => a ||| x.2) 0, float := true, req := none
    bad := none }

theorem exec_accCvt (d : Reg) (tile : Tile) (b : Reg) (s : State) : exec (.accCvt d tile b) s = gangWord (.accCvt d tile b) s (fun s t g =>
    match accType (wbits (t.rd b.toNat) 19 16) with
    | none => failWith .accumulatorIndex (t.rd b.toNat)
    | some (u, n) => match s.tileAccess g tile (t.rd b.toNat) n true with
      | .error e => .error e
      | .ok _ => .ok (s.retire (t.produce (accFill d u ((upto 0 n).map
          (fun k => accElem u (accMode t (t.rd b.toNat)) (bit (t.rd b.toNat).toNat 23) (s.tileWord g tile (t.rd b.toNat) k))))))) := rfl

/-! Access of an element by an index word (09 R207). -/

/-- The core of an element within the limits is one of the gang's (08 R172). -/
theorem elemCore_mem {g : Gang} {w : Word} {n : Nat} {cvt : Bool} (h : indexOk g w n cvt = true) : g.elemCore w ∈ g.cores := by
  simp only [indexOk, Bool.and_eq_true, decide_eq_true_eq] at h
  obtain ⟨⟨⟨⟨⟨⟨hrow, -⟩, hcol⟩, -⟩, -⟩, -⟩, -⟩ := h
  have hlt : wbits w 5 0 / 32 * 2 + wbits w 13 8 / 32 < g.cores.length := by
    cases hquad : g.quad <;> simp only [hquad, Gang.cores, Bool.false_eq_true, if_false, if_true, List.length_cons,
      List.length_nil] at hrow hcol ⊢ <;> omega
  rw [Gang.elemCore, List.getD_eq_getElem _ _ hlt]
  exact List.getElem_mem hlt

theorem tileLocked_of_no_lock {s : State} {c : Nat} (h : (s.core c).unit.lock = 0) (tile : Tile) : s.tileLocked c tile = false := by
  simp only [State.tileLocked, h, bit, Nat.zero_div, Nat.zero_mod, beq_eq_false_iff_ne]
  exact Nat.zero_ne_one

theorem tileAccess_of_bad_index {g : Gang} {w : Word} {n : Nat} {cvt : Bool} (h : indexOk g w n cvt = false) (s : State) (tile : Tile) :
    s.tileAccess g tile w n cvt = failWith .accumulatorIndex w := by
  simp only [State.tileAccess, h, Bool.not_false, if_true]

section
variable {s : State} {g : Gang} (hlock : ∀ x ∈ g.cores, (s.core x).unit.lock = 0)
include hlock

theorem tileAccess_of_unlocked {w : Word} {n : Nat} {cvt : Bool} (h : indexOk g w n cvt = true) (tile : Tile) :
    s.tileAccess g tile w n cvt = .ok () := by
  simp only [State.tileAccess, h, tileLocked_of_no_lock (hlock _ (elemCore_mem h)), Bool.not_true, Bool.false_eq_true, if_false]

theorem wholeTile_of_unlocked (t : Thread) (tile : Tile) (f : List (Nat × Nat) → List (Nat × Nat)) :
    s.wholeTile t g tile f = .ok ((g.cores.foldl (fun s c => s.modUnit c (fun u => { u with tiles := f u.tiles })) s).retire t) := by
  have hnone : g.cores.any (fun c => s.tileLocked c tile) = false :=
    List.any_eq_false.2 fun c hc => by rw [tileLocked_of_no_lock (hlock c hc)]; exact Bool.false_ne_true
  simp only [State.wholeTile, hnone, Bool.false_eq_true, if_false]

end

theorem wholeTile_of_locked {s : State} {g : Gang} {c : Nat} {tile : Tile} (hc : c ∈ g.cores) (h : s.tileLocked c tile = true) (t : Thread)
    (f : List (Nat × Nat) → List (Nat × Nat)) : s.wholeTile t g tile f = failWith .accumulatorBusy (tile.setWidth 64) := by
  have hsome : g.cores.any (fun c => s.tileLocked c tile) = true := List.any_eq_true.2 ⟨c, hc, h⟩
  simp only [State.wholeTile, hsome, if_true]

/-! ACC.ZERO and ACC.SCALE (09 R209). -/

theorem get_filter (p : Nat → Bool) (l : List (Nat × Nat)) (k : Nat) :
    Sparse.get 0 (l.filter (fun x => p x.1)) k = if p k then Sparse.get 0 l k else 0 := by
  induction l with
  | nil => simp [Sparse.get]
  | cons x l ih =>
    obtain ⟨j, v⟩ := x
    rw [List.filter_cons, Sparse.get]
    by_cases hj : j = k
    · subst hj
      cases hp : p j <;> simp_all [Sparse.get]
    · cases hp : p j <;> simp [Sparse.get, hj, ih]

theorem mem_tileKeys {tile : Tile} {k : Nat} : k ∈ tileKeys tile ↔ k / 1024 = tile.toNat := by
  rw [tileKeys, upto_eq_range', List.mem_range'_1]
  omega

/-- Every element of the tile is scaled, and no other. -/
theorem get_scaled (tile : Tile) (f : Nat) (l : List (Nat × Nat)) (k : Nat) :
    Sparse.get 0 (scaled tile f l) k = if k / 1024 = tile.toNat then f32Mul (Sparse.get 0 l k) f else Sparse.get 0 l k := by
  split
  next hk =>
    refine get_updated_of_mem (key := id) (x := k) ?_ (mem_tileKeys.2 hk) l
    rw [List.map_id, tileKeys, upto_eq_range']
    exact List.nodup_range'
  next hk => exact get_updated_of_not_mem (fun x hx (h : k = x) => hk (mem_tileKeys.1 (h ▸ hx))) l

/-- A unit with its tiles rewritten. -/
def retiled (f : List (Nat × Nat) → List (Nat × Nat)) (u : MatUnit) : MatUnit := { u with tiles := f u.tiles }

theorem tiles_retiled_iterate (f : List (Nat × Nat) → List (Nat × Nat)) (n : Nat) (u : MatUnit) :
    ((retiled f)^[n] u).tiles = f^[n] u.tiles := by
  induction n generalizing u with
  | zero => rfl
  | succ n ih => rw [Function.iterate_succ_apply, ih, Function.iterate_succ_apply]; rfl

/-- A word that rewrites a tile of every unit of the gang. -/
theorem wholeTile_rewrites {s : State} {t : Thread} {g : Gang} {i : Instr} {k : State → Thread → Gang → Except Stop State} {tile : Tile}
    {f : List (Nat × Nat) → List (Nat × Nat)} (hexec : exec i s = gangWord i s k) (hg : s.myGang t = some g)
    (hlock : ∀ x ∈ g.cores, (s.core x).unit.lock = 0) (hk : k s t g = s.wholeTile t g tile f) (h : Issues s t i) :
    ∃ s', exec i s = .next s' ∧ s'.threads = (s.put { t with pc := t.pc + 4 }).threads ∧
      ∀ c, (s'.core c).unit.tiles = f^[g.cores.count c] (s.core c).unit.tiles := by
  have hunits : UnitsOnly s (g.cores.foldl (fun s c => s.modUnit c (retiled f)) s) := .foldl_modUnit id (fun _ => retiled f) ..
  refine ⟨_, yields_of_gangWord_retire hexec hg (hk.trans (wholeTile_of_unlocked hlock t tile f)) hunits.threads h, ?_, fun c => ?_⟩
  · rw [commitFresh_threads]
    exact congrArg (List.map _) hunits.threads
  · refine (congrArg MatUnit.tiles (unit_of_footing (footing_commitFresh ..) c)).trans ?_
    exact (congrArg MatUnit.tiles (unit_foldl_modUnit (retiled f) ..)).trans (tiles_retiled_iterate ..)

/-! ACC.LD, ACC.ST and ACC.CVT (09 R208, R210). -/

theorem tileWord_eq (s : State) (g : Gang) (tile : Tile) (w : Word) (k : Nat) :
    s.tileWord g tile w k = Sparse.get 0 (s.core (g.elemCore w)).unit.tiles
      (tile.toNat * 1024 + wbits w 5 0 % 32 * 32 + wbits w 13 8 % 32 + k) := by
  simp only [State.tileWord, tileKey, Nat.add_assoc]

theorem accFill_eq (d : Reg) (u : CvtType) (n : Nat) (op : Nat → Nat × Fpf) :
    accFill d u ((upto 0 n).map op) =
      { regs := [(d.toNat, BitVec.ofNat 64 (((List.range n).map (fun k => (op k).1 % 2 ^ accBits u * 2 ^ (accBits u * k))).sum))]
        flags := ((List.range n).map (fun k => (op k).2)).foldl (· ||| ·) 0, float := true, req := none, bad := none } := by
  obtain ⟨hword, hflags⟩ := Prod.ext_iff.1 (lanes_packed (accBits u) n op)
  dsimp only at hword hflags
  rw [accFill, hword, hflags, w64]

section
variable {s : State} {t : Thread} {g : Gang} {i : Instr} {k : State → Thread → Gang → Except Stop State} (hexec : exec i s = gangWord i s k)
  (hg : s.myGang t = some g)
include hexec hg

/-- A word of a gang that completes as the producer of a fill. -/
theorem fills_of_gangWord {f : Fill} (hk : k s t g = .ok (s.retire (t.produce f))) : Fills s t i f :=
  completes_of_gangWord hexec hg hk (produce_id ..) (produce_pc ..) (produce_settled ..)

end

section
variable {s : State} {t : Thread} {g : Gang} {d b : Reg} {tile : Tile} (hg : s.myGang t = some g)
include hg

theorem accLdSt_park_of_bad_index (h : indexOk g (t.rd b.toNat) 2 false = false) :
    Parks s t (.accLd d tile b) (.plain .accumulatorIndex (t.rd b.toNat)) ∧
      Parks s t (.accSt d tile b) (.plain .accumulatorIndex (t.rd b.toNat)) := by
  have hbad : s.tileAccess g tile (t.rd b.toNat) 2 false = _ := tileAccess_of_bad_index h s tile
  exact ⟨parks_of_gangWord (exec_accLd ..) hg (by simp only [hbad]; rfl), parks_of_gangWord (exec_accSt ..) hg (by simp only [hbad]; rfl)⟩

theorem accCvt_parks {u : CvtType} {n : Nat} (h : accType (wbits (t.rd b.toNat) 19 16) = none ∨
    (accType (wbits (t.rd b.toNat) 19 16) = some (u, n) ∧ indexOk g (t.rd b.toNat) n true = false)) :
    Parks s t (.accCvt d tile b) (.plain .accumulatorIndex (t.rd b.toNat)) := by
  refine parks_of_gangWord (exec_accCvt ..) hg ?_
  obtain hnone | ⟨htype, hbad⟩ := h
  · simp only [hnone]
    rfl
  · simp only [htype, tileAccess_of_bad_index hbad]
    rfl

theorem wholeTile_parks_of_locked {c : Nat} (hlocked : s.tileLocked c tile = true) (hc : c ∈ g.cores) :
    Parks s t (.accZero tile) (.plain .accumulatorBusy (tile.zeroExtend 64)) ∧
      Parks s t (.accScale tile b) (.plain .accumulatorBusy (tile.zeroExtend 64)) :=
  ⟨parks_of_gangWord (exec_accZero ..) hg (wholeTile_of_locked hc hlocked t _),
    parks_of_gangWord (exec_accScale ..) hg (wholeTile_of_locked hc hlocked t _)⟩

variable (hlock : ∀ x ∈ g.cores, (s.core x).unit.lock = 0)
include hlock

theorem accLd_fills (h : indexOk g (t.rd b.toNat) 2 false = true) : Fills s t (.accLd d tile b) (regFill d.toNat
    (w64 (s.tileWord g tile (t.rd b.toNat) 0 + s.tileWord g tile (t.rd b.toNat) 1 * 2 ^ 32))) :=
  fills_of_gangWord (exec_accLd ..) hg (by simp only [tileAccess_of_unlocked hlock h])

theorem accSt_writes (h : indexOk g (t.rd b.toNat) 2 false = true) :
    Yields s t (.accSt d tile b) ((s.modUnit (g.elemCore (t.rd b.toNat)) (withPair
      (tileKey tile.toNat (wbits (t.rd b.toNat) 5 0 % 32) (wbits (t.rd b.toNat) 13 8 % 32)) (t.rd d.toNat))).put { t with pc := t.pc + 4 }) :=
  yields_of_gangWord_retire (exec_accSt ..) hg (by simp only [tileAccess_of_unlocked hlock h]) rfl

theorem accCvt_fills {u : CvtType} {n : Nat} (htype : accType (wbits (t.rd b.toNat) 19 16) = some (u, n))
    (h : indexOk g (t.rd b.toNat) n true = true) : Fills s t (.accCvt d tile b) (accFill d u ((upto 0 n).map
      (fun k => accElem u (accMode t (t.rd b.toNat)) (bit (t.rd b.toNat).toNat 23) (s.tileWord g tile (t.rd b.toNat) k)))) :=
  fills_of_gangWord (exec_accCvt ..) hg (by simp only [htype, tileAccess_of_unlocked hlock h])

/-- ACC.ZERO, however often it meets a unit, leaves its tile 0 and every other element as it was. -/
theorem accZero_zeroes (h : Issues s t (.accZero tile)) : ∃ s', exec (.accZero tile) s = .next s' ∧
    s'.threads = (s.put { t with pc := t.pc + 4 }).threads ∧ ∀ c ∈ g.cores, ∀ k,
      Sparse.get 0 (s'.core c).unit.tiles k = if k / 1024 = tile.toNat then 0 else Sparse.get 0 (s.core c).unit.tiles k := by
  obtain ⟨s', hexec, hthreads, htiles⟩ := wholeTile_rewrites (exec_accZero tile s) hg hlock rfl h
  refine ⟨s', hexec, hthreads, fun c hc k => ?_⟩
  obtain ⟨n, hn⟩ := Nat.exists_eq_succ_of_ne_zero (List.count_pos_iff.2 hc).ne'
  rw [htiles, hn, Function.iterate_succ_apply, Function.iterate_fixed (by simp)]
  refine (get_filter (fun j => decide (j / 1024 ≠ tile.toNat)) _ k).trans ?_
  by_cases hk : k / 1024 = tile.toNat <;> simp [hk]

theorem accScale_scales (hnodup : g.cores.Nodup) (h : Issues s t (.accScale tile b)) : ∃ s', exec (.accScale tile b) s = .next s' ∧
    s'.threads = (s.put { t with pc := t.pc + 4 }).threads ∧ ∀ c ∈ g.cores, ∀ k, Sparse.get 0 (s'.core c).unit.tiles k =
      if k / 1024 = tile.toNat then f32Mul (Sparse.get 0 (s.core c).unit.tiles k) (wbits (t.rd b.toNat) 31 0)
      else Sparse.get 0 (s.core c).unit.tiles k := by
  obtain ⟨s', hexec, hthreads, htiles⟩ := wholeTile_rewrites (exec_accScale tile b s) hg hlock rfl h
  refine ⟨s', hexec, hthreads, fun c hc k => ?_⟩
  rw [htiles, List.count_eq_one_of_mem hnodup hc, Function.iterate_one, get_scaled]

end

/-- Settles O40: an index word is judged by its fields, an access of an unlocked tile reads or writes the elements under their keys, and a
word that rewrites a tile rewrites it in every unit. -/
theorem accumulatorResults : Obligations.AccumulatorResults := by
  unfold Obligations.AccumulatorResults
  intro s t g d b tile c u n w row col core key elem mode conv
  have hrow : wbits w 5 0 = row := wbits_eq_toNat_extractLsb' w 5 0
  have hcol : wbits w 13 8 = col := wbits_eq_toNat_extractLsb' w 5 8
  have htype : wbits w 19 16 = (w.extractLsb' 16 4).toNat := wbits_eq_toNat_extractLsb' w 3 16
  have hrnd : wbits w 22 20 = (w.extractLsb' 20 3).toNat := wbits_eq_toNat_extractLsb' w 2 20
  have hcore : g.elemCore w = core := by rw [Gang.elemCore, hrow, hcol]
  have helem (k : Nat) : s.tileWord g tile w k = elem core (key + k) := by rw [tileWord_eq, hcore, hrow, hcol]
  have hkey : tileKey tile.toNat (wbits w 5 0 % 32) (wbits w 13 8 % 32) = key := by rw [tileKey, hrow, hcol]
  have hmode : accMode t w = mode := by
    simp only [accMode, hrnd, mode, BitVec.toNat_eq]
    rfl
  refine ⟨fun hg hbad => accLdSt_park_of_bad_index hg hbad, fun hg h => accCvt_parks hg (htype ▸ h),
    fun hg hlocked hc => wholeTile_parks_of_locked hg hlocked hc, fun hg hlock => ⟨fun h => ?_, fun h => ?_, fun hu h => ?_, fun hc h => ?_,
    fun hc hnodup h => ?_⟩⟩
  · have hfills := accLd_fills (d := d) (tile := tile) hg hlock h
    rw [helem, helem, Nat.add_zero] at hfills
    exact hfills
  · have hwrites := accSt_writes (d := d) (tile := tile) hg hlock h
    rw [hkey, hcore, withPair_eq] at hwrites
    exact hwrites
  · have hconv : (fun k => accElem u (accMode t w) (bit w.toNat 23) (s.tileWord g tile w k)) = conv := by
      funext k
      rw [hmode, helem, bit_eq_testBit]
      rfl
    have hfills := accCvt_fills (d := d) (tile := tile) hg hlock (htype ▸ hu) h
    rw [hconv, accFill_eq] at hfills
    exact hfills
  · obtain ⟨s', hexec, hthreads, hzero⟩ := accZero_zeroes hg hlock h
    exact ⟨s', hexec, hthreads, hzero c hc⟩
  · obtain ⟨s', hexec, hthreads, hscaled⟩ := accScale_scales hg hlock hnodup h
    exact ⟨s', hexec, hthreads, fun k => (hscaled c hc k).trans (by rw [wbits, bits_low]; rfl)⟩

end Sys2Proof.Proofs

/-! PROOF. The join of a gang whose record lies where an ill-formed re-stripe begins (09 R197; 13 R302). -/
namespace Sys2Proof.Proofs
open Sys2Proof.Machine Sys2Proof.Laws

/-- A running re-stripe whose first address is no start of a chunk, so that it parts the first word of a record at 0 from the second, and
whose new geometry places nothing. -/
def tornMove : Restripe :=
  { vbase := 8, nchunk := 1, sdom := 0, st := 1, newgidx := 1, newframe := 0, prog := 1, start := 0, cmd := 0 }

/-- A thread about to issue, whose page at 0 is in transition under that re-stripe. -/
def tornState : State := { State.reset with
  threads := [probeThread], cur := some probeThread.id
  cores := [(0, { Core.init with tlb := [tlbEntOf 0 0 0x16F] })]
  dies := [(0, { Die.init with gcache := [(1, 2)], restripe := [(0, tornMove)] })] }

/-- Where the first word of the record lies: at its old place. -/
def tornLoc : Loc :=
  { spot := tornState.spot (tornState.geo 0 (Leaf.gidx 0x16F)) (Leaf.place 0x16F 0), mirror := none, leaf := 0x16F, p := Leaf.place 0x16F 0
    gidx := Leaf.gidx 0x16F }

theorem tornState_access : tornState.access 0 0 8 { ea := 0, n := 8, kind := .atomic, write := true } = .ok (.mem tornLoc) := by
  decide +kernel

theorem tornState_gstate : tornState.numAs 0 ((Target.mem tornLoc).pa + 8) 8 / 2 ^ 24 % 4 = 0 := by
  decide +kernel

theorem tornState_issues : Issues tornState probeThread (.gangJoin 0 0) := by
  refine ⟨?_, ?_, ?_⟩ <;> decide +kernel

/-- The test of the join reads the second word at its new place, which is none. -/
theorem tornState_join_faults : ∃ s', exec (.gangJoin 0 0) tornState = .next s' ∧ (s'.find probeThread.id).map (·.st) = some .faulted := by
  refine ⟨_, rfl, ?_⟩
  decide +kernel

/-- Refutes O38: its clause for a join of a record with GSTATE 0 supposes that the first word of the record can be reached, and the join
also reads the second. Where a re-stripe whose first address is no start of a chunk moves the second word alone, to a place out of range,
the join does not wait but faults. -/
theorem not_gangForming : ¬ Obligations.GangForming := by
  unfold Obligations.GangForming
  intro h
  obtain ⟨-, -, hclause⟩ := h tornState probeThread 0 0 0 (.mem tornLoc) (newGang probeThread 0 0 none 0) 0
  have hunwatched : tornState.unwatched := unwatched_iff.2 fun u hu => watchesNothing_of_none (List.mem_singleton.1 hu ▸ rfl)
  have hearly : tornState.noEarly (dieOf probeThread.core) (Target.mem tornLoc).pa 2048 := fun _ hx => absurd hx List.not_mem_nil
  obtain ⟨-, hwaits, -⟩ := hclause rfl rfl hunwatched tornState_access (by decide +kernel) (by decide +kernel) hearly
  obtain ⟨s', hs', hfaulted⟩ := tornState_join_faults
  have hnext := Host.Outcome.next.inj (hs'.symm.trans (hwaits tornState_gstate tornState_issues))
  rw [hnext, find_commitFresh] at hfaulted
  exact absurd hfaulted (by decide +kernel)

end Sys2Proof.Proofs

/-! PROOF. The resolution of a collective: the members' stores, the four cases, and what each leaves (08 R178; 09 R199, R200, R203). -/
namespace Sys2Proof.Proofs
open Sys2Proof.Machine Sys2Proof.Laws

/-- One change of a list establishes P, and those that follow keep it, where I holds throughout. -/
theorem foldl_reaches {σ α : Type} {I P : σ → Prop} {f : σ → α → σ} {l : List α} {s : σ} (hI : ∀ s, ∀ a ∈ l, I s → I (f s a))
    (hP : ∀ s, ∀ a ∈ l, I s → P s → P (f s a)) {a : α} (ha : a ∈ l) (hf : ∀ s, I s → P (f s a)) (h : I s) : P (l.foldl f s) := by
  obtain ⟨l1, l2, rfl⟩ := List.append_of_mem ha
  rw [List.foldl_append, List.foldl_cons]
  have hbefore : I (l1.foldl f s) := List.foldlRecOn l1 f h fun s hs a ha => hI s a (List.mem_append_left _ ha) hs
  refine (List.foldlRecOn (motive := fun s => I s ∧ P s) l2 f ⟨hI _ a (by simp) hbefore, hf _ hbefore⟩ fun s hs b hb => ?_).2
  have hmem : b ∈ l1 ++ a :: l2 := List.mem_append_right _ (List.mem_cons_of_mem a hb)
  exact ⟨hI s b hmem hs.1, hP s b hmem hs.1 hs.2⟩

/-- A thread's place in the list is kept by a change of another or of itself. -/
theorem isSome_find_put {s : State} {t : Thread} {i : Tid} (h : (s.find i).isSome = true) : ((s.put t).find i).isSome = true := by
  by_cases hi : i = t.id
  · subst hi
    rw [find_put h]
    rfl
  · rwa [find_put_ne hi]

/-! The members' buffered stores, of which there are none (08 R178; 09 R200). -/

/-- No store is before its global point, and no member of the gang has one buffered. -/
structure StoresPerformed (s : State) (g : Gang) : Prop where
  early : s.early = []
  stores : ∀ x ∈ g.members, ∀ t, s.find x.2 = some t → t.stores = []

theorem StoresPerformed.drained {s : State} {g : Gang} (h : StoresPerformed s g) {x : Nat × Tid} (hx : x ∈ g.members) {t : Thread}
    (ht : s.find x.2 = some t) : s.drained t :=
  ⟨h.stores x hx t ht, by simp [h.early]⟩

theorem StoresPerformed.membersDrain {s : State} {g : Gang} (h : StoresPerformed s g) : s.membersDrain g = true := by
  have hnone : (s.gangThreads g).any s.stuck = false := List.any_eq_false.2 fun t ht => by
    obtain ⟨x, hx, hfind⟩ := List.mem_filterMap.1 ht
    rw [stuck_of_drained (h.drained hx hfind)]
    exact Bool.false_ne_true
  rw [State.membersDrain, hnone]
  rfl

/-- From s to s' the list of threads alone has changed, and no thread waits for a word of memory. -/
structure Rethreaded (s s' : State) : Prop where
  only : ThreadsOnly s s'
  unwatched : s'.unwatched

namespace Rethreaded
variable {s s' : State} {g : Gang}

theorem early (h : Rethreaded s s') : s'.early = s.early := by rw [h.only]
theorem gang (h : Rethreaded s s') (i : GangId) : s'.gang i = s.gang i := by rw [h.only]; rfl
theorem core (h : Rethreaded s s') (c : Nat) : s'.core c = s.core c := by rw [h.only]; rfl
theorem setValid (h : Rethreaded s s') (e : Eng) (fn : Nat) : s'.setValid g e fn = s.setValid g e fn := by rw [h.only]; rfl
theorem waitOver (h : Rethreaded s s') (t : Thread) : s'.waitOver t = s.waitOver t := by rw [h.only]; rfl

theorem put {t : Thread} (h : Rethreaded s s') (ht : WatchesNothing t) : Rethreaded s (s'.put t) := by
  refine ⟨?_, unwatched_put h.unwatched ht⟩
  rw [h.only]
  rfl

theorem checkWatches (h : Rethreaded s s') : s'.checkWatches = s' := checkWatches_of_unwatched h.unwatched

end Rethreaded

/-- A gang whose stores are performed has nothing to drain. -/
theorem drainMembers_rethreads {s : State} {g : Gang} (hs : s.unwatched) (h : StoresPerformed s g) :
    Rethreaded s (s.drainMembers g) ∧ ∀ i, (s.drainMembers g).find i = s.find i := by
  refine List.foldlRecOn (motive := fun s' => Rethreaded s s' ∧ ∀ i, s'.find i = s.find i) g.members _ ⟨⟨rfl, hs⟩, fun _ => rfl⟩
    fun s' ⟨hs', hfind⟩ x hx => ?_
  split
  next t ht =>
    rw [drainAll_of_drained (drained_of_early (h.drained hx ((hfind _).symm.trans ht)) hs'.early)]
    refine ⟨hs'.put (unwatched_iff.1 hs'.unwatched t (mem_of_find ht)), fun i => (find_put_self (find_id ht ▸ ht) i).trans (hfind i)⟩
  next => exact ⟨hs', hfind⟩

theorem exec_gangResolution {s : State} {g : Gang} (hg : s.gang g.id = some g) (hresolves : g.resolves = true) (hs : s.unwatched)
    (h : StoresPerformed s g) (hwaits : Sparse.get 0 g.arrived 0 = 2 → s.gangWaits g 1 = false) :
    exec (.gangResolution g.id) s = .next ((s.drainMembers g).resolve g).checkWatches := by
  have hmay : (Sparse.get 0 g.arrived 0 == 2 && s.gangWaits g 1) = false := by
    rw [Bool.and_eq_false_imp]
    exact fun hleave => hwaits (beq_iff_eq.1 hleave)
  have hlive := ((drainMembers_rethreads hs h).1.gang g.id).trans hg
  show execGangResolution g.id s = _
  simp only [execGangResolution, event, hg, hresolves, h.membersDrain, hmay, hlive, Bool.not_false, Bool.and_self, if_true]

/-! The four cases (09 R199). -/

section
variable {s : State} {g : Gang} {fn : Nat}

theorem resolve_of_mixed {x : Nat × Nat} (hx : x ∈ g.arrived) (hne : x.2 ≠ Sparse.get 0 g.arrived 0) :
    s.resolve g = (g.arrived.filter (fun a => a.2 ≠ Sparse.get 0 g.arrived 0)).foldl (fun s a => s.parkMember g a.1 .matrixForm) s :=
  if_pos (List.ne_nil_of_mem (List.mem_filter.2 ⟨hx, by simpa using hne⟩))

variable (hsame : ∀ x ∈ g.arrived, x.2 = fn) (hfn : Sparse.get 0 g.arrived 0 = fn)
include hsame hfn

theorem resolve_of_same : s.resolve g = if fn = 2 then (s.dissolve g).completeColl g
    else if !s.setValid g { regs := g.shadow } fn then s.parkMember g 0 .matrixConfiguration else s.startOp g fn := by
  have hwrong : g.arrived.filter (fun a => a.2 ≠ fn) = [] := List.filter_eq_nil_iff.2 fun x hx => by simp [hsame x hx]
  simp only [State.resolve, hfn, hwrong, ne_eq, not_true_eq_false, if_false]

theorem resolve_of_valid (h8 : 8 ≤ fn) (hvalid : s.setValid g { regs := g.shadow } fn = true) : s.resolve g = s.startOp g fn := by
  rw [resolve_of_same hsame hfn, if_neg (by omega), hvalid]
  rfl

theorem resolve_of_invalid (h8 : 8 ≤ fn) (hvalid : s.setValid g { regs := g.shadow } fn = false) :
    s.resolve g = s.parkMember g 0 .matrixConfiguration := by
  rw [resolve_of_same hsame hfn, if_neg (by omega), hvalid]
  rfl

end

/-! The end of the members' collective words (09 R199; 16 R360). -/

/-- The collective word of a member that waits at one completes. -/
def endColl (s : State) (t : Thread) : State :=
  match t.st, t.cond with
  | .waiting .gang, some (.coll _) => s.completeWait t []
  | _, _ => s

theorem completeColl_eq (s : State) (g : Gang) : s.completeColl g = (s.gangThreads g).foldl endColl s := rfl

/-- To note registers of a dropped frame changes the thread's snapshot alone (22 R471). -/
theorem noted_eq (t : Thread) (l : List Nat) : ∃ snap, t.noted l = { t with snap := snap } := by
  unfold Thread.noted
  split
  · exact ⟨t.snap, rfl⟩
  · exact ⟨_, rfl⟩

theorem completeWait_nil (s : State) (t : Thread) : s.completeWait t [] = s.put (s.waitOver t) := by
  obtain ⟨snap, hnoted⟩ := noted_eq t [0, 6, 7]
  simp only [State.completeWait, State.endWaitMove, Thread.holdsSlot, State.waitOver, List.foldl_nil, List.map_nil, List.append_nil, hnoted]
  split <;> rfl

theorem endColl_cases (s : State) (t : Thread) : endColl s t = s.put (s.waitOver t) ∨ endColl s t = s := by
  unfold endColl
  split
  · exact .inl (completeWait_nil s t)
  · exact .inr rfl

theorem waitOver_id (s : State) (t : Thread) : (s.waitOver t).id = t.id := noted_id ..

theorem endColl_rethreads {s s' : State} (h : Rethreaded s s') (t : Thread) : Rethreaded s (endColl s' t) := by
  obtain hput | hsame := endColl_cases s' t
  · rw [hput]
    exact h.put (watchesNothing_of_none rfl)
  · rwa [hsame]

theorem completeColl_rethreads {s : State} (hs : s.unwatched) (g : Gang) : Rethreaded s (s.completeColl g) :=
  List.foldlRecOn (motive := Rethreaded s) (s.gangThreads g) endColl ⟨rfl, hs⟩ fun _ h t _ => endColl_rethreads h t

/-- The member of a gang's list under a thread's name is the thread that is found under it. -/
theorem mem_gangThreads {s : State} {g : Gang} {u t : Thread} (hu : s.find u.id = some u) (ht : t ∈ s.gangThreads g) (hid : t.id = u.id) :
    t = u := by
  obtain ⟨x, -, hx⟩ := List.mem_filterMap.1 ht
  rw [← find_id hx, hid, hu] at hx
  exact (Option.some.inj hx).symm

/-- A member that waits at a collective word goes on past it. -/
theorem find_completeColl {s : State} (hs : s.unwatched) {g : Gang} {u : Thread} {i : GangId} (hu : s.find u.id = some u)
    (hmem : u.id ∈ g.members.map (·.2)) (hst : u.st = .waiting .gang) (hcond : u.cond = some (.coll i)) :
    (s.completeColl g).find u.id = some (s.waitOver u) := by
  have hin : u ∈ s.gangThreads g := by
    obtain ⟨x, hx, hid⟩ := List.mem_map.1 hmem
    exact List.mem_filterMap.2 ⟨x, hx, hid ▸ hu⟩
  have hends {s' : State} (h' : Rethreaded s s' ∧ (s'.find u.id).isSome = true) : (endColl s' u).find u.id = some (s.waitOver u) := by
    have hput : endColl s' u = s'.put (s.waitOver u) := by
      simp only [endColl, hst, hcond, completeWait_nil, h'.1.waitOver]
    rw [hput, ← waitOver_id s u]
    exact find_put (by rw [waitOver_id]; exact h'.2)
  rw [completeColl_eq]
  refine foldl_reaches (I := fun s' => Rethreaded s s' ∧ (s'.find u.id).isSome = true) (P := fun s' => s'.find u.id = some (s.waitOver u))
    (fun s' t ht h' => ⟨endColl_rethreads h'.1 t, ?_⟩) (fun s' t ht h' hover => ?_) hin (fun s' h' => hends h')
    ⟨⟨rfl, hs⟩, by rw [hu]; rfl⟩
  · obtain hput | hsame := endColl_cases s' t
    · rw [hput]
      exact isSome_find_put h'.2
    · rw [hsame]
      exact h'.2
  · by_cases hid : t.id = u.id
    · rw [mem_gangThreads hu ht hid]
      exact hends h'
    · obtain hput | hsame := endColl_cases s' t
      · rw [hput, find_put_ne (by rw [waitOver_id]; exact Ne.symm hid)]
        exact hover
      · rwa [hsame]

/-! Dissolution (09 R200). -/

/-- A thread once the gang has dissolved. -/
def released (i : GangId) (t : Thread) : Thread := if t.gang = some i then { t with gang := none } else t

theorem released_of_gang {i : GangId} {t : Thread} (h : t.gang = some i) : released i t = { t with gang := none } := if_pos h

theorem released_keeps (i : GangId) (t : Thread) : (released i t).id = t.id ∧ (released i t).cond = t.cond := by
  unfold released
  split <;> exact ⟨rfl, rfl⟩

section
variable (s : State) (g : Gang)

/-- The state with the gang's units freed and its record zeroed. -/
def zeroed : State :=
  ((s.freeUnits g).gangWrites g 0 (g.recLines true)).1.gangDropped g 0 ((s.freeUnits g).gangWrites g 0 (g.recLines true)).2

theorem zeroed_quiet : Quiet s (zeroed s g) :=
  ((Quiet.foldl (fun _ _ h => h.modUnit ..) g.cores (Quiet.refl s)).gangWrites ..).gangDropped ..

theorem footing_zeroed : footing (zeroed s g) = footing (s.freeUnits g) := (footing_gangDropped ..).trans (footing_gangWrites ..)

theorem dissolve_eq : s.dissolve g = { zeroed s g with
    gangs := (zeroed s g).gangs.filter (fun x => x.id ≠ g.id), threads := (zeroed s g).threads.map (released g.id) } := rfl

theorem dissolve_threads : (s.dissolve g).threads = s.threads.map (released g.id) := by
  rw [dissolve_eq]
  exact congrArg (List.map (released g.id)) (zeroed_quiet s g).threads

theorem dissolve_tick : (s.dissolve g).tick = s.tick := by
  rw [dissolve_eq]
  exact (zeroed_quiet s g).tick

theorem dissolve_gone : (s.dissolve g).gang g.id = none :=
  List.find?_eq_none.2 fun x hx => by simpa using (List.mem_filter.1 hx).2

variable {s g}

theorem dissolve_frees {c : Nat} (hc : c ∈ g.cores) (h : (s.core c).unit.gang = some g.id) :
    ((s.dissolve g).core c).unit = freed (s.core c).unit := by
  rw [dissolve_eq]
  exact (unit_of_footing (footing_zeroed s g) c).trans (unit_freeUnits hc h)

theorem unwatched_dissolve (h : s.unwatched) : (s.dissolve g).unwatched := unwatched_iff.2 fun u hu => by
  rw [dissolve_threads] at hu
  obtain ⟨v, hv, rfl⟩ := List.mem_map.1 hu
  exact watchesNothing_of_cond (unwatched_iff.1 h v hv) (released_keeps g.id v).2

/-- A member of a gang that dissolves goes on past its collective word, in no gang. -/
theorem find_dissolve_completeColl (hs : s.unwatched) {u : Thread} {i : GangId} (hu : s.find u.id = some u)
    (hmem : u.id ∈ g.members.map (·.2)) (hst : u.st = .waiting .gang) (hcond : u.cond = some (.coll i)) (hgang : u.gang = some g.id) :
    ((s.dissolve g).completeColl g).find u.id = some (s.waitOver { u with gang := none }) := by
  have hfind : (s.dissolve g).find u.id = some { u with gang := none } := by
    rw [find_mapThreads (dissolve_threads s g) fun t => (released_keeps g.id t).1, hu, Option.map_some, released_of_gang hgang]
  have hover : (s.dissolve g).waitOver { u with gang := none } = s.waitOver { u with gang := none } := by
    rw [State.waitOver, dissolve_tick, State.waitOver]
  exact (find_completeColl (u := { u with gang := none }) (unwatched_dissolve hs) hfind hmem hst hcond).trans (congrArg some hover)

end

/-! The start of an operation (08 R178; 09 R203). -/

/-- From s to s' the cores alone have changed. -/
def CoresOnly (s s' : State) : Prop := s' = { s with cores := s'.cores }

namespace CoresOnly
variable {s s1 : State}

theorem setCore (h : CoresOnly s s1) (c : Nat) (x : Core) : CoresOnly s (s1.setCore c x) := by
  rw [CoresOnly, h]
  rfl

theorem modUnit (h : CoresOnly s s1) (c : Nat) (f : MatUnit → MatUnit) : CoresOnly s (s1.modUnit c f) := h.setCore ..

theorem tallyUnit (h : CoresOnly s s1) (c code n : Nat) : CoresOnly s (s1.tallyUnit c code n) := by
  unfold State.tallyUnit
  split
  · unfold State.tally
    dsimp only
    split
    · exact h.setCore ..
    · exact h
  · exact h

theorem beginRamp (h : CoresOnly s s1) (c n : Nat) : CoresOnly s (s1.beginRamp c n) := by
  unfold State.beginRamp
  refine modUnit (List.foldlRecOn (motive := CoresOnly s) _ _ h fun s2 h2 x _ => ?_) ..
  split
  · exact h2.modUnit ..
  · exact h2

theorem rampUp (h : CoresOnly s s1) (c : Nat) : CoresOnly s (s1.rampUp c) := by
  unfold State.rampUp
  dsimp only
  split
  · exact (h.beginRamp ..).tallyUnit ..
  · exact h.beginRamp ..
  · exact h.modUnit ..

theorem startUnit (h : CoresOnly s s1) (g : Gang) (fn c : Nat) : CoresOnly s (s1.startUnit g fn c) := by
  unfold State.startUnit
  extract_lets e pos s2 s3
  have h3 : CoresOnly s s3 := (h.rampUp c).modUnit ..
  clear_value s3
  split
  · exact h3
  · exact h3.modUnit ..

end CoresOnly

/-- The gang once its operation has started. -/
def started (s : State) (g : Gang) (fn : Nat) : Gang :=
  { g with
    active := g.shadow, ops := g.ops + 1, arrived := []
    op := some { fn := fn, snap := s.mem.filter (fun x => g.cores.any (fun c => decide (physUnit x.1 = padUnit c))), seen := [] } }


section
variable (s : State) (g : Gang) (fn : Nat)

/-- The state in which the gang's units have started. -/
def unitsStarted : State := g.cores.foldl (fun s1 c => s1.startUnit (started s g fn) fn c) (s.setGang (started s g fn))

theorem startOp_eq : s.startOp g fn = ((unitsStarted s g fn).noteUp (some g.id)).completeColl (started s g fn) := rfl

theorem unitsStarted_coresOnly : CoresOnly (s.setGang (started s g fn)) (unitsStarted s g fn) :=
  List.foldlRecOn (motive := CoresOnly (s.setGang (started s g fn))) g.cores _ rfl fun _ h _ _ => h.startUnit ..

theorem noteUp_threads : ((unitsStarted s g fn).noteUp (some g.id)).threads = s.threads := by
  rw [((Quiet.refl _).noteUp _).threads, unitsStarted_coresOnly]
  rfl

theorem noteUp_tick : ((unitsStarted s g fn).noteUp (some g.id)).tick = s.tick := by
  rw [((Quiet.refl _).noteUp _).tick, unitsStarted_coresOnly]
  rfl

end

/-- The operation of a gang keeps its function when it goes. -/
theorem gang_noteUp {s : State} {g : Gang} {op : MatOp} (hg : s.gang g.id = some g) (hop : g.op = some op) :
    ∃ op', (s.noteUp (some g.id)).gang g.id = some { g with op := some op' } ∧ op'.fn = op.fn := by
  simp only [State.noteUp, Option.bind_some, hg, hop]
  split
  · exact ⟨_, gang_setGang (g := { g with op := some { op with going := true } }) (by rw [hg]; rfl), rfl⟩
  · exact ⟨op, hg.trans (by rw [← hop]), rfl⟩

section
variable {s : State} {g : Gang} (hs : s.unwatched) (fn : Nat)
include hs

theorem startOp_rethreads : Rethreaded ((unitsStarted s g fn).noteUp (some g.id)) (s.startOp g fn) := by
  rw [startOp_eq]
  exact completeColl_rethreads (unwatched_of_threads hs (noteUp_threads s g fn)) _

/-- The operation of the gang has its function, the gang its shadow registers and one operation more. -/
theorem gang_startOp (hg : s.gang g.id = some g) : ∃ g', (s.startOp g fn).gang g.id = some g' ∧ g'.active = g.shadow ∧
    g'.ops = g.ops + 1 ∧ g'.arrived = [] ∧ ∃ op, g'.op = some op ∧ op.fn = fn := by
  have hstarted : (unitsStarted s g fn).gang g.id = some (started s g fn) := by
    rw [unitsStarted_coresOnly]
    exact gang_setGang (g := started s g fn) (by rw [show (started s g fn).id = g.id from rfl, hg]; rfl)
  obtain ⟨op, hop, hfn⟩ := gang_noteUp (g := started s g fn) hstarted rfl
  exact ⟨_, ((startOp_rethreads hs fn).gang _).trans hop, rfl, rfl, rfl, op, rfl, hfn⟩

/-- A member of a gang whose operation starts goes on past its collective word. -/
theorem find_startOp {u : Thread} {i : GangId} (hu : s.find u.id = some u) (hmem : u.id ∈ g.members.map (·.2))
    (hst : u.st = .waiting .gang) (hcond : u.cond = some (.coll i)) : (s.startOp g fn).find u.id = some (s.waitOver u) := by
  have hthreads := noteUp_threads s g fn
  have hover : ((unitsStarted s g fn).noteUp (some g.id)).waitOver u = s.waitOver u := by
    rw [State.waitOver, noteUp_tick, State.waitOver]
  rw [startOp_eq, ← hover]
  exact find_completeColl (unwatched_of_threads hs hthreads) ((find_of_threads hthreads _).trans hu) hmem hst hcond

end

/-! Members that are parked (09 R199; 18 R402). -/

/-- From s to s' thread v, live in s, is put FAULTED with code n; no other thread changes. -/
structure ParkedAs (s s' : State) (n : Nat) (v : Thread) : Prop where
  live : (s.find v.id).isSome = true
  threads : s'.threads = (s.put v).threads
  early : s'.early = s.early
  st : v.st = .faulted
  fcause : v.fcause = n
  cond : v.cond = none
  stores : v.stores = []

/-- The thread under the name is FAULTED with code n. -/
def FaultedWith (s : State) (i : Tid) (n : Nat) : Prop := ∃ v, s.find i = some v ∧ v.st = .faulted ∧ v.fcause = n

namespace ParkedAs
variable {s s' : State} {n : Nat} {v : Thread} (h : ParkedAs s s' n v)
include h

theorem find_self : s'.find v.id = some v := (find_of_threads h.threads _).trans (find_put h.live)

theorem find_ne {i : Tid} (hi : i ≠ v.id) : s'.find i = s.find i := (find_of_threads h.threads _).trans (find_put_ne hi)

theorem faulted : FaultedWith s' v.id n := ⟨v, h.find_self, h.st, h.fcause⟩

theorem keeps_faulted {i : Tid} (hi : FaultedWith s i n) : FaultedWith s' i n := by
  by_cases hid : i = v.id
  · exact hid ▸ h.faulted
  · rwa [FaultedWith, h.find_ne hid]

theorem isSome_find {i : Tid} (hi : (s.find i).isSome = true) : (s'.find i).isSome = true := by
  rw [find_of_threads h.threads]
  exact isSome_find_put hi

theorem unwatched (hs : s.unwatched) : s'.unwatched :=
  unwatched_of_threads (unwatched_put hs (watchesNothing_of_none h.cond)) h.threads

theorem storesPerformed {g : Gang} (hg : StoresPerformed s g) : StoresPerformed s' g := by
  refine ⟨h.early.trans hg.early, fun x hx t ht => ?_⟩
  by_cases hid : x.2 = v.id
  · rw [hid, h.find_self] at ht
    exact Option.some.inj ht ▸ h.stores
  · exact hg.stores x hx t ((h.find_ne hid).symm.trans ht)

end ParkedAs

theorem unstep_early (s : State) (i : Tid) : (s.unstep i).early = s.early := by
  unfold State.unstep
  split <;> rfl

theorem gangParked_early (s : State) (t : Thread) : (s.gangParked t).early = s.early := by
  unfold State.gangParked
  split <;> rfl

theorem put_threads_of_threads {s s' : State} (h : s'.threads = s.threads) (t : Thread) : (s'.put t).threads = (s.put t).threads := by
  rw [State.put, State.put, h]

/-- A thread that has been parked with a fault of code n (18 R402). -/
def parkedThread (t : Thread) (n : Nat) : Thread :=
  { t with slot := none, ctl := false, linesIn := [], age := 0, claim := none, st := .faulted, fcause := n, walk := none, pend := none
           req := none, stepped := false, cond := none, waitarg := 0, deadline := w64 (2 ^ 64 - 1) }

theorem park_of_drained {s : State} {t : Thread} (ht : s.find t.id = some t) (hd : s.drained t) (f : Flt) (async ctx : Bool) (word : Nat)
    (own : Bool) : ∃ v, v.id = t.id ∧ ParkedAs s (s.park t f async ctx word own) f.cause.code v := by
  have hleft : Quiet (s.put t) ((s.put t).releaseSlot t).1 := (Quiet.refl _).releaseSlot t
  unfold State.park
  simp only [vacate_of_drained ht hd, releaseSlot_thread]
  refine ⟨parkedThread t f.cause.code, rfl, ⟨Option.isSome_of_eq_some ht, ?_, ?_, rfl, rfl, rfl, hd.1⟩⟩
  · rw [Left.gangParked_threads, ((Quiet.refl _).pushRec ..).threads,
      put_threads_of_threads ((Left.unstep_threads ..).trans hleft.threads)]
    exact congrArg State.threads (put_put (u := parkedThread t f.cause.code) rfl)
  · rw [gangParked_early, ((Quiet.refl _).pushRec ..).early, put_early, unstep_early, hleft.early, put_early]

theorem parkMember_of_found {s : State} {g : Gang} {k : Nat} {t : Thread} (hk : g.members.find? (fun x => x.1 == k) = some (k, t.id))
    (ht : s.find t.id = some t) (c : Cause) :
    s.parkMember g k c = s.park t (.plain c (w64 g.id.record)) false false t.iword := by
  simp only [State.parkMember, hk, Option.bind_some, ht]

section
variable {s : State} {g : Gang} (hg : StoresPerformed s g) (k : Nat) (c : Cause)
include hg

theorem parkMember_of_member {i : Tid} (hk : g.members.find? (fun x => x.1 == k) = some (k, i)) (hi : (s.find i).isSome = true) :
    ∃ v, v.id = i ∧ ParkedAs s (s.parkMember g k c) c.code v := by
  obtain ⟨t, ht⟩ := Option.isSome_iff_exists.1 hi
  have hd : s.drained t := hg.drained (List.mem_of_find?_eq_some hk) ht
  obtain rfl := find_id ht
  rw [parkMember_of_found hk ht]
  exact park_of_drained ht hd ..

theorem parkMember_cases : s.parkMember g k c = s ∨ ∃ v, ParkedAs s (s.parkMember g k c) c.code v := by
  cases hk : g.members.find? (fun x => x.1 == k) with
  | none => exact .inl (by simp only [State.parkMember, hk, Option.bind_none])
  | some x =>
    obtain ⟨j, i⟩ := x
    obtain rfl : j = k := by simpa using List.find?_some hk
    cases hi : s.find i with
    | none => exact .inl (by simp only [State.parkMember, hk, Option.bind_some, hi])
    | some t =>
      obtain ⟨v, -, hv⟩ := parkMember_of_member hg j c hk (Option.isSome_of_eq_some hi)
      exact .inr ⟨v, hv⟩

end

/-- A member that a mixed collective names is parked with the fault of its form, and stays so while the others are parked (09 R199). -/
theorem parkMembers_fault {s : State} {g : Gang} (hg : StoresPerformed s g) (hs : s.unwatched) (c : Cause) {l : List (Nat × Nat)}
    {x : Nat × Nat} (hx : x ∈ l) {i : Tid} (hk : g.members.find? (fun y => y.1 == x.1) = some (x.1, i)) (hi : (s.find i).isSome = true) :
    FaultedWith (l.foldl (fun s a => s.parkMember g a.1 c) s) i c.code ∧ (l.foldl (fun s a => s.parkMember g a.1 c) s).unwatched := by
  refine foldl_reaches (I := fun s => (StoresPerformed s g ∧ s.unwatched) ∧ (s.find i).isSome = true)
    (P := fun s => FaultedWith s i c.code ∧ s.unwatched) (fun s a _ ⟨⟨hg, hs⟩, hi⟩ => ?_) (fun s a _ ⟨⟨hg, _⟩, _⟩ hfaulted => ?_) hx
    (fun s ⟨⟨hg, hs⟩, hi⟩ => ?_) ⟨⟨hg, hs⟩, hi⟩
  · obtain hsame | ⟨v, hv⟩ := parkMember_cases hg a.1 c
    · rw [hsame]
      exact ⟨⟨hg, hs⟩, hi⟩
    · exact ⟨⟨hv.storesPerformed hg, hv.unwatched hs⟩, hv.isSome_find hi⟩
  · obtain hsame | ⟨v, hv⟩ := parkMember_cases hg a.1 c
    · rwa [hsame]
    · exact ⟨hv.keeps_faulted hfaulted.1, hv.unwatched hfaulted.2⟩
  · obtain ⟨v, rfl, hv⟩ := parkMember_of_member hg x.1 c hk hi
    exact ⟨hv.faulted, hv.unwatched hs⟩

/-- Settles O42: without stores to perform nothing is drained; then the arrived members' words are one GANG.LEAVE, one GANG.MMA with a
valid or an invalid set, or not all one. -/
theorem gangResolution : Obligations.GangResolution := by
  unfold Obligations.GangResolution
  intro s g u fn c k e waiting parked hg hresolves hs hstores hearly
  have hperformed : StoresPerformed s g := ⟨hearly, hstores⟩
  obtain ⟨hdrained, hfind⟩ := drainMembers_rethreads hs hperformed
  have hperformed' : StoresPerformed (s.drainMembers g) g :=
    ⟨hdrained.early.trans hearly, fun x hx t ht => hstores x hx t ((hfind _).symm.trans ht)⟩
  have hexec := exec_gangResolution hg hresolves hs hperformed
  have hg' := (hdrained.gang g.id).trans hg
  refine ⟨fun hsame hleave hwaits => ?_, fun hsame hfn h8 hvalid => ?_, fun hsame hfn h8 hinvalid hleader hu => ?_,
    fun hx hne hwaits hmember hu => ?_⟩
  · have hends := completeColl_rethreads (unwatched_dissolve (g := g) hdrained.unwatched) g
    rw [resolve_of_same hsame hleave, if_pos rfl, hends.checkWatches] at hexec
    refine ⟨_, hexec fun _ => hwaits, (hends.gang _).trans (dissolve_gone ..), fun hunit hc => ?_, fun hw hgang => ?_⟩
    · rw [← hdrained.core] at hunit
      rw [hends.core, dissolve_frees hc hunit]
      exact ⟨rfl, rfl⟩
    · obtain ⟨hu, hmem, hst, hcond⟩ := hw
      rw [find_dissolve_completeColl hdrained.unwatched ((hfind _).trans hu) hmem hst hcond hgang, hdrained.waitOver]
  · have hstart := startOp_rethreads (g := g) hdrained.unwatched fn
    rw [resolve_of_valid hsame hfn h8 ((hdrained.setValid ..).trans hvalid), hstart.checkWatches] at hexec
    obtain ⟨g', hgang, hactive, hops, harrived, hop⟩ := gang_startOp hdrained.unwatched fn hg'
    refine ⟨_, g', hexec fun hleave => absurd (hfn.symm.trans hleave) (by omega), hgang, hactive, hops, harrived, hop, fun hw => ?_⟩
    obtain ⟨hu, hmem, hst, hcond⟩ := hw
    rw [find_startOp hdrained.unwatched fn ((hfind _).trans hu) hmem hst hcond, hdrained.waitOver]
  · obtain ⟨v, hid, hv⟩ := parkMember_of_member hperformed' 0 .matrixConfiguration hleader (Option.isSome_of_eq_some ((hfind _).trans hu))
    rw [resolve_of_invalid hsame hfn h8 ((hdrained.setValid ..).trans hinvalid),
      checkWatches_of_unwatched (hv.unwatched hdrained.unwatched)] at hexec
    exact ⟨_, v, hexec fun hleave => absurd (hfn.symm.trans hleave) (by omega), hid ▸ hv.find_self, hv.st, hv.fcause⟩
  · have hwrong : (k, c) ∈ g.arrived.filter (fun a => a.2 ≠ Sparse.get 0 g.arrived 0) := List.mem_filter.2 ⟨hx, by simpa using hne⟩
    obtain ⟨⟨v, hv, hst, hcause⟩, hunwatched⟩ := parkMembers_fault hperformed' hdrained.unwatched .matrixForm hwrong hmember
      (Option.isSome_of_eq_some ((hfind _).trans hu))
    rw [resolve_of_mixed hx hne, checkWatches_of_unwatched hunwatched] at hexec
    exact ⟨_, v, hexec hwaits, hv, hst, hcause⟩

end Sys2Proof.Proofs

/-! PROOF. The retirement of a core when two records of threads bear one name (19 R433; 17 R389). -/
namespace Sys2Proof.Proofs
open Sys2Proof.Machine Sys2Proof.Laws

/-- The first record of the name: on core 0, which stays enabled. -/
def stayingTwin : Thread := { probeThread with slot := none, st := .ready }

/-- The second record of the name: on core 16, waiting at the barrier of a row of which no core is enabled. -/
def waitingTwin : Thread := { probeThread with core := 16, slot := none, st := .waiting .sbar, cond := some (.sbar (netOf 0 16) 0 0 1000) }

/-- Core 0 alone is enabled, and core 16 is to retire. -/
def twinState : State := { State.reset with encores := 1, retiring := [16], threads := [stayingTwin, waitingTwin] }

theorem twinState_unwatched : twinState.unwatched := by
  have hwaiting : WatchesNothing waitingTwin := by
    constructor <;> simp [waitingTwin]
  exact unwatched_iff.2 (List.forall_mem_cons.2 ⟨watchesNothing_of_none rfl, List.forall_mem_singleton.2 hwaiting⟩)

/-- Step 2 of R433 looks each thread up by its name, finds the first record both times and moves none; step 4 ends the row's episode and
releases the second record, which then stands for the name, on the retired core. -/
theorem twinState_coreRetirement :
    ∃ s', exec (.coreRetirement [16]) twinState = .next s' ∧ (s'.find probeThread.id).map (·.core) = some 16 := by
  refine ⟨_, rfl, ?_⟩
  decide +kernel

/-- Refutes O48: its clause for the retirement of cores does not suppose that the names of threads are distinct. Of two records of one
name the move sees the first alone, on an enabled core; the second, left on the retired core, waits at a barrier that the retirement
abandons, and its release makes it the record of the name. -/
theorem not_ownershipSteps : ¬ Obligations.OwnershipSteps := by
  unfold Obligations.OwnershipSteps
  intro h
  obtain ⟨-, -, -, -, -, -, hretires, -⟩ := h twinState 0 0 0 0 [16] twinState_unwatched rfl
  have hempty : ∀ c ∈ twinState.retiring.filter [16].contains, twinState.coreEmpty c = true ∧ twinState.coreOn c = false := by
    decide +kernel
  have hon : ∃ c, c < 2048 ∧ twinState.coreOn c = true := ⟨0, by decide, by decide +kernel⟩
  obtain ⟨s', hs', -, hmoved, -⟩ := hretires (by decide) hempty hon
  obtain ⟨s1, hs1, hfound⟩ := twinState_coreRetirement
  obtain rfl := Host.Outcome.next.inj (hs1.symm.trans hs')
  obtain ⟨t, ht, hcore⟩ := Option.map_eq_some_iff.1 hfound
  refine hmoved _ t ht ?_
  rw [hcore]
  decide

end Sys2Proof.Proofs

/-! PROOF. Loads (11 R240, R244; 12 R259, R266): what each leaves outstanding or writes, what its bytes become, and the fill that binds
it. -/
namespace Sys2Proof.Proofs
open Sys2Proof.Machine Sys2Proof.Laws

@[simp] theorem foldl_wr_pc (l : List (Nat × Word)) (t : Thread) : (l.foldl (fun t x => t.wr x.1 x.2) t).pc = t.pc := by
  induction l generalizing t with
  | nil => rfl
  | cons x l ih => rw [List.foldl_cons, ih, wr_pc]

theorem foldl_wr_settled (l : List (Nat × Word)) (t : Thread) : (l.foldl (fun t x => t.wr x.1 x.2) t).settled = t.settled := by
  induction l generalizing t with
  | nil => rfl
  | cons x l ih => rw [List.foldl_cons, ih, wr_settled]

/-- A load whose checks pass, to a place that is no context line, ends as its bytes are found. -/
theorem loadInstr_of_reaches {s : State} {t : Thread} {ea : Int} {n : Nat} {g : Target} {x : Loaded} (ht : s.find t.id = some t)
    (h : Reaches s t n { ea := ea, n := n, kind := .load, write := false } g) (hx : s.loadBytes t ea.toNat g n = .ok x) (acq : Bool)
    (conv : LoadConv) : s.loadInstr t ea n acq conv = .ok (s.finishLoad t .load ea.toNat n acq conv x) := by
  have hreach := h.1
  simp only [State.loadInstr, hreach, syncFrame_of_reaches h, again_of_find ht, hx]

theorem pa_pad (c off : Nat) : (Target.pad c off).pa = physAddr (padUnit c) off := rfl

/-- A load of the own scratchpad finds its bytes at once (02 R27). -/
theorem loadBytes_ownPad (s : State) (t : Thread) (va off n : Nat) :
    s.loadBytes t va (.pad t.core off) n = .ok (.here (s.seenBytes t (Target.pad t.core off).pa n)
      (s.viewPoison t va (Target.pad t.core off).pa n)) := by
  rw [State.loadBytes, State.seenBytes, pa_pad, map_upto, if_pos rfl]

theorem loadBytes_otherPad {s : State} {t : Thread} {c : Nat} (h : c ≠ t.core) (va off n : Nat) :
    s.loadBytes t va (.pad c off) n = .ok (.away (Target.pad c off).pa none none) := if_neg h

theorem loadBytes_mem {s : State} {t : Thread} {l : Loc} (h : s.lineAt l.spot.pa = none) (va n : Nat) :
    s.loadBytes t va (.mem l) n = .ok (.away l.spot.pa (some l.leaf) (some l.spot)) := by
  simp only [State.loadBytes, h]

/-! How a load form ends, from what it has found. -/

theorem fills_of_finishLoad {s : State} {t : Thread} {i : Instr} {kd : AccKind} {va n : Nat} {acq : Bool} {conv : LoadConv} {pa : Nat}
    {leaf : Option Word} {spot : Option Spot} {k : State → Thread → Except Stop State} (hexec : exec i s = word i s k)
    (hk : s.find t.id = some t → k s t = .ok (s.finishLoad t kd va n acq conv (.away pa leaf spot))) :
    Fills s t i (s.loadFill t kd va n acq conv pa leaf spot) := fun hi =>
  completes_of_retire hexec (hk (issues_find hi)) (produce_id ..) (produce_pc ..) (produce_settled ..) hi

section
variable {s : State} {t : Thread} {i : Instr} {ea : Int} {n : Nat} {acq : Bool} {conv : LoadConv} {k : State → Thread → Except Stop State}
  {g : Target} (hexec : exec i s = word i s k) (hk : k s t = s.loadInstr t ea n acq conv)
  (h : Reaches s t n { ea := ea, n := n, kind := .load, write := false } g)
include hexec hk h

theorem completes_of_found {bs : List Byte} (hx : s.loadBytes t ea.toNat g n = .ok (.here bs none)) :
    Completes s t i ((conv.regs bs).foldl (fun t r => t.wr r.1 r.2) (s.bindLoads t)) := fun hi =>
  completes_of_retire hexec (hk.trans (loadInstr_of_reaches (issues_find hi) h hx acq conv)) (foldl_wr_id ..) (foldl_wr_pc ..)
    (foldl_wr_settled ..) hi

theorem completes_of_poisoned {bs : List Byte} {w : Nat} (hx : s.loadBytes t ea.toNat g n = .ok (.here bs (some w))) :
    Completes s t i ((s.bindLoads t).produce { regs := conv.regs [], flags := 0, float := false, req := none, mem := true, acq := acq
                                               bad := some (.poisonedData, .load, w64 w) }) := fun hi =>
  completes_of_retire hexec (hk.trans (loadInstr_of_reaches (issues_find hi) h hx acq conv)) (produce_id ..) (produce_pc ..)
    (produce_settled ..) hi

theorem fills_of_away {spot : Option Spot} (hx : s.loadBytes t ea.toNat g n = .ok (.away g.pa g.leaf? spot))
    (hreq : spot.bind (s.reqOf t.core .load ea.toNat) = g.request s t .load ea.toNat) :
    Fills s t i { regs := conv.regs [], flags := 0, float := false, req := g.request s t .load ea.toNat, bad := none, mem := true, acq := acq
                  pos := t.stores.length, src := some { va := ea.toNat, pa := g.pa, n := n, leaf := g.leaf?, conv := conv
                                                        kind := .load, half := none } } := by
  have hfill := fills_of_finishLoad hexec fun ht => hk.trans (loadInstr_of_reaches ht h hx acq conv)
  rw [State.loadFill, hreq] at hfill
  exact hfill

end

/-- Every load form: a load of its size, with its conversion. -/
theorem loads_of_loadInstr {s : State} {t : Thread} {i : Instr} {ea : Int} {n : Nat} {acq : Bool} {conv : LoadConv}
    {k : State → Thread → Except Stop State} (hexec : exec i s = word i s k) (hk : k s t = s.loadInstr t ea n acq conv) :
    Loads s t i ea n acq conv := by
  intro g h
  obtain ⟨-, hline, -⟩ := id h
  cases g with
  | mem l =>
    have hfills := fills_of_away hexec hk h (loadBytes_mem hline ..) rfl
    exact hfills
  | pad c off =>
    intro va fill awaits
    by_cases hc : c = t.core
    · refine (if_pos hc).mpr ?_
      have hown := loadBytes_ownPad s t va off n
      rw [← hc] at hown
      cases hpoison : s.viewPoison t va (Target.pad c off).pa n with
      | none =>
        rw [hpoison] at hown
        exact completes_of_found hexec hk h hown
      | some w =>
        rw [hpoison] at hown
        exact completes_of_poisoned hexec hk h hown
    · have hfills := fills_of_away hexec hk h (loadBytes_otherPad hc ..) rfl
      exact (if_neg hc).mpr hfills

/-! What the bytes of a load become (11 R240). -/

/-- The signed value of the low bits of a number. -/
theorem sval_eq_toInt (n v : Nat) (hn : 0 < n) : sval v n = (BitVec.ofNat n v).toInt := by
  rw [← sval_toNat _ hn, BitVec.toNat_ofNat, sval, sval, Nat.mod_mod]

theorem regs_sign (r n : Nat) (bs : List Byte) (hn : 1 ≤ n) :
    (LoadConv.sign r n).regs bs = [(r, (BitVec.ofNat (8 * n) (ofBytes bs)).signExtend 64)] := by
  rw [LoadConv.regs, sval_eq_toInt _ _ (by omega)]
  rfl

/-- The number that bytes hold, in two parts (00 R2). -/
theorem ofBytes_append (l m : List Byte) : ofBytes (l ++ m) = ofBytes l + 256 ^ l.length * ofBytes m := by
  induction l with
  | nil => simp [ofBytes]
  | cons b l ih => rw [List.cons_append, ofBytes, ih, ofBytes, List.length_cons, pow_succ']; ring

theorem ofBytes_lt (l : List Byte) : ofBytes l < 256 ^ l.length := by
  induction l with
  | nil => exact Nat.one_pos
  | cons b l ih =>
    have hb := b.isLt
    rw [ofBytes, List.length_cons, pow_succ']
    omega

/-- A pair takes the low eight bytes and the bytes above them. -/
theorem regs_pair (r : Nat) (bs : List Byte) (h : 8 ≤ bs.length) :
    (LoadConv.pair r).regs bs = [(r, BitVec.ofNat 64 (ofBytes bs)), (r + 1, BitVec.ofNat 64 (ofBytes bs / 2 ^ 64))] := by
  have hlen : (bs.take 8).length = 8 := List.length_take_of_le h
  have hsplit : ofBytes bs = ofBytes (bs.take 8) + 2 ^ 64 * ofBytes (bs.drop 8) := by
    conv_lhs => rw [← List.take_append_drop 8 bs, ofBytes_append, hlen]
    rfl
  have hlow : ofBytes (bs.take 8) < 2 ^ 64 := by
    have hlt := ofBytes_lt (bs.take 8)
    rw [hlen] at hlt
    exact hlt
  have hfirst : BitVec.ofNat 64 (ofBytes (bs.take 8)) = BitVec.ofNat 64 (ofBytes bs) := by
    refine BitVec.eq_of_toNat_eq ?_
    rw [BitVec.toNat_ofNat, BitVec.toNat_ofNat, hsplit, Nat.add_mul_mod_self_left]
  have hsecond : ofBytes (bs.drop 8) = ofBytes bs / 2 ^ 64 := by
    rw [hsplit, Nat.add_mul_div_left _ _ (Nat.two_pow_pos 64), Nat.div_eq_of_lt hlow, Nat.zero_add]
  rw [LoadConv.regs, w64, w64, hfirst, hsecond]

/-! The fill of a load (12 R259, R266). -/

/-- No frame of a load from a page of another class than CTX can be absent when its value is due (18 R422). -/
theorem frameGone_eq_false {s : State} {t : Thread} {x : LoadSrc} (h : ∀ e, x.leaf = some e → Leaf.cls e ≠ 3) : s.frameGone t x = false := by
  unfold State.frameGone
  split
  next e u he hu => simp [h e he]
  next => rfl

section
variable {s : State} {t : Thread} {f : Fill} {x : LoadSrc} (hsrc : f.src = some x) (hhalf : x.half = none)
  (hleaf : ∀ e, x.leaf = some e → Leaf.trans e = false ∧ Leaf.cls e ≠ 3) (hline : s.lineAt x.pa = none)
include hsrc hhalf hleaf hline

/-- A load of a stable place binds the bytes that its thread sees there past the stores before it. -/
theorem bindFill_of_clean (hclean : s.viewPoison { t with stores := t.stores.take f.pos } x.va x.pa x.n = none) :
    s.bindFill t f = { f with src := none, regs := x.conv.regs (s.seenBytes { t with stores := t.stores.take f.pos } x.pa x.n) } := by
  have hstays (u : Thread) : s.srcPa u x = x.pa := srcPa_of_stable fun e he => (hleaf e he).1
  have hpoison : s.loadPoison { t with stores := t.stores.take f.pos } x.va x.pa x.n = none := by
    simp only [State.loadPoison, hline, hclean]
  simp only [State.bindFill, hsrc, hstays, frameGone_eq_false fun e he => (hleaf e he).2, hpoison, State.srcBytes, hhalf,
    loadAt_of_memory hline, Bool.false_eq_true, if_false]

/-- 02 R34: the fill of a load in memory reaches the registers with the bytes that are bound now. -/
theorem registerFill_load {i : Tid} {k : Nat} (h : s.find i = some t) (hst : t.st = .resident) (hf : t.fills[k]? = some f)
    (hbad : f.bad = none) (hl : f.req.any s.reqLost = false) (hwhole : x.hostPair = false) (hrecall : s.recalling x.pa = false)
    (hclean : s.viewPoison { s.bindUpTo t k with stores := t.stores.take f.pos } x.va x.pa x.n = none) :
    let u := s.bindUpTo t k
    let regs := x.conv.regs (s.seenBytes { u with stores := u.stores.take f.pos } x.pa x.n)
    let v := (regs.foldl (fun t r => t.wr r.1 r.2) ({ u.dropFill k s.tick with saw := s.sawWith u [f] } : Thread)).noted
      (regs.map (16 + ·.1))
    exec (.registerFill i k) s = .next ((s.clearMarks u regs).put { v with fpf := v.fpf ||| f.flags }) := by
  intro u regs v
  obtain rfl := find_id h
  have hid : v.id = t.id := by simp [v, u, State.bindUpTo]
  have hres : v.st = .resident := by simp [v, u, State.bindUpTo, hst]
  have hput := (put_spec (u := { v with fpf := v.fpf ||| f.flags }) ((Quiet.refl s).clearMarks u regs).find h hid).1
  have hstays : s.srcPa u x = x.pa := srcPa_of_stable fun e he => (hleaf e he).1
  have hbind : s.bindFill u f = { f with src := none, regs := regs } := bindFill_of_clean hsrc hhalf hleaf hline hclean
  have hdelivered : s.deliverFill t k = ((s.clearMarks u regs).put { v with fpf := v.fpf ||| f.flags }).recheck u.id := by
    have huf : u.fills[k]? = some f := bindUpTo_fill hf
    simp only [State.deliverFill, huf, hl, hsrc, hstays, hrecall, hwhole, hbind, hbad, Option.any_some, Bool.or_self, Bool.false_eq_true,
      if_false, v, u]
  rw [registerFill_of_find h, if_pos (List.getElem?_eq_some_iff.1 hf).1, hdelivered]
  exact congrArg _ (recheck_of_resident hput hres)

end

/-- Binding leaves the fills their places: the k-th fill after binding those before it is the k-th fill (12 R266). -/
theorem fill_of_bindUpTo {s : State} {t : Thread} {k : Nat} {f : Fill} (h : (s.bindUpTo t k).fills[k]? = some f) : t.fills[k]? = some f := by
  cases hk : t.fills[k]? with
  | some f' => rw [← h, bindUpTo_fill hk]
  | none =>
    have hlen := List.getElem?_eq_none_iff.1 hk
    simp [State.bindUpTo, hlen] at h

/-- Settles O13: every form is one load of its size and conversion; the bytes are the register's low ones; and the fill of a RESIDENT thread
binds the bytes that its thread sees. -/
theorem loadResults : Obligations.LoadResults := by
  refine ⟨?_, ?_, ?_⟩
  · intro s t d a dp o q ea ra z x
    have plain {i : Instr} {n : Nat} {conv : LoadConv}
        (hexec : exec i s = word i s fun s t => s.loadInstr t (eaOf t a o) n false conv) : Loads s t i ea n false conv :=
      loads_of_loadInstr hexec rfl
    have acquire {i : Instr} {n : Nat} {conv : LoadConv}
        (hexec : exec i s = word i s fun s t => s.loadInstr t (regEa t a) n true conv) : Loads s t i ra n true conv :=
      loads_of_loadInstr hexec rfl
    exact ⟨plain rfl, plain rfl, plain rfl, plain rfl, plain rfl, plain rfl, plain rfl, plain rfl, acquire rfl, acquire rfl, acquire rfl,
      acquire rfl, acquire rfl, acquire rfl, acquire rfl, acquire rfl⟩
  · intro r n bs hlen hn
    exact ⟨rfl, fun _ => regs_sign r n bs hn, fun h16 => regs_pair r bs (by omega)⟩
  · intro s t k f x u before regs v h hst hf hsrc hbad hl hhalf hwhole hleaf hline hrecall hclean
    exact registerFill_load hsrc hhalf hleaf hline h hst (fill_of_bindUpTo hf) hbad hl hwhole hrecall hclean

end Sys2Proof.Proofs

/-! PROOF. Stores (11 R241, R243): what each enters in the store buffer, and what a release leaves for the stores after it. -/
namespace Sys2Proof.Proofs
open Sys2Proof.Machine Sys2Proof.Laws

/-- 00 R2: the low bytes of a register are its low bits in eights. -/
theorem low_eq_lowBytes (t : Thread) (r n : Nat) : t.low r n = lowBytes (t.rd r) n := by
  rw [Thread.low, toBytes_eq_map, lowBytes]
  refine List.map_congr_left fun k _ => ?_
  rw [BitVec.extractLsb', Nat.shiftRight_eq_div_pow]

@[simp] theorem length_lowBytes (w : Word) (n : Nat) : (lowBytes w n).length = n := by
  rw [lowBytes, List.length_map, List.length_range]

/-! A thread replaced by one whose frame lies where it lay (05 R121). -/

/-- No line of a frame lies at the place. -/
theorem lineAt_eq_none_iff {s : State} {pa : Nat} :
    s.lineAt pa = none ↔ ∀ u ∈ s.threads, ∀ l, u.placed = some l → ∀ i ∈ u.lineList, l.getD i 0 ≠ alignDown pa 128 := by
  unfold State.lineAt
  rw [List.findSome?_eq_none_iff]
  refine forall₂_congr fun u _ => ?_
  cases u.placed with
  | none => simp
  | some l => simp

theorem lineAt_put {s : State} {t u : Thread} {pa : Nat} (h : s.lineAt pa = none) (ht : t ∈ s.threads) (hplaced : u.placed = t.placed)
    (hlines : u.lineList = t.lineList) : (s.put u).lineAt pa = none := by
  refine lineAt_eq_none_iff.2 fun v hv => ?_
  obtain rfl | ⟨hv, -⟩ := mem_put_threads hv
  · rw [hplaced, hlines]
    exact lineAt_eq_none_iff.1 h t ht
  · exact lineAt_eq_none_iff.1 h v hv

/-! The checks of an access to no page of class CTX do not look at the threads (11 R239; 18 R412). -/

theorem ctxWaits_eq_false {s : State} {g : Target} (h : ∀ l, g = .mem l → Leaf.cls l.leaf ≠ 3) (sdom va : Nat) :
    s.ctxWaits sdom va g = false := by
  cases g with
  | pad => rfl
  | mem l => simp [State.ctxWaits, Target.leaf?, h l rfl]

theorem reach_eq_ok_iff {s : State} {t : Thread} {al : Nat} {a : Access} {g : Target} (h : ∀ l, g = .mem l → Leaf.cls l.leaf ≠ 3) :
    s.reach t al a = .ok g ↔ s.access t.core t.id.sdom al a = .ok g ∧ s.dataSlot t a.ea.toNat a.n a.kind = none := by
  unfold State.reach
  cases s.access t.core t.id.sdom al a with
  | error e => simp
  | ok g' =>
    constructor
    · intro hreach
      dsimp only at hreach
      split at hreach
      · cases hreach
      · split at hreach
        · cases hreach
        · obtain rfl := Except.ok.inj hreach
          exact ⟨rfl, ‹_›⟩
    · rintro ⟨hg, hslot⟩
      obtain rfl := Except.ok.inj hg
      simp only [ctxWaits_eq_false h, hslot, Bool.false_eq_true, if_false]

/-- An access that a thread may make it may make once it has released its stores (11 R243). -/
theorem reaches_release {s : State} {t : Thread} {al : Nat} {a : Access} {g : Target} (h : Reaches s t al a g) (ht : t ∈ s.threads)
    (q : Scope) : Reaches (s.put (s.release t q)) (s.release t q) al a g := by
  obtain ⟨hreach, hline, hcls⟩ := h
  have hchecks : s.access t.core t.id.sdom al a = .ok g ∧ s.dataSlot t a.ea.toNat a.n a.kind = none := (reach_eq_ok_iff hcls).1 hreach
  exact ⟨(reach_eq_ok_iff hcls).2 hchecks, lineAt_put hline ht rfl rfl, hcls⟩

/-! A store that reaches no context line enters the store buffer (11 R241). -/

theorem storeInstr_of_reaches {s : State} {t : Thread} {ea : Int} {al : Nat} {bs : List Byte} {g : Target} (ht : s.find t.id = some t)
    (h : Reaches s t al { ea := ea, n := bs.length, kind := .store, write := true } g) :
    s.storeInstr t ea al bs = .ok (s.retire (buffered s t g ea.toNat bs)) := by
  obtain ⟨hreach, -⟩ := id h
  have hfind : (s.put (buffered s t g ea.toNat bs)).find t.id = some (buffered s t g ea.toNat bs) := find_put_of_find rfl ht rfl
  have hagain : (s.put (buffered s t g ea.toNat bs)).again t = buffered s t g ea.toNat bs := by
    rw [State.again, hfind, Option.getD_some]
  simp only [State.storeInstr, hreach, syncFrame_of_reaches h, again_of_find ht, storeBytes_of_reaches h, hagain]
  exact congrArg Except.ok (put_put rfl)

/-- A release store enters the buffer of its thread after the release (11 R243). -/
theorem storeRel_of_reaches {s : State} {t : Thread} {ea : Int} {al : Nat} {bs : List Byte} {g : Target} (ht : s.find t.id = some t)
    (h : Reaches s t al { ea := ea, n := bs.length, kind := .store, write := true } g) (q : Scope) :
    s.storeRel t q ea al bs = .ok (s.retire (buffered s (s.release t q) g ea.toNat bs)) := by
  have hfind : (s.put (s.release t q)).find (s.release t q).id = some (s.release t q) := find_put_of_find rfl ht rfl
  rw [State.storeRel, storeInstr_of_reaches hfind (reaches_release h (mem_of_find ht) q)]
  exact congrArg Except.ok (put_put rfl)

section
variable {s : State} {t : Thread} {i : Instr} {ea : Int} {al : Nat} {bs : List Byte} {k : State → Thread → Except Stop State}
  (hexec : exec i s = word i s k)
include hexec

theorem buffers_of_storeInstr (hk : k s t = s.storeInstr t ea al bs) : Buffers s t t i ea al bs := fun _ h hi =>
  completes_of_retire hexec (hk.trans (storeInstr_of_reaches (issues_find hi) h)) rfl rfl rfl hi

theorem buffers_of_storeRel {q : Scope} (hk : k s t = s.storeRel t q ea al bs) : Buffers s t (s.released t q) i ea al bs := fun _ h hi =>
  completes_of_retire hexec (hk.trans (storeRel_of_reaches (issues_find hi) h q)) rfl rfl rfl hi

end

/-- Settles O14: every form is one store of its register's low bytes, or of the two registers of its pair; ST.rel makes it after its
release. -/
theorem storeResults : Obligations.StoreResults := by
  intro s t v a vp o q ea ra b p u
  have hlow (n : Nat) : t.low v.toNat n = b n := low_eq_lowBytes t v.toNat n
  have hpair (r : Nat) : t.low r 8 ++ t.low (r + 1) 8 = p r := by rw [low_eq_lowBytes, low_eq_lowBytes]
  have plain {i : Instr} {n : Nat} (hexec : exec i s = word i s fun s t => s.storeInstr t (eaOf t a o) n (t.low v.toNat n)) :
      Buffers s t t i ea n (b n) :=
    buffers_of_storeInstr hexec (congrArg (s.storeInstr t ea n) (hlow n))
  have release {i : Instr} {n : Nat} (hexec : exec i s = word i s fun s t => s.storeRel t q (regEa t a) n (t.low v.toNat n)) :
      Buffers s t u i ra n (b n) :=
    buffers_of_storeRel hexec (congrArg (s.storeRel t q ra n) (hlow n))
  refine ⟨plain rfl, plain rfl, plain rfl, plain rfl, ?_, release rfl, release rfl, release rfl, release rfl, ?_⟩
  · exact buffers_of_storeInstr (k := fun s t => s.storeInstr t (eaOf t a o) 16 (t.low (2 * vp.toNat) 8 ++ t.low (2 * vp.toNat + 1) 8)) rfl
      (congrArg (s.storeInstr t ea 16) (hpair _))
  · exact buffers_of_storeRel (k := fun s t => s.storeRel t q (regEa t a) 16 (t.low v.toNat 8 ++ t.low (v.toNat + 1) 8)) rfl
      (congrArg (s.storeRel t q ra 16) (hpair _))

end Sys2Proof.Proofs

/-! PROOF. Writes of bytes within a line of memory: what each domain reads then (10 R230; 20 R445, R446), and that nothing else of the state
changes. -/
namespace Sys2Proof.Proofs
open Sys2Proof.Machine Sys2Proof.Laws

/-! What the byte of a line depends on. -/

/-- A line lies in one unit. -/
theorem physUnit_of_line {a b : Nat} (h : a / 128 = b / 128) : physUnit a = physUnit b := by
  have hdiv (x : Nat) : x / 2 ^ 52 = x / 128 / 2 ^ 45 := (Nat.div_div_eq_div_mul x 128 (2 ^ 45)).symm
  rw [physUnit, physUnit, hdiv, hdiv, h]

theorem keyOfLine_of_line (s : State) {a b : Nat} (h : a / 128 = b / 128) : s.keyOfLine a = s.keyOfLine b := by
  rw [State.keyOfLine, State.keyOfLine, h]

theorem sameKey_of_line (s : State) (d : Nat) {a b : Nat} (h : a / 128 = b / 128) : s.sameKey d a = s.sameKey d b := by
  rw [State.sameKey, State.sameKey, physUnit_of_line h, keyOfLine_of_line s h]

/-- A byte reads alike where its line has the same key and the same bytes. -/
theorem byteAs_of_sameLine {s s' : State} {a : Nat} (hdomains : s'.domains = s.domains) (hkey : s'.keyOfLine a = s.keyOfLine a)
    (hraw : ∀ x, x / 128 = a / 128 → s'.rawByte x = s.rawByte x) (e : Nat) : s'.byteAs e a = s.byteAs e a := by
  have hdomain : s'.domain e = s.domain e := congrArg (Sparse.get Domain.init · e) hdomains
  have hunit (u : Nat) : s'.unitKey e u = s.unitKey e u := by rw [State.unitKey, State.unitKey, State.domKey, State.domKey, hdomain]
  have hsame : s'.sameKey e a = s.sameKey e a := by rw [State.sameKey, State.sameKey, hkey, hunit]
  have hblock : (upto (alignDown a 16) 16).map s'.rawByte = (upto (alignDown a 16) 16).map s.rawByte := by
    refine List.map_congr_left fun x hx => hraw x ?_
    rw [upto_eq_range', List.mem_range'_1, alignDown] at hx
    omega
  rw [State.byteAs, State.byteAs, hsame, hkey, hunit, hblock, hraw a rfl]

theorem byteAs_of_sameKey {s : State} {d a : Nat} (h : s.sameKey d a = true) : s.byteAs d a = s.rawByte a := if_pos h

/-! Storing bytes changes the bytes alone. -/

theorem pokeBytes_eq (s : State) (a : Nat) (bs : List Byte) : s.pokeBytes a bs = { s with mem := (s.pokeBytes a bs).mem } := by
  induction bs generalizing s a with
  | nil => rfl
  | cons b bs ih => rw [State.pokeBytes, ih]; rfl

theorem lineKey_pokeBytes (s : State) (a : Nat) (bs : List Byte) : (s.pokeBytes a bs).lineKey = s.lineKey := by rw [pokeBytes_eq]
theorem unitKey_pokeBytes (s : State) (a : Nat) (bs : List Byte) (d u : Nat) : (s.pokeBytes a bs).unitKey d u = s.unitKey d u := by
  rw [pokeBytes_eq]; rfl
@[simp] theorem keyOfLine_pokeBytes (s : State) (a : Nat) (bs : List Byte) (x : Nat) : (s.pokeBytes a bs).keyOfLine x = s.keyOfLine x := by
  rw [pokeBytes_eq]; rfl
@[simp] theorem sameKey_pokeBytes (s : State) (a : Nat) (bs : List Byte) (d x : Nat) : (s.pokeBytes a bs).sameKey d x = s.sameKey d x := by
  rw [pokeBytes_eq]; rfl
@[simp] theorem domains_pokeBytes (s : State) (a : Nat) (bs : List Byte) : (s.pokeBytes a bs).domains = s.domains := by
  rw [pokeBytes_eq]

/-! A line brought under the key of a domain (20 R446). -/

/-- In s' the line of pa stands under the key of domain d, its bytes outside the n from pa reading as d read them in s; the other lines are as
they were. -/
structure LineReady (s s' : State) (d pa n : Nat) : Prop where
  sameKey : s'.sameKey d pa = true
  kept : ∀ a, a / 128 = pa / 128 → a < pa ∨ pa + n ≤ a → s'.rawByte a = s.byteAs d a
  domains : s'.domains = s.domains
  key : ∀ a, a / 128 ≠ pa / 128 → s'.keyOfLine a = s.keyOfLine a
  raw : ∀ a, a / 128 ≠ pa / 128 → s'.rawByte a = s.rawByte a

/-- The line of pa under the key of domain d in the table of keys. -/
def rekeyed (s : State) (d pa : Nat) : State := { s with lineKey := Sparse.set 0 s.lineKey (pa / 128) (s.unitKey d (physUnit pa)) }

theorem rawByte_rekeyed (s : State) (d pa a : Nat) : (rekeyed s d pa).rawByte a = s.rawByte a := rfl
theorem domains_rekeyed (s : State) (d pa : Nat) : (rekeyed s d pa).domains = s.domains := rfl
theorem keyOfLine_rekeyed (s : State) (d pa a : Nat) :
    (rekeyed s d pa).keyOfLine a = if a / 128 = pa / 128 then s.unitKey d (physUnit pa) else s.keyOfLine a := get_set s.lineKey

theorem sameKey_rekeyed (s : State) (d pa : Nat) : (rekeyed s d pa).sameKey d pa = true := by
  rw [State.sameKey, keyOfLine_rekeyed, if_pos rfl]
  exact Bool.or_eq_true_iff.2 (.inr (beq_self_eq_true _))

theorem lineReady_of_sameKey {s : State} {d pa : Nat} (h : s.sameKey d pa = true) (n : Nat) : LineReady s s d pa n where
  sameKey := h
  kept _ ha _ := (byteAs_of_sameKey ((sameKey_of_line s d ha).trans h)).symm
  domains := rfl
  key _ _ := rfl
  raw _ _ := rfl

/-- A whole line needs no merge. -/
theorem lineReady_rekeyed (s : State) (d : Nat) {pa n : Nat} (hn : n = 128) (h : pa % 128 + n ≤ 128) :
    LineReady s (rekeyed s d pa) d pa n where
  sameKey := sameKey_rekeyed s d pa
  kept _ ha hout := by omega
  domains := rfl
  key a ha := (keyOfLine_rekeyed s d pa a).trans (if_neg ha)
  raw _ _ := rfl

theorem rawByte_readAs (s : State) (d b n : Nat) {k : Nat} (hk : k < n) :
    (s.pokeBytes b (s.readAs d b n)).rawByte (b + k) = s.byteAs d (b + k) := by
  have hlen : (s.readAs d b n).length = n := by rw [State.readAs, upto_eq_range', List.length_map, List.length_range']
  rw [rawByte_pokeBytes_in s b (s.readAs d b n) (hlen.symm ▸ hk)]
  simp only [State.readAs, upto_eq_range', List.getElem_map, List.getElem_range', Nat.one_mul]

/-- A partial write is merged into its line. -/
theorem lineReady_rekey {s : State} {d pa : Nat} (h : s.sameKey d pa = false) (n : Nat) : LineReady s (s.rekey d pa) d pa n := by
  have hrekey : s.rekey d pa = rekeyed (s.pokeBytes (alignDown pa 128) (s.readAs d (alignDown pa 128) 128)) d pa := by
    rw [State.rekey, if_neg (by simp [h]), rekeyed, lineKey_pokeBytes, unitKey_pokeBytes]
  rw [hrekey]
  have hlen : (s.readAs d (alignDown pa 128) 128).length = 128 := by rw [State.readAs, upto_eq_range', List.length_map, List.length_range']
  constructor
  case sameKey => exact sameKey_rekeyed ..
  case kept =>
    intro a ha _
    obtain ⟨k, hk, rfl⟩ : ∃ k, k < 128 ∧ a = alignDown pa 128 + k := ⟨a - alignDown pa 128, by rw [alignDown]; omega, by rw [alignDown]; omega⟩
    rw [rawByte_rekeyed, rawByte_readAs s d _ 128 hk]
  case domains => rw [domains_rekeyed, domains_pokeBytes]
  case key =>
    intro a ha
    rw [keyOfLine_rekeyed, if_neg ha, keyOfLine_pokeBytes]
  case raw =>
    intro a ha
    rw [rawByte_rekeyed, rawByte_pokeBytes_out]
    rw [hlen, alignDown]
    omega

/-- Bytes that are put into a line under the key of the domain stand there for it. -/
theorem LineReady.stored {s s' : State} {d pa : Nat} {bs : List Byte} (h : LineReady s s' d pa bs.length) (hfits : pa % 128 + bs.length ≤ 128) :
    Stored s (s'.pokeBytes pa bs) d pa bs := by
  have hin {a : Nat} (ha : a / 128 = pa / 128) : (s'.pokeBytes pa bs).byteAs d a = (s'.pokeBytes pa bs).rawByte a :=
    byteAs_of_sameKey (by rw [sameKey_pokeBytes, sameKey_of_line s' d ha, h.sameKey])
  have hout {a : Nat} (ha : a / 128 ≠ pa / 128) (e : Nat) : (s'.pokeBytes pa bs).byteAs e a = s.byteAs e a := by
    refine byteAs_of_sameLine ?_ ?_ (fun x hx => ?_) e
    · rw [domains_pokeBytes, h.domains]
    · rw [keyOfLine_pokeBytes, h.key a ha]
    · rw [rawByte_pokeBytes_out _ _ _ (by omega), h.raw x (by omega)]
  refine ⟨fun k hk => ?_, fun a ha => ?_, fun a e ha => hout ha e⟩
  · rw [hin (by omega), rawByte_pokeBytes_in s' pa bs hk]
  · by_cases hline : a / 128 = pa / 128
    · rw [hin hline, rawByte_pokeBytes_out _ _ _ ha, h.kept a hline ha]
    · exact hout hline d

theorem stored_writeLine (s : State) (d : Nat) {pa : Nat} {bs : List Byte} (h : pa % 128 + bs.length ≤ 128) :
    Stored s (s.writeLine d pa bs) d pa bs := by
  refine LineReady.stored ?_ h
  cases hsame : s.sameKey d pa with
  | true => exact lineReady_of_sameKey hsame _
  | false =>
    rw [if_neg Bool.false_ne_true]
    split
    next hwhole => exact lineReady_rekeyed s d hwhole h
    next => exact lineReady_rekey hsame _

/-- Bytes that lie within a line are written there in the domain, and no other byte changes (10 R230). -/
theorem stored_writeAs (s : State) (d : Nat) {pa : Nat} {bs : List Byte} (h : pa % 128 + bs.length ≤ 128) :
    Stored s (s.writeAs d pa bs) d pa bs := by
  have hline : s.writeAs d pa bs = (s.unpoison pa bs.length).writeLine d pa bs := if_pos (by omega)
  exact hline ▸ stored_writeLine (s.unpoison pa bs.length) d h

/-! The rest of the state. -/

/-- From s to s' nothing has changed but the bytes of memory, the keys of lines and the marks of poisoned words. -/
def MemoryOnly (s s' : State) : Prop := s' = { s with mem := s'.mem, lineKey := s'.lineKey, poison := s'.poison }

theorem MemoryOnly.trans {s s1 s2 : State} (h : MemoryOnly s s1) (h' : MemoryOnly s1 s2) : MemoryOnly s s2 := by
  unfold MemoryOnly at h h' ⊢
  rw [h', h]

theorem memoryOnly_pokeBytes (s : State) (a : Nat) (bs : List Byte) : MemoryOnly s (s.pokeBytes a bs) := by
  rw [MemoryOnly, pokeBytes_eq]

theorem memoryOnly_rekey (s : State) (d pa : Nat) : MemoryOnly s (s.rekey d pa) := by
  unfold State.rekey
  split
  · rfl
  · dsimp only
    rw [pokeBytes_eq]
    rfl

theorem memoryOnly_writeLine (s : State) (d pa : Nat) (bs : List Byte) : MemoryOnly s (s.writeLine d pa bs) := by
  refine MemoryOnly.trans ?_ (memoryOnly_pokeBytes ..)
  split
  · rfl
  · split
    · rfl
    · exact memoryOnly_rekey ..

theorem memoryOnly_writeAs (s : State) (d : Nat) {pa : Nat} {bs : List Byte} (h : pa % 128 + bs.length ≤ 128) :
    MemoryOnly s (s.writeAs d pa bs) := by
  have hline : s.writeAs d pa bs = (s.unpoison pa bs.length).writeLine d pa bs := if_pos (by omega)
  rw [hline]
  exact MemoryOnly.trans (s1 := s.unpoison pa bs.length) rfl (memoryOnly_writeLine ..)

/-! Performing a write in memory (15 R341; 10 R230): no wait ends where no thread waits for a word. -/

theorem noteOperand_threads (s : State) (pa n : Nat) : (s.noteOperand pa n).threads = s.threads := by
  unfold State.noteOperand
  split <;> rfl

theorem noteOperand_of_lt {s : State} {pa : Nat} (h : physUnit pa < 32) (n : Nat) : s.noteOperand pa n = s := if_pos h

/-- The value an operation may have read is held with its gang alone (08 R183). -/
theorem noteOperand_eq (s : State) (pa n : Nat) : s.noteOperand pa n = { s with gangs := (s.noteOperand pa n).gangs } := by
  unfold State.noteOperand
  split <;> rfl

theorem writeRaw_of_memory {s : State} {pa : Nat} (h : s.lineAt pa = none) (d : Nat) (bs : List Byte) :
    s.writeRaw d pa bs = (s.writeAs d pa bs).noteOperand pa bs.length := by
  simp only [State.writeRaw, h]

theorem writeRaw_threads {s : State} {pa : Nat} (h : s.lineAt pa = none) (d : Nat) (bs : List Byte) :
    (s.writeRaw d pa bs).threads = s.threads := by
  rw [writeRaw_of_memory h, noteOperand_threads, writeAs_threads]

theorem perform_of_memory {s : State} {pa : Nat} (hs : s.unwatched) (h : s.lineAt pa = none) (d : Nat) (bs : List Byte) :
    s.perform d pa none bs = (s.writeAs d pa bs).noteOperand pa bs.length := by
  rw [State.perform, checkWatches_of_unwatched (unwatched_of_threads hs (writeRaw_threads h d bs)), writeRaw_of_memory h]

theorem perform_threads {s : State} {pa : Nat} (hs : s.unwatched) (h : s.lineAt pa = none) (d : Nat) (m : Option Nat) (bs : List Byte) :
    (s.perform d pa m bs).threads = s.threads := by
  have hraw := writeRaw_threads h d bs
  unfold State.perform
  cases m with
  | none => rw [checkWatches_of_unwatched (unwatched_of_threads hs hraw), hraw]
  | some m =>
    have hmirror : ((s.writeRaw d pa bs).writeAs d m bs).threads = s.threads := (writeAs_threads ..).trans hraw
    exact (congrArg State.threads (checkWatches_of_unwatched (unwatched_of_threads hs hmirror))).trans hmirror

end Sys2Proof.Proofs

/-! PROOF. ATOM and CAS (11 R245, R246; 12 R266; 15 R345): the old value, the write at the target, and the wait for a credit of the home. -/
namespace Sys2Proof.Proofs
open Sys2Proof.Machine Sys2Proof.Laws

/-! Nothing is to land before an access (12 R273, R279). -/

theorem landOwn_of_noLanding {s : State} (h : s.noLanding) (i : Tid) (pa n : Nat) : s.landOwn i pa n = s := by
  have hnone : s.dies.flatMap (fun d => d.2.landing.filter (fun x => x.tid == i && x.touches pa n)) = [] :=
    List.flatMap_eq_nil_iff.2 fun d hd => by rw [h d hd, List.filter_nil]
  simp only [State.landOwn, State.landWhere, hnone, List.isEmpty_nil, if_true]

theorem landWords_of_noEarly {s : State} {die pa n : Nat} (h : s.noEarly die pa n) : s.landWords die pa n = s := by
  have hnone : s.early.filter (fun x => dieOf x.core == die &&
      meets (alignDown pa 8, pa + n - alignDown pa 8) (alignDown x.ent.pa 8, 8)) = [] :=
    List.filter_eq_nil_iff.2 fun x hx => by
      by_cases hdie : dieOf x.core = die
      · simp [h x hx hdie]
      · simp [hdie]
  simp only [State.landWords, State.landEarlyWhere, hnone, List.isEmpty_nil, if_true]

/-! The write at the target (11 R245, 10 R230). -/

theorem performAt_threads {s : State} {g : Target} (hs : s.unwatched) (h : s.lineAt g.pa = none) (d : Nat) (bs : List Byte) :
    (s.performAt d g bs).threads = s.threads := by
  cases g with
  | pad c off => exact perform_threads hs h d none bs
  | mem l => exact perform_threads hs h d l.mirror bs

theorem performAt_of_memory {s : State} {g : Target} (hs : s.unwatched) (h : s.lineAt g.pa = none)
    (hmirror : ∀ l, g = .mem l → l.mirror = none) (d : Nat) (bs : List Byte) :
    s.performAt d g bs = (s.writeAs d g.pa bs).noteOperand g.pa bs.length := by
  cases g with
  | pad c off => exact perform_of_memory hs h d bs
  | mem l =>
    rw [State.performAt, hmirror l rfl]
    exact perform_of_memory hs h d bs

theorem byteAs_noteOperand (s : State) (pa n d a : Nat) : (s.noteOperand pa n).byteAs d a = s.byteAs d a := by
  rw [noteOperand_eq]
  rfl

theorem touchReg_of_memory {s : State} {pa : Nat} (h : s.lineAt pa = none) : s.touchReg pa = s := by
  simp only [State.touchReg, h]

/-! The word of an atomic at its issue. -/

/-- The thread of an atomic whose request leaves: its earlier loads are bound (12 R266). -/
def atomicThread (s : State) (t : Thread) : Thread := { s.bindLoads t with req := none, pend := none }

/-- The bytes an atomic finds are those its thread sees. -/
theorem bytesNow_atomicThread {s : State} {t : Thread} {g : Target} {va n : Nat} (hline : s.lineAt g.pa = none)
    (hclean : s.viewPoison t va g.pa n = none) :
    ∃ x, s.loadBytes (atomicThread s t) va g n = .ok x ∧ s.bytesNow (atomicThread s t) va n x = (s.seenBytes t g.pa n, none) := by
  have hclean' : s.viewPoison (atomicThread s t) va g.pa n = none := hclean
  have hseen : s.seenBytes (atomicThread s t) g.pa n = s.seenBytes t g.pa n := rfl
  have haway : s.bytesNow (atomicThread s t) va n (.away g.pa none none) = (s.seenBytes t g.pa n, none) := by
    simp only [State.bytesNow, loadAt_of_memory hline, State.loadPoison, hline, hclean', hseen]
  cases g with
  | mem l => exact ⟨_, loadBytes_mem hline va n, haway⟩
  | pad c off =>
    by_cases hc : c = (atomicThread s t).core
    · subst hc
      refine ⟨_, loadBytes_ownPad s (atomicThread s t) va off n, ?_⟩
      rw [State.bytesNow, hclean', hseen]
    · exact ⟨_, loadBytes_otherPad hc va off n, haway⟩

section
variable {s : State} {t : Thread} {d a : Reg} {n : Nat} {f : Nat → Option Nat} {g : Target} (ht : s.find t.id = some t)
  (h : Reaches s t n { ea := (t.rd a.toNat).toNat, n := n, kind := .atomic, write := true } g)
  (hclean : s.viewPoison t (t.rd a.toNat).toNat g.pa n = none) (hland : s.noLanding) (hearly : s.noEarly (dieOf t.core) g.pa n)
include ht h hclean hland hearly

/-- An atomic whose request may not leave waits for a credit of its home, or for a route to the host (15 R345; 19 R439). -/
theorem atomic_of_held {home : Nat} (hhome : (s.atomicHome t.core t.id.sdom (t.rd a.toNat).toNat g).getD (dieOf t.core) = home)
    (hgoes : s.atomicGoes t home g = false) :
    s.atomic t a n d f = .error (.credit (s.atomicReq t (t.rd a.toNat).toNat g) d.toNat (dieOf t.core) home) := by
  obtain ⟨hreach, hline, -⟩ := id h
  obtain ⟨x, hx, -⟩ := bytesNow_atomicThread hline hclean
  have hctl : s.ctlLine g.pa = false := by simp only [State.ctlLine, hline]
  rw [atomicThread] at hx
  simp only [State.atomic, regEa, hreach, syncFrame_of_reaches h, landOwn_of_noLanding hland, landWords_of_noEarly hearly, again_of_find ht,
    hctl, hx, hhome, hgoes, Bool.false_eq_true, if_false, Bool.not_false, if_true]

/-- An atomic whose request leaves: what its function gives is performed, its home's entry is taken, and the old value fills its
register (11 R246). -/
theorem atomic_of_goes (hs : s.unwatched) {home : Nat}
    (hhome : (s.atomicHome t.core t.id.sdom (t.rd a.toNat).toNat g).getD (dieOf t.core) = home) (hgoes : s.atomicGoes t home g = true)
    {s1 : State}
    (hwrites : ∀ v, f (s.seen t g.pa n) = some v → s1 = (s.put (atomicThread s t)).performAt t.id.sdom g (toBytes n v))
    (hkeeps : f (s.seen t g.pa n) = none → s1 = s.put (atomicThread s t)) :
    s1.threads = (s.put (atomicThread s t)).threads ∧
    s.atomic t a n d f = .ok ((s1.takeEntry (.thread t.id) (dieOf t.core) home t.id.sdom g.pa (s.seen t g.pa n)).retire
      ((atomicThread s t).produce { oneFill d.toNat (BitVec.ofNat 64 (s.seen t g.pa n)) with
        req := s.atomicReq t (t.rd a.toNat).toNat g, mem := true, acq := true })) := by
  obtain ⟨hreach, hline, -⟩ := id h
  obtain ⟨x, hx, hbytes⟩ := bytesNow_atomicThread hline hclean
  have hctl : s.ctlLine g.pa = false := by simp only [State.ctlLine, hline]
  have hmem := mem_of_find ht
  have hline' : (s.put (atomicThread s t)).lineAt g.pa = none := lineAt_put hline hmem rfl rfl
  have hs' : (s.put (atomicThread s t)).unwatched := unwatched_put hs (watchesNothing_of_cond (unwatched_iff.1 hs t hmem) rfl)
  have hthreads : s1.threads = (s.put (atomicThread s t)).threads := by
    cases hf : f (s.seen t g.pa n) with
    | none => rw [hkeeps hf]
    | some v => rw [hwrites v hf, performAt_threads hs' hline']
  have hagain (p old : Nat) : (s1.takeEntry (.thread t.id) (dieOf t.core) home t.id.sdom p old).again (atomicThread s t) =
      atomicThread s t := by
    have hfind : s1.find (atomicThread s t).id = some (atomicThread s t) := (find_of_threads hthreads _).trans (find_put_of_find rfl ht rfl)
    rw [((Quiet.refl s1).takeEntry ..).again, again_of_find hfind]
  refine ⟨hthreads, ?_⟩
  rw [State.seen] at hwrites hkeeps ⊢
  rw [atomicThread] at *
  cases hf : f (ofBytes (s.seenBytes t g.pa n)) with
  | none =>
    obtain rfl := hkeeps hf
    simp only [State.atomic, regEa, hreach, syncFrame_of_reaches h, landOwn_of_noLanding hland, landWords_of_noEarly hearly,
      again_of_find ht, hctl, hx, hhome, hgoes, hbytes, hf, touchReg_of_memory hline', hagain, Bool.false_eq_true, if_false, Bool.not_true]
    rfl
  | some v =>
    obtain rfl := hwrites v hf
    simp only [State.atomic, regEa, hreach, syncFrame_of_reaches h, landOwn_of_noLanding hland, landWords_of_noEarly hearly,
      again_of_find ht, hctl, hx, hhome, hgoes, hbytes, hf, hagain, Bool.false_eq_true, if_false, Bool.not_true]
    rfl

end

/-- Every form of ATOM and CAS: an atomic on a word of its size, with its function of the old value. -/
theorem atomics_of_atomic {s : State} {t : Thread} {i : Instr} {d a : Reg} {n : Nat} {f : Nat → Option Nat}
    {k : State → Thread → Except Stop State} (hexec : exec i s = word i s k) (hk : k s t = s.atomic t a n d f) : Atomics s t i d a n f := by
  intro g h home hclean hs hland hearly old u s1
  refine ⟨fun hgoes hi => ?_, fun hgoes hi => ?_⟩
  · have ht := issues_find hi
    obtain ⟨hthreads, hatomic⟩ := atomic_of_goes (f := f) (d := d) ht h hclean hland hearly hs rfl hgoes (s1 := s1)
      (fun v hv => by simp only [s1, old, hv]; rfl) (fun hf => by simp only [s1, old, hf]; rfl)
    rw [State.retire, produce_pc] at hatomic
    have hput : s1.find t.id = some u := (find_of_threads hthreads _).trans (find_put_of_find rfl ht rfl)
    have hentry := ((Quiet.refl s1).takeEntry (.thread t.id) (dieOf t.core) home t.id.sdom g.pa old).threads
    refine yields_of_ok hexec (hk.trans hatomic) (find_put_of_find hentry hput (produce_id ..)) ?_ hi
    exact produce_settled u _
  · obtain ⟨hcur, hgate, -⟩ := id hi
    have hheld := hk.trans (atomic_of_held (f := f) (d := d) (issues_find hi) h hclean hland hearly rfl hgoes)
    simp only [hexec, word, hcur, hgate, hheld, State.stopped]
    rfl

/-- A form with a second operand: an atomic with the function of the old value and the operand's low bytes (11 R246). -/
theorem atomics_of_atomOp {s : State} {i : Instr} {d a b : Reg} {n : Nat} {f : Nat → Nat → Nat} (t : Thread)
    (hexec : exec i s = atomOp i d a b n f s) : Atomics s t i d a n (fun x => some (f x (t.lowNum b n))) :=
  atomics_of_atomic (k := fun s t => s.atomic t a n d fun old => some (f old (t.lowNum b n))) hexec rfl

/-- From s to s' nothing has changed but memory, as `MemoryOnly` says, and the gangs. -/
theorem eq_of_memoryOnly {s s1 s' : State} (h : MemoryOnly s s1) (h' : s' = { s1 with gangs := s'.gangs }) :
    s' = { s with mem := s'.mem, lineKey := s'.lineKey, poison := s'.poison, gangs := s'.gangs } := by
  unfold MemoryOnly at h
  rw [h', h]

/-- Settles O16: every form is one atomic with its function of the old value; and what is performed at a place in memory stands there in the
domain, with no other byte changed. -/
theorem atomicResults : Obligations.AtomicResults := by
  refine ⟨?_, ?_⟩
  · intro s t d a b c wd o n y sv low
    have hn : n = Width.bytes wd := by cases wd <;> rfl
    have hy : t.lowNum b n = y := rfl
    have hword (r : Reg) : low r 32 = t.lowNum r 4 := rfl
    have hdouble (r : Reg) : low r 64 = t.lowNum r 8 := rfl
    have hsv (x : Nat) : sv x = sval x (8 * Width.bytes wd) := by
      rw [← hn]
      exact (sval_eq_toInt _ x (by cases wd <;> decide)).symm
    clear_value y sv low n
    have integer {i : Instr} (f : Nat → Nat → Nat) (hexec : exec i s = atomOp i d a b (Width.bytes wd) f s) :
        Atomics s t i d a n (fun x => some (f x y)) := by
      rw [← hy, hn]
      exact atomics_of_atomOp t hexec
    simp only [hsv, hword, hdouble]
    exact ⟨integer (fun x y => x + y) rfl, integer (fun x y => x &&& y) rfl, integer (fun x y => x ||| y) rfl,
      integer (fun x y => x ^^^ y) rfl,
      integer (fun x y => if sval x (8 * Width.bytes wd) ≤ sval y (8 * Width.bytes wd) then x else y) rfl,
      integer (fun x y => if sval x (8 * Width.bytes wd) ≤ sval y (8 * Width.bytes wd) then y else x) rfl,
      integer (fun x y => min x y) rfl, integer (fun x y => max x y) rfl, integer (fun _ y => y) rfl,
      atomics_of_atomOp (f := fun x y => (f32.add .rne (f32.decode x) (f32.decode y)).1) t rfl,
      atomics_of_atomOp (f := fun x y => (f64.add .rne (f64.decode x) (f64.decode y)).1) t rfl,
      atomics_of_atomOp (f := fun x y => (f32.minmax true x y).1) t rfl,
      atomics_of_atomic (k := fun s t => s.atomic t a 4 d fun x => if x = t.lowNum c 4 then some (t.lowNum b 4) else none) rfl rfl,
      atomics_of_atomic (k := fun s t => s.atomic t a 8 d fun x => if x = t.lowNum c 8 then some (t.lowNum b 8) else none) rfl rfl⟩
  · intro s d g bs hs hline hfits hmirror s'
    have hperformed : s' = (s.writeAs d g.pa bs).noteOperand g.pa bs.length := performAt_of_memory hs hline hmirror d bs
    have hmemory : MemoryOnly s (s.writeAs d g.pa bs) := memoryOnly_writeAs s d hfits
    obtain ⟨hbytes, hothers, hlines⟩ := stored_writeAs s d hfits
    have hread (e x : Nat) : s'.byteAs e x = (s.writeAs d g.pa bs).byteAs e x := by rw [hperformed, byteAs_noteOperand]
    refine ⟨⟨fun k hk => (hread ..).trans (hbytes k hk), fun x hx => (hread ..).trans (hothers x hx),
      fun x e hx => (hread ..).trans (hlines x e hx)⟩, fun hunit => ?_, eq_of_memoryOnly hmemory ?_⟩
    · rw [hperformed, noteOperand_of_lt hunit, hmemory]
    · rw [hperformed]
      exact noteOperand_eq ..

end Sys2Proof.Proofs

/-! PROOF. Full/empty loads and stores (11 R250 to R253; 15 R345; 02 R32): their requests, the home's replies and the re-issue. -/
namespace Sys2Proof.Proofs
open Sys2Proof.Machine Sys2Proof.Laws

/-! The request of a full/empty instruction (11 R250, R253). -/

theorem syncFrame_of_class {l : Loc} (h : Leaf.cls l.leaf ≠ 3) (s : State) (sdom va : Nat) : s.syncFrame sdom va (.mem l) = s := by
  simp only [State.syncFrame, Target.leaf?, h, if_false]

theorem syncWord_of_memory {s : State} {l : Loc} (h : s.lineAt l.spot.pa = none) : s.syncWord (.mem l) = Leaf.sync l.leaf := by
  simp only [State.syncWord, Target.leaf?, Target.pa, h, Option.isNone_none, Bool.and_true]

section
variable {s : State} {t : Thread} {a : Reg} {kind : Nat} {l : Loc} (ht : s.find t.id = some t)
  (hreach : s.reachFe t (t.rd a.toNat).toNat kind = .ok (.mem l)) (hcls : Leaf.cls l.leaf ≠ 3) (hline : s.lineAt l.spot.pa = none)
include ht hreach hcls hline

theorem loadFe_of_sync (hsync : Leaf.sync l.leaf = true) (d : Reg) (w : Nat) :
    s.loadFe t a d kind w = .ok (s.holdFe t w kind d.toNat (t.rd a.toNat).toNat l.leaf 0) := by
  simp only [State.loadFe, regEa, hreach, syncFrame_of_class hcls, again_of_find ht, syncWord_of_memory hline, hsync, if_true]
  rfl

/-- On another page a full/empty load is an acquire of its word (11 R253). -/
theorem loadFe_of_plain (hsync : Leaf.sync l.leaf = false) (d : Reg) (w : Nat) :
    s.loadFe t a d kind w =
      .ok (s.finishLoad t .fullEmpty (t.rd a.toNat).toNat 8 true (.zero d.toNat) (.away l.spot.pa (some l.leaf) (some l.spot))) := by
  simp only [State.loadFe, regEa, hreach, syncFrame_of_class hcls, again_of_find ht, syncWord_of_memory hline, hsync, Bool.false_eq_true,
    if_false, loadBytes_mem hline]

theorem storeFe_of_memory (v : Reg) (w : Nat) :
    s.storeFe t a v kind w =
      .ok (s.holdFe t w (if Leaf.sync l.leaf then kind else 4) v.toNat (t.rd a.toNat).toNat l.leaf (t.rd v.toNat)) := by
  have hmem : (s.lineAt (Target.mem l).pa).isSome = false := Option.isSome_eq_false_iff.2 (Option.isNone_iff_eq_none.2 hline)
  simp only [State.storeFe, regEa, hreach, syncFrame_of_class hcls, again_of_find ht, syncWord_of_memory hline, hmem, Bool.false_eq_true,
    if_false]
  rfl

end

/-- A full/empty instruction whose request is issued holds its thread until the reply (11 R251). -/
theorem yields_of_holdFe {s : State} {t : Thread} {i : Instr} {k : State → Thread → Except Stop State} {kind reg va : Nat}
    {leaf val : Word} (hexec : exec i s = word i s k)
    (hk : s.find t.id = some t → k s t = .ok (s.holdFe t (wordOf i) kind reg va leaf val)) :
    Yields s t i (s.holdFe t (wordOf i) kind reg va leaf val) := fun hi =>
  yields_of_ok hexec (hk (issues_find hi)) (find_put_of_find rfl (issues_find hi) rfl) rfl hi

/-! The home's reply (11 R251, R252). -/

theorem poisonedIn_of_clean {s : State} (h : s.poison = []) (pa n : Nat) : s.poisonedIn pa n = none :=
  List.find?_eq_none.2 fun w _ => by simp [h]

theorem serveDeferred_of_nil {s : State} (h : s.deferrals = []) (pa : Nat) (m : Option Nat) : s.serveDeferred pa m = s := by
  rw [State.serveDeferred, h, List.foldl_nil]

/-- What the home answers, where no entry waits and no word is poisoned: the fill of the register (11 R250). -/
theorem feFill_of_clean {s : State} (h : s.poison = []) (sdom pa va reg : Nat) :
    s.feFill sdom pa va reg = { oneFill reg (BitVec.ofNat 64 (s.numAs sdom pa 8)) with mem := true, acq := true } := by
  rw [State.feFill, poisonedIn_of_clean h]
  rfl

theorem takeWord_of_clean {s : State} (h : s.poison = []) (pa : Nat) (keep : Bool) :
    s.takeWord pa none keep = if keep then s else s.setFull pa false := by
  rw [State.takeWord, poisonedIn_of_clean h, Option.isSome_none, Bool.or_false]
  rfl

/-- The end of a full/empty instruction of a thread with nothing queued for its boundary. -/
theorem feDone_of_settled {s1 : State} {t u : Thread} (hfind : s1.find t.id = some u) (hsettled : u.settled = true) (die va old : Nat) :
    s1.feDone t die va old = s1.takeEntry (.thread t.id) (dieOf t.core) die t.id.sdom va old :=
  boundary_settled ((((Quiet.refl s1).takeEntry ..).find t.id).trans hfind) hsettled

theorem fullEmptyReply_of_pend {s : State} {i : Tid} {t : Thread} {kind reg va : Nat} {leaf val : Word} (h : s.find i = some t)
    (hpend : t.pend = some (.fe kind reg va leaf val)) :
    exec (.fullEmptyReply i) s = .next (s.feReply t kind reg va leaf val) := by
  show execFullEmptyReply i s = _
  simp only [execFullEmptyReply, event, h, hpend]

@[simp] theorem bindLoads_id (s : State) (t : Thread) : (s.bindLoads t).id = t.id := rfl
@[simp] theorem bindLoads_core (s : State) (t : Thread) : (s.bindLoads t).core = t.core := rfl

/-- The thread of a full/empty instruction that has completed. -/
def feThread (s : State) (t : Thread) : Thread :=
  { s.bindLoads t with pend := none, req := none, st := .resident, pc := t.pc + 4 }

theorem find_stored {s : State} {t : Thread} (ht : s.find t.id = some t) (pa : Nat) (val : Word) :
    ((s.put (feThread s t)).writeAs t.id.sdom pa (lowBytes val 8)).find t.id = some (feThread s t) :=
  (find_of_threads (writeAs_threads ..) _).trans (find_put_of_find rfl ht rfl)

/-- The request of a full/empty instruction can be answered at pa: its place is known, nothing is to land there, no other of its group comes
before it, and it is not lost. -/
structure Answerable (s : State) (t : Thread) (va : Nat) (leaf : Word) (die slice pa : Nat) : Prop where
  place : s.fePlace t va leaf = some (die, slice, pa, none)
  deferrals : s.deferrals = []
  unwatched : s.unwatched
  noLanding : s.noLanding
  noEarly : s.noEarly (dieOf t.core) pa 8
  poison : s.poison = []
  memory : s.lineAt pa = none
  aligned : pa % 8 = 0
  tier : physUnit pa < 32
  first : s.groupFirst t = true
  reached : t.req.any s.reqLost = false

namespace Answerable
variable {s : State} {t : Thread} {kind reg va : Nat} {leaf val : Word} {die slice pa : Nat} (h : Answerable s t va leaf die slice pa)
include h

theorem place_bound : s.fePlace (s.bindLoads t) va leaf = some (die, slice, pa, none) := h.place

theorem answers : (!s.groupFirst (s.bindLoads t) || (s.bindLoads t).req.any s.reqLost) = false := by
  have hfirst : s.groupFirst (s.bindLoads t) = true := h.first
  have hreached : (s.bindLoads t).req.any s.reqLost = false := h.reached
  rw [hfirst, hreached]
  rfl

/-- With a credit of the home's reply cache the home answers as the kind and the word's bit say (11 R250, R251). -/
theorem feReply_eq (hcredit : s.creditFor (dieOf t.core) die (.thread t.id) = true) :
    s.feReply t kind reg va leaf val =
      if kind ≤ 1 then
        if s.isFull pa then
          (((s.put ((feThread s t).produce (s.feFill t.id.sdom pa va reg))).takeWord pa none (kind == 1)).serveDeferred pa none).feDone
            (s.bindLoads t) die va (s.numAs t.id.sdom pa 8)
        else State.feDone { s.put ((feThread s t).clr reg) with deferrals :=
            [{ die := die, slice := slice, pa := pa, va := va, tid := some t.id, reg := reg, keep := kind == 1 }] } (s.bindLoads t) die va 0
      else if kind = 4 then ((s.put (feThread s t)).perform t.id.sdom pa none (wordBytes val)).feDone (s.bindLoads t) die va 0
      else if kind = 3 ∨ s.isFull pa = false then
        ((((s.put (feThread s t)).perform t.id.sdom pa none (wordBytes val)).setFull pa true).serveDeferred pa none).feDone
          (s.bindLoads t) die va 0
      else s.nack (s.bindLoads t) := by
  have hroom : s.deferralsOf die slice < 64 := by
    rw [State.deferralsOf, h.deferrals]
    exact Nat.zero_lt_succ _
  simp only [State.feReply, h.place_bound, bindLoads_id, bindLoads_core, landOwn_of_noLanding h.noLanding, landWords_of_noEarly h.noEarly,
    h.answers, hcredit, hroom, h.deferrals, put_deferrals, List.nil_append, Bool.false_eq_true, Bool.not_true, if_false, if_true]
  rfl

theorem feReply_of_held (hcredit : s.creditFor (dieOf t.core) die (.thread t.id) = false) :
    s.feReply t kind reg va leaf val = s.awaitCredit (dieOf t.core) die (.thread t.id) := by
  simp only [State.feReply, h.place_bound, bindLoads_id, bindLoads_core, landOwn_of_noLanding h.noLanding, landWords_of_noEarly h.noEarly,
    h.answers, hcredit, Bool.false_eq_true, Bool.not_false, if_false, if_true]

/-- The word as the reply to a store leaves it (10 R230). -/
theorem perform_feThread (ht : s.find t.id = some t) : (s.put (feThread s t)).perform t.id.sdom pa none (wordBytes val) =
    (s.put (feThread s t)).writeAs t.id.sdom pa (lowBytes val 8) := by
  have hmem := mem_of_find ht
  have hunwatched : (s.put (feThread s t)).unwatched :=
    unwatched_put h.unwatched (watchesNothing_of_cond (unwatched_iff.1 h.unwatched t hmem) rfl)
  rw [perform_of_memory hunwatched (lineAt_put h.memory hmem rfl rfl), noteOperand_of_lt h.tier, wordBytes_eq_lowBytes]

section
variable (ht : s.find t.id = some t) (hsettled : t.settled = true) (hcredit : s.creditFor (dieOf t.core) die (.thread t.id) = true)
include ht hsettled hcredit

/-- The load of a full word fills its register; LDFE empties the word (11 R250). -/
theorem feReply_of_full (hkind : kind ≤ 1) (hfull : s.isFull pa = true) :
    let filled := s.put ((feThread s t).produce { oneFill reg (BitVec.ofNat 64 (s.numAs t.id.sdom pa 8)) with mem := true, acq := true })
    s.feReply t kind reg va leaf val = (if kind == 1 then filled else filled.setFull pa false).takeEntry (.thread t.id) (dieOf t.core) die
      t.id.sdom va (s.numAs t.id.sdom pa 8) := by
  intro filled
  have hfind : (if kind == 1 then filled else filled.setFull pa false).find t.id = some ((feThread s t).produce
      { oneFill reg (BitVec.ofNat 64 (s.numAs t.id.sdom pa 8)) with mem := true, acq := true }) := by
    split <;> exact find_put_of_find rfl ht (produce_id ..)
  have hnone : (if kind == 1 then filled else filled.setFull pa false).deferrals = [] := by
    split <;> exact h.deferrals
  rw [h.feReply_eq hcredit, if_pos hkind, if_pos hfull, feFill_of_clean h.poison, takeWord_of_clean (s := filled) h.poison,
    serveDeferred_of_nil hnone]
  exact feDone_of_settled (t := s.bindLoads t) hfind ((produce_settled ..).trans hsettled) ..

/-- The load of an empty word is deferred (11 R251). -/
theorem feReply_of_empty (hkind : kind ≤ 1) (hempty : s.isFull pa = false) :
    s.feReply t kind reg va leaf val = State.takeEntry { s.put ((feThread s t).clr reg) with deferrals :=
      [{ die := die, slice := slice, pa := pa, va := va, tid := some t.id, reg := reg, keep := kind == 1 }] } (.thread t.id)
      (dieOf t.core) die t.id.sdom va 0 := by
  have hfind : (s.put ((feThread s t).clr reg)).find t.id = some ((feThread s t).clr reg) := find_put_of_find rfl ht (clr_id ..)
  rw [h.feReply_eq hcredit, if_pos hkind, if_neg (by simp [hempty])]
  refine feDone_of_settled (t := s.bindLoads t) (u := (feThread s t).clr reg) ?_ ((clr_settled ..).trans hsettled) ..
  exact hfind

/-- A store to a word of a page without the sync bit is performed (11 R253). -/
theorem feReply_of_plain (hkind : kind = 4) :
    s.feReply t kind reg va leaf val = ((s.put (feThread s t)).writeAs t.id.sdom pa (lowBytes val 8)).takeEntry (.thread t.id)
      (dieOf t.core) die t.id.sdom va 0 := by
  rw [h.feReply_eq hcredit, if_neg (by omega), if_pos hkind, h.perform_feThread ht]
  exact feDone_of_settled (t := s.bindLoads t) (find_stored ht ..) hsettled ..

/-- STFE of an empty word and STFE.f store and set the word full (11 R250). -/
theorem feReply_of_store (hkind : (kind = 2 ∧ s.isFull pa = false) ∨ kind = 3) :
    s.feReply t kind reg va leaf val = (((s.put (feThread s t)).writeAs t.id.sdom pa (lowBytes val 8)).setFull pa true).takeEntry
      (.thread t.id) (dieOf t.core) die t.id.sdom va 0 := by
  have hfits : pa % 128 + (lowBytes val 8).length ≤ 128 := by
    have haligned := h.aligned
    rw [length_lowBytes]
    omega
  have hnone : (((s.put (feThread s t)).writeAs t.id.sdom pa (lowBytes val 8)).setFull pa true).deferrals = [] := by
    rw [setFull_deferrals, memoryOnly_writeAs _ _ hfits]
    exact h.deferrals
  rw [h.feReply_eq hcredit, if_neg (by omega), if_neg (by omega), if_pos (by tauto), h.perform_feThread ht,
    serveDeferred_of_nil hnone]
  refine feDone_of_settled (t := s.bindLoads t) (u := feThread s t) ?_ hsettled ..
  exact find_stored ht ..

end

/-- STFE of a full word is turned away (11 R251). -/
theorem feReply_of_nack (hcredit : s.creditFor (dieOf t.core) die (.thread t.id) = true) (hkind : kind = 2) (hfull : s.isFull pa = true) :
    s.feReply t kind reg va leaf val = s.nack (s.bindLoads t) := by
  rw [h.feReply_eq hcredit, if_neg (by omega), if_neg (by omega), if_neg (by simp [hkind, hfull])]

end Answerable

/-! The re-issue after a negative acknowledgement (02 R32). -/

theorem feretryReissue_of_find {s : State} {i : Tid} {t : Thread} (h : s.find i = some t) (hst : t.st = .blocked .feretry) :
    exec (.feretryReissue i) s = .next (if t.retryAt ≤ (s.core t.core).cycle then s.put { t with st := .resident } else s) := by
  show execFeretryReissue i s = _
  simp only [execFeretryReissue, event, h, hst, true_and]

/-- Settles O19: the instructions hold their threads or load; the home answers as the kind and the word's bit say; and the cycle decides the
re-issue. -/
theorem fullEmptyResults : Obligations.FullEmptyResults := by
  refine ⟨?_, ?_, ?_⟩
  · intro s t x a q l va held loads sync hcls hline
    refine ⟨fun hreach => ⟨fun hsync => ?_, fun hsync => ?_⟩, fun hreach => ⟨fun hsync => ?_, fun hsync => ?_⟩, fun hreach => ?_,
      fun hreach => ?_⟩
    · exact yields_of_holdFe (k := fun s t => s.loadFe t a x 0 (wordOf (.ldfe x a q))) rfl
        fun ht => loadFe_of_sync ht hreach hcls hline hsync x _
    · have hfills := fills_of_finishLoad (i := .ldfe x a q) (k := fun s t => s.loadFe t a x 0 (wordOf (.ldfe x a q))) rfl
        fun ht => loadFe_of_plain ht hreach hcls hline hsync x _
      exact hfills
    · exact yields_of_holdFe (k := fun s t => s.loadFe t a x 1 (wordOf (.ldfeK x a q))) rfl
        fun ht => loadFe_of_sync ht hreach hcls hline hsync x _
    · have hfills := fills_of_finishLoad (i := .ldfeK x a q) (k := fun s t => s.loadFe t a x 1 (wordOf (.ldfeK x a q))) rfl
        fun ht => loadFe_of_plain ht hreach hcls hline hsync x _
      exact hfills
    · exact yields_of_holdFe (k := fun s t => s.storeFe t a x 2 (wordOf (.stfe x a q))) rfl
        fun ht => storeFe_of_memory ht hreach hcls hline x _
    · exact yields_of_holdFe (k := fun s t => s.storeFe t a x 3 (wordOf (.stfeF x a q))) rfl
        fun ht => storeFe_of_memory ht hreach hcls hline x _
  · intro s i t kind reg va leaf val die slice pa h hsettled hpend hplace hdef hs hland hearly hpoison hline haligned htier hfirst hreq
      u done old ends filled stored
    obtain rfl := find_id h
    have hreply := fullEmptyReply_of_pend h hpend
    have hans : Answerable s t va leaf die slice pa :=
      ⟨hplace, hdef, hs, hland, hearly, hpoison, hline, haligned, htier, hfirst, hreq⟩
    refine ⟨fun hcredit => ?_, fun hcredit => ⟨fun hkind hfull => ?_, fun hkind hfull => ?_, fun hkind hempty => ?_, fun hkind => ?_,
      fun hkind => ?_, fun hkind hfull => ?_⟩⟩
    · rw [hreply, hans.feReply_of_held hcredit]
    · subst hkind
      exact hreply.trans (congrArg _ (hans.feReply_of_full h hsettled hcredit (Nat.zero_le 1) hfull))
    · subst hkind
      exact hreply.trans (congrArg _ (hans.feReply_of_full h hsettled hcredit (Nat.le_refl 1) hfull))
    · exact hreply.trans (congrArg _ (hans.feReply_of_empty h hsettled hcredit hkind hempty))
    · exact hreply.trans (congrArg _ (hans.feReply_of_plain h hsettled hcredit hkind))
    · exact hreply.trans (congrArg _ (hans.feReply_of_store h hsettled hcredit hkind))
    · exact hreply.trans (congrArg _ (hans.feReply_of_nack hcredit hkind hfull))
  · intro s i t h hst
    rw [feretryReissue_of_find h hst]
    exact ⟨fun hdue => by rw [if_pos hdue], fun hearly => by rw [if_neg (Nat.not_le.2 hearly)]⟩

end Sys2Proof.Proofs

/-! PROOF. A package held in reset (19 R424): what comes from outside changes no thread, no byte of memory and no stage. -/
namespace Sys2Proof.Proofs
open Sys2Proof.Machine Sys2Proof.Laws

/-- Outside acts and what follows a step change neither the stage nor memory, and bring no thread, no issue group, no held write of the
device and no further input. -/
structure Undisturbed (s s' : State) : Prop where
  stage : s'.stage = s.stage
  issue : s'.issue = s.issue
  threads : s'.threads = s.threads
  devq : s'.devq = s.devq
  mem : s'.mem = s.mem
  inputs : s'.inputs = s.inputs

namespace Undisturbed
variable {s s1 s2 : State}

theorem refl (s : State) : Undisturbed s s := ⟨rfl, rfl, rfl, rfl, rfl, rfl⟩

theorem trans (h : Undisturbed s s1) (h' : Undisturbed s1 s2) : Undisturbed s s2 :=
  ⟨h'.stage.trans h.stage, h'.issue.trans h.issue, h'.threads.trans h.threads, h'.devq.trans h.devq, h'.mem.trans h.mem,
   h'.inputs.trans h.inputs⟩

theorem setDie (s : State) (d : Nat) (x : Die) : Undisturbed s (s.setDie d x) := ⟨rfl, rfl, rfl, rfl, rfl, rfl⟩

theorem countErr (s : State) (d k : Nat) : Undisturbed s (s.countErr d k) := setDie ..

theorem poisonWord (s : State) (die pa : Nat) : Undisturbed s (s.poisonWord die pa) := by
  have hmark : Undisturbed s (s.markPoison pa) := ⟨rfl, rfl, rfl, rfl, rfl, rfl⟩
  unfold State.poisonWord
  dsimp only
  split
  · exact hmark.trans (countErr ..)
  · exact hmark

theorem pushRec (s : State) (d : Nat) (r : Rec) : Undisturbed s (s.pushRec d r) := by
  unfold State.pushRec
  split
  · exact ⟨rfl, rfl, rfl, rfl, rfl, rfl⟩
  · exact setDie ..

theorem foldl {α : Type} {f : State → α → State} (hf : ∀ s a, Undisturbed s (f s a)) (l : List α) (s : State) :
    Undisturbed s (l.foldl f s) := by
  induction l generalizing s with
  | nil => exact refl s
  | cons a l ih => exact (hf s a).trans (ih _)

theorem flushRecs (s : State) : Undisturbed s s.flushRecs := by
  have hnone : Undisturbed s { s with lateRecs := [] } := ⟨rfl, rfl, rfl, rfl, rfl, rfl⟩
  unfold State.flushRecs
  split
  · exact refl s
  · exact hnone.trans (foldl (fun s (x : Nat × Rec) => pushRec s x.1 x.2) _ _)

end Undisturbed

theorem unwatched_of_no_threads {s : State} (h : s.threads = []) : s.unwatched := by simp [State.unwatched, h]

/-- Without a thread and a held write of the device, what follows a step at once moves late records alone. -/
theorem settle_undisturbed {s : State} (hthreads : s.threads = []) (hdevq : s.devq = []) : Undisturbed s s.settle := by
  have hflush : s.flushDev = s := by simp only [State.flushDev, hdevq, List.isEmpty_nil, if_true]
  rw [settle_eq, hflush, checkWatches_of_unwatched (unwatched_of_no_threads hthreads)]
  exact (Undisturbed.flushRecs s).trans ⟨rfl, rfl, rfl, rfl, rfl, rfl⟩

/-- While the package does not run a mailbox command is not served (20 R448). -/
theorem mail_of_not_running {s : State} (h : s.stage ≠ .running) (c : MailCmd) (words : Nat) (ok : Bool) (rule : Signer)
    (act : State → State × Nat × List Byte) : s.mail c words ok rule act = s := if_pos h

theorem mailEvent_of_not_running {s : State} (h : s.stage ≠ .running) (applies : Bool) (c : MailCmd) (words : Nat) (ok : Bool)
    (rule : Signer) (act : State → State × Nat × List Byte) : mailEvent applies s (s.mail c words ok rule act) = .next s := by
  rw [mail_of_not_running h]
  exact congrArg _ (ite_self s)

theorem setroot_of_not_running {s : State} (h : s.stage ≠ .running) (c : MailCmd) : execSetroot c s = .next s := by
  unfold execSetroot
  dsimp only
  rw [if_neg (fun hr => h hr.1)]
  exact mailEvent_of_not_running h ..

theorem unknownCommand_of_not_running {s : State} (h : s.stage ≠ .running) (c : MailCmd) :
    execMailboxUnknownCommand c s = .next s := by
  unfold execMailboxUnknownCommand
  rw [if_neg h]
  exact congrArg _ (ite_self s)

/-- Of what comes from outside, errors of memory, flits and links alone leave a mark on a package that does not run (19 R424; 18 R418,
R419). -/
theorem outside_undisturbed {s : State} (h : s.stage ≠ .running) {x : Instr} (hx : isOutside x = true) :
    ∃ s', exec x s = .next s' ∧ Undisturbed s s' := by
  cases x with
  | cert | takeown | setfeat | mkdom | rmdom | setaper | setqueue | setedt | setfdt | setep | setcarveTarget | setcarveCarvedom | setspdom
  | setsoldom | setgtbase | setcoreoff | setmgmtHalted | setmgmtReqto | setmgmtHostto | setmgmtErrorCounter | setmgmtHold =>
    exact ⟨s, mailEvent_of_not_running h .., .refl s⟩
  | setroot c => exact ⟨s, setroot_of_not_running h c, .refl s⟩
  | mailboxUnknownCommand c => exact ⟨s, unknownCommand_of_not_running h c, .refl s⟩
  | hostApertureRead | hostApertureWrite => exact ⟨s, congrArg _ (if_pos (.inl h)), .refl s⟩
  | ethernetInboundAccess => exact ⟨s, congrArg _ (if_pos (.inl h)), .refl s⟩
  | managementWindowWrite | ethernetCompletion | launchDoorbell | linkFailure =>
    exact ⟨s, congrArg _ (if_neg fun hr => h hr.1), .refl s⟩
  | ethernetTransportTimeout => exact ⟨s, congrArg _ (if_neg h), .refl s⟩
  | uncorrectableError die pa => exact ⟨_, rfl, .poisonWord s die pa⟩
  | correctedError die => exact ⟨_, rfl, .countErr s die 0⟩
  | lazokelFlitRetry die => exact ⟨_, rfl, .countErr ..⟩
  | flitCheckFailure line =>
    refine ⟨_, rfl, ?_⟩
    split
    · exact ⟨rfl, rfl, rfl, rfl, rfl, rfl⟩
    · exact .refl s
  | _ => cases hx

/-- A package that is held stays held whatever undisturbed way its state is left. -/
theorem heldForGood_of_undisturbed {s s' : State} (h : s.heldForGood) (hs : Undisturbed s s') : s'.heldForGood := by
  obtain ⟨⟨hheld, hissue⟩, hthreads, hdevq, hmem, hinputs⟩ := h
  exact ⟨⟨hs.stage ▸ hheld, hs.issue ▸ hissue⟩, hs.threads ▸ hthreads, hs.devq ▸ hdevq, by rw [hs.mem]; exact hmem, hs.inputs ▸ hinputs⟩

/-- The step of a package that is held: nothing, or the next act of the outside, after which a wait makes it the next again. -/
theorem otherStep_of_held {s : State} (h : s.heldForGood) (n : Nat) :
    ∃ s', s.otherStep n = .next s' ∧ s'.heldForGood ∧ s'.stage = s.stage := by
  obtain ⟨k, hk⟩ := h.1.1
  have hnone : s.enabled = [] := by simp only [State.enabled, hk]
  simp only [State.otherStep, hnone, List.getElem?_nil]
  cases hin : s.inputs with
  | nil => exact ⟨s, rfl, h, rfl⟩
  | cons x rest =>
    obtain ⟨hreset, hthreads, hdevq, hmem, hinputs⟩ := h
    rw [hin] at hinputs
    have hrest : State.heldForGood { s with inputs := rest } :=
      ⟨hreset, hthreads, hdevq, hmem, fun y hy => hinputs y (List.mem_cons_of_mem x hy)⟩
    obtain ⟨s1, hexec, hs1⟩ := outside_undisturbed (s := { s with inputs := rest }) (by simp [hk]) (hinputs x List.mem_cons_self)
    have h1 : s1.heldForGood := heldForGood_of_undisturbed hrest hs1
    simp only [State.inputStep, hexec]
    refine ⟨_, rfl, ?_⟩
    split
    · obtain ⟨hreset1, hthreads1, hdevq1, hmem1, hinputs1⟩ := h1
      exact ⟨⟨hreset1, hthreads1, hdevq1, hmem1, List.forall_mem_cons.2 ⟨hinputs x List.mem_cons_self, hinputs1⟩⟩, hs1.stage⟩
    · exact ⟨h1, hs1.stage⟩

/-- The step of a state with no thread to issue is another agent's, settled. -/
theorem step_of_no_issue {s : State} (h : s.issue = []) :
    step s = settled (State.otherStep { s with cur := none, draws := s.draws + 1 } (Config.schedule s.draws)) := by
  simp only [step, h]

/-- Settles O52: nothing issues and no step of the package is enabled, and neither the outside nor what follows a step disturbs it. -/
theorem heldStays : Obligations.HeldStays := by
  unfold Obligations.HeldStays
  intro s h
  obtain ⟨s1, hstep, hs1, hstage⟩ := otherStep_of_held (s := { s with cur := none, draws := s.draws + 1 }) h (Config.schedule s.draws)
  have hsettle := settle_undisturbed hs1.2.1 hs1.2.2.1
  refine ⟨s1.settle, ?_, heldForGood_of_undisturbed hs1 hsettle, hsettle.stage.trans hstage⟩
  rw [step_of_no_issue h.1.2, hstep]
  rfl

end Sys2Proof.Proofs

/-! PROOF. Sets of numbers, ranges and masks, and the words and bytes of a set of addresses (00 R1; 10 R230, R233). -/
namespace Sys2Proof.Proofs
open Sys2Proof.Machine Sys2Proof.Laws

theorem mem_sset_add {l : List Nat} {k m : Nat} : m ∈ SSet.add l k ↔ m = k ∨ m ∈ l := by
  induction l with
  | nil => simp [SSet.add]
  | cons j l ih =>
    simp only [SSet.add]
    split
    · simp
    · split
      · subst_vars; simp
      · simp only [List.mem_cons, ih]; tauto

theorem mem_sset_del {l : List Nat} {k m : Nat} : m ∈ SSet.del l k ↔ m ≠ k ∧ m ∈ l := by
  induction l with
  | nil => simp [SSet.del]
  | cons j l ih =>
    simp only [SSet.del]
    split
    · subst_vars
      simp only [List.mem_cons, ih]; tauto
    · simp only [List.mem_cons, ih]
      constructor
      · rintro (rfl | ⟨hne, hm⟩)
        · exact ⟨‹_›, .inl rfl⟩
        · exact ⟨hne, .inr hm⟩
      · tauto

theorem mem_upto {a n m : Nat} : m ∈ upto a n ↔ a ≤ m ∧ m < a + n := by
  rw [upto_eq_range', List.mem_range'_1]

theorem sorted_upto (a n : Nat) : (upto a n).Pairwise (· < ·) := by
  rw [upto_eq_range']
  exact List.pairwise_lt_range'

/-- The bits of a number below the powers of two of a rising list, with those powers added. -/
theorem testBit_foldl_pow {l : List Nat} (h : l.Pairwise (· < ·)) (a : Nat) (ha : ∀ k ∈ l, a < 2 ^ k) (j : Nat) :
    (l.foldl (fun a k => a + 2 ^ k) a).testBit j = (a.testBit j || decide (j ∈ l)) := by
  induction l generalizing a with
  | nil => simp
  | cons k l ih =>
    obtain ⟨hk, hl⟩ := List.pairwise_cons.1 h
    have hak : a < 2 ^ k := ha k List.mem_cons_self
    have hbit : (a + 2 ^ k).testBit j = (a.testBit j || decide (j = k)) := by
      rw [Nat.add_comm, ← Nat.mul_one (2 ^ k), Nat.two_pow_add_eq_or_of_lt hak, Nat.mul_one, Nat.testBit_or, Nat.testBit_two_pow,
        Bool.or_comm, decide_eq_decide.2 eq_comm]
    have hbound : ∀ i ∈ l, a + 2 ^ k < 2 ^ i := fun i hi => by
      have := Nat.pow_le_pow_right (n := 2) (by omega) (hk i hi)
      rw [Nat.pow_succ] at this
      omega
    rw [List.foldl_cons, ih hl _ hbound, hbit, Bool.or_assoc, ← Bool.decide_or]
    simp only [List.mem_cons]

/-- The bits of the mask of the numbers below n that a test picks. -/
theorem testBit_mask_filter (p : Nat → Bool) (n j : Nat) :
    (((upto 0 n).filter p).foldl (fun a k => a + 2 ^ k) 0).testBit j = (decide (j < n) && p j) := by
  rw [testBit_foldl_pow ((sorted_upto 0 n).filter p) 0 (fun _ _ => Nat.two_pow_pos _)]
  by_cases hj : j < n <;> by_cases hp : p j <;> simp [List.mem_filter, mem_upto, hj, hp]

/-- The word of an address lies in the address's unit. -/
theorem physUnit_alignDown (pa : Nat) : physUnit (alignDown pa 8) = physUnit pa := by
  simp only [physUnit, alignDown]; omega

/-- What is left of a table whose keys a test picks. -/
theorem get_filter_keys {α : Type} (d : α) (p : Nat → Bool) (l : List (Nat × α)) (k : Nat) :
    Sparse.get d (l.filter (fun x => p x.1)) k = if p k then Sparse.get d l k else d := by
  induction l with
  | nil => simp [Sparse.get]
  | cons x l ih =>
    obtain ⟨j, v⟩ := x
    by_cases hj : p j <;> by_cases hk : j = k <;> simp_all [Sparse.get]

end Sys2Proof.Proofs

/-! PROOF. Reset and the stages of bring-up (19 R424 to R430, R436; 20 R451). -/
namespace Sys2Proof.Proofs
open Sys2Proof.Machine Sys2Proof.Laws

/-- Settles O53: every value is the one that the definition of the state after reset writes out. -/
theorem resetState : Obligations.ResetState := by
  unfold Obligations.ResetState
  exact ⟨rfl, rfl, rfl, rfl, rfl, rfl, rfl, rfl, wf_reset, fun _ => ⟨rfl, List.not_mem_nil⟩, fun _ _ => ⟨rfl, rfl, rfl⟩,
    fun _ _ => ⟨rfl, rfl, rfl, rfl, rfl⟩⟩

/-! Package reset (20 R451). -/

theorem rawByte_afterReset (s : State) (pa : Nat) :
    s.afterReset.rawByte pa = if physUnit pa = hostUnit then s.rawByte pa else emptyByte := by
  refine (get_filter_keys emptyByte (fun pa => physUnit pa == hostUnit) s.mem pa).trans ?_
  simp only [beq_iff_eq, State.rawByte]

theorem packageReset_verified {s : State} (hok : s.silicon.imageOk = true) (hfloor : s.silicon.floor ≤ s.silicon.svn) :
    exec .packageReset s =
      .next { s.afterReset with stage := .discovery, silicon := { s.silicon with floor := s.silicon.svn } } :=
  congrArg _ (if_pos ⟨hok, hfloor⟩)

theorem packageReset_refused {s : State} (h : s.silicon.imageOk = false ∨ s.silicon.svn < s.silicon.floor) :
    exec .packageReset s = .next { s.afterReset with stage := .held 0xE1 } := by
  refine congrArg _ (if_neg fun hok => ?_)
  obtain ⟨hok, hfloor⟩ := hok
  rcases h with h | h
  · simp [h] at hok
  · omega

/-- A package whose image fails its check is held for good (19 R424). -/
theorem heldForGood_afterReset {s : State} (hmem : Memory.wf s.mem) (hinputs : ∀ x ∈ s.inputs, isOutside x = true) (k : Nat) :
    State.heldForGood { s.afterReset with stage := .held k } :=
  ⟨⟨⟨k, rfl⟩, rfl⟩, rfl, rfl, canon_filter hmem, hinputs⟩

/-! Discovery and link training (19 R425, R426). -/

/-- The state once the answers to the challenge are in. -/
def challenged (s : State) : State :=
  { s with trusted := ((upto 0 19).filter s.dieTrusted).foldl (fun a k => a + 2 ^ k) 0 }

theorem discovery_of_stage {s : State} (h : s.stage = .discovery) :
    exec .discovery s = .next { challenged s with
      stage := .links
      linkDown := dieLinks.filter (fun k => !((challenged s).trustedUnit (linkEnds k).1 && (challenged s).trustedUnit (linkEnds k).2)) } :=
  congrArg _ (if_pos h)

theorem mem_brokenLinks (p q : Nat → Bool) {k : Nat} (hk : k < 18) :
    k ∈ dieLinks.filter (fun k => !(p k && q k)) ↔ ¬(p k = true ∧ q k = true) := by
  simp [dieLinks, List.mem_filter, mem_upto, hk, Classical.or_iff_not_imp_left]

theorem testBit_trusted (s : State) (k : Nat) : (challenged s).trusted.testBit k = (decide (k < 19) && s.dieTrusted k) :=
  testBit_mask_filter s.dieTrusted 19 k

theorem manifest_of_dieTrusted {s : State} {k : Nat} (h : s.dieTrusted k = true) :
    s.silicon.manifest[k]? = some (sm3 (toBytes 64 (s.silicon.dieKeys.getD k 0).toNat)) := by
  simp only [State.dieTrusted, Bool.and_eq_true, beq_iff_eq] at h
  exact h.1

theorem linkTraining_of_stage {s : State} (h : s.stage = .links) :
    exec .linkTraining s =
      .next { s with stage := .memory, linkDown := (upto 0 19).filter (fun k => s.linkDown.contains k || !bit s.silicon.links k) } :=
  congrArg _ (if_pos h)

/-! Memory training (19 R424 stage 4). -/

/-- The bytes of HBM4 and LPDDR6. -/
def trainedByte (pa : Nat) : Bool := decide (physUnit pa < 20)

theorem memoryTraining_of_stage {s : State} (h : s.stage = .memory) :
    exec .memoryTraining s = .next { s.zeroWhere trainedByte with
      stage := .configuration, lineKey := s.lineKey.filter (fun x => !trainedByte (128 * x.1)) } :=
  congrArg _ (if_pos h)

theorem rawByte_zeroWhere (s : State) (p : Nat → Bool) (pa : Nat) :
    (s.zeroWhere p).rawByte pa = if p pa then emptyByte else s.rawByte pa := by
  refine (get_filter_keys emptyByte (fun pa => !p pa) s.mem pa).trans ?_
  cases hp : p pa <;> simp [State.rawByte]

theorem not_mem_filter_not {p : Nat → Bool} {l : List Nat} {a : Nat} (h : p a = true) : a ∉ l.filter (fun x => !p x) := by
  simp [List.mem_filter, h]

theorem isFull_zeroWhere {s : State} {p : Nat → Bool} {pa : Nat} (h : p (alignDown pa 8) = true) :
    (s.zeroWhere p).isFull pa = true := by
  simp [State.isFull, State.zeroWhere, h]

/-! Configuration (19 R429, R430). -/

/-- Every die holds the standard geometries. -/
def withGeos (s : State) (std : List (Nat × Word)) : State :=
  (upto 0 8).foldl (fun s d => s.setDie d { s.die d with gcache := std }) s

theorem geo_setDie (s : State) (d j k : Nat) (std : List (Nat × Word)) :
    (s.setDie d { s.die d with gcache := std }).geo j k = if j = d then Sparse.get 0 std k else s.geo j k := by
  have hdie : (s.setDie d { s.die d with gcache := std }).die j = if j = d then { s.die d with gcache := std } else s.die j :=
    get_set s.dies
  rw [State.geo, hdie]
  split <;> rfl

theorem geo_withGeos (s : State) (std : List (Nat × Word)) {d : Nat} (hd : d < 8) (k : Nat) :
    (withGeos s std).geo d k = Sparse.get 0 std k := by
  have hmem (l : List Nat) (s : State) (h : d ∈ l ∨ s.geo d k = Sparse.get 0 std k) :
      (l.foldl (fun s d => s.setDie d { s.die d with gcache := std }) s).geo d k = Sparse.get 0 std k := by
    induction l generalizing s with
    | nil => simpa using h
    | cons j l ih =>
      refine ih _ ?_
      rw [geo_setDie]
      by_cases hj : d = j
      · exact .inr (if_pos hj)
      · simpa [hj] using h
  exact hmem _ s (.inl (mem_upto.2 (by omega)))

/-- The system domain exists once firmware has made it (20 R444). -/
theorem makeSystem_v (s : State) : (s.makeSystem.domain 0).v = true := by
  have h (s : State) (root : Word) (ap : Bool) (key : BitVec 256) : ((s.makeDomain 0 root ap key).domain 0).v = true := by
    simp only [State.makeDomain, State.domain, State.setDomain, get_set, if_true]
  exact h ..

theorem configuration_refused {s : State} (h : s.stage = .configuration)
    (hnone : 8 ∉ s.joined s.unitOk ∨ (s.joined s.unitOk).filter (fun u => decide (u < 8)) = []) :
    exec .configuration s = .next { s with stage := .held 0xE2 } := by
  refine congrArg _ ((if_pos h).trans (if_pos ?_))
  simpa using hnone

theorem configuration_done {s : State} (h : s.stage = .configuration) (hjoined : 8 ∈ s.joined s.unitOk)
    (hdies : (s.joined s.unitOk).filter (fun u => decide (u < 8)) ≠ []) :
    ∃ s1 engdies enstacks encores low, let endies := maskOf ((s.joined s.unitOk).filter (fun u => decide (u < 8)))
      s1 = (withGeos s (stdGeo endies engdies enstacks low)).makeSystem ∧
      exec .configuration s = .next { s1 with
        stage := .release, endies := endies, engdies := engdies, enstacks := enstacks, encores := encores } := by
  refine ⟨_, _, _, _, _, rfl, congrArg _ ((if_pos h).trans (if_neg ?_))⟩
  simpa [hjoined] using hdies

/-- Settles O51: each stage is its definition at its time; what it says of masks, tables and zeroed memory is read off. -/
theorem bringUp : Obligations.BringUp := by
  unfold Obligations.BringUp
  intro s pa joined dies
  refine ⟨fun hok hfloor => ⟨_, packageReset_verified hok hfloor, rfl, rfl, rfl, rfl, rfl, rawByte_afterReset s pa⟩,
    fun href hmem hinputs => ⟨_, packageReset_refused href, rfl, heldForGood_afterReset hmem hinputs _⟩,
    fun h => ⟨_, discovery_of_stage h, rfl, fun k hk => ⟨?_, fun hbit => ?_⟩⟩,
    fun h => ⟨_, linkTraining_of_stage h, rfl, fun k hk => ?_⟩,
    fun h => ⟨_, memoryTraining_of_stage h, rfl, fun hpa => ?_⟩,
    fun h => ⟨fun hnone => ⟨_, configuration_refused h hnone, rfl⟩, fun hjoined hdies => ?_⟩,
    fun h => congrArg _ (if_pos h), fun h i hi => ?_⟩
  · exact mem_brokenLinks (fun k => (challenged s).trustedUnit (linkEnds k).1) (fun k => (challenged s).trustedUnit (linkEnds k).2) hk
  · rw [testBit_trusted, Bool.and_eq_true] at hbit
    exact manifest_of_dieTrusted hbit.2
  · simp [List.mem_filter, mem_upto, hk, bit_eq_testBit]
  · have hword : trainedByte (alignDown pa 8) = true := by simpa [trainedByte, physUnit_alignDown] using hpa
    exact ⟨(rawByte_zeroWhere s trainedByte pa).trans (if_pos (by simpa [trainedByte] using hpa)), isFull_zeroWhere hword,
      not_mem_filter_not hword⟩
  · obtain ⟨s1, engdies, enstacks, encores, low, hs1, hexec⟩ := configuration_done h hjoined hdies
    refine ⟨_, hexec, rfl, ?_, rfl, fun d hd => ?_⟩
    · subst hs1
      exact makeSystem_v _
    · subst hs1
      exact geo_withGeos s (stdGeo (maskOf dies) engdies enstacks low) hd 0
  · have hstage {k : Stage} (hk : Stage.running ≠ k) (s' : State) : event (if s.stage = k then s' else s) = .next s :=
      congrArg _ (if_neg (h ▸ hk))
    simp only [List.mem_cons, List.not_mem_nil, or_false] at hi
    obtain rfl | rfl | rfl | rfl | rfl := hi
    · exact hstage (k := .discovery) nofun _
    · exact hstage (k := .links) nofun _
    · exact hstage (k := .memory) nofun _
    · exact hstage (k := .configuration) nofun _
    · exact hstage (k := .release) nofun _

end Sys2Proof.Proofs

/-! PROOF. Errors of memory, flits, requests and links (18 R418 to R420; 17 R396; 19 R434). -/
namespace Sys2Proof.Proofs
open Sys2Proof.Machine Sys2Proof.Laws

/-! Counts and marks (17 R396; 18 R418). -/

/-- One more in a counter that saturates (17 R396). -/
def saturating (v : Word) : Word := if v = BitVec.allOnes 64 then v else v + 1

theorem die_setDie (s : State) (d j : Nat) (x : Die) : (s.setDie d x).die j = if j = d then x else s.die j := get_set s.dies

/-- One counter of one die counts an error, and no other does. -/
theorem errs_countErr (s : State) (die k d m : Nat) : Sparse.get 0 ((s.countErr die k).die d).errs m =
    if d = die ∧ m = k then saturating (Sparse.get 0 (s.die d).errs m) else Sparse.get 0 (s.die d).errs m := by
  have hones : w64 (2 ^ 64 - 1) = BitVec.allOnes 64 := rfl
  simp only [State.countErr, die_setDie, saturating, hones]
  by_cases hd : d = die
  · subst hd
    by_cases hm : m = k
    · subst hm
      simp only [if_true, get_set, and_self]
      split
      next h => exact h.symm
      next => rfl
    · simp [get_set, hm]
  · simp [hd]

theorem mem_poisonWord (s : State) (die pa w : Nat) : w ∈ (s.poisonWord die pa).poison ↔ w = alignDown pa 8 ∨ w ∈ s.poison := by
  have h : (s.poisonWord die pa).poison = SSet.add s.poison (alignDown pa 8) := by
    unfold State.poisonWord
    dsimp only
    split <;> rfl
  rw [h, mem_sset_add]

theorem errs_poisonWord (s : State) (die pa : Nat) : Sparse.get 0 ((s.poisonWord die pa).die die).errs 1 =
    if (s.poisonedIn (alignDown pa 128) 128).isNone then saturating (Sparse.get 0 (s.die die).errs 1)
    else Sparse.get 0 (s.die die).errs 1 := by
  unfold State.poisonWord
  dsimp only
  split
  · rw [errs_countErr, if_pos ⟨rfl, rfl⟩]
    rfl
  · rfl

/-! The recall of a line whose sharers are lost (18 R419). -/

theorem mem_markPoison (s : State) (pa w : Nat) : w ∈ (s.markPoison pa).poison ↔ w = alignDown pa 8 ∨ w ∈ s.poison := mem_sset_add

/-- What marks the whole of a line leaves each of its words poisoned. -/
theorem mem_markLine (s : State) (line : Nat) {j : Nat} (hj : j < 16) :
    128 * line + 8 * j ∈ ((upto 0 16).foldl (fun s k => s.markPoison (128 * line + 8 * k)) s).poison := by
  have h (l : List Nat) (s : State) (hmem : j ∈ l ∨ 128 * line + 8 * j ∈ s.poison) :
      128 * line + 8 * j ∈ (l.foldl (fun s k => s.markPoison (128 * line + 8 * k)) s).poison := by
    induction l generalizing s with
    | nil => simpa using hmem
    | cons k l ih =>
      refine ih _ ?_
      rw [mem_markPoison]
      rcases hmem with hmem | hmem
      · rcases List.mem_cons.1 hmem with rfl | hmem
        · exact .inr (.inl (by unfold alignDown; omega))
        · exact .inl hmem
      · exact .inr (.inr hmem)
  exact h _ s (.inl (mem_upto.2 (by omega)))

/-- From s to s' neither the poison marks nor the recalls that run change. -/
structure SameMarks (s s' : State) : Prop where
  poison : s'.poison = s.poison
  lost : s'.sharersLost = s.sharersLost

namespace SameMarks
variable {s s1 s2 : State}

theorem trans (h : SameMarks s s1) (h' : SameMarks s1 s2) : SameMarks s s2 := ⟨h'.poison.trans h.poison, h'.lost.trans h.lost⟩

theorem pushRec (s : State) (d : Nat) (r : Rec) : SameMarks s (s.pushRec d r) := by
  unfold State.pushRec
  split <;> exact ⟨rfl, rfl⟩

theorem machineCheck (s : State) (die sdom : Nat) (w : Word) : SameMarks s (s.machineCheck die sdom w) := by
  have hrecs (l : List Fdt) (r : Rec) : SameMarks s (l.foldl (fun s f => s.pushRec die { r with region := f.mcregion, home := f.sdom }) s) :=
    List.foldlRecOn (motive := SameMarks s) l _ ⟨rfl, rfl⟩ fun s1 h f _ => h.trans (pushRec ..)
  unfold State.machineCheck
  exact (hrecs ..).trans ⟨rfl, rfl⟩

end SameMarks

/-- The recall of a line ends with the line poisoned, and runs no more. -/
theorem sharersLostRecallEnd_ends {s : State} {line : Nat} (h : line ∈ s.sharersLost) :
    ∃ s', exec (.sharersLostRecallEnd line) s = .next s' ∧ line ∉ s'.sharersLost ∧
      ∀ j, j < 16 → 128 * line + 8 * j ∈ s'.poison := by
  refine ⟨_, congrArg Host.Outcome.next (if_pos (by simpa using h)), ?_⟩
  dsimp only
  generalize (s.homeOf (128 * line)).getD (s.firstDie, 0) = home
  generalize s.recallLine (128 * line) = s1
  have hmark {j : Nat} (hj : j < 16) := mem_markLine s1 line hj
  generalize (upto 0 16).foldl (fun s k => s.markPoison (128 * line + 8 * k)) s1 = s2 at hmark ⊢
  set s3 : State := { s2 with sharersLost := SSet.del s2.sharersLost line }
  have hcount : SameMarks s3 (if (s1.poisonedIn (128 * line) 128).isNone then s3.countErr home.1 1 else s3) := by
    split <;> exact ⟨rfl, rfl⟩
  have hend := (hcount.trans (s2 := State.countErr _ home.1 2) ⟨rfl, rfl⟩).trans (SameMarks.machineCheck _ home.1 (s.lineDom (128 * line)) home.2)
  rw [hend.poison, hend.lost]
  exact ⟨fun hm => (mem_sset_del.1 hm).1 rfl, fun j hj => hmark hj⟩

theorem sharersLostRecallEnd_idle {s : State} {line : Nat} (h : line ∉ s.sharersLost) :
    exec (.sharersLostRecallEnd line) s = .next s :=
  congrArg _ (if_neg (by simpa using h))

/-! Requests that time out (18 R402, R420). -/

/-- A thread that the first class A record queued for it, of code n, has parked at its boundary (18 R402, R411). -/
def parkedAt (t : Thread) (l : List Rec) (n : Nat) : Thread :=
  { t with slot := none, ctl := false, linesIn := [], age := 0, claim := none, asyncs := l, st := .faulted, fcause := n, walk := none
           stepped := false, cond := none, waitarg := 0, deadline := w64 (2 ^ 64 - 1) }

theorem vacate_of_drained_live {s : State} {t : Thread} (h : (s.find t.id).isSome = true) (hd : s.drained t) :
    s.vacate t = (s.put t).releaseSlot t := by
  simp only [State.vacate, drainAll_of_drained hd, find_put h, Option.getD_some]

/-- At the boundary of a thread that nothing holds and nobody kills, the first class A record queued for it parks it. -/
theorem boundary_parks {s : State} {t : Thread} {r : Rec} {l : List Rec} (h : s.find t.id = some t) (hst : t.st ≠ .faulted)
    (hpend : t.pend = none) (hkill : t.killed = false) (hasyncs : t.asyncs = r :: l) (hd : s.drained t)
    (hroom : s.upqFull (dieOf t.core) = false) (w : Nat) :
    (s.boundary t.id w).threads = (s.put (parkedAt t l r.cause.code)).threads := by
  have hlive : (s.find t.id).isSome = true := Option.isSome_of_eq_some h
  have hleft : Quiet (s.put { t with asyncs := l }) ((s.put { t with asyncs := l }).releaseSlot { t with asyncs := l }).1 :=
    (Quiet.refl _).releaseSlot _
  have hno : ¬(t.st = .faulted ∨ t.pend.isSome = true) := by simp [hst, hpend]
  have hvacate : s.vacate { t with asyncs := l } = (s.put { t with asyncs := l }).releaseSlot { t with asyncs := l } :=
    vacate_of_drained_live hlive hd
  rw [State.boundary, h]
  dsimp only
  rw [if_neg hno, if_neg (by simp [stuck_of_drained hd, hroom]), if_neg (by simp [hkill]), hasyncs]
  dsimp only
  rw [hvacate, releaseSlot_thread]
  rw [Left.gangParked_threads, ((Quiet.refl _).pushRec ..).threads,
    put_threads_of_threads ((Left.unstep_threads ..).trans hleft.threads)]
  exact congrArg State.threads (put_put (u := parkedAt t l r.cause.code) rfl)

/-- A class A fault of a thread with nothing queued and no store to drain parks it at once (18 R402, R411). -/
theorem raiseAsync_parks {s : State} {t : Thread} (h : s.find t.id = some t) (hst : t.st ≠ .faulted) (hpend : t.pend = none)
    (hkill : t.killed = false) (hasyncs : t.asyncs = []) (hd : s.drained t) (hroom : s.upqFull (dieOf t.core) = false) (c : Cause)
    (k : AccKind) (detail : Nat) (a : Word) : (s.raiseAsync t.id c k detail a).find t.id = some (parkedAt t [] c.code) := by
  have hlive : (s.find t.id).isSome = true := Option.isSome_of_eq_some h
  have hno : ¬(t.st = .faulted ∨ t.pend.isSome = true) := by simp [hst, hpend]
  simp only [State.raiseAsync, h, if_neg hno, hasyncs, List.nil_append]
  generalize hr : s.recOf t { cause := c, addr := a, kind := k, detail := detail, fetch := false } true false 0 = r
  have hcause : r.cause = c := by rw [← hr]; rfl
  have hthreads := boundary_parks (s := s.put { t with asyncs := [r] }) (t := { t with asyncs := [r] }) (find_put hlive) hst hpend hkill
    rfl hd hroom 0
  rw [find_of_threads hthreads, hcause]
  exact find_put (isSome_find_put hlive)

theorem requestTimeout_halted {s : State} (h : s.halted = true) (o : Outstanding) : exec (.requestTimeout o) s = .next s :=
  congrArg _ (if_pos h)

section
variable {s : State} {i : Tid} {t : Thread} {k : Nat} {f : Fill} {r : Req} (h : s.find i = some t) (hf : t.fills[k]? = some f)
  (hr : f.req = some r)
include h hf hr

theorem requestTimeout_of_fill : exec (.requestTimeout (.fill i k)) s = .next (
    if s.halted then s else if s.upqFull (dieOf t.core) then s else if s.reqDue r then
      ((s.put (t.dropFill k s.tick)).countErr (dieOf t.core) 4).raiseAsync i .requestTimeOut r.kind 0 r.addr
    else s) := by
  have hk : ¬t.fills.length < k := Nat.not_lt.2 (List.getElem?_eq_some_iff.1 hf).1.le
  simp only [exec, execRequestTimeout, event, h, hf, hr, hk, if_false]

/-- A request is not abandoned before its bound has passed (18 R420). -/
theorem requestTimeout_early (htick : s.tick < r.since + s.bound r.host) : exec (.requestTimeout (.fill i k)) s = .next s := by
  have hdue : s.reqDue r = false := by simpa [State.reqDue] using htick
  rw [requestTimeout_of_fill h hf hr, hdue]
  simp only [Bool.false_eq_true, if_false, ite_self]

end

theorem countErr_upqFull (s : State) (d k j : Nat) : (s.countErr d k).upqFull j = s.upqFull j := by
  have hdie : ((s.countErr d k).die j).upq = (s.die j).upq := by
    rw [State.countErr, die_setDie]
    split
    next hj => rw [hj]
    next => rfl
  rw [State.upqFull, hdie, State.upqFull]

theorem dropFill_keeps (t : Thread) (k tick : Nat) :
    t.dropFill k tick = { t with fills := removeNth k t.fills, stores := (t.dropFill k tick).stores } := by
  unfold Thread.dropFill Thread.leaves
  dsimp only
  split <;> rfl

theorem dropFill_stores {t : Thread} (h : t.stores = []) (k tick : Nat) : (t.dropFill k tick).stores = [] := by
  unfold Thread.dropFill Thread.leaves
  dsimp only
  split <;> simp [h]

theorem length_removeNth {α : Type} {l : List α} {k : Nat} {a : α} (h : l[k]? = some a) : (removeNth k l).length + 1 = l.length := by
  induction l generalizing k with
  | nil => simp at h
  | cons b l ih =>
    cases k with
    | zero => simp [removeNth]
    | succ k => simp [removeNth, ih (k := k) (by simpa using h)]

/-- A fill whose request is abandoned leaves its thread parked with the request time-out, one fill less outstanding (18 R420). -/
theorem requestTimeout_parks {s : State} {i : Tid} {t : Thread} {k : Nat} {f : Fill} {r : Req} (h : s.find i = some t)
    (hf : t.fills[k]? = some f) (hr : f.req = some r) (htick : r.since + s.bound r.host ≤ s.tick) (hhalt : s.halted = false)
    (hroom : s.upqFull (dieOf t.core) = false) (hst : t.st = .resident) (hpend : t.pend = none) (hkill : t.killed = false)
    (hasyncs : t.asyncs = []) (hd : s.drained t) : ∃ s', exec (.requestTimeout (.fill i k)) s = .next s' ∧
      s'.find i = some (parkedAt (t.dropFill k s.tick) [] Cause.requestTimeOut.code) := by
  obtain rfl := find_id h
  have hdue : s.reqDue r = true := by simpa [State.reqDue] using htick
  have hexec := requestTimeout_of_fill h hf hr
  rw [hhalt, hroom, hdue] at hexec
  refine ⟨_, hexec, ?_⟩
  generalize hu : t.dropFill k s.tick = u
  have hkeeps : u = { t with fills := removeNth k t.fills, stores := u.stores } := by rw [← hu]; exact dropFill_keeps ..
  have hstores : u.stores = [] := by rw [← hu]; exact dropFill_stores hd.1 ..
  have hid : u.id = t.id := by rw [hkeeps]
  have hcore : u.core = t.core := by rw [hkeeps]
  rw [← hid, ← hcore]
  refine raiseAsync_parks ?_ (by rw [hkeeps, hst]; nofun) (by rw [hkeeps, hpend]) (by rw [hkeeps, hkill]) (by rw [hkeeps, hasyncs])
    ⟨hstores, by rw [hcore]; exact hd.2⟩ (by rw [countErr_upqFull, hcore]; exact hroom) ..
  exact find_put (by rw [hid]; exact Option.isSome_of_eq_some h)

/-! Links (19 R434). -/

theorem linkFailure_retrains {s : State} {l : Nat} (hstage : s.stage = .running) (hl : l < 19) (hnew : l ∉ s.linkDown) :
    exec (.linkFailure l) s =
      .next { s with linkDown := SSet.add s.linkDown l, retraining := SSet.add s.retraining l, net := s.net ++ s.onLink l } :=
  congrArg _ (if_pos ⟨hstage, hl, by simpa using hnew⟩)

theorem mem_resent (s : State) (l : Nat) (p : Packet) : p ∈ s.net ++ s.onLink l ↔ p ∈ s.net := by
  simp only [State.onLink, List.mem_append, List.mem_filter]
  tauto

theorem splitCheck_threads (s : State) : s.splitCheck.threads = s.threads :=
  foldl_threads (fun s _ => ((Quiet.refl s).pushRec ..).threads) _ s

section
variable {s : State} {l : Nat} (h : l ∈ s.retraining) (ok : Bool)
include h

/-- The end of the retraining of a link that retrains, from whether the package then holds together. -/
theorem linkRetrainEnd_of_mem : exec (.linkRetrainEnd l ok) s = .next (
    let s1 := { s with retraining := SSet.del s.retraining l, linkDown := if ok then SSet.del s.linkDown l else s.linkDown }
    if s1.hopeful.whole then s1 else { s1.splitCheck with halted := true, fatal := true }) :=
  congrArg _ (if_neg (by simpa using h))

end

/-- Settles O50: counts, marks, recalls, time-outs and links one after the other. -/
theorem errorSteps : Obligations.ErrorSteps := by
  unfold Obligations.ErrorSteps
  intro s die pa line k i t _ r ok inc errs counts trained
  have hcounts (j : Nat) : ∀ d m, errs (s.countErr die j) d m = if d = die ∧ m = j then inc (errs s d m) else errs s d m :=
    errs_countErr s die j
  refine ⟨⟨_, rfl, ?_, ?_, mem_poisonWord s die pa, errs_poisonWord s die pa⟩, ⟨_, rfl, rfl, hcounts 0⟩, ⟨_, rfl, rfl, hcounts 3⟩,
    fun hhome => congrArg _ (if_neg (by simp [hhome])), fun hhome => ⟨_, congrArg Host.Outcome.next (if_pos hhome), rfl, fun m => mem_sset_add⟩,
    sharersLostRecallEnd_ends, sharersLostRecallEnd_idle, requestTimeout_halted, fun h hf hr => ⟨requestTimeout_early h hf hr, ?_⟩,
    fun hstage hl hnew => ⟨_, linkFailure_retrains hstage hl hnew, rfl, fun m => mem_sset_add, fun m => mem_sset_add, mem_resent s line⟩,
    fun hmem => ⟨fun hwhole => ?_, fun hwhole => ?_⟩⟩
  · exact (Undisturbed.poisonWord s die pa).mem
  · exact (Undisturbed.poisonWord s die pa).threads
  · intro htick hhalt hroom hst hpend hkill hasyncs hd _
    obtain ⟨s', hexec, hfind⟩ := requestTimeout_parks h hf hr htick hhalt hroom hst hpend hkill hasyncs hd
    have hkeeps := dropFill_keeps t k s.tick
    exact ⟨s', _, hexec, hfind, rfl, rfl, by rw [hkeeps]; exact length_removeNth hf, by rw [hkeeps]; rfl⟩
  · rw [linkRetrainEnd_of_mem hmem]
    exact congrArg _ (if_pos hwhole)
  · rw [linkRetrainEnd_of_mem hmem]
    exact ⟨_, congrArg Host.Outcome.next (if_neg (by simpa [trained] using hwhole)), rfl, rfl, splitCheck_threads _⟩

end Sys2Proof.Proofs

/-! PROOF. What the device writes (10 R230; 13 R291, R303; 02 R43; 15 R345) changes bytes with their marks and keys, what is held or
waits for a credit, and packets, and nothing else of the state. -/
namespace Sys2Proof.Proofs
open Sys2Proof.Machine Sys2Proof.Laws

/-- The state but for its bytes with their poison marks and keys, the writes held, of the device and of finished threads, the entries, credits
and packets of requests, and the waits that end within the step. -/
def standing (s : State) : State :=
  { s with mem := [], poison := [], lineKey := [], devq := [], held := [], credq := [], seqs := [], performed := [], replies := [], net := []
           ended := [] }

theorem standing_foldl {α : Type} {f : State → α → State} (hf : ∀ s a, standing (f s a) = standing s) (l : List α) (s : State) :
    standing (l.foldl f s) = standing s := foldl_keeps hf l s

/-- What a standing state says of the state. -/
theorem eq_of_standing {α : Type} (f : State → α) (hf : ∀ s, f s = f (standing s)) {s s' : State} (h : standing s' = standing s) :
    f s' = f s := by
  rw [hf, h, ← hf]

section
variable {s s' : State} (h : standing s' = standing s)
include h

theorem threads_of_standing : s'.threads = s.threads := eq_of_standing State.threads (fun _ => rfl) h
theorem dies_of_standing : s'.dies = s.dies := eq_of_standing State.dies (fun _ => rfl) h
theorem cores_of_standing : s'.cores = s.cores := eq_of_standing State.cores (fun _ => rfl) h
theorem early_of_standing : s'.early = s.early := eq_of_standing State.early (fun _ => rfl) h
theorem tick_of_standing : s'.tick = s.tick := eq_of_standing State.tick (fun _ => rfl) h
theorem find_of_standing (i : Tid) : s'.find i = s.find i := find_of_threads (threads_of_standing h) i

end

/-! Writes of bytes (10 R230). -/

@[simp] theorem standing_pokeBytes (s : State) (a : Nat) (bs : List Byte) : standing (s.pokeBytes a bs) = standing s := by
  induction bs generalizing s a with
  | nil => rfl
  | cons b bs ih => exact ih (s.pokeByte a b) (a + 1)

theorem standing_withKeys (s : State) (l : List (Nat × Nat)) : standing { s with lineKey := l } = standing s := rfl

@[simp] theorem standing_rekey (s : State) (d a : Nat) : standing (s.rekey d a) = standing s := by
  unfold State.rekey
  split
  · rfl
  · exact (standing_withKeys ..).trans (standing_pokeBytes ..)

@[simp] theorem standing_writeLine (s : State) (d a : Nat) (bs : List Byte) : standing (s.writeLine d a bs) = standing s := by
  unfold State.writeLine
  refine (standing_pokeBytes ..).trans ?_
  split
  · rfl
  · split
    · rfl
    · exact standing_rekey ..

@[simp] theorem standing_unpoison (s : State) (a n : Nat) : standing (s.unpoison a n) = standing s := rfl

@[simp] theorem standing_writeAs (s : State) (d a : Nat) (bs : List Byte) : standing (s.writeAs d a bs) = standing s := by
  unfold State.writeAs
  dsimp only
  split
  · simp
  · refine (standing_foldl (fun s k => ?_) ..).trans (standing_unpoison ..)
    generalize (if k = 0 then 0 else 128 - a % 128 + 128 * (k - 1)) = lo
    split
    · rfl
    · simp

@[simp] theorem standing_markLeaf (s : State) (d : Nat) (x : Walked) (w : Bool) : standing (s.markLeaf d x w) = standing s := by
  unfold State.markLeaf
  split
  · rfl
  · exact standing_writeAs ..

@[simp] theorem standing_touch (s : State) (die d a : Nat) (w : Bool) : standing (s.touch die d a w) = standing s := by
  unfold State.touch
  split
  · simp
  · rfl

@[simp] theorem standing_touchPath (s : State) (die home : Nat) (l : List Nat) : standing (s.touchPath die home l) = standing s :=
  standing_foldl (fun s _ => standing_touch s ..) l s

@[simp] theorem standing_chainRead (s : State) (die home va : Nat) : standing (s.chainRead die home va) = standing s :=
  standing_touchPath s ..

/-! Writes of the device and its charges (13 R303; 02 R43). -/

theorem standing_devPut {s s' : State} {die d a : Nat} {bs : List Byte} {free : Bool} (e : s.devPut die d a bs free = .ok s') :
    standing s' = standing s := by
  unfold State.devPut at e
  split at e
  · cases e
  · split at e
    · obtain rfl := Except.ok.inj e
      split <;> simp
    · cases e

@[simp] theorem standing_takeEntry (s : State) (w : Waiter) (src home d p old : Nat) :
    standing (s.takeEntry w src home d p old) = standing s := by
  unfold State.takeEntry
  split <;> rfl

theorem standing_devPerform {s s' : State} {o : DevOp} (e : s.devPerform o = .ok s') : standing s' = standing s := by
  unfold State.devPerform at e
  split at e
  · exact standing_devPut e
  · exact standing_devPut e
  · exact standing_devPut e
  · split at e
    · cases e
    · split at e
      · cases e
      next hput =>
        obtain rfl := Except.ok.inj e
        exact (standing_takeEntry ..).trans (standing_devPut hput)
  all_goals
    split at e
    · cases e
    · exact standing_devPut e

@[simp] theorem standing_awaitCredit (s : State) (src home : Nat) (w : Waiter) : standing (s.awaitCredit src home w) = standing s := by
  unfold State.awaitCredit
  split <;> rfl

theorem standing_devDo {s s' : State} {o : DevOp} (e : s.devDo o = .ok s') : standing s' = standing s := by
  unfold State.devDo at e
  split at e
  · obtain rfl := Except.ok.inj e
    dsimp only
    split
    · exact standing_awaitCredit ..
    · rfl
  · exact standing_devPerform e

@[simp] theorem standing_noteWaits (s : State) : standing s.noteWaits = standing s := by
  unfold State.noteWaits
  dsimp only
  split <;> rfl

@[simp] theorem standing_charge (s : State) (die home : Nat) (c : Charge) (d : Int) (l : List Nat) :
    standing (s.charge die home c d l) = standing s := by
  refine standing_foldl (fun s a => ?_) l s
  unfold State.addCount
  dsimp only
  split
  next hdo => exact (standing_noteWaits _).trans (standing_devDo hdo)
  next => rfl

/-! Frames (05 R125; 22 R471). -/

@[simp] theorem standing_writeOwned (s : State) (d pa : Nat) (bs : List Byte) : standing (s.writeOwned d pa bs) = standing s := by
  unfold State.writeOwned
  split
  · simp
  · rfl

@[simp] theorem standing_writeFrameLine (s : State) (u : Thread) (i pa : Nat) (ws : List Word) :
    standing (s.writeFrameLine u i pa ws) = standing s := by
  unfold State.writeFrameLine
  dsimp only
  split
  · rfl
  · split
    · split <;> simp
    · simp

theorem standing_withPoison (s : State) (l : List Nat) : standing { s with poison := l } = standing s := rfl

@[simp] theorem standing_writeBack (s : State) (u : Thread) (st sub : Nat) (kept : Nat → Bool) :
    standing (s.writeBack u st sub kept) = standing s := by
  unfold State.writeBack
  split
  · rfl
  · refine standing_foldl (fun s i => ?_) _ s
    dsimp only
    split
    · exact standing_writeFrameLine s ..
    · exact (standing_withPoison ..).trans (standing_writeFrameLine s ..)

@[simp] theorem standing_unpoisonNoted (s : State) (u : Thread) (l : List Nat) : standing (s.unpoisonNoted u l) = standing s := by
  unfold State.unpoisonNoted
  split
  · rfl
  · exact standing_foldl (fun _ _ => standing_unpoison ..) _ s

@[simp] theorem standing_settleHeld (s : State) (i : Tid) : standing (s.settleHeld i) = standing s := by
  have hfinish (s s' : State) (u : Thread) (h : standing s' = standing s) : standing { s' with held := s.held.erase u } = standing s := h
  refine standing_foldl (fun s u => ?_) _ s
  unfold State.finishHeld
  split
  · rfl
  · split
    · rfl
    · exact hfinish _ _ _ ((standing_writeBack ..).trans (standing_unpoisonNoted ..))

/-- A slot given up changes no die (18 R417). -/
theorem releaseSlot_dies (s : State) (t : Thread) : (s.releaseSlot t).1.dies = s.dies := by
  have hfresh : ((s.dropFresh t.core t.id).dropCredit t.id).dies = s.dies := by
    unfold State.dropFresh
    dsimp only
    split <;> rfl
  unfold State.releaseSlot
  dsimp only
  split
  · exact (dies_of_standing (standing_charge ..)).trans hfresh
  · exact hfresh

/-! Upcall queues (18 R402, R403). -/

theorem upq_pushRec {s : State} {d : Nat} (h : s.upqFull d = false) (r : Rec) : ((s.pushRec d r).die d).upq = (s.die d).upq ++ [r] := by
  rw [State.pushRec, if_neg (by simp [h])]
  dsimp only
  rw [die_setDie, if_pos rfl]

theorem upqFull_of_dies {s s' : State} (h : s'.dies = s.dies) (d : Nat) : s'.upqFull d = s.upqFull d := by
  rw [State.upqFull, State.die, h, State.upqFull, State.die]

theorem die_of_dies {s s' : State} (h : s'.dies = s.dies) (d : Nat) : s'.die d = s.die d := by rw [State.die, h, State.die]

end Sys2Proof.Proofs

/-! PROOF. Taking a fault (18 R401, R402). -/
namespace Sys2Proof.Proofs
open Sys2Proof.Machine Sys2Proof.Laws

theorem gangParked_dies (s : State) (t : Thread) : (s.gangParked t).dies = s.dies := by
  unfold State.gangParked State.gangSaveReq
  split <;> rfl

theorem unstep_dies (s : State) (i : Tid) : (s.unstep i).dies = s.dies := by
  unfold State.unstep
  split <;> rfl

section
variable {s : State} {t : Thread} (h : (s.find t.id).isSome = true) (hd : s.drained t)
include h hd

/-- The threads once one without a store to drain is parked. -/
theorem park_threads (f : Flt) (async ctx : Bool) (w : Nat) (own : Bool) :
    (s.park t f async ctx w own).threads = (s.put (parkedThread t f.cause.code)).threads := by
  have hleft : Quiet (s.put t) ((s.put t).releaseSlot t).1 := (Quiet.refl _).releaseSlot t
  unfold State.park
  simp only [vacate_of_drained_live h hd, releaseSlot_thread]
  rw [Left.gangParked_threads, ((Quiet.refl _).pushRec ..).threads,
    put_threads_of_threads ((Left.unstep_threads ..).trans hleft.threads)]
  exact congrArg State.threads (put_put (u := parkedThread t f.cause.code) rfl)

/-- The record of a thread's fault enters its die's upcall queue. -/
theorem park_upq (hroom : s.upqFull (dieOf t.core) = false) (f : Flt) (w : Nat) :
    ((s.park t f false false w).die (dieOf t.core)).upq = (s.die (dieOf t.core)).upq ++ [s.recOf t f false false w] := by
  unfold State.park
  simp only [vacate_of_drained_live h hd, releaseSlot_thread, Bool.false_and, Bool.false_eq_true, if_false]
  have hdies (u : Thread) : ((((s.put t).releaseSlot t).1.unstep t.id).put u).dies = s.dies :=
    (unstep_dies ..).trans (releaseSlot_dies ..)
  rw [die_of_dies (gangParked_dies ..), upq_pushRec ((upqFull_of_dies (hdies _) _).trans hroom), die_of_dies (hdies _)]

end

/-- The six words of the record of a synchronous fault of execution (18 R401). -/
theorem words_recOf (s : State) (t : Thread) (f : Flt) (w : Nat) : (s.recOf t f false false w).words =
    [BitVec.ofNat 64 (f.cause.code + (if f.fetch then 2 ^ 9 else 0) + f.kind.code * 2 ^ 13 + f.detail % 256 * 2 ^ 16),
      BitVec.ofNat 64 (t.id.handle % 2 ^ 47 + t.core % 2048 * 2 ^ 48), t.pc, BitVec.ofNat 64 (w % 2 ^ 32), f.addr,
      BitVec.ofNat 64 s.tick] := by
  cases hf : f.fetch <;> simp [State.recOf, Rec.words, b2n, w64, hf]

/-- Settles O29: the thread leaves its slot as `parkedThread`, and its record is the last of the queue. -/
theorem faultEntry : Obligations.FaultEntry := by
  unfold Obligations.FaultEntry
  intro s t f w h hd hroom s'
  have hlive : (s.find t.id).isSome = true := Option.isSome_of_eq_some h
  have hthreads : s'.threads = (s.put (parkedThread t f.cause.code)).threads := park_threads hlive hd f false false w true
  refine ⟨parkedThread t f.cause.code, _, ?_, rfl, rfl, rfl, rfl, rfl, fun _ => ⟨rfl, rfl⟩, rfl, rfl, rfl, park_upq hlive hd hroom f w,
    words_recOf s t f w, fun j hj => ?_⟩
  · rw [find_of_threads hthreads]
    exact find_put hlive
  · rw [find_of_threads hthreads]
    exact find_put_ne hj

end Sys2Proof.Proofs

/-! PROOF. UPRET and ERET end a handler (18 R409). -/
namespace Sys2Proof.Proofs
open Sys2Proof.Machine Sys2Proof.Laws

theorem exec_upret (a : Reg) (s : State) : exec (.upret a) s = execUpret a s := rfl
theorem exec_eret (s : State) : exec .eret s = execEret s := rfl

/-! Upcall queues through the end of a thread (18 R402, R403). -/

theorem pushRec_threads (s : State) (d : Nat) (r : Rec) : (s.pushRec d r).threads = s.threads := ((Quiet.refl s).pushRec d r).threads
theorem pushRec_early (s : State) (d : Nat) (r : Rec) : (s.pushRec d r).early = s.early := ((Quiet.refl s).pushRec d r).early

/-- In the state the upcall queue of die d goes on from q, and no thread waits for a word. -/
structure Follows (d : Nat) (q : List Rec) (s : State) : Prop where
  queue : ∃ l, (s.die d).upq = q ++ l
  unwatched : s.unwatched

namespace Follows
variable {d : Nat} {q : List Rec} {s s' : State}

theorem of_upq (h : Follows d q s) (hs : s'.threads = s.threads) (hq : (s'.die d).upq = (s.die d).upq) : Follows d q s' :=
  ⟨hq ▸ h.queue, unwatched_of_threads h.unwatched hs⟩

theorem of_dies (h : Follows d q s) (hs : s'.threads = s.threads) (hd : s'.dies = s.dies) : Follows d q s' :=
  h.of_upq hs (by rw [die_of_dies hd])

theorem of_standing (h : Follows d q s) (hs : standing s' = standing s) : Follows d q s' :=
  h.of_dies (threads_of_standing hs) (dies_of_standing hs)

theorem put {t : Thread} (h : Follows d q s) (ht : WatchesNothing t) : Follows d q (s.put t) := ⟨h.queue, unwatched_put h.unwatched ht⟩

theorem checkWatches (h : Follows d q s) : Follows d q s.checkWatches := by rwa [checkWatches_of_unwatched h.unwatched]

theorem pushRec (h : Follows d q s) (j : Nat) (r : Rec) : Follows d q (s.pushRec j r) := by
  refine ⟨?_, unwatched_of_threads h.unwatched (pushRec_threads ..)⟩
  obtain ⟨l, hl⟩ := h.queue
  unfold State.pushRec
  split
  · exact ⟨l, hl⟩
  · rw [die_setDie]
    split
    next hj => exact ⟨l ++ [r], by subst hj; simp [hl]⟩
    next => exact ⟨l, hl⟩

theorem foldl {α : Type} {f : State → α → State} (hf : ∀ s a, Follows d q s → Follows d q (f s a)) (l : List α) (h : Follows d q s) :
    Follows d q (l.foldl f s) := List.foldlRecOn (motive := Follows d q) l f h fun s hs a _ => hf s a hs

theorem logDone (h : Follows d q s) (r : Rec) : Follows d q (s.logDone r) := by
  have hlog (r : Rec) (a b c : Nat) : Follows d q (s.logRec r a b c) := h.of_dies rfl rfl
  unfold State.logDone
  extract_lets fd
  clear_value fd
  split
  · exact hlog ..
  · dsimp only
    split
    · exact hlog ..
    · exact (hlog ..).pushRec ..

theorem logLast (h : Follows d q s) (t : Thread) : Follows d q (s.logLast t) := by
  unfold State.logLast
  extract_lets rec' fills s1 l
  have hs1 : Follows d q s1 := foldl (fun _ r hs => hs.logDone r) _ h
  split
  · exact hs1
  · exact hs1.of_dies rfl rfl

/-- The dies may change in all but their upcall queues. -/
theorem mapDies {f : Die → Die} (h : Follows d q s) (hf : ∀ x, (f x).upq = x.upq) (hs : s'.threads = s.threads)
    (hd : s'.dies = s.dies.map (fun x => (x.1, f x.2))) : Follows d q s' := by
  refine h.of_upq hs ?_
  have hget (l : List (Nat × Die)) : (Sparse.get Die.init (l.map fun x => (x.1, f x.2)) d).upq = (Sparse.get Die.init l d).upq := by
    induction l with
    | nil => rfl
    | cons x l ih =>
      simp only [List.map_cons, Sparse.get]
      split
      · exact hf x.2
      · exact ih
  rw [State.die, hd, hget, State.die]

theorem clearPool (h : Follows d q s) (die : Nat) (p : Option (Nat × Nat × Nat)) : Follows d q (s.clearPool die p) := by
  unfold State.clearPool
  split
  · exact h
  · split
    next hdo => exact h.of_standing (standing_devDo hdo)
    next => exact h

theorem countErr (h : Follows d q s) (die k : Nat) : Follows d q (s.countErr die k) := by
  refine h.of_upq rfl ?_
  rw [State.countErr, die_setDie]
  split
  next hj => rw [hj]
  next => rfl

theorem endLaunches (h : Follows d q s) : Follows d q s.endLaunches := by
  have hstatus {s : State} (h : Follows d q s) (die home addr idx status : Nat) : Follows d q (s.storeStatus die home addr idx status) := by
    unfold State.storeStatus
    split
    · exact h
    · split
      next hdo => exact (h.of_standing (standing_devDo hdo)).checkWatches
      next => exact h.countErr ..
  have hadd {s : State} (h : Follows d q s) (x : QueueEnt) (off n : Nat) (z : Int) : Follows d q (s.lqdAdd x off n z) := by
    unfold State.lqdAdd
    split
    next hdo => exact (h.of_standing (standing_devDo hdo)).checkWatches
    next => exact h
  unfold State.endLaunches
  refine foldl (fun s l hs => ?_) _ h
  split
  · extract_lets s2 s3
    have h2 : Follows d q s2 := hs.of_dies rfl rfl
    exact hadd (hstatus h2 ..) ..
  · exact hs

theorem launchThreadDone (h : Follows d q s) (l : Option (Nat × Nat)) : Follows d q (s.launchThreadDone l) := by
  unfold State.launchThreadDone
  split
  · exact h
  · exact endLaunches (h.of_dies rfl rfl)

theorem ensureFrame {t : Thread} (h : Follows d q s) (ht : WatchesNothing t) (hs : s.ensureFrame t = .ok s') : Follows d q s' := by
  unfold State.ensureFrame at hs
  split at hs
  · rwa [← Except.ok.inj hs]
  · split at hs
    · cases hs
    next l _ =>
      rw [← Except.ok.inj hs]
      have hload := ((h.of_standing (standing_settleHeld s t.id)).of_standing (standing_unpoisonNoted _ t l)).of_standing
        (standing_touch _ (dieOf t.core) t.id.sdom (frameAddr t.id.handle) false)
      exact hload.put (watchesNothing_of_cond ht rfl)

/-- The end of a thread whose stores have drained adds records to the upcall queues, and takes none from them. -/
theorem makeDone {t : Thread} (h : Follows d q s) (hd : s.drained t) (ht : WatchesNothing t) : Follows d q (s.makeDone t) := by
  unfold State.makeDone
  extract_lets s0 u die
  generalize hp : s0.releaseSlot u = p
  obtain ⟨s1, t1⟩ := p
  dsimp -zeta only
  extract_lets parted absent s2 s2' core gone s3 s3' s4 s5
  have h0 : Follows d q s0 := by
    unfold s0
    rw [drainAll_of_drained hd]
    exact h.put ht
  have ht1 : t1 = (s0.releaseSlot u).2 := by rw [hp]
  have hwaits : WatchesNothing t1 := watchesNothing_of_cond ht (by rw [ht1, releaseSlot_thread])
  have h1 : Follows d q s1 := by
    have hs1 : s1 = (s0.releaseSlot u).1 := by rw [hp]
    exact h0.of_dies (hs1 ▸ ((Quiet.refl s0).releaseSlot u).threads) (hs1 ▸ releaseSlot_dies s0 u)
  have hparted : Follows d q parted := h1.put hwaits
  have habsent : Follows d q absent := hparted.of_dies rfl rfl
  have h2 : Follows d q s2 := by
    unfold s2
    split
    · exact habsent
    · split
      next hload =>
        have hloaded := hparted.ensureFrame hwaits hload
        split
        · exact hloaded.of_standing (standing_writeBack ..)
        · exact hloaded
      next => exact habsent
  have h2' : Follows d q s2' := h2.of_dies (Left.unstep_threads ..) (unstep_dies ..)
  have h3 : Follows d q s3 := h2'.of_dies rfl rfl
  have h3' : Follows d q s3' := h3.logLast _
  have h4 : Follows d q s4 := h3'.of_standing (standing_charge ..)
  have h5 : Follows d q s5 := ⟨h4.queue, unwatched_iff.2 fun v hv => unwatched_iff.1 h4.unwatched v (List.mem_of_mem_filter hv)⟩
  have h6 := h5.clearPool die t.pool
  have h7 : Follows d q ((s5.clearPool die u.pool).dropReservations u.id) := h6.mapDies (f := fun x => { x with engRes := x.engRes.leave u.id _ }) (fun _ => rfl) rfl rfl
  have h8 : Follows d q (((s5.clearPool die u.pool).dropReservations u.id).orphanCmds u.id) := h7.mapDies (f := fun x => { x with
      engq := x.engq.map (fun c => if c.tid = u.id then { c with tid := { u.id with handle := 0 } } else c)
      landing := x.landing.map (fun y => if y.tid = u.id then { y with tid := { u.id with handle := 0 } } else y) }) (fun _ => rfl) rfl rfl
  exact (h8.launchThreadDone _).checkWatches

/-- Using what was walked changes walk caches, bytes and TLBs. -/
theorem commitFresh (h : Follows d q s) (core : Nat) (i : Tid) (l : List Fresh) : Follows d q (s.commitFresh core i l) := by
  have hwalk {s : State} (h : Follows d q s) (die : Nat) (l : List WalkEnt) : Follows d q (s.walkKeep die l) := by
    refine h.of_upq rfl ?_
    rw [State.walkKeep, die_setDie]
    split
    next hj => rw [hj]
    next => rfl
  have hfresh : Follows d q (s.dropFresh core i) := by
    unfold State.dropFresh
    dsimp only
    split
    · exact h.of_dies rfl rfl
    · exact h
  have hall : Follows d q (l.foldr (fun f s => s.useFresh core f) (s.dropFresh core i)) := by
    induction l with
    | nil => exact hfresh
    | cons f l ih => exact ((hwalk ih ..).of_standing (standing_markLeaf ..)).of_dies rfl rfl
  unfold State.commitFresh
  split
  · exact h
  · exact hall

end Follows

/-! The end of a handler. -/

theorem find_of_named {s : State} {i : Tid} {u : Thread} (h : s.named i = some u) : s.find i = some u := by
  unfold State.named at h
  split at h
  · cases h
  next hfind =>
    rw [hfind]
    split at h
    · split at h
      · exact h
      · cases h
    · exact h

/-- A word that ends its thread, past itself, from a state s1 in which the thread stands as it issued. -/
theorem word_of_makeDone {s s1 : State} {t : Thread} {i : Instr} {k : State → Thread → Except Stop State} (h : Issues s t i)
    (hexec : exec i s = word i s k) (hk : k s t = .ok (s1.makeDone { s1.again t with pc := t.pc + 4 })) (h1 : s1.find t.id = some t)
    (hd : s1.drained t) (hs1 : s1.unwatched) : ∃ s', exec i s = .next s' ∧ s'.find t.id = none ∧ OthersSame s1 s' t.id ∧
      ∀ d, ∃ l, (s'.die d).upq = (s1.die d).upq ++ l := by
  have hwaits : WatchesNothing t := unwatched_iff.1 hs1 t (mem_of_find h1)
  rw [again_of_find h1] at hk
  have hdone : (s1.makeDone { t with pc := t.pc + 4 }).find t.id = none := find_makeDone s1 { t with pc := t.pc + 4 }
  refine ⟨_, hexec.trans (word_of_ended h hk hdone), (find_commitFresh ..).trans hdone, fun j hj => ?_, fun d => ?_⟩
  · exact (find_commitFresh ..).trans
      ((bystanders_makeDone (t := { t with pc := t.pc + 4 }) hd hs1 (watchesNothing_of_cond hwaits rfl)).others j hj)
  · have hqueue : Follows d (s1.die d).upq s1 := ⟨⟨[], (List.append_nil _).symm⟩, hs1⟩
    exact ((hqueue.makeDone (t := { t with pc := t.pc + 4 }) hd (watchesNothing_of_cond hwaits rfl)).commitFresh ..).queue

section
variable {s : State} {t u : Thread} {a : Reg} (hhnd : t.hnd = true) (hd : s.drained t) (hs : s.unwatched)
include hhnd hd hs

theorem upret_ends (hg : t.rd a.toNat = 0) (h : Issues s t (.upret a)) :
    ∃ s', exec (.upret a) s = .next s' ∧ s'.find t.id = none ∧ OthersSame s s' t.id := by
  obtain ⟨s', hexec, hgone, hothers, -⟩ := word_of_makeDone h (exec_upret a s) (by
    simp only [hhnd, hg]
    rfl) (issues_find h) hd hs
  exact ⟨s', hexec, hgone, hothers⟩

/-- A FAULTED thread resumed by its handler is READY from the tick on, and no other thread changes. -/
theorem upret_resumes (hg : t.rd a.toNat = 1) (hupv : t.upv ≠ 0) (hnamed : s.named { sdom := t.id.sdom, handle := t.upv } = some u)
    (hplaced : u.placed.isSome = true) (hst : u.st = .faulted) (hne : u.id ≠ t.id) (h : Issues s t (.upret a)) :
    ∃ s', exec (.upret a) s = .next s' ∧ s'.find t.id = none ∧
      s'.find u.id = some { u with st := .ready, fcause := 0, readySince := s.tick, aged := 0 } ∧
      ∀ j, j ≠ t.id → j ≠ u.id → s'.find j = s.find j := by
  have hfind : s.find { sdom := t.id.sdom, handle := t.upv } = some u := find_of_named hnamed
  have hid : u.id = { sdom := t.id.sdom, handle := t.upv } := find_id hfind
  have hu : s.find u.id = some u := hid ▸ hfind
  have hentitled : s.entitled t u = true := by simp [State.entitled, hhnd, hid]
  obtain ⟨l, hl⟩ := Option.isSome_iff_exists.1 hplaced
  have hload : s.ensureFrame u = .ok s := by simp only [State.ensureFrame, hl]
  have hk : ∀ s1, s1 = s.resumeThread u → s1.find t.id = some t ∧ s1.drained t ∧ s1.unwatched := by
    rintro s1 rfl
    have ht : (s.resumeThread u).find t.id = s.find t.id := find_put_ne (Ne.symm hne)
    refine ⟨ht.trans (issues_find h), hd, ?_⟩
    exact unwatched_put hs (watchesNothing_of_cond (unwatched_iff.1 hs u (mem_of_find hu)) rfl)
  obtain ⟨ht1, hd1, hs1⟩ := hk _ rfl
  obtain ⟨s', hexec, hgone, hothers, -⟩ := word_of_makeDone h (exec_upret a s) (by
    simp only [hhnd, hg, hnamed, hst, hentitled, hload, again_of_find hu, hupv, ne_eq, not_false_eq_true, and_true]
    rfl) ht1 hd1 hs1
  refine ⟨s', hexec, hgone, (hothers u.id hne).trans ?_, fun j hj hju => (hothers j hj).trans (find_put_ne hju)⟩
  exact find_put (t := { u with st := .ready, fcause := 0, readySince := s.tick, aged := 0 }) (Option.isSome_of_eq_some hu)

theorem eret_passes {r : Rec} (hserved : t.served = some r) (hroom : s.upqFull (dieOf r.core) = false) (h : Issues s t .eret) :
    ∃ s', exec .eret s = .next s' ∧ s'.find t.id = none ∧ OthersSame s s' t.id ∧
      ∃ l, (s'.die (dieOf r.core)).upq = (s.die (dieOf r.core)).upq ++ passOn t r :: l := by
  have hthreads : (s.pushRec (dieOf r.core) (passOn t r)).threads = s.threads := pushRec_threads ..
  obtain ⟨s', hexec, hgone, hothers, hqueue⟩ := word_of_makeDone h (exec_eret s) (by
    simp only [hhnd, hserved]
    rfl) ((find_of_threads hthreads _).trans (issues_find h)) (drained_of_early hd (pushRec_early ..)) (unwatched_of_threads hs hthreads)
  obtain ⟨l, hl⟩ := hqueue (dieOf r.core)
  rw [upq_pushRec hroom, List.append_assoc] at hl
  exact ⟨s', hexec, hgone, fun j hj => (hothers j hj).trans (find_of_threads hthreads j), l, hl⟩

end

theorem parks_upret_of_reserved {s : State} {t : Thread} {a : Reg} (hhnd : t.hnd = true) (hg : (t.rd a.toNat).extractLsb' 1 63 ≠ 0) :
    Parks s t (.upret a) (.plain .debugOperand (t.rd a.toNat)) := by
  have hbits : wbits (t.rd a.toNat) 63 1 ≠ 0 := by
    rw [wbits_eq_toNat_extractLsb' _ 62 1]
    exact fun h0 => hg (BitVec.eq_of_toNat_eq h0)
  exact parks_of_fault (exec_upret a s) ((if_neg (by simp [hhnd])).trans (if_pos hbits))

theorem parks_of_no_handler {s : State} {t : Thread} (hhnd : t.hnd = false) (a : Reg) :
    Parks s t (.upret a) (.plain .privilege 0) ∧ Parks s t .eret (.plain .privilege 0) :=
  ⟨parks_of_fault (exec_upret a s) (by simp only [hhnd]; rfl), parks_of_fault (exec_eret s) (by simp only [hhnd]; rfl)⟩

/-- Settles O33: the handler is DONE past its word, after what it resumes or passes on. -/
theorem handlerReturns : Obligations.HandlerReturns := by
  unfold Obligations.HandlerReturns
  intro s t u a r
  refine ⟨fun hhnd hd hs => ⟨upret_ends hhnd hd hs, upret_resumes hhnd hd hs, fun hserved hroom h => ?_⟩, parks_upret_of_reserved,
    fun hhnd => parks_of_no_handler hhnd a⟩
  obtain ⟨s', hexec, hgone, hothers, l, hl⟩ := eret_passes hhnd hd hs hserved hroom h
  exact ⟨s', hexec, hgone, hothers, _, l, hl, rfl, rfl, rfl, rfl⟩

end Sys2Proof.Proofs

/-! PROOF. An upcall creates its handler thread (18 R404, R405). -/
namespace Sys2Proof.Proofs
open Sys2Proof.Machine Sys2Proof.Laws

/-- A new thread, of a name that no live thread bears, is found, and no other name is concerned. -/
theorem find_append {s s' : State} {t : Thread} (hs : s'.threads = s.threads ++ [t]) (h : s.find t.id = none) :
    s'.find t.id = some t ∧ OthersSame s s' t.id := by
  refine ⟨?_, fun j hj => ?_⟩
  · have hnone : s.threads.find? (fun u => u.id == t.id) = none := h
    rw [State.find, hs, List.find?_append, hnone]
    simp
  · have hne : (t.id == j) = false := by simpa using Ne.symm hj
    rw [State.find, hs, List.find?_append, State.find]
    simp [hne]

@[simp] theorem standing_freshFrame (s : State) (ls l : List Nat) : standing (s.freshFrame ls l) = standing s := by
  unfold State.freshFrame
  split
  · rfl
  · exact standing_foldl (fun s _ => standing_unpoison s ..) _ s

theorem settleHeld_of_none {s : State} (h : s.held = []) (i : Tid) : s.settleHeld i = s := by
  rw [State.settleHeld, h]
  rfl

/-- The registers of a handler thread: g1 to g6 hold the record, and the others 0 (18 R404). -/
theorem rd_handlerThread (s : State) (i : Tid) (home rcb : Nat) (l : List (Nat × Rcb)) (p : Pool) (k core : Nat) (r : Rec)
    (places : List Nat) (m : Nat) : (s.handlerThread i home rcb l p k core r places).rd m =
      if 1 ≤ m ∧ m ≤ 6 then r.words.getD (m - 1) 0 else 0 := by
  by_cases hm : m = 0
  · subst hm
    rfl
  · rw [Thread.rd, if_neg hm]
    by_cases h64 : m < 64
    · simp [State.handlerThread, h64]
    · have h6 : ¬(1 ≤ m ∧ m ≤ 6) := by omega
      simp [State.handlerThread, h64, h6]

/-- Where the frame is usable, its name free and its domain there, serving a record makes the handler thread, and changes no die. -/
theorem serve_creates {s : State} {die home rcb k : Nat} {r : Rec} {l : List (Nat × Rcb)} {p : Pool} {places : List Nat} {i : Tid}
    (hi : i = { sdom := effSdom l, handle := handleOf (p.base + 1024 * k) }) (hheld : s.held = [])
    (hplaces : s.framePlaces die i [0, 1, 2, 3, 4, 5] = .ok places) (hfree : s.find i = none) (hdom : (s.domain i.sdom).v = true) :
    ∃ (s1 : State) (core : Nat), (s.serve die r home rcb l p k).threads = s.threads ++ [s1.handlerThread i home rcb l p k core r places] ∧
      (s.serve die r home rcb l p k).dies = s.dies := by
  have hserve : s.serve die r home rcb l p k =
      let s1 := match s.devWrite die home (p.owner + 0x58) (toBytes 8 (p.busy ||| 2 ^ k)) with
        | .ok s' => s'
        | .error _ => s
      let t := s1.handlerThread i home rcb l p k (s1.refuge r.core) r places
      let s1 := s1.freshFrame [0, 1, 2, 3, 4, 5] places
      let s2 := { s1.touch die i.sdom (frameAddr i.handle) true with threads := s1.threads ++ [t] }
      (s2.charge die home .ctx 1 (s2.path die home rcb)).touchPath die home (l.map (·.1)) := by
    rw [State.serve, ← hi]
    simp only [settleHeld_of_none hheld, hplaces, hfree, hdom, Option.isSome_none, Bool.not_true, Bool.or_self, Bool.false_eq_true,
      if_false] <;> rfl
  extract_lets s1 t s1' touched s2 at hserve
  have h1 : standing s1 = standing s := by
    unfold s1
    split
    next hdo => exact standing_devDo hdo
    next => rfl
  have h1' : standing s1' = standing s := (standing_freshFrame ..).trans h1
  have hend : standing ((s2.charge die home .ctx 1 (s2.path die home rcb)).touchPath die home (l.map (·.1))) = standing s2 :=
    (standing_touchPath ..).trans (standing_charge ..)
  have hdies : s2.dies = s1'.dies := dies_of_standing (s' := touched) (standing_touch s1' die i.sdom (frameAddr i.handle) true)
  rw [hserve]
  refine ⟨s1, s1.refuge r.core, (threads_of_standing hend).trans ?_, (dies_of_standing hend).trans (hdies.trans (dies_of_standing h1'))⟩
  exact congrArg (· ++ [t]) (threads_of_standing h1')

theorem upcallServe_of_handler {s : State} {die n home rcb k : Nat} {r : Rec} {l : List (Nat × Rcb)} {p : Pool}
    (hnext : s.nextRec die = some (n, r)) (hservice : s.service die r = .handler home rcb l p k) :
    exec (.upcallServe die) s =
      .next ((s.setDie die { s.die die with upq := removeNth n (s.die die).upq }).serve die r home rcb l p k) := by
  simp only [exec, execUpcallServe, event, hnext, hservice]

/-- Settles O32: the fields of the new thread are those of `handlerThread`. -/
theorem handlerCreated : Obligations.HandlerCreated := by
  unfold Obligations.HandlerCreated
  intro s die n home rcb k r l p places s1 i hnext hservice hheld hplaces hfree hdom
  obtain ⟨s2, core, hthreads, hdies⟩ := serve_creates (r := r) (home := home) (rcb := rcb) rfl hheld hplaces hfree hdom
  obtain ⟨hfind, hothers⟩ := find_append hthreads hfree
  refine ⟨_, _, upcallServe_of_handler hnext hservice, hfind, rfl, rfl, rfl, rfl, rfl, rfl, fun m h1 h6 => ?_, fun m h6 => ?_, ?_, hothers⟩
  · rw [rd_handlerThread, if_pos ⟨h1, h6⟩]
  · rw [rd_handlerThread, if_neg (by omega)]
  · rw [die_of_dies hdies, die_setDie, if_pos rfl]

end Sys2Proof.Proofs

/-! PROOF. TSCR, the time-stamp counter and PCNT (17 R377, R380, R393, R395). -/
namespace Sys2Proof.Proofs
open Sys2Proof.Machine Sys2Proof.Laws

/-- A word that completes its thread as u after a change of the machine beside the threads, for the thread that stands under its name. -/
theorem yields_of_retire {s s1 : State} {t u : Thread} {i : Instr} {k : State → Thread → Except Stop State} (hexec : exec i s = word i s k)
    (hk : s.find t.id = some t → k s t = .ok (s1.retire u)) (hthreads : s1.threads = s.threads) (hid : u.id = t.id) (hpc : u.pc = t.pc)
    (hsettled : u.settled = t.settled) : Yields s t i (s1.put { u with pc := t.pc + 4 }) := fun h => by
  have hdone := hk (issues_find h)
  rw [State.retire, hpc] at hdone
  exact yields_of_ok hexec hdone (find_put_of_find hthreads (issues_find h) hid) hsettled h

theorem writes_of_retireReg {s : State} {t : Thread} {i : Instr} {k : State → Thread → Except Stop State} {d : Nat} {v : Word}
    (hexec : exec i s = word i s k) (hk : k s t = .ok (s.retireReg t d v)) : Writes s t i d v :=
  completes_of_retire hexec hk (wr_id ..) (wr_pc ..) (wr_settled ..)

theorem fills_of_retire {s : State} {t : Thread} {i : Instr} {k : State → Thread → Except Stop State} {f : Fill}
    (hexec : exec i s = word i s k) (hk : k s t = .ok (s.retire (t.produce f))) : Fills s t i f :=
  completes_of_retire hexec hk (produce_id ..) (produce_pc ..) (produce_settled ..)

theorem tscr_completes (s : State) (t : Thread) (d : PairReg) : Completes s t (.tscr d)
    ((t.wr (2 * d.toNat) (BitVec.ofNat 64 s.tick)).wr (2 * d.toNat + 1) (BitVec.ofNat 64 t.core)) := by
  refine completes_of_retire (k := fun s t => .ok (s.retire ((t.wr (2 * d.toNat) s.tsc).wr (2 * d.toNat + 1) (w64 t.core)))) rfl rfl ?_ ?_ ?_
  · exact (wr_id ..).trans (wr_id ..)
  · exact (wr_pc ..).trans (wr_pc ..)
  · exact (wr_settled ..).trans (wr_settled ..)

/-! The fields of PCNT's first operand (17 R395). -/

/-- The low bits of a number made of a selector below 2^8 and an operation above it. -/
structure Selects (w : Word) (n op : Nat) : Prop where
  counter : wbits w 7 0 = n
  operation : wbits w 9 8 = op
  clean : wbits w 63 10 = 0

theorem selects_ofNat {n op : Nat} (hn : n < 2 ^ 8) (hop : op < 4) : Selects (BitVec.ofNat 64 (n + op * 0x100)) n op := by
  have hval : (BitVec.ofNat 64 (n + op * 0x100)).toNat = n + op * 0x100 := by
    rw [BitVec.toNat_ofNat]; omega
  refine ⟨?_, ?_, ?_⟩ <;> simp only [wbits, bits, hval] <;> omega

section
variable {s : State} {t : Thread} {d a b : Reg} {n : Nat}

/-- PCNT of a counter that another domain owns (17 R395). -/
theorem pcnt_privilege {op : Nat} (h : Selects (t.rd a.toNat) n op) (hop : op ≠ 3) (hn : n ≤ 7)
    (hother : (s.core t.core |>.counter n).owner ≠ t.id.sdom ∧ (s.core t.core |>.counter n).owner ≠ 0xFFFF) :
    Parks s t (.pcnt d a b) (.plain .privilege 0) := by
  obtain ⟨rfl, rfl, hclean⟩ := h
  refine parks_of_fault (execPcnt.eq_def d a b s) ?_
  simp only [hclean, if_neg hop, if_neg (Nat.not_lt.2 hn), if_pos hother]
  rfl

/-- PCNT that reads a counter. -/
theorem pcnt_reads (h : Selects (t.rd a.toNat) n 0) (hn : n ≤ 7)
    (hmine : ¬ ((s.core t.core |>.counter n).owner ≠ t.id.sdom ∧ (s.core t.core |>.counter n).owner ≠ 0xFFFF)) :
    Writes s t (.pcnt d a b) d.toNat (if (s.core t.core |>.counter n).owner = t.id.sdom then (s.core t.core |>.counter n).val else 0) := by
  obtain ⟨rfl, hop, hclean⟩ := h
  refine writes_of_retireReg (execPcnt.eq_def d a b s) ?_
  simp only [hop, hclean, if_neg (Nat.not_lt.2 hn), if_neg hmine]
  rfl

/-- PCNT that takes a counter over. -/
theorem pcnt_takes (h : Selects (t.rd a.toNat) n 1) (hn : n ≤ 7)
    (hmine : ¬ ((s.core t.core |>.counter n).owner ≠ t.id.sdom ∧ (s.core t.core |>.counter n).owner ≠ 0xFFFF))
    (hv : ¬ (0x0F < wbits (t.rd b.toNat) 7 0 ∨ wbits (t.rd b.toNat) 63 9 ≠ 0)) :
    Yields s t (.pcnt d a b) ((s.setCounter t.core n { owner := t.id.sdom, event := wbits (t.rd b.toNat) 7 0
                                                       en := bit (t.rd b.toNat).toNat 8, val := 0, new := true }).put
      { t.wr d.toNat (if (s.core t.core |>.counter n).owner = t.id.sdom then (s.core t.core |>.counter n).val else 0) with
        pc := t.pc + 4 }) := by
  obtain ⟨rfl, hop, hclean⟩ := h
  refine yields_of_retire (execPcnt.eq_def d a b s) (fun _ => ?_) rfl (wr_id ..) (wr_pc ..) (wr_settled ..)
  simp only [hop, hclean, if_neg (Nat.not_lt.2 hn), if_neg hmine, if_neg hv]
  rfl

/-- PCNT that gives its own counter up. -/
theorem pcnt_releases (h : Selects (t.rd a.toNat) n 2) (hn : n ≤ 7) (hmine : (s.core t.core |>.counter n).owner = t.id.sdom) :
    Yields s t (.pcnt d a b) ((s.setCounter t.core n { s.core t.core |>.counter n with owner := 0xFFFF, en := false, val := 0 }).put
      { t.wr d.toNat (if (s.core t.core |>.counter n).owner = t.id.sdom then (s.core t.core |>.counter n).val else 0) with
        pc := t.pc + 4 }) := by
  obtain ⟨rfl, hop, hclean⟩ := h
  have hkept : ¬ ((s.core t.core |>.counter (wbits (t.rd a.toNat) 7 0)).owner ≠ t.id.sdom ∧
      (s.core t.core |>.counter (wbits (t.rd a.toNat) 7 0)).owner ≠ 0xFFFF) := fun h => h.1 hmine
  refine yields_of_retire (execPcnt.eq_def d a b s) (fun _ => ?_) rfl (wr_id ..) (wr_pc ..) (wr_settled ..)
  simp only [hop, hclean, if_neg (Nat.not_lt.2 hn), if_pos hmine, if_neg hkept]
  rfl

/-- PCNT that reads an error counter, in domain 0 (17 R395). -/
theorem pcnt_errors (h : Selects (t.rd a.toNat) n 3) (hn : n ≤ 10) (hdom : t.id.sdom = 0) :
    Fills s t (.pcnt d a b) (oneFill d.toNat (Sparse.get 0 (s.die (dieOf t.core)).errs n)) := by
  obtain ⟨rfl, hop, hclean⟩ := h
  refine fills_of_retire (execPcnt.eq_def d a b s) ?_
  simp only [hop, hclean, hdom, decide_eq_false (Nat.not_lt.2 hn)]
  rfl

theorem pcnt_errors_privilege (h : Selects (t.rd a.toNat) n 3) (hdom : t.id.sdom ≠ 0) :
    Parks s t (.pcnt d a b) (.plain .privilege 0) := by
  obtain ⟨-, hop, -⟩ := h
  refine parks_of_fault (execPcnt.eq_def d a b s) ?_
  simp only [hop, if_true, if_pos hdom]
  rfl

end

/-- Settles O26: PCNT by its operation and the owner of its counter. -/
theorem timeAndCounters : Obligations.TimeAndCounters := by
  refine ⟨fun s t d => ⟨tscr_completes s t d, fun hstage hhalted => congrArg Host.Outcome.next (if_pos ⟨hstage, hhalted⟩),
    fun hhalted => congrArg Host.Outcome.next (if_neg (by simp [hhalted]))⟩, ?_⟩
  intro s t d a b n c v mine old
  have hselects {op : Nat} (hn : n < 256) (hop : op < 4) (ha : t.rd a.toNat = BitVec.ofNat 64 (n + op * 0x100)) :
      Selects (t.rd a.toNat) n op := ha ▸ selects_ofNat hn hop
  have hlow : (v.extractLsb' 0 8).toNat = wbits v 7 0 := (wbits_eq_toNat_extractLsb' v 7 0).symm
  have hhigh : (v.extractLsb' 9 55).toNat = wbits v 63 9 := (wbits_eq_toNat_extractLsb' v 54 9).symm
  refine ⟨fun hn hmine => ⟨fun ha => ?_, fun ha hevent hclean => ?_, fun ha hmine => ?_⟩, fun hn hmine hfree ha => ?_, fun hn ha => ?_⟩
  · exact pcnt_reads (hselects (op := 0) (by omega) (by omega) (by simpa using ha)) hn (by tauto)
  · rw [hlow] at hevent ⊢
    have hen : v.getLsbD 8 = bit v.toNat 8 := (bit_eq_testBit ..).symm
    rw [hen]
    refine pcnt_takes (hselects (op := 1) (by omega) (by omega) ha) hn (by tauto) ?_
    rw [hclean] at hhigh
    simp only [not_or, Nat.not_lt, not_not]
    exact ⟨hevent, hhigh.symm⟩
  · exact pcnt_releases (hselects (op := 2) (by omega) (by omega) ha) hn hmine
  · rcases ha with ha | ha | ha
    · exact pcnt_privilege (hselects (op := 0) (by omega) (by omega) (by simpa using ha)) (by decide) hn ⟨hmine, hfree⟩
    · exact pcnt_privilege (hselects (op := 1) (by omega) (by omega) ha) (by decide) hn ⟨hmine, hfree⟩
    · exact pcnt_privilege (hselects (op := 2) (by omega) (by omega) ha) (by decide) hn ⟨hmine, hfree⟩
  · have hsel := hselects (op := 3) (by omega) (by omega) ha
    exact ⟨pcnt_errors hsel hn, pcnt_errors_privilege hsel⟩

end Sys2Proof.Proofs

/-! PROOF. HALT, FEAT, ATTEST and the debug instructions (18 R414 to R416; 20 R453 to R455). -/
namespace Sys2Proof.Proofs
open Sys2Proof.Machine Sys2Proof.Laws

/-! HALT and FEAT (18 R416; 20 R453). -/

theorem halt_halts {s : State} {t : Thread} (hdom : t.id.sdom = 0) (hen : s.dbgen t = true) :
    Yields s t .halt { s.put { t with pc := t.pc + 4 } with halted := true } := fun h => by
  have hfind : State.find { s.put { t with pc := t.pc + 4 } with halted := true } t.id = some { t with pc := t.pc + 4 } :=
    find_put_of_find rfl (issues_find h) rfl
  refine yields_of_ok (execHalt.eq_def s) ?_ hfind rfl h
  exact if_neg (by simp [hdom, hen])

theorem halt_privilege {s : State} {t : Thread} (h : t.id.sdom ≠ 0 ∨ s.dbgen t = false) : Parks s t .halt (.plain .privilege 0) :=
  parks_of_fault (execHalt.eq_def s) (if_pos h)

theorem feat_writes (s : State) (t : Thread) (d a : Reg) : Writes s t (.feat d a) d.toNat (match (t.rd a.toNat).toNat with
    | 0 => BitVec.ofNat 64 s.version | 1 => s.featen | 2 => Config.featAvail | _ => 0) :=
  writes_of_retireReg (execFeat.eq_def d a s) rfl

/-! ATTEST (20 R454, R455). -/

/-- A command word within its limits asks for an extension or a report. -/
theorem attest_command (c : Word) : (wbits c 63 2 ≠ 0 ∨ 1 < wbits c 1 0) ↔ 2 ≤ c.toNat := by
  have hlt := c.isLt
  simp only [wbits, bits]
  omega

theorem attest_unknown {s : State} {t : Thread} {d a b : Reg} (h : 2 ≤ (t.rd b.toNat).toNat) :
    Fills s t (.attest d a b) (oneFill d.toNat 1) :=
  fills_of_retire (execAttest.eq_def d a b s) (if_pos ((attest_command _).2 h))

/-- The fill of ATTEST, an acquiring access. -/
abbrev attestFill (d : Reg) : Fill := { oneFill d.toNat 0 with mem := true, acq := true }

theorem lands_of_none {s : State} (hland : s.noLanding) {die : Nat} (i : Tid) {l : List Target}
    (hearly : ∀ g ∈ l, s.noEarly die g.pa 128) :
    l.foldl (fun s g => (s.landOwn i g.pa 128).landWords die g.pa 128) s = s := by
  induction l with
  | nil => rfl
  | cons g l ih =>
    rw [List.foldl_cons, landOwn_of_noLanding hland, landWords_of_noEarly (hearly g List.mem_cons_self)]
    exact ih fun x hx => hearly x (List.mem_cons_of_mem g hx)

theorem attest_extends {s : State} {t : Thread} {d a b : Reg} {g : Target} (hb : t.rd b.toNat = 1)
    (haccess : s.access t.core t.id.sdom 1 { ea := (t.rd a.toNat).toNat, n := 32, kind := .load, write := false } = .ok g)
    (h1 : check1 { ea := (t.rd a.toNat).toNat, n := 32, kind := .store, write := true } = true)
    (h2 : check2 s t.core { ea := (t.rd a.toNat).toNat, n := 32, kind := .store, write := true } = true)
    (hal : (t.rd a.toNat).toNat % 32 = 0) (hland : s.noLanding) (hearly : s.noEarly (dieOf t.core) g.pa 128)
    (hclean : s.poisonedIn g.pa 32 = none) :
    Yields s t (.attest d a b) ((s.setDomain t.id.sdom { s.domain t.id.sdom with
      dmeas := sm3 (digestBytes (s.domain t.id.sdom).dmeas ++ s.bytesAt t.id.sdom g.pa 32) }).put
        { t.produce (attestFill d) with pc := t.pc + 4 }) := by
  refine yields_of_retire (execAttest.eq_def d a b s) (fun ht => ?_) rfl (produce_id ..) (produce_pc ..) (produce_settled ..)
  have hlands := lands_of_none hland t.id (l := [g]) (by simpa using hearly)
  have hcommand : ¬ (wbits (1 : Word) 63 2 ≠ 0 ∨ 1 < wbits (1 : Word) 1 0) := by decide
  have hextend : (wbits (1 : Word) 1 0 == 1) = true := by decide
  have hagain (x : Domain) : (s.setDomain t.id.sdom x).again t = t := again_of_find ht
  simp only [hb, if_neg hcommand, hextend, if_true, h1, h2, hal, State.attestLines, haccess, State.attest, hlands, Bool.not_true,
    Bool.false_eq_true, if_false, ne_eq, not_true_eq_false, List.head?_cons, Option.map_some, Option.getD_some, hclean, hagain]
  rfl

/-- Writes at places that are no lines of live threads change no thread. -/
theorem threads_foldl_performAt {s : State} (hs : s.unwatched) (dom : Nat) (f : Nat → List Byte) {l : List (Nat × Target)}
    (hline : ∀ x ∈ l, s.lineAt x.2.pa = none) :
    (l.foldl (fun s x => s.performAt dom x.2 (f x.1)) s).threads = s.threads := by
  induction l generalizing s with
  | nil => rfl
  | cons x l ih =>
    have hthreads := performAt_threads hs (hline x List.mem_cons_self) dom (f x.1)
    rw [List.foldl_cons, ih (unwatched_of_threads hs hthreads) (fun y hy => ?_), hthreads]
    rw [State.lineAt, hthreads]
    exact hline y (List.mem_cons_of_mem x hy)

/-- The lines of a report written at the places of its range. -/
abbrev wroteReport (s : State) (t : Thread) (places : List Target) (bs : List Byte) : State :=
  ((List.range 4).zip places).foldl (fun s x => s.performAt t.id.sdom x.2 ((bs.drop (128 * x.1)).take 128)) s

theorem attest_reports {s : State} {t : Thread} {d a b : Reg} {g : Target} {l : List Target} (hb : t.rd b.toNat = 0)
    (h1 : check1 { ea := (t.rd a.toNat).toNat, n := 512, kind := .store, write := true } = true)
    (h2 : check2 s t.core { ea := (t.rd a.toNat).toNat, n := 512, kind := .store, write := true } = true)
    (hal : (t.rd a.toNat).toNat % 128 = 0) (hland : s.noLanding)
    (hlines : s.attestLines t true 128 [(t.rd a.toNat).toNat, (t.rd a.toNat).toNat + 128, (t.rd a.toNat).toNat + 256,
      (t.rd a.toNat).toNat + 384] = .ok (g :: l))
    (hclean : s.poisonedIn (g.pa + 0x20) 32 = none)
    (hplaces : ∀ x ∈ g :: l, s.lineAt x.pa = none ∧ s.noEarly (dieOf t.core) x.pa 128) (hs : s.unwatched) :
    Yields s t (.attest d a b) ((wroteReport s t (g :: l) (s.report t (s.bytesAt t.id.sdom (g.pa + 0x20) 32))).put
      { t.produce (attestFill d) with pc := t.pc + 4 }) := by
  have hthreads : (wroteReport s t (g :: l) (s.report t (s.bytesAt t.id.sdom (g.pa + 0x20) 32))).threads = s.threads :=
    threads_foldl_performAt hs _ (fun k => (List.drop (128 * k) _).take 128) fun x hx => (hplaces x.2 (List.of_mem_zip hx).2).1
  refine yields_of_retire (execAttest.eq_def d a b s) (fun ht => ?_) hthreads (produce_id ..) (produce_pc ..) (produce_settled ..)
  have hlands := lands_of_none hland t.id fun x hx => (hplaces x hx).2
  have hcommand : ¬ (wbits (0 : Word) 63 2 ≠ 0 ∨ 1 < wbits (0 : Word) 1 0) := by decide
  have hextend : (wbits (0 : Word) 1 0 == 1) = false := by decide
  have hagain := (find_of_threads hthreads t.id).trans ht
  have hrange : (upto 0 4).map (fun k => (t.rd a.toNat).toNat + 128 * k) =
    [(t.rd a.toNat).toNat, (t.rd a.toNat).toNat + 128, (t.rd a.toNat).toNat + 256, (t.rd a.toNat).toNat + 384] := rfl
  simp only [hb, if_neg hcommand, hextend, h1, h2, hal, hrange, hlines, State.attest, hlands, Bool.not_true, Bool.not_false,
    Bool.false_eq_true, if_false, ne_eq, not_true_eq_false, List.head?_cons, Option.map_some, Option.getD_some, hclean]
  refine (if_neg (Bool.eq_false_iff.1 (List.any_eq_false.2 fun x hx => ?_))).trans ?_
  · rw [(hplaces x hx).1]
    decide
  · exact congrArg (fun u => Except.ok ((wroteReport s t (g :: l) _).retire (u.produce (attestFill d)))) (again_of_find hagain)

/-! Debug addresses (18 R414). -/

theorem dbg_disabled {s : State} {t : Thread} (h : s.dbgen t = false) (d a b : Reg) : Parks s t (.dbgRd d a) (.plain .privilege 0) ∧
    Parks s t (.dbgWr a b) (.plain .privilege 0) ∧ Parks s t (.dbgStep d a) (.plain .privilege 0) :=
  ⟨parks_of_fault (execDbgRd.eq_def d a s) (if_pos (by simp [h])), parks_of_fault (execDbgWr.eq_def a b s) (if_pos (by simp [h])),
    parks_of_fault (execDbgStep.eq_def d a s) (if_pos (by simp [h]))⟩

/-- The offsets of a debug space (18 R414). -/
def spaceSize : Nat → Nat
  | 0 => 0x10000
  | 1 => 0x40000
  | 2 => 0x80
  | _ => 0x100

theorem dbgAddr_of_fields {w : Word} {core space off : Nat} (hcore : core < 2048) (hspace : space < 4) (hoff : off % 8 = 0)
    (hsize : off < spaceSize space) (hw : w = BitVec.ofNat 64 (core + space * 2 ^ 12 + off * 2 ^ 16)) :
    dbgAddr w = some (core, space, off) := by
  have hlimit : off < 2 ^ 18 := by
    unfold spaceSize at hsize
    split at hsize <;> omega
  have hval : w.toNat = core + space * 2 ^ 12 + off * 2 ^ 16 := by
    rw [hw, BitVec.toNat_ofNat]; omega
  have hlow : wbits w 10 0 = core := by simp only [wbits, bits, hval]; omega
  have h11 : bit w.toNat 11 = false := by simp only [bit, hval, beq_eq_false_iff_ne]; omega
  have h12 : wbits w 14 12 = space := by simp only [wbits, bits, hval]; omega
  have h15 : bit w.toNat 15 = false := by simp only [bit, hval, beq_eq_false_iff_ne]; omega
  have h16 : wbits w 35 16 = off := by simp only [wbits, bits, hval]; omega
  have h36 : wbits w 63 36 = 0 := by simp only [wbits, bits, hval]; omega
  simp only [dbgAddr, hlow, h11, h12, h15, h16, h36, hoff, Bool.not_false, beq_self_eq_true, Bool.true_and]
  interval_cases space <;> exact if_pos (decide_eq_true (Nat.le_of_lt_succ (by simp only [spaceSize] at hsize; omega)))

section
variable {s : State} {t : Thread} {d a b : Reg} {core space off : Nat} (hen : s.dbgen t = true)
  (haddr : dbgAddr (t.rd a.toNat) = some (core, space, off))
include hen haddr

/-- DBG.RD of a word that its space lets it read. -/
theorem dbgRd_fills {v : Word} (hread : s.dbgRead t core space off = .ok v)
    (hclean : space = 1 → s.poisonedIn (physAddr (padUnit core) off) 8 = none) : Fills s t (.dbgRd d a) (oneFill d.toNat v) := by
  refine fills_of_retire (execDbgRd.eq_def d a s) ?_
  have hgood : ¬ (space = 1 ∧ (s.poisonedIn (physAddr (padUnit core) off) 8).isSome = true) := fun h => by
    simp [hclean h.1] at h
  simp only [hen, haddr, hread, if_neg hgood]
  rfl

theorem dbgRd_faults {f : Flt} (hread : s.dbgRead t core space off = .error (.fault f)) : Parks s t (.dbgRd d a) f :=
  parks_of_fault (execDbgRd.eq_def d a s) (by simp only [hen, haddr, hread]; rfl)

theorem dbgRd_blocks (hread : s.dbgRead t core space off = .error .block) (h : Issues s t (.dbgRd d a)) :
    exec (.dbgRd d a) s = .next (s.put { t with st := .blocked .empty }) := by
  obtain ⟨hcur, hgate, -⟩ := h
  show execDbgRd d a s = _
  simp only [execDbgRd, word, hcur, hgate, hen, haddr, hread]
  rfl

/-- DBG.WR of a word that its space lets it write. -/
theorem dbgWr_yields {s1 : State} (hwrite : s.dbgWrite t core space off (t.rd b.toNat) = .ok s1) (hthreads : s1.threads = s.threads) :
    Yields s t (.dbgWr a b) (s1.put { t with pc := t.pc + 4 }) := by
  refine yields_of_retire (execDbgWr.eq_def a b s) (fun ht => ?_) hthreads rfl rfl rfl
  have hagain : s1.again t = t := again_of_find ((find_of_threads hthreads t.id).trans ht)
  simp only [hen, haddr, hwrite, hagain]
  rfl

theorem dbgWr_faults {f : Flt} (hwrite : s.dbgWrite t core space off (t.rd b.toNat) = .error (.fault f)) : Parks s t (.dbgWr a b) f :=
  parks_of_fault (execDbgWr.eq_def a b s) (by simp only [hen, haddr, hwrite]; rfl)

theorem dbgWr_blocks (hwrite : s.dbgWrite t core space off (t.rd b.toNat) = .error .block) (h : Issues s t (.dbgWr a b)) :
    exec (.dbgWr a b) s = .next (s.put { t with st := .blocked .empty }) := by
  obtain ⟨hcur, hgate, -⟩ := h
  show execDbgWr a b s = _
  simp only [execDbgWr, word, hcur, hgate, hen, haddr, hwrite]
  rfl

end

/-! What each space lets a thread read and write (18 R414). -/

section
variable {s : State} {t : Thread} {core off : Nat}

/-- The unit is held by a resident gang of the thread's domain. -/
def HeldUnit (s : State) (t : Thread) (core : Nat) : Prop :=
  ∃ x, (s.core core).unit.gang.bind s.gang = some x ∧ x.resident = true ∧ x.id.sdom = t.id.sdom

theorem dbgTile_of_held (h : HeldUnit s t core) :
    s.dbgTile t core off = if bit (s.core core).unit.lock (off / 4096) then .error .block else .ok () := by
  obtain ⟨x, hx, hresident, hdom⟩ := h
  simp only [State.dbgTile, hx, hresident, hdom, beq_self_eq_true, Bool.and_self, if_true]

theorem dbgTile_of_not_held (h : ¬ HeldUnit s t core) : s.dbgTile t core off = failWith .privilege 0 := by
  unfold State.dbgTile
  dsimp only
  split
  next x hx =>
    refine if_neg fun hown => h ⟨x, hx, ?_⟩
    simpa using hown
  next => rfl

/-- The control word of a counter (17 R393). -/
theorem control_eq (c : Perf) : c.control = BitVec.ofNat 64 (c.owner + c.event * 2 ^ 16 + (if c.en then 2 ^ 24 else 0)) := by
  unfold Perf.control
  cases c.en <;> rfl

theorem dbgPad_of_ready (h : off / 8192 ∉ (s.core core).zeroing) :
    s.dbgPad t core off = if s.spdom core (off / 8192) = t.id.sdom then .ok () else failWith .privilege 0 :=
  if_neg (by simpa using h)

end

/-! DBG.STEP (18 R415). -/

theorem tick_syncFrame (s : State) (sdom va : Nat) (g : Target) : (s.syncFrame sdom va g).tick = s.tick := by
  unfold State.syncFrame
  split
  · rfl
  · split
    · split
      · split
        next hframe =>
          obtain rfl | ⟨s1, u, rfl, hquiet, -⟩ := ensureFrame_spec hframe
          · rfl
          · exact hquiet.tick
        next => rfl
      · exact tick_of_standing (standing_settleHeld ..)
    · rfl

/-- A handle operand is judged and its frame loaded in no time (16 R350). -/
theorem tick_of_handleArg {s s1 : State} {t : Thread} {a : Reg} {w : Bool} {h : Tid} (e : s.handleArg t a w = .ok (s1, h)) :
    s1.tick = s.tick := by
  unfold State.handleArg State.frameNamed at e
  split at e
  · split at e
    · cases e
    · split at e
      · cases e
      · injection e with e
        injection e with e
        rw [← e]
        exact tick_syncFrame ..
  · cases e

/-- A core but for its TLB and what walks have found (11 R239). -/
def untranslated (x : Core) : Core := { x with tlb := [], fresh := [] }

theorem untranslated_setCore {s : State} {c : Nat} {x : Core} (h : untranslated x = untranslated (s.core c)) (j : Nat) :
    untranslated ((s.setCore c x).core j) = untranslated (s.core j) := by
  rw [core_setCore]
  split
  next hj => rw [h, hj]
  next => rfl

/-- What was walked for a word touches nothing of a core but its translations when it is used (13 R307). -/
theorem untranslated_commitFresh (s : State) (core : Nat) (i : Tid) (l : List Fresh) (j : Nat) :
    untranslated ((s.commitFresh core i l).core j) = untranslated (s.core j) := by
  unfold State.commitFresh
  split
  · rfl
  · refine List.foldrRecOn (motive := fun s' : State => untranslated (s'.core j) = untranslated (s.core j)) l _ ?_ fun s' hs f _ => ?_
    · unfold State.dropFresh
      dsimp only
      split
      · exact untranslated_setCore (by rfl) j
      · rfl
    · refine Eq.trans ?_ hs
      refine (untranslated_setCore ?_ j).trans ?_
      · rfl
      · exact congrArg (fun l => untranslated (Sparse.get Core.init l j)) ((cores_of_standing (standing_markLeaf ..)).trans rfl)

section
variable {s s1 : State} {t u : Thread} {d a : Reg} {h : Tid} (hen : s.dbgen t = true) (hhandle : s.handleArg t a true = .ok (s1, h))
  (hself : s1.find t.id = some t)
include hen hhandle

theorem dbgStep_privilege (hu : s1.find h = some u) (hent : s1.entitled t u = false) : Parks s t (.dbgStep d a) (.plain .privilege 0) :=
  parks_of_fault (execDbgStep.eq_def d a s) (by simp only [hen, hhandle, hu, hent]; rfl)

include hself

/-- DBG.STEP that answers a number and changes nothing else. -/
theorem dbgStep_answers {n : Nat} (hn : (s1.find h = none ∧ n = 1) ∨ ∃ u, s1.find h = some u ∧ s1.entitled t u = true ∧
      ((u.st ≠ .faulted ∧ n = 1) ∨ (u.st = .faulted ∧ 8 ≤ (s1.core u.core).steps.length ∧ n = 2))) :
    Yields s t (.dbgStep d a) (s1.put { t.wr d.toNat (BitVec.ofNat 64 n) with pc := t.pc + 4 }) := fun hi => by
  have hfind : (s1.put { t.wr d.toNat (BitVec.ofNat 64 n) with pc := t.pc + 4 }).find t.id =
      some { t.wr d.toNat (BitVec.ofNat 64 n) with pc := t.pc + 4 } := find_put_of_find rfl hself (wr_id ..)
  refine yields_of_ok (execDbgStep.eq_def d a s) ?_ hfind (wr_settled ..) hi
  have hretire : s1.retireReg (s1.again t) d.toNat (BitVec.ofNat 64 n) = s1.put { t.wr d.toNat (BitVec.ofNat 64 n) with pc := t.pc + 4 } := by
    rw [again_of_find hself, State.retireReg, State.retire, wr_pc]
  rw [← hretire]
  obtain ⟨hnone, rfl⟩ | ⟨u, hu, hent, ⟨hst, rfl⟩ | ⟨hst, hlen, rfl⟩⟩ := hn
  · simp only [hen, hhandle, hnone]
    rfl
  · simp only [hen, hhandle, hu, hent, if_pos hst]
    rfl
  · simp only [hen, hhandle, hu, hent, hst, if_pos hlen]
    rfl

/-- A FAULTED thread that steps: READY, with its step mark. -/
def stepping (s : State) (u : Thread) : Thread := { u with st := .ready, fcause := 0, readySince := s.tick, aged := 0, stepped := true }

/-- DBG.STEP resumes a FAULTED thread for one instruction (18 R415). -/
theorem dbgStep_steps (hu : s1.find h = some u) (hent : s1.entitled t u = true) (hst : u.st = .faulted) (hne : h ≠ t.id)
    (hlen : (s1.core u.core).steps.length < 8) (hi : Issues s t (.dbgStep d a)) :
    ∃ s', exec (.dbgStep d a) s = .next s' ∧ s'.find t.id = some { t.wr d.toNat 0 with pc := t.pc + 4 } ∧
      s'.find u.id = some (stepping s1 u) ∧ (s'.core u.core).steps = (s1.core u.core).steps ++ [u.id] := by
  obtain rfl := find_id hu
  obtain ⟨s2, hs2, hs2find, hs2steps⟩ : ∃ s2, s2 = (s1.resumeThread u).setCore u.core
      { (s1.resumeThread u).core u.core with steps := (s1.core u.core).steps ++ [u.id] } ∧
      (∀ j, s2.find j = (s1.put { stepping s1 u with stepped := u.stepped }).find j) ∧
      (s2.core u.core).steps = (s1.core u.core).steps ++ [u.id] := by
    refine ⟨_, rfl, fun j => rfl, ?_⟩
    rw [core_setCore, if_pos rfl]
  have hagain : s2.again u = { stepping s1 u with stepped := u.stepped } := by
    exact (congrArg (·.getD u) ((hs2find u.id).trans (find_put_of_find rfl hu rfl)))
  have hfind (j : Tid) : (s2.put (stepping s1 u)).find j = if j = u.id then some (stepping s1 u) else s1.find j := by
    split
    next hj =>
      rw [hj]
      refine find_put (t := stepping s1 u) (Option.isSome_iff_exists.2 ⟨{ stepping s1 u with stepped := u.stepped }, ?_⟩)
      exact (hs2find u.id).trans (find_put_of_find rfl hu rfl)
    next hj => rw [find_put_ne (t := stepping s1 u) hj, hs2find, find_put_ne (t := { stepping s1 u with stepped := u.stepped }) hj]
  have htfind : (s2.put (stepping s1 u)).find t.id = some t := by rw [hfind, if_neg (Ne.symm hne), hself]
  have hk : (s2.put (stepping s1 u)).retireReg ((s2.put (stepping s1 u)).again t) d.toNat 0 =
      (s2.put (stepping s1 u)).put { t.wr d.toNat 0 with pc := t.pc + 4 } := by
    rw [again_of_find htfind, State.retireReg, State.retire, wr_pc]
  have hdone : ((s2.put (stepping s1 u)).put { t.wr d.toNat 0 with pc := t.pc + 4 }).find t.id = some { t.wr d.toNat 0 with pc := t.pc + 4 } :=
    find_put_of_find rfl htfind (wr_id ..)
  refine ⟨_, yields_of_ok (execDbgStep.eq_def d a s) ?_ hdone (wr_settled ..) hi, (find_commitFresh ..).trans hdone, ?_, ?_⟩
  · rw [← hk]
    simp only [hen, hhandle, hu, hent, hst, if_neg (Nat.not_le.2 hlen), ← hs2, hagain]
    rfl
  · rw [find_commitFresh, find_put_ne (t := { t.wr d.toNat 0 with pc := t.pc + 4 }) (fun e => hne (e.trans (wr_id ..))), hfind, if_pos rfl]
  · refine (congrArg Core.steps (untranslated_commitFresh ..)).trans hs2steps

end

/-- Settles O34: FEAT and HALT at once, ATTEST by its checks and places, the debug instructions by the space of their address. -/
theorem systemResults : Obligations.SystemResults := by
  intro s s1 t u d a b core off g h l gg fill acquired va dom range seg
  refine ⟨fun hdom hen => halt_halts hdom hen, fun hno => halt_privilege hno, feat_writes s t d a, fun hb => attest_unknown hb,
    fun hb hacc h1 h2 hal hland hearly hclean => attest_extends hb hacc h1 h2 hal hland hearly hclean,
    fun hb h1 h2 hal hland hlines hclean hplaces hs => attest_reports hb h1 h2 hal hland hlines hclean hplaces hs,
    fun hen => dbg_disabled hen d a b, ?_, ?_, ?_, ?_, ?_⟩
  · intro hen hcore hoff hsize ha
    have haddr := dbgAddr_of_fields (space := 3) hcore (by decide) hoff (by simp only [spaceSize]; omega) ha
    refine ⟨dbgRd_fills hen haddr rfl nofun, fun hmay => ?_⟩
    exact dbgWr_yields hen haddr (if_pos hmay) rfl
  · intro hen hcore hoff hsize ha hready
    have haddr := dbgAddr_of_fields (space := 1) hcore (by decide) hoff hsize ha
    have hpad := dbgPad_of_ready (t := t) hready
    refine ⟨fun hown => ⟨fun hclean => ?_, fun hs hline => ?_⟩, fun hother => ⟨?_, ?_⟩⟩
    · rw [if_pos hown] at hpad
      refine dbgRd_fills hen haddr ?_ fun _ => hclean
      simp only [State.dbgRead, hpad]
      rfl
    · rw [if_pos hown] at hpad
      refine dbgWr_yields hen haddr ?_ (performAt_threads (g := .pad core off) hs hline dom _)
      simp only [State.dbgWrite, hpad, wordBytes_eq_lowBytes]
      rfl
    · rw [if_neg hother] at hpad
      exact dbgRd_faults hen haddr (by simp only [State.dbgRead, hpad]; rfl)
    · rw [if_neg hother] at hpad
      exact dbgWr_faults hen haddr (by simp only [State.dbgWrite, hpad]; rfl)
  · intro hen hcore hoff hsize ha unit held locked
    have haddr := dbgAddr_of_fields (space := 0) hcore (by decide) hoff hsize (by simpa using ha)
    have htile (hheld : held) : s.dbgTile t core off = if bit unit.lock (off / 4096) then .error .block else .ok () :=
      dbgTile_of_held ⟨gg, hheld⟩
    have hlock : locked = bit unit.lock (off / 4096) := (bit_eq_testBit ..).symm
    refine ⟨fun hno => ?_, fun hheld hlocked => ?_, fun hheld hfree => ?_⟩
    · have htile : s.dbgTile t core off = failWith .privilege 0 := dbgTile_of_not_held hno
      exact ⟨dbgRd_faults hen haddr (by simp only [State.dbgRead, htile]; rfl),
        dbgWr_faults hen haddr (by simp only [State.dbgWrite, htile]; rfl)⟩
    · rw [hlock] at hlocked
      have htile := (htile hheld).trans (if_pos hlocked)
      exact ⟨dbgRd_blocks hen haddr (by simp only [State.dbgRead, htile]), dbgWr_blocks hen haddr (by simp only [State.dbgWrite, htile])⟩
    · rw [hlock] at hfree
      have htile := (htile hheld).trans (if_neg (by simp [hfree]))
      refine ⟨dbgRd_fills hen haddr (by simp only [State.dbgRead, htile]; rfl) nofun, dbgWr_yields hen haddr ?_ rfl⟩
      simp only [State.dbgWrite, htile, wbits_eq_toNat_extractLsb' (t.rd b.toNat) 31 0, wbits_eq_toNat_extractLsb' (t.rd b.toNat) 31 32]
      rfl
  · intro hen hcore hoff hsize ha c v
    have haddr := dbgAddr_of_fields (space := 2) hcore (by decide) hoff (by simp only [spaceSize]; omega) ha
    refine ⟨fun hown => ⟨dbgRd_fills hen haddr ?_ nofun, ?_⟩, fun hother => ?_, fun hother hfree => ?_, fun hother hheld => ?_⟩
    · rw [← control_eq]
      exact if_pos hown
    · refine dbgWr_yields hen haddr ((if_pos hown).trans ?_) rfl
      rw [wbits_eq_toNat_extractLsb' (t.rd b.toNat) 7 16, bit_eq_testBit]
      rfl
    · exact dbgWr_faults hen haddr (if_neg hother)
    · exact dbgRd_fills hen haddr ((if_neg hother).trans (if_pos hfree)) nofun
    · exact dbgRd_faults hen haddr ((if_neg hother).trans (if_neg hheld))
  · intro hen hhandle hself answers
    refine ⟨fun hnone => dbgStep_answers hen hhandle hself (.inl ⟨hnone, rfl⟩),
      fun hu hent => dbgStep_privilege hen hhandle hu hent, fun hu hent => ⟨fun hst => ?_, fun hst hlen => ?_, fun hst hne hlen hi => ?_⟩⟩
    · exact dbgStep_answers hen hhandle hself (.inr ⟨u, hu, hent, .inl ⟨hst, rfl⟩⟩)
    · exact dbgStep_answers hen hhandle hself (.inr ⟨u, hu, hent, .inr ⟨hst, hlen, rfl⟩⟩)
    · have hsteps := dbgStep_steps hen hhandle hself hu hent hst hne hlen hi
      rw [stepping, tick_of_handleArg hhandle] at hsteps
      exact hsteps

end Sys2Proof.Proofs

/-! PROOF. The mailbox (20 R448 to R450): what every command shares, and what each does. -/
namespace Sys2Proof.Proofs
open Sys2Proof.Machine Sys2Proof.Laws

/-! What every command shares (20 R448). -/

section
variable {s : State} {c : MailCmd} {i : Instr} {code words : Nat} {rule : Signer} {ok applies : Bool}
  {act act' : State → State × Nat × List Byte}

/-- The rules a command of a signer that exists breaks, where its SEQ is new and its signer's rule admits it. -/
theorem mailFailures_of_admitted {k : BitVec 256} (hlen : c.len = 24 + 8 * words) (hpayload : words ≤ c.payload.length) (hok : ok = true)
    (hkey : s.signerKey c.signer = some k) (hseq : s.signerSeq c.signer < c.seq) (hrule : rule.admits c.signer = true)
    (hsigned : rule ≠ .anyone) : s.mailFailures c words ok rule = if sm2Verify k (mailBytes c) c.sig = true then [] else [1] := by
  have hshape : ¬ (c.len ≠ 24 + 8 * words ∨ c.payload.length < words ∨ ok = false) := by
    simp [hok, hlen, hpayload]
  unfold State.mailFailures
  rw [if_neg hshape, if_neg hsigned, hkey]
  dsimp only
  rw [if_pos hseq, if_pos hrule, List.nil_append, List.append_nil, List.append_nil]

/-- A command that breaks one rule is answered with its STATUS. -/
theorem mail_of_failure {n : Nat} (hstage : s.stage = .running) (h : s.mailFailures c words ok rule = [n]) :
    s.mail c words ok rule act = (s.commanded c).respond n c.seq [] := by
  simp [State.mail, hstage, h, Nat.mod_one]

theorem mail_of_no_failure (hstage : s.stage = .running) (hsigned : rule ≠ .anyone) (h : s.mailFailures c words ok rule = []) :
    s.mail c words ok rule act = (act ((s.commanded c).acceptSeq c)).1.respond (act ((s.commanded c).acceptSeq c)).2.1 c.seq
      (act ((s.commanded c).acceptSeq c)).2.2 := by
  simp [State.mail, hstage, h, hsigned]

/-- Every command with an owner's or a tenant's rule: its operands within their limits, and its effect. -/
theorem mail_admitted {rule' : Signer} (hexec : exec i s = mailEvent applies s (s.mail c words ok rule' act'))
    (happlies : c.cmd = code → applies = true) (hrule' : rule' = rule) (hok : ok = true)
    (hact : act' ((s.commanded c).acceptSeq c) = act ((s.commanded c).acceptSeq c)) (hsigned : rule' ≠ .anyone) :
    Mail s i c code words rule act := by
  intro hstage hcmd hlen hpayload k hkey hseq hrule
  rw [← hrule'] at hrule
  have hfailures := mailFailures_of_admitted hlen hpayload hok hkey hseq hrule hsigned
  have hmade : exec i s = .next (s.mail c words ok rule' act') := hexec.trans (congrArg Host.Outcome.next (if_pos (happlies hcmd)))
  rw [hmade]
  by_cases hverified : sm2Verify k (mailBytes c) c.sig = true
  · rw [if_pos hverified] at hfailures ⊢
    rw [mail_of_no_failure hstage hsigned hfailures, hact]
  · rw [if_neg hverified] at hfailures ⊢
    rw [mail_of_failure hstage hfailures]

/-- Anyone's command. -/
theorem mail_anyone (hexec : exec i s = mailEvent applies s (s.mail c words true .anyone act)) (happlies : c.cmd = code → applies = true)
    (hstage : s.stage = .running) (hcmd : c.cmd = code) (hlen : c.len = 24 + 8 * words) (hpayload : words ≤ c.payload.length) :
    exec i s = .next ((act (s.commanded c)).1.respond (act (s.commanded c)).2.1 c.seq (act (s.commanded c)).2.2) := by
  have hfailures : s.mailFailures c words true .anyone = [] := by
    simp [State.mailFailures, hlen, Nat.not_lt.2 hpayload]
  rw [hexec, mailEvent, event, if_pos (happlies hcmd)]
  simp [State.mail, hstage, hfailures]

/-- The state differs from s in the mailbox alone. -/
def Mailbox (s : State) (r : Host.Outcome State Fault Refusal) : Prop :=
  ∃ b l v, r = .next { s with response := b, command := l, serving := v }

/-- A command that breaks a rule changes nothing but the mailbox. -/
theorem mail_of_failures (h : s.mailFailures c words ok rule ≠ []) : ∃ b l v,
    s.mail c words ok rule act = { s with response := b, command := l, serving := v } := by
  unfold State.mail
  split
  · exact ⟨_, _, _, rfl⟩
  · exact ⟨_, _, _, if_pos h⟩

/-- A command whose SEQ is not above the highest accepted breaks a rule (20 R448). -/
theorem mailFailures_of_old {k : BitVec 256} (hkey : s.signerKey c.signer = some k) (hold : c.seq ≤ s.signerSeq c.signer)
    (hsigned : rule ≠ .anyone) (words : Nat) (ok : Bool) : s.mailFailures c words ok rule ≠ [] := by
  intro h
  simp [State.mailFailures, hsigned, hkey, Nat.not_lt.2 hold] at h

theorem mailbox_of_old {k : BitVec 256} (hexec : exec i s = mailEvent applies s (s.mail c words ok rule act))
    (hkey : s.signerKey c.signer = some k) (hold : c.seq ≤ s.signerSeq c.signer) (hsigned : rule ≠ .anyone) : Mailbox s (exec i s) := by
  obtain ⟨b, l, v, h⟩ := mail_of_failures (act := act) (mailFailures_of_old hkey hold hsigned words ok)
  rw [hexec, mailEvent, event, h]
  split
  · exact ⟨b, l, v, rfl⟩
  · exact ⟨s.response, s.command, s.serving, rfl⟩

end

/-! Operands (20 R450). -/

theorem mailArgs_eq (c : MailCmd) (k n : Nat) : mailArgs c k n = (List.range n).map (fun j => c.payload.getD (j + k) 0) := by
  rw [mailArgs, map_upto]
  exact List.map_congr_left fun j _ => by rw [Nat.add_comm]

theorem rootOk_iff (n : Nat) : rootOk n = true ↔ n.testBit 1 = false ∧ n / 4 % 2 ^ 14 = 0 := by
  rw [rootOk, bit_eq_testBit, Bool.and_eq_true, Bool.not_eq_true', beq_iff_eq]
  rfl

theorem domOk_of_lt {n : Nat} (h : n < 1024) : domOk n = true := decide_eq_true h

theorem ownerOk_of {n : Nat} (h : n < 1024 ∨ n = 0xFFFF) : ownerOk n = true := by
  simpa [ownerOk, domOk] using h

/-- The name of a domain in an operand word. -/
theorem bits_dom (n : Nat) : bits n 15 0 = n % 2 ^ 16 := bits_low n 15

/-- 0 or 1 as a flag. -/
theorem bit_flag {n : Nat} (h : n < 2) : bit n 0 = (n == 1) := by interval_cases n <;> rfl

theorem and_of_both {x y : Bool} (hx : x = true) (hy : y = true) : (x && y) = true := by rw [hx, hy]; rfl

/-- Two refusals by one test, told and asked, that agree where it passes. -/
theorem ite_not_eq {α : Type} {b : Bool} {x y y' : α} (h : b = true → y = y') :
    (if (!b) = true then x else y) = if b = true then y' else x := by
  cases b with
  | true => exact h rfl
  | false => rfl

theorem endpoint_accepted (s : State) (c : MailCmd) (k : Nat) : ((s.commanded c).acceptSeq c).endpoint k = s.endpoint k := by
  unfold State.acceptSeq
  split <;> rfl

/-- SETCARVE's answer, whether TARGET is written or refused (10 R235). -/
theorem carve_answers (s : State) (d v : Nat) :
    ((s.writeTarget d v).1, (if (s.writeTarget d v).2 = true then 0 else 3), wordBytes ((s.writeTarget d v).1.carveWord d)) =
      let s1 := if 128 < v ∨ (s.die d).busy = true then s.setDie d { s.die d with refused := true }
        else s.setDie d { s.die d with target := v, refused := false, busy := (s.die d).count != v }
      (s1, (if 128 < v ∨ (s.die d).busy = true then 3 else 0), toBytes 8 (s1.carveWord d).toNat) := by
  by_cases h : 128 < v ∨ (s.die d).busy = true
  · simp only [State.writeTarget, if_pos h]
    rfl
  · simp only [State.writeTarget, if_neg h]
    rfl

theorem leaveHalt_cases {α : Type} (s : State) (f : Option State → α) :
    f s.leaveHalt = if s.fatal then f none else f (some { s with halted := false }) := by
  unfold State.leaveHalt
  split <;> rfl

/-- SETROOT while its invalidation is not over: the command stays the next of the outside (20 R449; log 4). -/
theorem setroot_waits {s : State} {c : MailCmd} {k : BitVec 256} (hstage : s.stage = .running) (hcmd : c.cmd = 0x13) (hlen : c.len = 40)
    (hpayload : 2 ≤ c.payload.length) (hdom : domOk (mailArg c 0) = true) (hroot : rootOk (mailArg c 1) = true)
    (htenant : c.signer = mailArg c 0) (hkey : s.signerKey c.signer = some k) (hseq : s.signerSeq c.signer < c.seq)
    (hpending : ((s.commanded c).setRoot (mailArg c 0) (c.payload.getD 1 0)).invalidated (mailArg c 0) [allExtent] none = false) :
    exec (.setroot c) s = .next (if sm2Verify k (mailBytes c) c.sig then
        { (s.commanded c).setRoot (mailArg c 0) (c.payload.getD 1 0) with waitsIn := true, serving := true }
      else (s.commanded c).respond 1 c.seq []) := by
  have hlt : mailArg c 0 < 1024 := of_decide_eq_true hdom
  have hrule : (Signer.tenant [mailArg c 0]).admits c.signer = true := by
    have hne : mailArg c 0 ≠ 0xFFFF := by omega
    simp [Signer.admits, htenant, hne]
  have hok : (domOk (mailArg c 0) && rootOk (mailArg c 1)) = true := by rw [hdom, hroot]; rfl
  have hfailures := mailFailures_of_admitted (words := 2) hlen hpayload hok hkey hseq hrule nofun
  refine (congrArg Host.Outcome.next (if_pos (beq_iff_eq.2 hcmd))).trans (congrArg Host.Outcome.next ?_)
  by_cases hverified : sm2Verify k (mailBytes c) c.sig = true
  · rw [if_pos hverified] at hfailures ⊢
    exact if_pos ⟨hstage, hfailures, hpending⟩
  · rw [if_neg hverified] at hfailures ⊢
    refine (if_neg fun h => ?_).trans (mail_of_failure hstage hfailures)
    rw [hfailures] at h
    exact absurd h.2.1 (by decide)

/-- A ROOTPTR out of 13 R286's layout: STATUS 5, or 1 where the signature does not verify either (log 29). -/
theorem mail_malformed {s : State} {c : MailCmd} {k : BitVec 256} {words : Nat} {rule : Signer} {act : State → State × Nat × List Byte}
    (hkey : s.signerKey c.signer = some k) (hseq : s.signerSeq c.signer < c.seq) (hstage : s.stage = .running)
    (hrule : rule.admits c.signer = true) (hsigned : rule ≠ .anyone) :
    ∃ n, s.mail c words false rule act = (s.commanded c).respond n c.seq [] ∧
      (n = 5 ∨ (n = 1 ∧ sm2Verify k (mailBytes c) c.sig = false)) := by
  have hfailures : s.mailFailures c words false rule = 5 :: if sm2Verify k (mailBytes c) c.sig = true then [] else [1] := by
    unfold State.mailFailures
    rw [if_pos (.inr (.inr rfl)), if_neg hsigned, hkey]
    dsimp only
    rw [if_pos hseq, if_pos hrule, List.append_nil, List.append_nil]
    rfl
  by_cases hverified : sm2Verify k (mailBytes c) c.sig = true
  · rw [if_pos hverified] at hfailures
    exact ⟨5, mail_of_failure hstage hfailures, .inl rfl⟩
  · rw [if_neg hverified] at hfailures
    refine ⟨[5, 1].getD (Config.free 22 s.draws % 2) 0, ?_, ?_⟩
    · simp [State.mail, hstage, hfailures, State.commanded]
    · rw [Bool.not_eq_true] at hverified
      rcases Nat.mod_two_eq_zero_or_one (Config.free 22 s.draws) with h | h <;> rw [h] <;> simp [hverified]

/-- Every command whose SEQ is not above the highest accepted from its signer changes nothing but the mailbox (20 R448). -/
theorem mailbox_of_old_command {s : State} {c : MailCmd} {k : BitVec 256} (hkey : s.signerKey c.signer = some k)
    (hold : c.seq ≤ s.signerSeq c.signer) : ∀ i ∈ [Instr.setfeat c, .mkdom c, .rmdom c, .setroot c, .setaper c, .setqueue c, .setedt c, .setfdt c,
      .setep c,
      .setcarveTarget c, .setcarveCarvedom c, .setspdom c, .setsoldom c, .setgtbase c, .setcoreoff c,
      .setmgmtHalted c, .setmgmtReqto c, .setmgmtHostto c, .setmgmtErrorCounter c, .setmgmtHold c], Mailbox s (exec i s) := by
  have old {i : Instr} {applies ok : Bool} {words : Nat} {rule : Signer} {act : State → State × Nat × List Byte}
      (hexec : exec i s = mailEvent applies s (s.mail c words ok rule act)) (hsigned : rule ≠ .anyone) : Mailbox s (exec i s) :=
    mailbox_of_old hexec hkey hold hsigned
  have hroot : Mailbox s (exec (.setroot c) s) := by
    refine old (rule := .tenant [mailArg c 0]) (applies := c.cmd == 0x13) (words := 2) (ok := domOk (mailArg c 0) && rootOk (mailArg c 1))
      (act := fun s => mailDone ((s.setRoot (mailArg c 0) (c.payload.getD 1 0)).dropFramesIn (mailArg c 0) [allExtent] none) []) ?_ nofun
    exact congrArg (mailEvent _ s) (if_neg fun h => mailFailures_of_old (rule := .tenant [mailArg c 0]) hkey hold nofun _ _ h.2.1)
  simp only [List.forall_mem_cons]
  exact ⟨old (execSetfeat.eq_def c s) nofun, old (execMkdom.eq_def c s) nofun, old (execRmdom.eq_def c s) nofun, hroot,
    old (execSetaper.eq_def c s) nofun, old (execSetqueue.eq_def c s) nofun, old (execSetedt.eq_def c s) nofun,
    old (execSetfdt.eq_def c s) nofun, old (execSetep.eq_def c s) nofun, old (execSetcarveTarget.eq_def c s) nofun,
    old (execSetcarveCarvedom.eq_def c s) nofun, old (execSetspdom.eq_def c s) nofun, old (execSetsoldom.eq_def c s) nofun,
    old (execSetgtbase.eq_def c s) nofun, old (execSetcoreoff.eq_def c s) nofun, old (execSetmgmtHalted.eq_def c s) nofun,
    old (execSetmgmtReqto.eq_def c s) nofun, old (execSetmgmtHostto.eq_def c s) nofun, old (execSetmgmtErrorCounter.eq_def c s) nofun,
    old (execSetmgmtHold.eq_def c s) nofun,
    fun _ h => absurd h List.not_mem_nil⟩

/-- Settles O58: every command is one served command with its operands, its signer's rule and its effect. -/
theorem mailboxCommands : Obligations.MailboxCommands := by
  intro s c i k w a ws done refused wrote sc rootFits open' entry q x f fold mgmt
  have hwords (n : Nat) : mailArgs c 1 n = ws n := mailArgs_eq c 1 n
  have hwrote (s1 : State) (r : Option State) : mailWrite s1 r = wrote s1 r := by cases r <;> rfl
  have hflag {n : Nat} (h : c.cmd = n) : (c.cmd == n) = true := beq_iff_eq.2 h
  have selects {n : Nat} (h : a 0 = n) (hcmd : c.cmd = 0x35) : (c.cmd == 0x35 && mailArg c 0 == n) = true :=
    and_of_both (hflag hcmd) (beq_iff_eq.2 h)
  have zero (h : a 3 = 0) : (mailArg c 0 == 3 || mailArg c 3 == 0) = true := (Bool.or_eq_true ..).mpr (.inr (beq_iff_eq.2 h))
  have hroot (h : rootFits) : rootOk (mailArg c 1) = true := (rootOk_iff _).2 h
  have hnoroot (h : ¬ rootFits) : rootOk (mailArg c 1) = false := Bool.eq_false_iff.2 fun e => h ((rootOk_iff _).1 e)
  refine ⟨?_, ?_, ?_, ?_, ?_, ?_, ?_, ?_, ?_, ?_, ?_, ?_, ?_, ?_, ?_, ?_, ?_, ?_, ?_, ?_, ?_, ?_, ?_, ?_, ?_, ?_⟩
  · exact fun hstage hcmd hlen hpayload => mail_anyone (i := .cert c) (execCert.eq_def c s) hflag hstage hcmd hlen hpayload
  · intro hstage hcmd hlen hpayload
    refine (mail_anyone (i := .takeown c) (execTakeown.eq_def c s) hflag hstage hcmd hlen hpayload).trans (congrArg Host.Outcome.next ?_)
    by_cases hkey : s.ownkey ≠ 0
    · rw [if_pos hkey, if_pos (show sc.ownkey ≠ 0 from hkey)]
      rfl
    · rw [if_neg hkey, if_neg (show ¬ sc.ownkey ≠ 0 from hkey), mailArgs_eq]
      rfl
  · exact mail_admitted (execSetfeat.eq_def c s) hflag rfl rfl rfl nofun
  · intro hpos hdom hfits hap
    refine mail_admitted (execMkdom.eq_def c s) hflag rfl
      (and_of_both (and_of_both (and_of_both (decide_eq_true hpos) (domOk_of_lt hdom)) (hroot hfits)) (decide_eq_true hap)) ?_ nofun
    rw [mailArgs_eq, bit_flag (n := mailArg c 2) hap]
    rfl
  · exact fun hdom => mail_admitted (execRmdom.eq_def c s) hflag rfl (domOk_of_lt hdom) rfl nofun
  · intro hdom hfits hover
    refine mail_admitted (act' := fun s => mailDone ((s.setRoot (a 0) (w 1)).dropFramesIn (a 0) [allExtent] none) []) ?_ hflag rfl
      (and_of_both (domOk_of_lt hdom) (hroot hfits)) rfl nofun
    refine congrArg (mailEvent _ s) (if_neg fun h => ?_)
    exact absurd (hover.symm.trans h.2.2) (by decide)
  · intro hdom hfits hpending hstage hcmd hlen hpayload htenant hkey hseq
    exact setroot_waits hstage hcmd hlen hpayload (domOk_of_lt hdom) (hroot hfits) htenant hkey hseq hpending
  · intro hfits hkey hseq hstage fails
    refine ⟨fun hcmd howner => ?_, fun hcmd htenant hdom => ?_⟩
    · have hrule : Signer.owner.admits c.signer = true := by simp [Signer.admits, howner]
      obtain ⟨n, hn, hstatus⟩ := mail_malformed (words := 7) (act := fun s =>
        if (s.domain (a 0)).v then mailRefused s
        else mailDone (s.makeDomain (a 0) (w 1) (bit (a 2) 0) (keyOf (mailArgs c 3 4)))
          (digestBytes ((s.makeDomain (a 0) (w 1) (bit (a 2) 0) (keyOf (mailArgs c 3 4))).domain (a 0)).dmeas))
        hkey hseq hstage hrule nofun
      refine ⟨n, ((congrArg Host.Outcome.next (if_pos (hflag hcmd))).trans ?_).trans (congrArg Host.Outcome.next hn), hstatus⟩
      rw [hnoroot hfits, Bool.and_false, Bool.false_and]
      rfl
    · have hrule : (Signer.tenant [a 0]).admits c.signer = true := by
        have hne : c.signer ≠ 0xFFFF := by omega
        simp [Signer.admits, htenant, hne]
      obtain ⟨n, hn, hstatus⟩ := mail_malformed (words := 2) (act := fun s =>
        mailDone ((s.setRoot (a 0) (w 1)).dropFramesIn (a 0) [allExtent] none) []) hkey hseq hstage hrule nofun
      refine ⟨n, ((congrArg Host.Outcome.next (if_pos (hflag hcmd))).trans ?_).trans (congrArg Host.Outcome.next hn), hstatus⟩
      rw [hnoroot hfits, Bool.and_false]
      refine congrArg Host.Outcome.next (if_neg fun h => ?_)
      simp [State.mailFailures] at h
  · intro hn hok
    have hsigner : entrySigners (bits (entWd (mailArgs c 1 3) 2) 15 0) (s.aperV (a 0)) (s.aperDom (a 0)) =
        entry (a 3 % 2 ^ 16) (s.aperV (a 0)) (s.aperDom (a 0)) := by
      rw [bits_dom]
      rfl
    refine mail_admitted (execSetaper.eq_def c s) hflag hsigner (and_of_both (decide_eq_true hn) ((congrArg aperOk (hwords 3)).trans hok))
      ?_ nofun
    rw [hwords]
    exact hwrote _ _
  · intro hn hok
    refine mail_admitted (execSetqueue.eq_def c s) hflag ?_ (and_of_both (decide_eq_true hn) ((congrArg queueOk (hwords 4)).trans hok))
      ?_ nofun
    · rw [hwords]
      rfl
    · rw [hwords]
      exact hwrote _ _
  · intro hn hok
    refine mail_admitted (execSetedt.eq_def c s) hflag ?_ (and_of_both (decide_eq_true hn) ((congrArg edtOk (hwords 2)).trans hok))
      ?_ nofun
    · rw [hwords]
      rfl
    · rw [hwords, bit_eq_testBit]
      exact ite_not_eq fun hen => hwrote _ _
  · intro hn hok
    refine mail_admitted (execSetfdt.eq_def c s) hflag ?_ (and_of_both (decide_eq_true hn) ((congrArg fdtOk (hwords 4)).trans hok))
      ?_ nofun
    · rw [hwords]
      rfl
    · rw [hwords]
      rfl
  · intro hn hdom hv hal hcanon
    have hsdom : bits (mailArg c 1) 15 0 = a 1 % 2 ^ 16 := bits_dom _
    have hbit : bit (mailArg c 1) 16 = decide (2 ^ 16 ≤ a 1) := by
      have hlt : mailArg c 1 < 2 ^ 17 := hv
      have ha : a 1 = mailArg c 1 := rfl
      rw [ha, bit, beq_eq_decide]
      exact decide_eq_decide.2 (by omega)
    have hrest : bits (mailArg c 1) 63 17 = 0 := by
      have hlt : mailArg c 1 < 2 ^ 17 := hv
      simp only [bits]
      omega
    refine mail_admitted (execSetep.eq_def c s) hflag ?_ (and_of_both (and_of_both (and_of_both (and_of_both (decide_eq_true hn) ?_) ?_) ?_)
      hcanon) ?_ nofun
    · rw [hsdom]
      rfl
    · rw [hsdom]
      exact domOk_of_lt hdom
    · exact beq_iff_eq.2 hrest
    · exact beq_iff_eq.2 hal
    · have hwork : ((s.commanded c).acceptSeq c).endpoint (mailArg c 0) = s.endpoint (mailArg c 0) := endpoint_accepted ..
      have hepd : w64 (mailArg c 2) = w 2 := (BitVec.ofNat_toNat ..).trans (BitVec.setWidth_eq _)
      rw [hsdom, hbit, bit_eq_testBit, hepd, ← hwork]
      exact if_congr (by simp [show mailArg c 0 = a 0 from rfl]) rfl rfl
  · intro hn hsel hv
    refine mail_admitted (execSetcarveTarget.eq_def c s) (fun hcmd => and_of_both (hflag hcmd) (beq_iff_eq.2 hsel)) rfl
      (and_of_both (decide_eq_true hn) (decide_eq_true hv)) ?_ nofun
    exact carve_answers ..
  · intro hn hsel hv hslot hown
    have ha : mailArg c 2 = a 2 := rfl
    have hlow : bits (mailArg c 2) 6 0 = a 2 % 2 ^ 16 := by simp only [ha, bits]; omega
    have howner : bits (mailArg c 2) 31 16 = a 2 / 2 ^ 16 := by simp only [ha, bits]; omega
    have h15 : bits (mailArg c 2) 15 7 = 0 := by simp only [ha, bits]; omega
    have h63 : bits (mailArg c 2) 63 32 = 0 := by simp only [ha, bits]; omega
    refine mail_admitted (execSetcarveCarvedom.eq_def c s) (fun hcmd => and_of_both (hflag hcmd) ?_) rfl
      (and_of_both (and_of_both (and_of_both (and_of_both (decide_eq_true hn) (beq_iff_eq.2 hsel)) (beq_iff_eq.2 h15)) (beq_iff_eq.2 h63)) ?_)
      ?_ nofun
    · exact bne_iff_ne.2 fun h => absurd (hsel.symm.trans h) (by decide)
    · rw [howner]
      exact ownerOk_of hown
    · rw [hlow, howner]
      rfl
  · intro hcore hseg hown
    exact mail_admitted (execSetspdom.eq_def c s) hflag rfl
      (and_of_both (and_of_both (decide_eq_true hcore) (decide_eq_true hseg)) (ownerOk_of hown)) rfl nofun
  · intro hd hn hown
    refine mail_admitted (execSetsoldom.eq_def c s) hflag rfl (and_of_both (and_of_both (decide_eq_true hd) ?_) (ownerOk_of hown)) rfl nofun
    exact (Bool.or_eq_true ..).mpr (hn.imp beq_iff_eq.2 decide_eq_true)
  · exact fun hal => mail_admitted (execSetgtbase.eq_def c s) hflag rfl (beq_iff_eq.2 hal) rfl nofun
  · intro hd
    refine mail_admitted (execSetcoreoff.eq_def c s) hflag rfl (decide_eq_true hd) ?_ nofun
    rw [upto_zero_eq_range]
    rfl
  · intro h1 h3 hreg
    refine mail_admitted (execSetmgmtHalted.eq_def c s) (selects hreg) rfl (and_of_both (beq_iff_eq.2 h1) (zero h3)) ?_ nofun
    exact (hwrote _ _).trans (leaveHalt_cases ..)
  · intro hlo hhi h3 hreg
    exact mail_admitted (execSetmgmtReqto.eq_def c s) (selects hreg) rfl
      (and_of_both (and_of_both (decide_eq_true hlo) (decide_eq_true hhi)) (zero h3)) rfl nofun
  · intro hlo hhi h3 hreg
    exact mail_admitted (execSetmgmtHostto.eq_def c s) (selects hreg) rfl
      (and_of_both (and_of_both (decide_eq_true hlo) (decide_eq_true hhi)) (zero h3)) rfl nofun
  · intro h1 hdie hcounter hreg
    refine mail_admitted (execSetmgmtErrorCounter.eq_def c s) (selects hreg) rfl
      (and_of_both (and_of_both (and_of_both (beq_iff_eq.2 h1) (decide_eq_true hdie)) (decide_eq_true hcounter)) ?_) rfl nofun
    exact (Bool.or_eq_true ..).mpr (.inl (beq_iff_eq.2 hreg))
  · intro h1 hentry h3 hreg
    refine mail_admitted (execSetmgmtHold.eq_def c s) (fun hcmd => and_of_both (hflag hcmd) (decide_eq_true (Nat.le_of_eq hreg.symm))) rfl
      (and_of_both (and_of_both (and_of_both (beq_iff_eq.2 hreg) (beq_iff_eq.2 h1)) (decide_eq_true hentry)) (zero h3)) rfl nofun
  · intro hcode hstage
    exact (congrArg Host.Outcome.next (if_pos (by simpa using hcode))).trans (congrArg Host.Outcome.next (if_pos hstage))
  · intro hkey hold hi
    exact mailbox_of_old_command hkey hold i hi

end Sys2Proof.Proofs

/-! PROOF. PLACEQ (13 R297): the two words it answers for an address. -/
namespace Sys2Proof.Proofs
open Sys2Proof.Machine Sys2Proof.Laws

/-- The fill of PLACEQ's pair. -/
def pairFill (d : PairReg) (p q : Word) : Fill :=
  { regs := [(2 * d.toNat, p), (2 * d.toNat + 1, q)], flags := 0, float := false, req := none, bad := none }

/-- PLACEQ that waits for no table fills its pair with what it finds. -/
theorem placeq_fills {s : State} {t : Thread} {d : PairReg} {a : Reg} {p q : Word} (hgoes : s.placeWaits t (t.rd a.toNat).toNat = false)
    (hquery : s.placeQuery t (t.rd a.toNat).toNat = .pair p q) : Fills s t (.placeq d a) (pairFill d p q) := by
  refine fills_of_retire (execPlaceq.eq_def d a s) ?_
  simp only [hgoes, hquery]
  rfl

section
variable {s : State} {t : Thread} {va : Nat}

theorem placeQuery_of_nonCanonical (h : canonical va = false) : s.placeQuery t va = .pair 0 (1#64 <<< 32) := by
  rw [State.placeQuery, if_pos (by simp [h])]
  rfl

theorem placeQuery_of_window (h : canonical va = true) (hw : inWindow va = true) : s.placeQuery t va = .pair 0 (2#64 <<< 32) := by
  rw [State.placeQuery, if_neg (by simp [h]), if_pos hw]
  rfl

theorem placeQuery_of_held {e : TlbEnt} (h : canonical va = true) (hw : inWindow va = false) (htlb : s.tlbFind t.core t.id.sdom va = some e) :
    s.placeQuery t va = s.placeLeaf (dieOf t.core) t.id.sdom va e.leaf := by
  simp only [State.placeQuery, h, hw, htlb, Bool.not_true, Bool.false_eq_true, if_false]

/-- An address whose walk ends in a fault. -/
theorem placeQuery_of_fault {f : Flt} (h : canonical va = true) (hw : inWindow va = false) (htlb : s.tlbFind t.core t.id.sdom va = none)
    (hwalk : s.walkOnce (dieOf t.core) t.id.sdom va .load = .error f) :
    (f.cause = .pageNotPresent → s.placeQuery t va = placeStatus 3 (f.detail % 5)) ∧
    (f.cause = .pageInvalid → s.placeQuery t va = placeStatus 4 (f.detail % 5)) ∧
    (f.cause = .geometry → s.placeQuery t va = placeStatus 5 (f.detail % 5)) := by
  simp only [State.placeQuery, h, hw, htlb, hwalk, Bool.not_true, Bool.false_eq_true, if_false]
  exact ⟨fun hc => by rw [hc], fun hc => by rw [hc], fun hc => by rw [hc]⟩

end

/-- The word of a page of HBM whose byte lies in range and which its carve's owner admits (13 R294, R297). -/
theorem placeLeaf_of_hbm {s : State} {die sdom va : Nat} {e : Word} (htrans : Leaf.trans e = false)
    (hrange : (s.spot (s.geo die (Leaf.gidx e)) (Leaf.place e va)).inRange = true)
    (hcarve : s.carveAdmits sdom (s.spot (s.geo die (Leaf.gidx e)) (Leaf.place e va)) = true) :
    s.placeLeaf die sdom va e = .pair (placeWord (Leaf.place e va) (Leaf.gidx e) false)
      (placeAttr (s.geo die (Leaf.gidx e)) e (Leaf.place e va) (s.spot (s.geo die (Leaf.gidx e)) (Leaf.place e va)) true) := by
  simp only [State.placeLeaf, State.locOf, htrans, Bool.false_eq_true, if_false, hrange, hcarve, Bool.and_self, if_true]

/-- The second word PLACEQ answers for a byte of HBM in range, field by field (13 R297). -/
theorem placeAttr_of_hbm {geo : Word} (h : Geo.tier geo = 0) (e : Word) (p : Nat) (sp : Spot) :
    placeAttr geo e p sp true = BitVec.ofNat 64 (sp.die + homeSlice p * 2 ^ 3 + sp.unit % 16 * 2 ^ 9 + hbmChannel geo p * 2 ^ 13 +
      Leaf.cls e * 2 ^ 20 + Leaf.apl e * 2 ^ 22 + (if Leaf.sync e then 2 ^ 24 else 0) + ((if Leaf.r e then 1 else 0) +
      (if Leaf.w e then 2 else 0) + (if Leaf.x e then 4 else 0)) * 2 ^ 25 + Leaf.size e * 2 ^ 28 +
      (if Leaf.size e = 2 then 3 else 4) * 2 ^ 40) := by
  simp only [placeAttr, h, b2n, mul_ite, ite_mul, mul_zero, zero_mul, one_mul, mul_one, true_or, true_and, if_true, add_zero, w64, leafLevel]

theorem placeWord_of_stable (p gidx : Nat) : placeWord p gidx false = BitVec.ofNat 64 (p % 2 ^ 52 + gidx % 1024 * 2 ^ 52 + 2 ^ 63) := by
  simp only [placeWord, b2n, Bool.false_eq_true, if_false, zero_mul, add_zero, w64]

/-- Settles O35: PLACEQ by the stage at which its translation ends. -/
theorem placeQueries : Obligations.PlaceQueries := by
  intro s t d a e f va fill l geo p spot status
  refine ⟨fun hno => ?_, fun hcanon hwin => ?_, fun hcanon hwin htlb htrans htier hrange hcarve => ?_,
    fun hcanon hwin htlb hwaits hwalk => ?_⟩
  · exact placeq_fills (by simp [State.placeWaits, va, hno] at hno ⊢) (placeQuery_of_nonCanonical hno)
  · have hgoes : s.placeWaits t va = false := by simp [State.placeWaits, hwin]
    exact placeq_fills hgoes (placeQuery_of_window hcanon hwin)
  · have hgoes : s.placeWaits t va = false := by simp [State.placeWaits, htlb]
    have hquery := (placeQuery_of_held hcanon hwin htlb).trans (placeLeaf_of_hbm htrans hrange hcarve)
    rw [placeAttr_of_hbm htier, placeWord_of_stable] at hquery
    exact placeq_fills hgoes hquery
  · have hgoes : s.placeWaits t va = false := by simp [State.placeWaits, hwaits]
    obtain ⟨hnone, hinvalid, hgeo⟩ := placeQuery_of_fault hcanon hwin htlb hwalk
    exact ⟨fun hc => placeq_fills hgoes (hnone hc), fun hc => placeq_fills hgoes (hinvalid hc), fun hc => placeq_fills hgoes (hgeo hc)⟩

end Sys2Proof.Proofs

/-! PROOF. GTSYNC (13 R300) and TLBINV (13 R299; 05 R125): what each drops, and how each completes. -/
namespace Sys2Proof.Proofs
open Sys2Proof.Machine Sys2Proof.Laws

/-! What a word reads at once (11 R240; 12 R261). -/

/-- The bytes of an unpoisoned word that is no context line, as its thread sees them. -/
theorem loaded_of_memory {s : State} {t : Thread} {g : Target} {va n : Nat} (hline : s.lineAt g.pa = none)
    (hclean : s.viewPoison t va g.pa n = none) :
    ∃ x, s.loadBytes t va g n = .ok x ∧ s.bytesNow t va n x = (s.seenBytes t g.pa n, none) := by
  have haway : s.bytesNow t va n (.away g.pa none none) = (s.seenBytes t g.pa n, none) := by
    simp only [State.bytesNow, loadAt_of_memory hline, State.loadPoison, hline, hclean]
  cases g with
  | mem l => exact ⟨_, loadBytes_mem hline va n, haway⟩
  | pad c off =>
    by_cases hc : c = t.core
    · subst hc
      refine ⟨_, loadBytes_ownPad s t va off n, ?_⟩
      rw [State.bytesNow, hclean]
    · exact ⟨_, loadBytes_otherPad hc va off n, haway⟩

/-- A thread whose loads are bound sees the bytes it saw. -/
theorem bytesNow_bindLoads (s : State) (t : Thread) (va n : Nat) (x : Loaded) :
    s.bytesNow (s.bindLoads t) va n x = s.bytesNow t va n x := by
  cases x <;> rfl

/-! The end of an instruction that held its thread (16 R351). -/

/-- A thread whose instruction a reply has completed, with the registers it brings. -/
def answered (t : Thread) (regs : List (Nat × Word)) : Thread :=
  { regs.foldl (fun t x => t.wr x.1 x.2) t with pend := none, st := .resident, pc := t.pc + 4 }

/-- A reply to a thread with nothing queued for its boundary completes its instruction and changes nothing else. -/
theorem replyDone_of_settled {s : State} {i : Tid} {t : Thread} (h : s.find i = some t) (hsettled : t.settled = true)
    (regs : List (Nat × Word)) : s.replyDone i regs = s.put (answered t regs) := by
  obtain rfl := find_id h
  have hset : (regs.foldl (fun t x => t.wr x.1 x.2) t).settled = true := (foldl_wr_settled ..).trans hsettled
  have hid : (regs.foldl (fun t x => t.wr x.1 x.2) t).id = t.id := foldl_wr_id ..
  simp only [State.replyDone, h]
  exact boundary_settled (t := answered t regs) (find_put_of_find (u := answered t regs) rfl h hid) hset

/-- Nothing takes effect at the boundary of a thread with an issued instruction incomplete (18 R411). -/
theorem boundary_of_pend {s : State} {i : Tid} {t : Thread} (h : s.find i = some t) (hpend : t.pend.isSome = true) (w : Nat) :
    s.boundary i w = s := by
  simp only [State.boundary, h, hpend, or_true, if_true]

/-! GTSYNC (13 R300). -/

section
variable {s : State} {t : Thread} {a : Reg}

theorem gtsync_privilege (h : t.id.sdom ≠ 0) : Parks s t (.gtsync a) (.plain .privilege 0) :=
  parks_of_fault (execGtsync.eq_def a s) (if_pos h)

theorem wbits_top (w : Word) (k : Nat) (hk : k ≤ 64) : wbits w 63 k ≠ 0 ↔ 2 ^ k ≤ w.toNat := by
  have hfit : w.toNat / 2 ^ k < 2 ^ (64 - k) := by
    rw [Nat.div_lt_iff_lt_mul (Nat.two_pow_pos k), ← pow_add, Nat.sub_add_cancel hk]
    exact w.isLt
  have hexp : 63 + 1 - k = 64 - k := rfl
  rw [wbits, bits, hexp, Nat.mod_eq_of_lt hfit, Nat.ne_zero_iff_zero_lt, Nat.div_pos_iff]
  exact ⟨fun h => h.2, fun h => ⟨Nat.two_pow_pos k, h⟩⟩

theorem gtsync_table (hdom : t.id.sdom = 0) (h : 1024 ≤ (t.rd a.toNat).toNat) :
    Parks s t (.gtsync a) (.plain .tableOperand (t.rd a.toNat)) :=
  parks_of_fault (execGtsync.eq_def a s) ((if_neg (not_not.2 hdom)).trans (if_pos ((wbits_top _ 10 (by decide)).2 h)))

theorem gtsync_holds {g : Target} (hdom : t.id.sdom = 0) (h : (t.rd a.toNat).toNat < 1024)
    (hreach : Reaches s t 8 { ea := (s.gtbase.toNat + 8 * (t.rd a.toNat).toNat : Nat), n := 8, kind := .load, write := false } g)
    (hclean : s.viewPoison t (s.gtbase.toNat + 8 * (t.rd a.toNat).toNat) g.pa 8 = none) :
    Yields s t (.gtsync a) (s.put { t with st := .blocked .empty, iword := wordOf (.gtsync a)
                                           pend := some (.gtsync (t.rd a.toNat).toNat (BitVec.ofNat 64 (s.seen t g.pa 8))) }) := fun hi => by
  have ht := issues_find hi
  obtain ⟨hgoes, hline, -⟩ := id hreach
  obtain ⟨x, hload, hbytes⟩ := loaded_of_memory hline hclean
  have hindex : ¬ wbits (t.rd a.toNat) 63 10 ≠ 0 := fun hno => absurd ((wbits_top _ 10 (by decide)).1 hno) (by omega)
  refine yields_of_ok (execGtsync.eq_def a s) ?_ (find_put_of_find (s := s) rfl ht rfl) rfl hi
  simp only [if_neg (not_not.2 hdom), if_neg hindex, hgoes, syncFrame_of_reaches hreach, again_of_find ht, hload, hbytes]
  rfl

end

theorem die_setDie_get (s : State) (d j : Nat) (x : Die) : (s.setDie d x).die j = if j = d then x else s.die j := get_set s.dies

/-- An entry enters every die's geometry cache (13 R300). -/
theorem geo_setGeo (s : State) (idx : Nat) (e : Word) {die : Nat} (hdie : die < 8) (k : Nat) :
    (s.setGeo idx e).geo die k = if k = idx then e else s.geo die k := by
  have hstep (s : State) (d : Nat) : (s.setDie d { s.die d with gcache := Sparse.set 0 (s.die d).gcache idx e }).geo die k =
      if die = d then (if k = idx then e else s.geo die k) else s.geo die k := by
    rw [State.geo, die_setDie_get]
    split
    next h => rw [h]; exact get_set ..
    next => rfl
  have hfold (l : List Nat) (s' : State) (h : (die ∈ l ∧ s'.geo die k = s.geo die k) ∨ s'.geo die k = if k = idx then e else s.geo die k) :
      (l.foldl (fun s d => s.setDie d { s.die d with gcache := Sparse.set 0 (s.die d).gcache idx e }) s').geo die k =
        if k = idx then e else s.geo die k := by
    induction l generalizing s' with
    | nil => simpa using h
    | cons d l ih =>
      refine ih _ ?_
      rw [hstep]
      by_cases hd : die = d
      · rw [if_pos hd]
        rcases h with ⟨-, h⟩ | h <;> rw [h]
        · exact .inr rfl
        · refine .inr ?_
          split <;> rfl
      · rw [if_neg hd]
        simpa [hd] using h
  exact hfold _ s (.inl ⟨mem_upto.2 (by omega), rfl⟩)

/-- The entry at a key of a list whose values are mapped. -/
theorem get_mapValues {α : Type} {d : α} {f : α → α} (hf : f d = d) (l : List (Nat × α)) (k : Nat) :
    Sparse.get d (l.map (fun x => (x.1, f x.2))) k = f (Sparse.get d l k) := by
  induction l with
  | nil => exact hf.symm
  | cons x l ih =>
    rw [List.map_cons, Sparse.get, Sparse.get, ih]
    split <;> rfl

/-- A core without what it holds for an index. -/
def withoutGeo (idx : Nat) (x : Core) : Core :=
  { x with tlb := x.tlb.filter (fun (e : TlbEnt) => Leaf.gidx e.leaf != idx)
           fresh := x.fresh.filter (fun (f : Fresh) => Leaf.gidx f.leaf != idx) }

theorem core_tlbDropGeo (s : State) (idx core : Nat) : (s.tlbDropGeo idx).core core = withoutGeo idx (s.core core) :=
  get_mapValues (f := withoutGeo idx) rfl s.cores core

/-- No TLB entry names the index (13 R300). -/
theorem tlb_setGeo (s : State) (idx : Nat) (e : Word) (core : Nat) : ∀ x ∈ ((s.setGeo idx e).core core).tlb, Leaf.gidx x.leaf ≠ idx := by
  intro x hx
  rw [State.setGeo, core_tlbDropGeo] at hx
  simpa using (List.mem_filter.1 hx).2

theorem threads_setGeo (s : State) (idx : Nat) (e : Word) : (s.setGeo idx e).threads = s.threads :=
  foldl_threads (f := fun s d => s.setDie d { s.die d with gcache := Sparse.set 0 (s.die d).gcache idx e }) (fun _ _ => rfl) _ s

theorem gtsync_completes {s : State} {i : Tid} {t : Thread} {idx : Nat} {e : Word} (h : s.find i = some t) (hsettled : t.settled = true)
    (hpend : t.pend = some (.gtsync idx e)) : exec (.gtsyncCompletion i) s =
      .next ((s.setGeo idx e).put { t with pend := none, st := .resident, pc := t.pc + 4 }) := by
  show execGtsyncCompletion i s = _
  simp only [execGtsyncCompletion, event, h, hpend]
  exact congrArg _ (replyDone_of_settled ((find_of_threads (threads_setGeo ..) i).trans h) hsettled [])

/-! TLBINV (13 R299; 05 R125). -/

/-- What an invalidation leaves of a core. -/
def coreWithout (sdom : Nat) (l : List (Nat × Nat)) (x : Core) : Core :=
  { x with tlb := x.tlb.filter (fun (e : TlbEnt) => !(e.sdom == sdom && meetsAny l (e.base, e.size)))
           fresh := x.fresh.filter (fun (f : Fresh) => !(f.tid.sdom == sdom && meetsAny l (f.ent.base, f.ent.size))) }

/-- What an invalidation leaves of a die. -/
def dieWithout (sdom : Nat) (l : List (Nat × Nat)) (x : Die) : Die :=
  { x with walks := x.walks.filter (fun (e : WalkEnt) => !(e.sdom == sdom && meetsAny l (e.base, e.size))) }

theorem core_tlbDrop (s : State) (sdom : Nat) (l : List (Nat × Nat)) (c : Nat) :
    (s.tlbDrop sdom l).core c = coreWithout sdom l (s.core c) := get_mapValues (f := coreWithout sdom l) rfl s.cores c

theorem die_tlbDrop (s : State) (sdom : Nat) (l : List (Nat × Nat)) (d : Nat) :
    (s.tlbDrop sdom l).die d = dieWithout sdom l (s.die d) := get_mapValues (f := dieWithout sdom l) rfl s.dies d

theorem again_of_standing {s s' : State} (h : standing s' = standing s) (t : Thread) : s'.again t = s.again t := by
  rw [State.again, find_of_standing h, State.again]

theorem again_again (s : State) (t : Thread) : s.again (s.again t) = s.again t := by
  cases hfind : s.find t.id with
  | none =>
    have hagain : s.again t = t := by rw [State.again, hfind, Option.getD_none]
    rw [hagain, hagain]
  | some v =>
    have hagain : s.again t = v := by rw [State.again, hfind, Option.getD_some]
    rw [hagain, again_of_find (find_id hfind ▸ hfind)]

/-- From s to s' no translation has changed, and no thread has moved. -/
structure Moveless (s s' : State) : Prop where
  cores : s'.cores = s.cores
  dies : s'.dies = s.dies
  pc : ∀ i, (s'.find i).map Thread.pc = (s.find i).map Thread.pc

namespace Moveless
variable {s s1 s2 : State}

theorem refl (s : State) : Moveless s s := ⟨rfl, rfl, fun _ => rfl⟩

theorem trans (h : Moveless s s1) (h' : Moveless s1 s2) : Moveless s s2 :=
  ⟨h'.cores.trans h.cores, h'.dies.trans h.dies, fun i => (h'.pc i).trans (h.pc i)⟩

theorem of_standing (h : standing s1 = standing s) : Moveless s s1 :=
  ⟨cores_of_standing h, dies_of_standing h, fun i => by rw [find_of_standing h]⟩

/-- A thread of the state is replaced by one at its PC. -/
theorem put_again (s : State) (t : Thread) {u : Thread} (hid : u.id = t.id) (hpc : u.pc = (s.again t).pc) : Moveless s (s.put u) := by
  refine ⟨rfl, rfl, fun i => ?_⟩
  by_cases hi : i = u.id
  · subst hi
    cases hfind : s.find u.id with
    | none =>
      have hnone : (s.put u).find u.id = none := by
        rw [find_eq_none_iff, names_put, ← find_eq_none_iff, hfind]
      rw [hnone]
    | some v =>
      have hagain : s.again t = v := by rw [State.again, ← hid, hfind, Option.getD_some]
      rw [find_put (by rw [hfind]; rfl), Option.map_some, Option.map_some, hpc, hagain]
  · rw [find_put_ne hi]

theorem foldl {α : Type} {f : State → α → State} (hf : ∀ s a, Moveless s (f s a)) (l : List α) (s : State) : Moveless s (l.foldl f s) := by
  induction l generalizing s with
  | nil => exact refl s
  | cons a l ih => exact (hf s a).trans (ih _)

theorem map {f : Thread → Thread} (hid : ∀ t, (f t).id = t.id) (hpc : ∀ t, (f t).pc = t.pc) (s : State) :
    Moveless s { s with threads := s.threads.map f } := by
  refine ⟨rfl, rfl, fun i => ?_⟩
  rw [find_mapThreads (s := s) rfl hid, Option.map_map]
  exact Option.map_congr fun t _ => hpc t

theorem dropFrame (s : State) (t : Thread) : Moveless s (s.dropFrame (s.again t)) := by
  unfold State.dropFrame
  split
  · exact refl s
  · have hback : standing (s.writeBack (s.again t) (s.again t).st.code (s.again t).st.sub (s.again t).cached) = standing s :=
      standing_writeBack ..
    refine (of_standing hback).trans (put_again _ (s.again t) rfl ?_)
    rw [again_of_standing hback, again_again]

theorem dropFramesIn (s : State) (sdom : Nat) (l : List (Nat × Nat)) (self : Option Tid) : Moveless s (s.dropFramesIn sdom l self) :=
  foldl dropFrame _ s

end Moveless

/-- Where no store is held, the accesses of a range that are performed are loads, whose values are bound (13 R299). -/
theorem moveless_flushExtents {s : State} (hstores : ∀ u ∈ s.threads, u.stores = []) (hearly : s.early = []) (sdom : Nat)
    (l : List (Nat × Nat)) : Moveless s (s.flushExtents sdom l) := by
  have hnone : s.landEarlyWhere (fun x => x.inExtents sdom l) = s := by
    simp [State.landEarlyWhere, hearly]
  have hbind (s : State) (t : Thread) : Moveless s (s.put (s.bindLoads (s.again t))) :=
    Moveless.put_again s t (Left.again_id s t) rfl
  have hfold (m : List Thread) (hm : ∀ u ∈ m, u.stores = []) (s : State) : Moveless s (m.foldl (fun s t =>
      let s1 := if t.storesIn l then s.drainAll (s.again t) else s
      if t.loadsIn l then s1.put (s1.bindLoads (s1.again t)) else s1) s) := by
    induction m generalizing s with
    | nil => exact Moveless.refl s
    | cons u m ih =>
      have hno : u.storesIn l = false := by rw [Thread.storesIn, hm u List.mem_cons_self, List.any_nil]
      refine Moveless.trans ?_ (ih (fun v hv => hm v (List.mem_cons_of_mem u hv)) _)
      simp only [hno, Bool.false_eq_true, if_false]
      split
      · exact hbind s u
      · exact Moveless.refl s
  rw [State.flushExtents, hnone]
  exact hfold _ (fun u hu => hstores u (List.mem_of_mem_filter hu)) s

theorem moveless_invalidate {s : State} (sdom : Nat) (l : List (Nat × Nat)) (self : Option Tid) :
    Moveless ((s.flushExtents sdom l).tlbDrop sdom l) (s.invalidate sdom l self) := by
  have hmark (s : State) : Moveless s { s with threads := s.threads.map (fun (t : Thread) =>
      if t.frameIn sdom l && t.holdsSlot && some t.id != self then { t with preempt := true } else t) } :=
    Moveless.map (fun t => by split <;> rfl) (fun t => by split <;> rfl) s
  have hgangs (s : State) (gs : List Gang) : Moveless s { s with gangs := gs } := ⟨rfl, rfl, fun _ => rfl⟩
  exact ((hmark _).trans (Moveless.dropFramesIn ..)).trans (hgangs ..)

/-- The range that TLBINV names (13 R299). -/
abbrev tlbinvRange (t : Thread) (a b : Reg) : Nat × Nat := invRange (t.rd a.toNat).toNat (t.rd b.toNat).toNat

section
variable {s : State} {t : Thread} {a b : Reg}

theorem tlbinv_nonCanonical (hb : t.rd b.toNat ≠ 0) (hrange : rangeCanonical (tlbinvRange t a b).1 (tlbinvRange t a b).2 = false) :
    Parks s t (.tlbinv a b) (.plain .nonCanonical (t.rd a.toNat)) :=
  parks_of_fault (execTlbinv.eq_def a b s) (if_pos ⟨hb, hrange⟩)

theorem tlbinv_window (hb : t.rd b.toNat ≠ 0) (hrange : rangeCanonical (tlbinvRange t a b).1 (tlbinvRange t a b).2 = true)
    (hwin : inWindow (tlbinvRange t a b).1 = true) : Completes s t (.tlbinv a b) t := by
  refine completes_of_retire (execTlbinv.eq_def a b s) ((if_neg fun h => ?_).trans (if_pos ⟨hb, hwin⟩)) rfl rfl rfl
  exact absurd (hrange.symm.trans h.2) (by decide)

/-- TLBINV drops its range and holds its thread. -/
theorem tlbinv_holds (hrange : t.rd b.toNat ≠ 0 → rangeCanonical (tlbinvRange t a b).1 (tlbinvRange t a b).2 = true ∧
      inWindow (tlbinvRange t a b).1 = false)
    (hstores : ∀ u ∈ s.threads, u.stores = []) (hearly : s.early = []) (hfresh : s.freshOf t = []) (hi : Issues s t (.tlbinv a b)) :
    ∃ s' u, exec (.tlbinv a b) s = .next s' ∧ s'.find t.id = some u ∧ u.pc = t.pc ∧ u.st = .blocked .empty ∧
      Moveless (s.tlbDrop t.id.sdom (s.tlbExtents t.id.sdom (tlbinvRange t a b))) s' := by
  obtain ⟨l, hl⟩ : ∃ l, l = s.tlbExtents t.id.sdom (tlbinvRange t a b) := ⟨_, rfl⟩
  rw [← hl]
  obtain ⟨s1, hs1⟩ : ∃ s1, s1 = s.invalidate t.id.sdom l (some t.id) := ⟨_, rfl⟩
  have hflush := moveless_flushExtents hstores hearly t.id.sdom l
  have hdropped : Moveless (s.tlbDrop t.id.sdom l) ((s.flushExtents t.id.sdom l).tlbDrop t.id.sdom l) :=
    ⟨by rw [State.tlbDrop, hflush.cores]; rfl, by rw [State.tlbDrop, hflush.dies]; rfl, hflush.pc⟩
  have hmove : Moveless (s.tlbDrop t.id.sdom l) s1 := hs1 ▸ hdropped.trans (moveless_invalidate ..)
  have hpc := hmove.pc t.id
  have ht : (s.tlbDrop t.id.sdom l).find t.id = some t := (find_of_threads (s := s) rfl t.id).trans (issues_find hi)
  rw [ht, Option.map_some] at hpc
  obtain ⟨v, hv, hvpc⟩ := Option.map_eq_some_iff.1 hpc
  have hvid : v.id = t.id := find_id hv
  obtain ⟨u, hu⟩ : ∃ u : Thread, u = { v with st := .blocked .empty, pend := some (.tlbinv l), iword := wordOf (.tlbinv a b) } := ⟨_, rfl⟩
  have huid : u.id = t.id := by rw [hu]; exact hvid
  have hufind : (s1.put u).find t.id = some u := find_put_of_find rfl hv huid
  have hagain : s1.again t = v := by rw [State.again, hv, Option.getD_some]
  refine ⟨s1.put u, u, ?_, hufind, by rw [hu]; exact hvpc, by rw [hu], hmove.trans (Moveless.put_again s1 t huid ?_)⟩
  · obtain ⟨hcur, hgate, -⟩ := id hi
    have hgood : ¬ (t.rd b.toNat ≠ 0 ∧ rangeCanonical (tlbinvRange t a b).1 (tlbinvRange t a b).2 = false) := fun h =>
      absurd ((hrange h.1).1.symm.trans h.2) (by decide)
    have hout : ¬ (t.rd b.toNat ≠ 0 ∧ inWindow (tlbinvRange t a b).1 = true) := fun h =>
      absurd ((hrange h.1).2.symm.trans h.2) (by decide)
    have hboundary : (s1.put u).boundary t.id (wordOf (.tlbinv a b)) = s1.put u := boundary_of_pend hufind (by rw [hu]; rfl) _
    show execTlbinv a b s = _
    simp only [execTlbinv, word, hcur, hgate, if_neg hgood, if_neg hout, hfresh, ← hl, ← hs1, hagain, ← hu, State.commitFresh, hboundary]
  · rw [hagain, hu]

end

/-! TLBINV_COMPLETION (13 R299; 05 R125). -/

/-- A thread whose frame has been dropped. -/
def dropped (t : Thread) : Thread := if t.placed.isSome then { t with placed := none, snap := t.frameWords } else t

theorem dropped_placed (t : Thread) : (dropped t).placed = none := by
  unfold dropped
  split
  next => rfl
  next h => simpa using h

theorem dropped_dropped (t : Thread) : dropped (dropped t) = dropped t := by
  rw [dropped, if_neg (by rw [dropped_placed]; decide)]

theorem dropped_id (t : Thread) : (dropped t).id = t.id := by
  unfold dropped
  split <;> rfl

theorem find_dropFrame (s : State) (t : Thread) (j : Tid) :
    (s.dropFrame (s.again t)).find j = if j = t.id then (s.find j).map dropped else s.find j := by
  cases hplaced : (s.again t).placed with
  | none =>
    simp only [State.dropFrame, hplaced]
    split
    next hj =>
      cases hfind : s.find j with
      | none => rfl
      | some v =>
        have hagain : s.again t = v := by rw [State.again, ← hj, hfind, Option.getD_some]
        rw [Option.map_some, dropped, if_neg (by rw [← hagain, hplaced]; decide)]
    next => rfl
  | some l =>
    have hback : standing (s.writeBack (s.again t) (s.again t).st.code (s.again t).st.sub) = standing s := standing_writeBack ..
    have hid : (dropped (s.again t)).id = t.id := (dropped_id _).trans (Left.again_id s t)
    have hdrop : s.dropFrame (s.again t) =
        (s.writeBack (s.again t) (s.again t).st.code (s.again t).st.sub).put (dropped (s.again t)) := by
      simp only [State.dropFrame, hplaced, dropped, Option.isSome_some, if_true]
    rw [hdrop]
    split
    next hj =>
      subst hj
      cases hfind : s.find t.id with
      | none =>
        rw [Option.map_none, find_eq_none_iff, names_put, ← find_eq_none_iff, find_of_standing hback, hfind]
      | some v =>
        have hagain : s.again t = v := by rw [State.again, hfind, Option.getD_some]
        rw [find_put_of_find (threads_of_standing hback) hfind hid, Option.map_some, hagain]
    next hj => rw [find_put_ne (by rw [hid]; exact hj), find_of_standing hback]

/-- Frames that are dropped leave their threads, and the others stay as they are. -/
theorem find_foldl_dropFrame (l : List Thread) (s : State) (j : Tid) :
    (l.foldl (fun s t => s.dropFrame (s.again t)) s).find j = if j ∈ l.map (·.id) then (s.find j).map dropped else s.find j := by
  induction l generalizing s with
  | nil => simp
  | cons t l ih =>
    rw [List.foldl_cons, ih, find_dropFrame, List.map_cons]
    by_cases hj : j = t.id
    · have hmem : j ∈ t.id :: l.map (·.id) := hj ▸ List.mem_cons_self
      rw [if_pos hj, if_pos hmem]
      split
      · rw [Option.map_map]
        exact Option.map_congr fun v _ => dropped_dropped v
      · rfl
    · rw [if_neg hj]
      simp only [List.mem_cons, hj, false_or]

/-- Whether a frame lies in extents depends on the name of its thread alone (05 R110). -/
theorem frameIn_of_id {t u : Thread} (h : u.id = t.id) (sdom : Nat) (l : List (Nat × Nat)) : u.frameIn sdom l = t.frameIn sdom l := by
  rw [Thread.frameIn, Thread.frameExtent, h]
  rfl

section
variable {s : State} {i : Tid} {t : Thread} {l : List (Nat × Nat)} (h : s.find i = some t) (hpend : t.pend = some (.tlbinv l))
include h hpend

theorem tlbinvCompletion_waits (hno : s.invalidated i.sdom l (some i) = false) : exec (.tlbinvCompletion i) s = .next s := by
  show execTlbinvCompletion i s = _
  simp only [execTlbinvCompletion, event, h, hpend, hno, Bool.false_eq_true, if_false]

/-- TLBINV completes for a thread whose own frame lies outside the range. -/
theorem tlbinvCompletion_done (hsettled : t.settled = true) (hover : s.invalidated i.sdom l (some i) = true)
    (hframe : t.frameIn i.sdom l = false) :
    exec (.tlbinvCompletion i) s = .next ((s.dropFramesIn i.sdom l (some i)).put (answered t [])) := by
  have hid := find_id h
  have hstays : (s.dropFramesIn i.sdom l (some i)).find i = some t := by
    rw [State.dropFramesIn, find_foldl_dropFrame, if_neg, h]
    simp
  have hreply := replyDone_of_settled hstays hsettled []
  have hfind : ((s.dropFramesIn i.sdom l (some i)).put (answered t [])).find i = some (answered t []) :=
    find_put_of_find (u := answered t []) rfl hstays hid
  have hout : (answered t []).frameIn i.sdom l = false := hframe
  show execTlbinvCompletion i s = _
  simp only [execTlbinvCompletion, event, h, hpend, hover, if_true, hreply, hfind, hout, Bool.false_eq_true, if_false]

end

/-- An entry of the domain that an invalidation leaves meets none of its extents, and it leaves every other. -/
theorem dropped_entry {d sdom : Nat} {l : List (Nat × Nat)} {x : Nat × Nat} (h : (!(d == sdom && meetsAny l x)) = true) (hdom : d = sdom) :
    meetsAny l x = false := by
  simpa [hdom] using h

theorem kept_entry {d sdom : Nat} {l : List (Nat × Nat)} {x : Nat × Nat} (hdom : d ≠ sdom) : (!(d == sdom && meetsAny l x)) = true := by
  simp [hdom]

/-- Settles O36: what each drops, when each waits, and what its completion leaves. -/
theorem translationUpkeep : Obligations.TranslationUpkeep := by
  refine ⟨?_, ?_⟩
  · intro s t a g i idx die core e va
    refine ⟨gtsync_privilege, gtsync_table, fun hdom hidx hreach hclean => gtsync_holds hdom hidx hreach hclean,
      fun h hsettled hpend hdie => ⟨_, gtsync_completes h hsettled hpend, ?_, fun k hk => ?_, tlb_setGeo s idx e core, ?_⟩⟩
    · exact (geo_setGeo s idx e hdie idx).trans (if_pos rfl)
    · exact (geo_setGeo s idx e hdie k).trans (if_neg hk)
    · exact find_put_of_find (u := answered t []) (threads_setGeo ..) h (find_id (t := t) h)
  · intro s t a b i l core die r
    have hr : tlbinvRange t a b = r := by
      unfold tlbinvRange invRange
      by_cases hb : t.rd b.toNat = 0
      · rw [if_pos (by rw [hb]; rfl)]
        exact (if_pos hb).symm
      · have hb0 : ¬ (t.rd b.toNat).toNat = 0 := fun h0 => hb (BitVec.eq_of_toNat_eq h0)
        rw [if_neg hb0]
        exact (if_neg hb).symm
    refine ⟨fun hb hrange => tlbinv_nonCanonical hb (hr ▸ hrange), fun hb hrange hwin => tlbinv_window hb (hr ▸ hrange) (hr ▸ hwin),
      fun hrange hstores hearly hfresh hi => ?_, fun h hpend hno => tlbinvCompletion_waits h hpend hno,
      fun h hsettled hpend hover hframe => ?_⟩
    · obtain ⟨s', u, hexec, hfind, hpc, hst, hmove⟩ := tlbinv_holds (hr ▸ hrange) hstores hearly hfresh hi
      have hcore : s'.core core = coreWithout t.id.sdom (s.tlbExtents t.id.sdom (tlbinvRange t a b)) (s.core core) := by
        rw [State.core, hmove.cores]
        exact core_tlbDrop ..
      have hdie : s'.die die = dieWithout t.id.sdom (s.tlbExtents t.id.sdom (tlbinvRange t a b)) (s.die die) := by
        rw [State.die, hmove.dies]
        exact die_tlbDrop ..
      have hmeets (x : Nat × Nat) (hx : meetsAny (s.tlbExtents t.id.sdom (tlbinvRange t a b)) x = false) : meets x r = false := by
        exact Bool.eq_false_iff.2 (List.any_eq_false.1 hx r (hr ▸ List.mem_cons_self))
      refine ⟨s', u, hexec, hfind, hpc, hst, ?_, ?_, ?_, ?_⟩
      · rw [hcore]
        exact fun x hx hdom => hmeets _ (dropped_entry (List.mem_filter.1 hx).2 hdom)
      · rw [hcore]
        exact fun x hx hdom => List.mem_filter.2 ⟨hx, kept_entry hdom⟩
      · rw [hdie]
        exact fun x hx hdom => hmeets _ (dropped_entry (List.mem_filter.1 hx).2 hdom)
      · rw [hdie]
        exact fun x hx hdom => List.mem_filter.2 ⟨hx, kept_entry hdom⟩
    · have hid := find_id h
      obtain ⟨s1, hs1⟩ : ∃ s1, s1 = s.dropFramesIn i.sdom l (some i) := ⟨_, rfl⟩
      have hdrops (j : Tid) : s1.find j = if j ∈ ((s.threads.filter (fun t => t.frameIn i.sdom l && t.placed.isSome &&
          (!t.holdsSlot || t.invalidating) && some t.id != some i)).map (·.id)) then (s.find j).map dropped else s.find j :=
        hs1 ▸ find_foldl_dropFrame ..
      have hself : s1.find i = some t := by
        rw [hdrops, if_neg, h]
        simp
      have hothers {j : Tid} (hj : j ≠ i) : (s1.put (answered t [])).find j = s1.find j :=
        find_put_ne (t := answered t []) (fun e => hj (e.trans hid))
      refine ⟨_, hs1 ▸ tlbinvCompletion_done h hpend hsettled hover hframe, find_put_of_find (u := answered t []) rfl hself hid,
        fun u hu hout hne hfind => ?_, fun u hu hin hslot => ?_⟩
      · rw [hothers hne, hdrops, if_neg, hfind]
        intro hmem
        obtain ⟨v, hv, hvid⟩ := List.mem_map.1 hmem
        have hvin := (List.mem_filter.1 hv).2
        rw [frameIn_of_id hvid, hout] at hvin
        simp at hvin
      · have hne : u.id ≠ i := fun e => by
          rw [frameIn_of_id (e.trans hid.symm), hframe] at hin
          exact absurd hin (by decide)
        rw [hothers hne, hdrops] at hu
        split at hu
        next =>
          obtain ⟨v, -, rfl⟩ := Option.map_eq_some_iff.1 hu
          exact dropped_placed v
        next hno =>
          by_contra hplaced
          refine hno (List.mem_map.2 ⟨u, List.mem_filter.2 ⟨mem_of_find hu, ?_⟩, rfl⟩)
          have hsome := Option.isSome_iff_ne_none.2 hplaced
          simp [hin, hsome, Thread.holdsSlot, hslot, hne]

end Sys2Proof.Proofs

/-! PROOF. What the ends of waits leave queued for a thread's boundary: nothing (16 R361; 09 R197, R198; 18 R411). -/
namespace Sys2Proof.Proofs
open Sys2Proof.Machine Sys2Proof.Laws

/-- Nothing is queued for the boundary of the thread of a name. -/
structure Quiescent (i : Tid) (u : Thread) : Prop where
  settled : u.id = i → u.settled = true

theorem Quiescent.of_eq {i : Tid} {t u : Thread} (h : Quiescent i t) (hid : u.id = t.id) (hsettled : u.settled = t.settled) :
    Quiescent i u := ⟨fun hu => hsettled.trans (h.settled (hid.symm.trans hu))⟩

structure Restful (i : Tid) (s : State) : Prop where
  quiet : ∀ u ∈ s.threads, Quiescent i u

/-- A thread whose wait the device ends, but for the move of 02 R32 (16 R360). -/
def waitDone (t : Thread) (regs : List (Nat × Word)) : Thread :=
  let t1 := (regs.foldl (fun t x => t.wr x.1 x.2) t).noted ([0, 6, 7] ++ regs.map (fun x => 16 + x.1))
  { t1 with pc := t1.pc + 4, waitarg := 0, deadline := w64 (2 ^ 64 - 1), cond := none }

theorem completeWait_eq (s : State) (t : Thread) (regs : List (Nat × Word)) : s.completeWait t regs = s.endWaitMove (waitDone t regs) := rfl

theorem waitDone_id (t : Thread) (regs : List (Nat × Word)) : (waitDone t regs).id = t.id := (noted_id ..).trans (foldl_wr_id ..)

@[simp] theorem noted_settled (t : Thread) (l : List Nat) : (t.noted l).settled = t.settled := by
  unfold Thread.noted
  split <;> rfl

namespace Restful
variable {i : Tid} {s : State}

theorem of_threads {s' : State} (h : Restful i s) (hs : s'.threads = s.threads) : Restful i s' := ⟨fun u hu => h.quiet u (hs ▸ hu)⟩

theorem put {w : Thread} (h : Restful i s) (hw : Quiescent i w) : Restful i (s.put w) where
  quiet u hu := by
    obtain rfl | ⟨hu, -⟩ := mem_put_threads hu
    · exact hw
    · exact h.quiet u hu

theorem foldl {f : State → Thread → State} (hf : ∀ s u, Restful i s → Quiescent i u → Restful i (f s u)) {l : List Thread}
    (hl : ∀ u ∈ l, Quiescent i u) (h : Restful i s) : Restful i (l.foldl f s) :=
  List.foldlRecOn (motive := Restful i) l f h fun s hs u hu => hf s u hs (hl u hu)

theorem completeWait (h : Restful i s) (t : Thread) (ht : Quiescent i t) (regs : List (Nat × Word)) : Restful i (s.completeWait t regs) := by
  have hdone : Quiescent i (waitDone t regs) := ht.of_eq (waitDone_id t regs) ((noted_settled ..).trans (foldl_wr_settled ..))
  rw [completeWait_eq, State.endWaitMove]
  split
  · exact h.put (hdone.of_eq rfl rfl)
  · exact h.put (hdone.of_eq rfl rfl)

theorem joinPoisoned {t : Thread} (h : Restful i s) (ht : Quiescent i t) (reg w : Nat) : Restful i (s.joinPoisoned t reg w) := by
  refine h.completeWait _ (ht.of_eq ?_ ?_) []
  · exact clr_id t reg
  · exact clr_settled t reg

theorem gangThreads (h : Restful i s) (g : Gang) : ∀ u ∈ s.gangThreads g, Quiescent i u := fun u hu => by
  obtain ⟨x, -, hx⟩ := List.mem_filterMap.1 hu
  exact h.quiet u (mem_of_find hx)

theorem releaseMember {t : Thread} (h : Restful i s) (ht : Quiescent i t) : Restful i (s.releaseMember t) := by
  unfold State.releaseMember
  split
  · have hslot : Quiescent i ((s.tally t.core (some t.id.sdom) 0x09 1).releaseSlot t).2 := by
      rw [releaseSlot_thread]
      exact ht.of_eq rfl rfl
    refine (h.of_threads (((Quiet.refl s).tally ..).releaseSlot t).threads).put ?_
    split
    · exact hslot
    · exact hslot
    · exact hslot.of_eq rfl rfl
  · exact h

theorem seatGang (h : Restful i s) (g : Gang) : Restful i (s.seatGang g) := by
  unfold State.seatGang
  split
  · refine h.of_threads ((recPut_threads ..).trans ((foldl_threads (fun s k => ((Quiet.refl s).touch ..).threads) ..).trans ?_))
    exact foldl_threads (f := fun s c => s.modUnit c _) (fun _ _ => rfl) _ s
  · have hleft : Restful i ((s.gangThreads g).foldl (fun s t => s.releaseMember t) s) :=
      foldl (fun _ _ hs hu => hs.releaseMember hu) (h.gangThreads g) h
    exact hleft.of_threads rfl

theorem completeForming (h : Restful i s) (g : Gang) : Restful i (s.completeForming g) := by
  refine foldl (fun s t hs ht => ?_) (h.gangThreads g) h
  split
  · exact hs.completeWait { t with gang := some g.id } (ht.of_eq rfl rfl) _
  · exact hs.put (ht.of_eq rfl rfl)

theorem convene (h : Restful i s) (g : Gang) : Restful i (s.convene g) := by
  have hrec (g : Gang) (ks : List Nat) : Restful i ((s.setGang g).recPut g ks) := h.of_threads (recPut_threads ..)
  exact ((hrec _ _).completeForming _).seatGang _

theorem joinGang {t : Thread} (h : Restful i s) (ht : Quiescent i t) (g : Gang) (pa : Nat) (leaf : Option Word) (k reg : Nat) :
    Restful i (s.joinGang t g pa leaf k reg) := by
  have hrec (u : Thread) (hu : Quiescent i u) (g : Gang) (ks : List Nat) : Restful i (((s.put u).setGang g).recPut g ks) :=
    (h.put hu).of_threads (recPut_threads ..)
  unfold State.joinGang
  dsimp only
  split
  · refine (hrec _ ?_ _ _).convene _
    exact ht.of_eq rfl rfl
  · refine hrec _ ?_ _ _
    exact ht.of_eq rfl rfl

theorem joinTest {t : Thread} (h : Restful i s) (ht : Quiescent i t) (id : GangId) (pa : Nat) (leaf : Option Word) (reg : Nat) {s' : State}
    (e : s.joinTest t id pa leaf reg = .ok s') : Restful i s' := by
  have hsame {s' : State} (e : (.ok s : Except Flt State) = .ok s') : Restful i s' := Except.ok.inj e ▸ h
  have hite {c : Prop} [Decidable c] {x y : Except Flt State} (hx : x = .ok s' → Restful i s') (hy : y = .ok s' → Restful i s')
      (e : (if c then x else y) = .ok s') : Restful i s' := by
    split at e
    · exact hx e
    · exact hy e
  have hflt {c : Cause} {n : Nat} (e : gangFlt c n = .ok s') : Restful i s' := by cases e
  unfold State.joinTest at e
  split at e
  · cases e
  · exact hsame e
  · refine hite hsame (fun e => ?_) e
    split at e
    · exact Except.ok.inj e ▸ h.joinPoisoned ht ..
    · split at e
      · exact hsame e
      · dsimp only at e
        split at e
        · exact hflt e
        · refine hite hflt (hite hflt fun e => ?_) e
          split at e
          · exact hflt e
          · exact Except.ok.inj e ▸ h.joinGang ht ..
      · exact hflt e

theorem parkJoiner {t : Thread} (h : Restful i s) (ht : Quiescent i t) (f : Flt) : Restful i (s.parkJoiner t f) := by
  have hslot : Quiescent i (s.releaseSlot t).2 := by
    rw [releaseSlot_thread]
    exact ht.of_eq rfl rfl
  refine Restful.of_threads ?_ ((Quiet.refl _).pushRec ..).threads
  exact (h.of_threads ((Quiet.refl s).releaseSlot t).threads).put (hslot.of_eq rfl rfl)

theorem checkJoiners (h : Restful i s) : Restful i s.checkJoiners := by
  refine List.foldlRecOn (motive := Restful i) _ _ h fun s hs u _ => ?_
  split
  · exact hs
  next t hfind =>
    have ht := hs.quiet t (mem_of_find hfind)
    split
    · split
      · exact hs.joinTest ht _ _ _ _ ‹_›
      · exact hs.parkJoiner ht _
    · exact hs

/-- The ends of waits queue nothing for a boundary (16 R361). -/
theorem checkWatches (h : Restful i s) : Restful i s.checkWatches := by
  refine foldl (s := s.checkJoiners) (fun s u hs hu => ?_) h.checkJoiners.quiet h.checkJoiners
  dsimp only
  split
  · split
    · refine completeWait ?_ u hu _
      exact hs.of_threads rfl
    · split
      · exact hs.completeWait u hu _
      · exact hs
  · split
    · exact hs.completeWait u hu _
    · exact hs
  · exact hs

end Restful

/-! A write of a thread's access at once (11 R245; 13 R303). -/

theorem storeRegs_id (u : Thread) (i k : Nat) (bs : List Byte) : (u.storeRegs i k bs).id = u.id :=
  List.foldlRecOn (motive := fun v : Thread => v.id = u.id) _ _ rfl fun _ h _ _ => (wr_id ..).trans h

theorem storeRegs_settled (u : Thread) (i k : Nat) (bs : List Byte) : (u.storeRegs i k bs).settled = u.settled :=
  List.foldlRecOn (motive := fun v : Thread => v.settled = u.settled) _ _ rfl fun _ h _ _ => (wr_settled ..).trans h

theorem Restful.performAt {i : Tid} {s : State} (h : Restful i s) (d : Nat) (g : Target) (bs : List Byte) : Restful i (s.performAt d g bs) := by
  have hraw (pa : Nat) : Restful i (s.writeRaw d pa bs) := by
    unfold State.writeRaw
    split
    next u k hline =>
      split
      · exact h
      · have hu := h.quiet u (Left.mem_of_lineAt hline)
        refine Restful.put (h.of_threads ?_) (hu.of_eq (storeRegs_id u k (pa % 128) bs) (storeRegs_settled ..))
        exact ((Quiet.refl s).unpoison ..).threads
    · exact h.of_threads ((noteOperand_threads ..).trans (writeAs_threads ..))
  have hperform (pa : Nat) (m : Option Nat) : Restful i (s.perform d pa m bs) := by
    unfold State.perform
    cases m with
    | none => exact (hraw pa).checkWatches
    | some m => exact Restful.checkWatches ((hraw pa).of_threads (writeAs_threads ..))
  cases g with
  | pad c off => exact hperform (physAddr (padUnit c) off) none
  | mem l => exact hperform l.spot.pa l.mirror

end Sys2Proof.Proofs

/-! PROOF. ROUTE and XCNT (14 R314 to R316; 17 R392). -/
namespace Sys2Proof.Proofs
open Sys2Proof.Machine Sys2Proof.Laws

/-- A write of a thread's access leaves every name. -/
theorem names_performAt (s : State) (d : Nat) (g : Target) (bs : List Byte) : names (s.performAt d g bs) = names s := by
  have hraw (pa : Nat) : names (s.writeRaw d pa bs) = names s := by
    unfold State.writeRaw
    split
    · split
      · rfl
      · exact (names_put ..).trans (names_of_threads ((Quiet.refl s).unpoison ..).threads)
    · exact names_of_threads ((noteOperand_threads ..).trans (writeAs_threads ..))
  have hperform (pa : Nat) (m : Option Nat) : names (s.perform d pa m bs) = names s := by
    unfold State.perform
    cases m with
    | none => exact (names_checkWatches _).trans (hraw pa)
    | some m => exact (names_checkWatches _).trans ((names_of_threads (writeAs_threads ..)).trans (hraw pa))
  cases g with
  | pad c off => exact hperform (physAddr (padUnit c) off) none
  | mem l => exact hperform l.spot.pa l.mirror

theorem restful_put (s : State) {u : Thread} (h : u.settled = true) : Restful u.id (s.put u) where
  quiet v hv := by
    obtain rfl | ⟨-, hne⟩ := mem_put_threads hv
    · exact ⟨fun _ => h⟩
    · exact ⟨fun he => absurd he hne⟩

/-! Where no word is poisoned (18 R418). -/

section
variable {s : State} (h : s.poison = [])
include h

theorem poisonAt_of_clean (pa va : Nat) (offs : List Nat) : s.poisonAt pa va offs = none := by
  have hnone : offs.find? (fun o => (s.poisonedIn (pa + o) 1).isSome) = none :=
    List.find?_eq_none.2 fun o _ => by simp [poisonedIn_of_clean h]
  rw [State.poisonAt, hnone, Option.map_none]

theorem poisonSeen_of_clean (t : Thread) (pa va : Nat) (offs : List Nat) : s.poisonSeen t pa va offs = none := by
  refine List.findSome?_eq_none_iff.2 fun o _ => ?_
  simp [State.viewPoison, h]

end

/-! The counts and the pair (14 R314 to R316). -/

/-- A place some bytes on. -/
def shifted (g : Target) (o : Nat) : Target :=
  match g with
  | .pad c f => .pad c (f + o)
  | .mem l => .mem { l with spot := { l.spot with pa := l.spot.pa + o }, mirror := l.mirror.map (· + o) }

/-- The generation's drain counter counts a route. -/
def drainCounted (s : State) (dom gen : Nat) (head : Target) : State :=
  s.performAt dom (shifted head (0x10 + 8 * (gen % 2))) (toBytes 8 (s.numAt dom (head.pa + (0x10 + 8 * (gen % 2))) 8 + 1))

/-- Both counters count a route, the thread's loads bound before. -/
def routeCounted (s : State) (t : Thread) (gen : Nat) (head cnt : Target) : State :=
  (drainCounted (s.put (s.bindLoads t)) t.id.sdom gen head).performAt t.id.sdom cnt
    (toBytes 4 (min ((s.put (s.bindLoads t)).numAt t.id.sdom cnt.pa 4 + 1) (2 ^ 32 - 1)))

/-- The fill of ROUTE's pair. -/
def routeFill (s2 : State) (t : Thread) (r dom e gen j slot va : Nat) (head : Target) : Fill :=
  { regs := [(r, BitVec.ofNat 64 (slot / 2 ^ 16 * 2 ^ 16 + j * 8 + slot % 8)),
      (r + 1, BitVec.ofNat 64 (j * 2 ^ 32 + dom * 2 ^ 28 + e * 2 ^ 16 + gen))]
    flags := 0, float := false, req := s2.reqAt t head .atomic va, bad := none, mem := true, acq := true }

theorem routeDone_eq (s : State) (t : Thread) (r dom e gen j slot va : Nat) (head cnt : Target) {s2 : State}
    (h : s2 = routeCounted s t gen head cnt) : s.routeDone t r dom e gen j slot va head cnt =
      s2.put { (s2.again t).produce (routeFill s2 t r dom e gen j slot va head) with pc := (s2.again t).pc + 4 } := by
  have hretire : s.routeDone t r dom e gen j slot va head cnt =
      s2.retire ((s2.again t).produce (routeFill s2 t r dom e gen j slot va head)) := by
    subst h
    cases head <;> rfl
  rw [hretire, State.retire, produce_pc]

/-! The operands (14 R314). -/

section
variable {s : State} {t : Thread} {d : PairReg} {r a b : Reg}

theorem route_noTable (h : s.routeDom t (t.rd a.toNat) = none) :
    Parks s t (.route d a b) (.plain .routeOperand (t.rd a.toNat)) ∧ Parks s t (.xcnt r a) (.plain .routeOperand (t.rd a.toNat)) :=
  ⟨parks_of_fault (execRoute.eq_def d a b s) (by simp only [h]; rfl), parks_of_fault (execXcnt.eq_def r a s) (by simp only [h]; rfl)⟩

variable {x : Edt} {head ent cnt : Target} (hdom : s.routeDom t (t.rd a.toNat) = some x) (hclean : s.poison = [])
include hdom hclean

section
variable (hhead : s.routeReach t x.dva.toNat 8 8 true = .ok head)
include hhead

theorem route_noExpert (he : s.numAt t.id.sdom (head.pa + 0x20) 8 % 2 ^ 13 ≤ wbits (t.rd a.toNat) 11 0) :
    Parks s t (.route d a b) (.plain .routeOperand (t.rd a.toNat)) := by
  have he' : bits (s.numAt t.id.sdom (head.pa + 0x20) 8) 12 0 ≤ wbits (t.rd a.toNat) 11 0 := (bits_low ..).trans_le he
  refine parks_of_fault (execRoute.eq_def d a b s) ?_
  simp only [hdom, hhead, poisonAt_of_clean hclean, State.unlessBad, if_pos he']
  rfl

/-- The entry of an expert: its virtual address (14 R311). -/
abbrev entryVa (s : State) (t : Thread) (a : Reg) (x : Edt) (head : Target) : Nat :=
  x.dva.toNat + 0x1000 + s.numAt t.id.sdom head.pa 2 % 2 * 0x80000 + wbits (t.rd a.toNat) 11 0 * 128

variable (he : wbits (t.rd a.toNat) 11 0 < s.numAt t.id.sdom (head.pa + 0x20) 8 % 2 ^ 13)
  (hent : s.routeReach t (entryVa s t a x head) 8 8 false = .ok ent)
include he hent

theorem route_badEntry (hvalid : s.entValid (s.numAt t.id.sdom ent.pa 128) = false) :
    Parks s t (.route d a b) (.plain .replicaTable (BitVec.ofNat 64 (entryVa s t a x head))) := by
  have he' : ¬ bits (s.numAt t.id.sdom (head.pa + 0x20) 8) 12 0 ≤ wbits (t.rd a.toNat) 11 0 := by
    rw [bits_low]
    exact Nat.not_le.2 he
  refine parks_of_fault (execRoute.eq_def d a b s) ?_
  simp only [hdom, hhead, poisonAt_of_clean hclean, State.unlessBad, if_neg he', hent, hvalid]
  rfl

/-- ROUTE that passes its checks draws a slot, counts, and answers the pair. -/
theorem route_draws {j slot : Nat} (hvalid : s.entValid (s.numAt t.id.sdom ent.pa 128) = true)
    (hcnt : s.routeReach t (s.numAt t.id.sdom (head.pa + 0x38) 8 + 4 * wbits (t.rd a.toNat) 11 0) 4 4 true = .ok cnt)
    (hpick : s.pickSlot (routeDraw (t.rd b.toNat) (s.entWeight (s.numAt t.id.sdom ent.pa 128))) 0 0
      (entSlots (s.numAt t.id.sdom ent.pa 128)) = some (j, slot)) {s2 : State} {u : Thread}
    (hdone : s.routeDone t (2 * d.toNat) (wbits (t.rd a.toNat) 15 12) (wbits (t.rd a.toNat) 11 0) (s.numAt t.id.sdom head.pa 2) j slot
      x.dva.toNat head cnt = s2.put u) (hrest : Restful t.id s2) (hnames : names s2 = names s) (hid : u.id = t.id)
    (hsettled : u.settled = (s2.again t).settled) : Yields s t (.route d a b) (s2.put u) := fun hi => by
  have he' : ¬ bits (s.numAt t.id.sdom (head.pa + 0x20) 8) 12 0 ≤ wbits (t.rd a.toNat) 11 0 := by
    rw [bits_low]
    exact Nat.not_le.2 he
  obtain ⟨v, hv⟩ : ∃ v, s2.find t.id = some v := Option.ne_none_iff_exists'.1 fun hnone => by
    rw [find_eq_none_iff, hnames, ← find_eq_none_iff, issues_find hi] at hnone
    cases hnone
  have hagain : s2.again t = v := by rw [State.again, hv, Option.getD_some]
  have hquiet : u.settled = true := by
    rw [hsettled, hagain]
    exact (hrest.quiet v (mem_of_find hv)).settled (find_id hv)
  have hfind : (s2.put u).find t.id = some u := find_put_of_find rfl hv hid
  obtain ⟨-, -, hset⟩ := id hi
  refine yields_of_ok (execRoute.eq_def d a b s) ?_ hfind (hquiet.trans hset.symm) hi
  rw [← hdone]
  simp only [hdom, hhead, poisonAt_of_clean hclean, State.unlessBad, if_neg he', hent, hvalid, hcnt, hpick]
  rfl

end

section
variable (hhead : s.reach t 4 { ea := x.dva.toNat, n := 4, kind := .load, write := false } = .ok head)
include hhead

theorem xcnt_noExpert (he : s.numSeen t (head.pa + 0x20) 8 % 2 ^ 13 ≤ wbits (t.rd a.toNat) 11 0) :
    Parks s t (.xcnt r a) (.plain .routeOperand (t.rd a.toNat)) := by
  have he' : bits (s.numSeen t (head.pa + 0x20) 8) 12 0 ≤ wbits (t.rd a.toNat) 11 0 := (bits_low ..).trans_le he
  refine parks_of_fault (execXcnt.eq_def r a s) ?_
  simp only [hdom, hhead, poisonSeen_of_clean hclean, if_pos he']
  rfl

theorem xcnt_reads (he : wbits (t.rd a.toNat) 11 0 < s.numSeen t (head.pa + 0x20) 8 % 2 ^ 13)
    (hcnt : s.reach t 4 { ea := (s.numSeen t (head.pa + 0x38) 8 + 4 * wbits (t.rd a.toNat) 11 0 : Nat), n := 4, kind := .load, write := false } =
      .ok cnt) :
    Completes s t (.xcnt r a) ((s.bindLoads t).produce { oneFill r.toNat (BitVec.ofNat 64 (s.numSeen t head.pa 2 * 2 ^ 32 + s.numSeen t cnt.pa 4))
      with req := s.reqAt t head .load x.dva.toNat, mem := true }) := by
  have he' : ¬ bits (s.numSeen t (head.pa + 0x20) 8) 12 0 ≤ wbits (t.rd a.toNat) 11 0 := by
    rw [bits_low]
    exact Nat.not_le.2 he
  refine completes_of_retire (execXcnt.eq_def r a s) ?_ (produce_id ..) (produce_pc ..) (produce_settled ..)
  simp only [hdom, hhead, poisonSeen_of_clean hclean, if_neg he', hcnt]
  rfl

end

end

theorem request_eq_reqAt (s : State) (t : Thread) (g : Target) (k : AccKind) (va : Nat) : g.request s t k va = s.reqAt t g k va := by
  cases g <;> rfl

/-- Settles O37: ROUTE and XCNT by the checks of their operands. -/
theorem routingResults : Obligations.RoutingResults := by
  intro s t d r a b x head ent cnt j slot sel e va dom u gen off entVa n moved s0 s1 s2 pair
  have hexpert : e = wbits sel 11 0 := (wbits_eq_toNat_extractLsb' sel 11 0).symm
  have htable : (sel.extractLsb' 12 4).toNat = wbits sel 15 12 := (wbits_eq_toNat_extractLsb' sel 3 12).symm
  refine ⟨route_noTable, fun hdom hclean => ⟨fun hhead => ⟨fun he => route_noExpert hdom hclean hhead (hexpert ▸ he), fun he hent => ?_⟩,
    fun hhead => ?_⟩⟩
  · rw [hexpert] at he
    have hent' : s.routeReach t (entryVa s t a x head) 8 8 false = .ok ent := by
      rw [entryVa, ← hexpert]
      exact hent
    refine ⟨fun hvalid => ?_, fun hvalid hcnt hpick => ?_⟩
    · have hparks := route_badEntry (d := d) (b := b) hdom hclean hhead he hent' hvalid
      rw [entryVa, ← hexpert] at hparks
      exact hparks
    · have hcnt' : s.routeReach t (s.numAt t.id.sdom (head.pa + 0x38) 8 + 4 * wbits (t.rd a.toNat) 11 0) 4 4 true = .ok cnt := by
        rw [← hexpert]
        exact hcnt
      have hnames : names s2 = names s := (names_performAt ..).trans ((names_performAt ..).trans (names_put s u))
      intro hi
      have hrest : Restful t.id s2 := by
        obtain ⟨-, -, hset⟩ := id hi
        exact ((restful_put s (u := u) hset).performAt ..).performAt ..
      refine route_draws hdom hclean hhead he hent' hvalid hcnt' hpick ?_ hrest hnames ((produce_id ..).trans (Left.again_id s2 t))
        (produce_settled ..) hi
      have hcounted : s2 = routeCounted s t gen head cnt := by cases head <;> rfl
      have hfill : { pair with regs := [(2 * d.toNat, BitVec.ofNat 64 (slot / 2 ^ 16 * 2 ^ 16 + j * 8 + slot % 8)),
          (2 * d.toNat + 1, BitVec.ofNat 64 (j * 2 ^ 32 + (sel.extractLsb' 12 4).toNat * 2 ^ 28 + e * 2 ^ 16 + gen))] } =
          routeFill s2 t (2 * d.toNat) (wbits sel 15 12) (wbits sel 11 0) gen j slot va head := by
        rw [routeFill, ← request_eq_reqAt, htable, hexpert]
      rw [hfill]
      exact routeDone_eq s t _ _ _ gen j slot va head cnt hcounted
  · rw [hexpert]
    refine ⟨xcnt_noExpert hdom hclean hhead, fun he hcnt => ?_⟩
    have hreads := xcnt_reads (r := r) hdom hclean hhead he hcnt
    rw [← request_eq_reqAt] at hreads
    exact hreads

end Sys2Proof.Proofs

/-! PROOF. Fill counters (17 R382 to R384) and the instructions that wait (16 R357, R360 to R362). -/
namespace Sys2Proof.Proofs
open Sys2Proof.Machine Sys2Proof.Laws

/-- The deadline of a time-out (16 R357). -/
theorem deadlineOf_eq (s : State) (w : Word) : s.deadlineOf w = BitVec.ofNat 64 (min (2 ^ 64 - 1) (s.tick % 2 ^ 64 + w.toNat)) := by
  unfold State.deadlineOf
  split
  next h => rw [Nat.min_eq_left h, w64]
  next h => rw [Nat.min_eq_right (Nat.le_of_not_le h), w64]

/-- What a word's thread has once it waits (16 R360). -/
abbrev waiting (s : State) (t : Thread) (k : WaitKind) (c : WaitCond) (arg deadline : Word) : Thread :=
  { s.bindLoads t with st := .waiting k, cond := some c, waitarg := arg, deadline := deadline, waitSince := s.tick }

/-- A word that waits. -/
theorem yields_of_goWait {s : State} {t : Thread} {i : Instr} {k : State → Thread → Except Stop State} {kind : WaitKind} {c : WaitCond}
    {arg limit : Word} (hexec : exec i s = word i s k)
    (hk : s.find t.id = some t → k s t = .ok (s.goWait t kind c arg (s.deadlineOf limit))) :
    Yields s t i (s.put (waiting s t kind c arg (BitVec.ofNat 64 (min (2 ^ 64 - 1) (s.tick % 2 ^ 64 + limit.toNat))))) := fun hi => by
  have hgoes := hk (issues_find hi)
  rw [deadlineOf_eq] at hgoes
  have hfind : (s.put (waiting s t kind c arg (BitVec.ofNat 64 (min (2 ^ 64 - 1) (s.tick % 2 ^ 64 + limit.toNat))))).find t.id =
      some (waiting s t kind c arg (BitVec.ofNat 64 (min (2 ^ 64 - 1) (s.tick % 2 ^ 64 + limit.toNat)))) :=
    find_put_of_find rfl (issues_find hi) rfl
  exact yields_of_ok hexec hgoes hfind rfl hi

/-- A word that completes its thread, for the thread that stands under its name. -/
theorem completes_of_find {s : State} {t u : Thread} {i : Instr} {k : State → Thread → Except Stop State} (hexec : exec i s = word i s k)
    (hk : s.find t.id = some t → k s t = .ok (s.retire u)) (hid : u.id = t.id) (hpc : u.pc = t.pc) (hsettled : u.settled = t.settled) :
    Completes s t i u := fun hi => completes_of_retire hexec (hk (issues_find hi)) hid hpc hsettled hi

/-! The place of a fill counter (17 R383). -/

/-- The check of a window's segments names the place it was given (10 R217, R221). -/
theorem padAccess_place {s : State} {sdom core : Nat} {a : Access} {g g' : Target} (h : s.padAccess sdom core a g = .ok g') : g' = g := by
  unfold State.padAccess at h
  split at h
  · cases h
  · split at h
    · exact (Except.ok.inj h).symm
    · cases h

/-- A fill counter lies in a scratchpad. -/
theorem pad_of_counterPlace {s : State} {core sdom : Nat} {addr : Word} {g : Target} (h : s.counterPlace core sdom addr = .ok g) :
    ∃ c off, g = .pad c off := by
  unfold State.counterPlace at h
  dsimp only at h
  split at h
  · cases h
  · split at h
    · cases h
    · split at h
      · cases h
      · split at h
        next c off hwindow =>
          split at h
          · cases h
          next hpad =>
            split at h
            · exact ⟨c, off, (Except.ok.inj h).symm.trans (padAccess_place hpad)⟩
            · cases h
        next => cases h

/-! FILL.INIT and FILL.ADD (17 R382, R383). -/

section
variable {s : State} {t : Thread} {d a b : Reg} {g : Target} (hplace : s.counterPlace t.core t.id.sdom (t.rd a.toNat) = .ok g)
include hplace

theorem fillUpdate_of_beyond (f : Nat → Nat) :
    s.fillUpdate t d a false f = .error (.fault (.plain .counterOperand (t.rd a.toNat))) := by
  simp only [State.fillUpdate, hplace]
  rfl

/-- The counter as FILL.INIT or FILL.ADD leaves it, and the old word in g[d]. -/
abbrev filledBy (s : State) (t : Thread) (d : Reg) (g : Target) (w : Nat) : State :=
  ((s.put (s.bindLoads t)).performAt t.id.sdom g (toBytes 8 w)).put
    { (s.bindLoads t).produce (oneFill d.toNat (BitVec.ofNat 64 (s.numAs t.id.sdom g.pa 8))) with pc := t.pc + 4 }

variable (hclean : s.poisonedIn g.pa 8 = none) (hs : s.unwatched) (hland : s.noLanding) (hline : s.lineAt g.pa = none)
include hclean hs hland hline

theorem yields_of_fillUpdate {i : Instr} {k : State → Thread → Except Stop State} {f : Nat → Nat} (hexec : exec i s = word i s k)
    (hk : k s t = s.fillUpdate t d a true f) : Yields s t i (filledBy s t d g (f (s.numAs t.id.sdom g.pa 8))) := fun hi => by
  have ht := issues_find hi
  obtain ⟨c, off, rfl⟩ := pad_of_counterPlace hplace
  have hmem := mem_of_find ht
  have hquiet : (s.put (s.bindLoads t)).unwatched := unwatched_put hs (watchesNothing_of_cond (unwatched_iff.1 hs t hmem) rfl)
  have hthreads : ((s.put (s.bindLoads t)).performAt t.id.sdom (.pad c off) (toBytes 8 (f (s.numAs t.id.sdom (Target.pad c off).pa 8)))).threads =
      (s.put (s.bindLoads t)).threads := performAt_threads hquiet (lineAt_put hline hmem rfl rfl) ..
  have hfind := (find_of_threads hthreads t.id).trans (find_put_of_find (u := s.bindLoads t) (s := s) rfl ht rfl)
  have hagain : ((s.put (s.bindLoads t)).performAt t.id.sdom (.pad c off) (toBytes 8 (f (s.numAs t.id.sdom (Target.pad c off).pa 8)))).again t =
      s.bindLoads t := by rw [State.again, hfind, Option.getD_some]
  refine yields_of_ok hexec ?_ (find_put_of_find rfl hfind (produce_id ..)) (produce_settled ..) hi
  rw [hk]
  simp only [State.fillUpdate, hplace, hclean, landOwn_of_noLanding hland, Bool.not_true, Bool.false_eq_true, if_false, State.retire,
    produce_pc]
  exact congrArg (fun u : Thread => Except.ok (State.put _ { u.produce _ with pc := u.pc + 4 })) hagain

end

/-- The fields of a counter word (17 R382). -/
theorem fillAddWord_eq (w n : Nat) : fillAddWord w n =
    if w / 2 ^ 32 % 2 ^ 31 ≠ 0 ∧ w / 2 ^ 32 % 2 ^ 31 ≤ w % 2 ^ 32 + n then
      (1 - w / 2 ^ 63 % 2) * 2 ^ 63 + w / 2 ^ 32 % 2 ^ 31 * 2 ^ 32 + min (w % 2 ^ 32 + n - w / 2 ^ 32 % 2 ^ 31) (2 ^ 32 - 1)
    else w / 2 ^ 63 % 2 * 2 ^ 63 + w / 2 ^ 32 % 2 ^ 31 * 2 ^ 32 + min (w % 2 ^ 32 + n) (2 ^ 32 - 1) := by
  have harrived : bits w 31 0 = w % 2 ^ 32 := bits_low w 31
  simp only [fillAddWord, harrived]
  rfl

/-! FILL.WAIT (17 R384). -/

section
variable {s : State} {t : Thread} {d a : Reg} {b : PairReg} {c off : Nat}
  (hplace : s.counterPlace t.core t.id.sdom (t.rd a.toNat) = .ok (.pad c off))
include hplace

theorem fillWait_beyond (hwant : 2 ≤ (t.rd (2 * b.toNat)).toNat) :
    Parks s t (.fillWait d a b) (.plain .counterOperand (t.rd a.toNat)) := by
  refine parks_of_fault (execFillWait.eq_def d a b s) ?_
  simp only [hplace, if_pos ((wbits_top _ 1 (by decide)).2 hwant)]
  rfl

variable (hwant : (t.rd (2 * b.toNat)).toNat ≤ 1) (hline : s.lineAt (Target.pad c off).pa = none)
  (hclean : s.viewPoison t (t.rd a.toNat).toNat (Target.pad c off).pa 8 = none)
include hwant hline hclean

theorem fillWait_done
    (hdone : (BitVec.ofNat 64 (s.seen t (Target.pad c off).pa 8)).getLsbD 63 = (t.rd (2 * b.toNat)).getLsbD 0 ∨ t.rd (2 * b.toNat + 1) = 0) :
    Completes s t (.fillWait d a b) ((s.bindLoads t).produce
      { oneFill d.toNat (BitVec.ofNat 64 (s.seen t (Target.pad c off).pa 8)) with mem := true, acq := true }) := by
  obtain ⟨x, hload, hbytes⟩ := loaded_of_memory (va := (t.rd a.toNat).toNat) hline hclean
  have hindex : ¬ wbits (t.rd (2 * b.toNat)) 63 1 ≠ 0 := fun hno => absurd ((wbits_top _ 1 (by decide)).1 hno) (by omega)
  refine completes_of_retire (execFillWait.eq_def d a b s) ?_ (produce_id ..) (produce_pc ..) (produce_settled ..)
  simp only [hplace, if_neg hindex, hload, bytesNow_bindLoads, hbytes]
  exact if_pos (hdone.imp_left beq_iff_eq.2)

theorem fillWait_waits
    (hphase : (BitVec.ofNat 64 (s.seen t (Target.pad c off).pa 8)).getLsbD 63 ≠ (t.rd (2 * b.toNat)).getLsbD 0)
    (hlimit : t.rd (2 * b.toNat + 1) ≠ 0) :
    Yields s t (.fillWait d a b) (s.put (waiting s t .fill (.fill (Target.pad c off).pa (t.rd (2 * b.toNat)) d.toNat) (t.rd a.toNat)
      (BitVec.ofNat 64 (min (2 ^ 64 - 1) (s.tick % 2 ^ 64 + (t.rd (2 * b.toNat + 1)).toNat))))) := by
  obtain ⟨x, hload, hbytes⟩ := loaded_of_memory (va := (t.rd a.toNat).toNat) hline hclean
  have hindex : ¬ wbits (t.rd (2 * b.toNat)) 63 1 ≠ 0 := fun hno => absurd ((wbits_top _ 1 (by decide)).1 hno) (by omega)
  refine yields_of_goWait (execFillWait.eq_def d a b s) fun _ => ?_
  simp only [hplace, if_neg hindex, hload, bytesNow_bindLoads, hbytes]
  exact if_neg (not_or.2 ⟨fun h => hphase (beq_iff_eq.1 h), hlimit⟩)

end

/-- Settles O27: FILL.INIT and FILL.ADD perform their word, and FILL.WAIT compares the one it sees. -/
theorem fillCounterResults : Obligations.FillCounterResults := by
  refine ⟨?_, ?_⟩
  · intro s t d a b g addr n u hplace hclean hs hland hline old arrived expect phase left
    have hinit : fillInitWord old n = phase * 2 ^ 63 + n * 2 ^ 32 := rfl
    have hadd := fillAddWord_eq old n
    have init (hn : n < 2 ^ 31) : Yields s t (.fillInit d a b) (left (fillInitWord old n)) :=
      yields_of_fillUpdate hplace hclean hs hland hline (f := fun w => fillInitWord w n) (execFillInit.eq_def d a b s)
        (congrArg (fun ok => s.fillUpdate t d a ok _) (decide_eq_true hn))
    have add (hn : n ≤ 2 ^ 32) : Yields s t (.fillAdd d a b) (left (fillAddWord old n)) :=
      yields_of_fillUpdate hplace hclean hs hland hline (f := fun w => fillAddWord w n) (execFillAdd.eq_def d a b s)
        (congrArg (fun ok => s.fillUpdate t d a ok _) (decide_eq_true hn))
    refine ⟨fun hn => ?_, fun hn he hreached => ?_, fun hn hshort => ?_, fun hn => ?_, fun hn => ?_⟩
    · rw [← hinit]
      exact init hn
    · have hadded := add hn
      rw [hadd, if_pos ⟨he, hreached⟩] at hadded
      exact hadded
    · have hadded := add hn
      rw [hadd, if_neg (fun h => hshort.elim h.1 (Nat.not_lt.2 h.2))] at hadded
      exact hadded
    · exact parks_of_fault (execFillInit.eq_def d a b s)
        ((congrArg (fun ok => s.fillUpdate t d a ok _) (decide_eq_false (Nat.not_lt.2 hn))).trans (fillUpdate_of_beyond hplace _))
    · exact parks_of_fault (execFillAdd.eq_def d a b s)
        ((congrArg (fun ok => s.fillUpdate t d a ok _) (decide_eq_false (Nat.not_le.2 hn))).trans (fillUpdate_of_beyond hplace _))
  · intro s t d a b c off addr want limit pa u hplace hline
    refine ⟨fillWait_beyond hplace, fun hwant hclean => ⟨fun hdone => ?_, fun hphase hlimit => ?_⟩⟩
    · exact fillWait_done hplace hwant hline hclean hdone
    · exact fillWait_waits hplace hwant hline hclean hphase hlimit

/-! RECV and SLEEP (16 R357, R362). -/

section
variable {s : State} {t : Thread} {a : Reg} {d : PairReg}

theorem recv_takes (h : 0 < t.incnt) : Completes s t (.recv d a) (t.takeMsg.1.produce
    (regsFill [(2 * d.toNat, t.takeMsg.2.1), (2 * d.toNat + 1, t.takeMsg.2.2)])) :=
  completes_of_retire (execRecv.eq_def d a s) (if_pos h) (produce_id ..) (produce_pc ..) (produce_settled ..)

theorem recv_polls (h : t.incnt = 0) (hlimit : t.rd a.toNat = 0) : Completes s t (.recv d a) (t.produce (regsFill (recvNone d.toNat))) :=
  completes_of_retire (execRecv.eq_def d a s) ((if_neg (by omega)).trans (if_pos hlimit)) (produce_id ..) (produce_pc ..)
    (produce_settled ..)

theorem recv_waits (h : t.incnt = 0) (hlimit : t.rd a.toNat ≠ 0) :
    Yields s t (.recv d a) (s.put (waiting s t .recv (.recv d.toNat) 0
      (BitVec.ofNat 64 (min (2 ^ 64 - 1) (s.tick % 2 ^ 64 + (t.rd a.toNat).toNat))))) :=
  yields_of_goWait (execRecv.eq_def d a s) fun _ => (if_neg (by omega)).trans (if_neg hlimit)

theorem sleep_completes (hlimit : t.rd a.toNat = 0) : Completes s t (.sleep a) t :=
  completes_of_retire (execSleep.eq_def a s) (if_pos hlimit) rfl rfl rfl

theorem sleep_waits (hlimit : t.rd a.toNat ≠ 0) : Yields s t (.sleep a) (s.put (waiting s t .wait .sleep 0
    (BitVec.ofNat 64 (min (2 ^ 64 - 1) (s.tick % 2 ^ 64 + (t.rd a.toNat).toNat))))) :=
  yields_of_goWait (execSleep.eq_def a s) fun _ => if_neg hlimit

end

/-! WAIT (16 R361). -/

section
variable {s : State} {t : Thread} {d a : Reg} {b : PairReg} {g : Target}
  (haccess : s.access t.core t.id.sdom 8 { ea := (t.rd a.toNat).toNat, n := 8, kind := .load, write := false } = .ok g)
  (hline : s.lineAt g.pa = none) (hcls : ∀ l, g = .mem l → Leaf.cls l.leaf ≠ 3)
  (hclean : s.viewPoison t (t.rd a.toNat).toNat g.pa 8 = none)
include haccess hline hcls hclean

omit haccess hline hclean in
theorem syncFrame_of_cls (sdom va : Nat) : s.syncFrame sdom va g = s := by
  cases g with
  | pad c off => rfl
  | mem l => exact syncFrame_of_class (hcls l rfl) s sdom va

omit haccess hcls in
/-- The bytes of the watched word and the request that brings them (16 R361; 18 R420). -/
theorem watched_of_memory : ∃ x, s.loadBytes t (t.rd a.toNat).toNat g 8 = .ok x ∧
    s.bytesNow (s.bindLoads t) (t.rd a.toNat).toNat 8 x = (s.seenBytes t g.pa 8, none) ∧
    s.loadReq t .load (t.rd a.toNat).toNat x = g.request s t .load (t.rd a.toNat).toNat := by
  obtain ⟨x, hload, hbytes⟩ := loaded_of_memory hline hclean
  refine ⟨x, hload, (bytesNow_bindLoads ..).trans hbytes, ?_⟩
  cases g with
  | mem l =>
    rw [loadBytes_mem hline] at hload
    obtain rfl := Except.ok.inj hload
    rfl
  | pad c off =>
    by_cases hc : c = t.core
    · subst hc
      rw [loadBytes_ownPad] at hload
      obtain rfl := Except.ok.inj hload
      rfl
    · rw [loadBytes_otherPad hc] at hload
      obtain rfl := Except.ok.inj hload
      rfl

theorem wait_completes (h : BitVec.ofNat 64 (s.seen t g.pa 8) ≠ t.rd (2 * b.toNat) ∨ t.rd (2 * b.toNat + 1) = 0) :
    Completes s t (.wait d a b) ((s.bindLoads t).produce { oneFill d.toNat (BitVec.ofNat 64 (s.seen t g.pa 8)) with
      req := g.request s t .load (t.rd a.toNat).toNat }) := by
  obtain ⟨x, hload, hbytes, hreq⟩ := watched_of_memory (a := a) hline hclean
  refine completes_of_find (execWait.eq_def d a b s) (fun ht => ?_) (produce_id ..) (produce_pc ..) (produce_settled ..)
  simp only [haccess, syncFrame_of_cls hcls, again_of_find ht, hload, hbytes, hreq]
  exact if_pos h

theorem wait_waits (h : BitVec.ofNat 64 (s.seen t g.pa 8) = t.rd (2 * b.toNat)) (hlimit : t.rd (2 * b.toNat + 1) ≠ 0) :
    Yields s t (.wait d a b) (s.put (waiting s t .wait (.watch g.pa (t.rd (2 * b.toNat)) d.toNat) (t.rd a.toNat)
      (BitVec.ofNat 64 (min (2 ^ 64 - 1) (s.tick % 2 ^ 64 + (t.rd (2 * b.toNat + 1)).toNat))))) := by
  obtain ⟨x, hload, hbytes, -⟩ := watched_of_memory (a := a) hline hclean
  refine yields_of_goWait (execWait.eq_def d a b s) fun ht => ?_
  simp only [haccess, syncFrame_of_cls hcls, again_of_find ht, hload, hbytes]
  exact if_neg (not_or.2 ⟨not_not.2 h, hlimit⟩)

end

/-! WAIT_DEADLINE (16 R360 to R362; 17 R377, R384). -/

@[simp] theorem foldl_wr_slot (l : List (Nat × Word)) (t : Thread) : (l.foldl (fun t x => t.wr x.1 x.2) t).slot = t.slot := by
  induction l generalizing t with
  | nil => rfl
  | cons x l ih => rw [List.foldl_cons, ih, wr_slot]

/-- The device ends a wait: registers, then the move of 02 R32 (16 R360). -/
theorem completeWait_eq_waitOver (s : State) (t : Thread) (regs : List (Nat × Word)) :
    s.completeWait t regs = s.put (s.waitOver (regs.foldl (fun t x => t.wr x.1 x.2) t) (regs.map (·.1))) := by
  obtain ⟨u, hu⟩ : ∃ u, u = regs.foldl (fun t x => t.wr x.1 x.2) t := ⟨_, rfl⟩
  have hmap : regs.map (fun x => 16 + x.1) = (regs.map (·.1)).map (16 + ·) := by rw [List.map_map]; rfl
  obtain ⟨snap, hsnap⟩ := noted_eq u ([0, 6, 7] ++ (regs.map (·.1)).map (16 + ·))
  rw [completeWait_eq, waitDone, ← hu, hmap, State.waitOver, hsnap, State.endWaitMove, Thread.holdsSlot]
  cases hslot : u.slot with
  | none => simp [w64]
  | some sl => simp [w64]

theorem waitDeadline_of_find {s : State} {i : Tid} {t : Thread} (h : s.find i = some t) :
    exec (.waitDeadline i) s = .next (if !s.deadlinePassed t then s else match t.st, t.cond with
      | .waiting .wait, _ => s.endWaitKind t
      | .waiting .recv, some (.recv pair) => s.completeWait t (recvNone pair)
      | .waiting .fill, some (.fill pa _ reg) => s.completeWait t [(reg, s.viewWord t pa)]
      | _, _ => s) := by
  show execWaitDeadline i s = _
  simp only [execWaitDeadline, event, h] <;> rfl

/-- Settles O23: RECV, SLEEP and WAIT by what they find; a deadline by the wait it ends. -/
theorem waitingResults : Obligations.WaitingResults := by
  refine ⟨?_, ?_, ?_⟩
  · intro s t d a fill m limit
    exact ⟨recv_takes, recv_polls, recv_waits, sleep_completes, sleep_waits⟩
  · intro s t d a b g addr want limit u haccess hline hcls hclean v
    exact ⟨wait_completes haccess hline hcls hclean, wait_waits haccess hline hcls hclean⟩
  · intro s i t pa reg pair val h ended due
    refine ⟨fun hearly => ?_, fun hset hdue => ?_⟩
    · have hno : s.deadlinePassed t = false := by
        rw [State.deadlinePassed, Bool.and_eq_false_iff]
        exact hearly.imp (fun h => bne_eq_false_iff_eq.2 h) (fun h => decide_eq_false (Nat.not_le.2 h))
      rw [waitDeadline_of_find h, if_pos (by rw [hno]; rfl)]
    · have hyes : s.deadlinePassed t = true := and_of_both (bne_iff_ne.2 hset) (decide_eq_true hdue)
      have hexec := waitDeadline_of_find h
      rw [if_neg (by rw [hyes]; decide)] at hexec
      refine ⟨fun hst hcond => ?_, fun hst hcond => ?_, fun hst hcond => ?_, fun hst hcond => ?_⟩
      · rw [hst] at hexec
        simp only [State.endWaitKind, hcond, completeWait_eq_waitOver] at hexec
        exact hexec
      · rw [hst] at hexec
        simp only [State.endWaitKind, hcond, completeWait_eq_waitOver] at hexec
        exact hexec
      · simp only [hst, hcond, completeWait_eq_waitOver] at hexec
        exact hexec
      · simp only [hst, hcond, completeWait_eq_waitOver] at hexec
        exact hexec

end Sys2Proof.Proofs

/-! PROOF. What the access to a thread's frame leaves (05 R125; 16 R350): a frame that was dropped is loaded again, and nothing is queued for a
boundary. -/
namespace Sys2Proof.Proofs
open Sys2Proof.Machine Sys2Proof.Laws

/-- Every thread of s lives in s', with the same things queued for its boundary. -/
def KeepsQueued (s s' : State) : Prop := ∀ i v, s.find i = some v → ∃ v', s'.find i = some v' ∧ v'.settled = v.settled

theorem KeepsQueued.refl (s : State) : KeepsQueued s s := fun _ v hv => ⟨v, hv, rfl⟩

theorem KeepsQueued.of_find {s s' : State} (h : ∀ i, s'.find i = s.find i) : KeepsQueued s s' := fun i v hv => ⟨v, (h i).trans hv, rfl⟩

theorem ensureFrame_keepsQueued {s s' : State} {t : Thread} (ht : s.find t.id = some t) (h : s.ensureFrame t = .ok s') :
    KeepsQueued s s' := by
  unfold State.ensureFrame at h
  split at h
  · exact Except.ok.inj h ▸ KeepsQueued.refl s
  next hplaced =>
    split at h
    · cases h
    next l _ =>
      obtain rfl := Except.ok.inj h
      have hquiet : Quiet s (((s.settleHeld t.id).unpoisonNoted t l).touch (dieOf t.core) t.id.sdom (frameAddr t.id.handle) false) :=
        (((Quiet.refl s).settleHeld _).unpoisonNoted ..).touch ..
      intro i v hv
      by_cases hi : i = t.id
      · subst hi
        obtain rfl := Option.some.inj (ht.symm.trans hv)
        exact ⟨_, find_put_of_find hquiet.threads ht rfl, rfl⟩
      · refine ⟨v, (find_put_ne (by exact hi)).trans ((hquiet.find i).trans hv), rfl⟩

theorem syncFrame_keepsQueued (s : State) (sdom va : Nat) (g : Target) : KeepsQueued s (s.syncFrame sdom va g) := by
  unfold State.syncFrame
  split
  · exact KeepsQueued.refl s
  · split
    · split
      next u hu =>
        split
        next hframe =>
          have hself : s.find u.id = some u := find_id hu ▸ hu
          exact ensureFrame_keepsQueued hself hframe
        next => exact KeepsQueued.refl s
      next => exact KeepsQueued.of_find ((Quiet.refl s).settleHeld _).find
    · exact KeepsQueued.refl s

theorem frameNamed_keepsQueued {s s1 : State} {t : Thread} {n : Nat} {w : Bool} {h : Tid} (e : s.frameNamed t n w = .ok (s1, h)) :
    KeepsQueued s s1 := by
  unfold State.frameNamed at e
  split at e
  · cases e
  · split at e
    · cases e
    · injection e with e
      injection e with e
      exact e ▸ syncFrame_keepsQueued _ _ _ _

theorem handleArg_keepsQueued {s s1 : State} {t : Thread} {a : Reg} {w : Bool} {h : Tid} (e : s.handleArg t a w = .ok (s1, h)) :
    KeepsQueued s s1 := by
  unfold State.handleArg at e
  split at e
  · exact frameNamed_keepsQueued e
  · cases e

/-- A handle operand that is 0 or has a bit outside the handle (16 R350). -/
theorem handleOk_eq_false {x : Word} (h : x = 0 ∨ x.extractLsb' 47 17 ≠ 0) : handleOk x = false := by
  rw [handleOk, Bool.and_eq_false_iff]
  rcases h with rfl | h
  · exact .inr rfl
  · left
    rw [wbits_eq_toNat_extractLsb' x 16 47]
    exact beq_eq_false_iff_ne.2 fun h0 => h (BitVec.eq_of_toNat_eq h0)

theorem handleArg_of_bad {s : State} {t : Thread} {a : Reg} (h : t.rd a.toNat = 0 ∨ (t.rd a.toNat).extractLsb' 47 17 ≠ 0) (w : Bool) :
    s.handleArg t a w = .error (.fault (.plain .threadOperand (t.rd a.toNat))) := by
  rw [State.handleArg, if_neg (by rw [handleOk_eq_false h]; decide)]
  rfl

section
variable {s s1 : State} {t : Thread} {i : Instr} {k : State → Thread → Except Stop State} (hexec : exec i s = word i s k)
include hexec

/-- A word that completes its thread as it stands once the frame it named is loaded. -/
theorem yields_of_again {v : Thread → Thread} (hk : k s t = .ok (s1.retire (v (s1.again t)))) (hkept : KeepsQueued s s1)
    (hid : ∀ u, (v u).id = u.id) (hpc : ∀ u, (v u).pc = u.pc) (hsettled : ∀ u, (v u).settled = u.settled) :
    Yields s t i (s1.put { v (s1.again t) with pc := (s1.again t).pc + 4 }) := fun hi => by
  obtain ⟨u, hu, huset⟩ := hkept t.id t (issues_find hi)
  have hagain : s1.again t = u := by rw [State.again, hu, Option.getD_some]
  rw [State.retire, hpc, hagain] at hk
  rw [hagain]
  exact yields_of_ok hexec hk (find_put_of_find rfl hu ((hid u).trans (find_id hu))) ((hsettled u).trans huset) hi

/-- A word that holds its thread until its reply (16 R351). -/
theorem yields_of_hold {p : Pend} {w : Nat} (hk : k s t = .ok (s1.hold (s1.again t) w p)) (hkept : KeepsQueued s s1) :
    Yields s t i (s1.put { s1.again t with st := .blocked .empty, pend := some p, iword := w }) := fun hi => by
  obtain ⟨u, hu, huset⟩ := hkept t.id t (issues_find hi)
  have hagain : s1.again t = u := by rw [State.again, hu, Option.getD_some]
  rw [hagain] at hk ⊢
  exact yields_of_ok hexec hk (find_put_of_find rfl hu (find_id (t := u) hu)) huset hi

end

end Sys2Proof.Proofs

/-! PROOF. SPAWN, CALLAT, SEND, RESUME, KILL and EXIT up to their replies (16 R350 to R359, R367, R368). -/
namespace Sys2Proof.Proofs
open Sys2Proof.Machine Sys2Proof.Laws

/-! SPAWN and CALLAT (16 R352, R353). -/

/-- The task entry that SPAWN or CALLAT asks for. -/
def taskEntry (t : Thread) (d a : Reg) (k : BitVec 4) (callat : Bool) : TaskEnt :=
  { pc := t.rd a.toNat
    args := if k = 0 then [0, 0, 0, 0] else [t.rd (4 * k.toNat), t.rd (4 * k.toNat + 1), t.rd (4 * k.toNat + 2), t.rd (4 * k.toNat + 3)]
    region := t.region, home := t.home, sdom := t.id.sdom, lines := ((t.rd d.toNat).extractLsb' 47 2).toNat + 1
    handle := ((t.rd d.toNat).extractLsb' 0 47).toNat
    caller := BitVec.ofNat 64 (t.id.handle + if callat then 2 ^ 63 else 0), from' := t.id, parked := false }

theorem spawnInstr_of_ok {s : State} {t : Thread} {d a : Reg} {k : BitVec 4} (h : s.taskOk t (t.rd d.toNat) (t.rd a.toNat) = true) (w : Nat)
    (callat : Bool) : s.spawnInstr t w d a k callat = .ok (s.hold t w (.spawn
      (if (t.rd d.toNat).getLsbD 49 then t.core else ((t.rd d.toNat).extractLsb' 50 11).toNat) (taskEntry t d a k callat))) := by
  have hargs : (if k = 0 then [0, 0, 0, 0] else (argGroup k.toNat).map t.rd) = (taskEntry t d a k callat).args := by
    unfold taskEntry argGroup
    by_cases hk : k = 0
    · rw [if_pos hk]
      exact (if_pos hk).symm
    · have hk0 : ¬ k.toNat = 0 := fun h0 => hk (BitVec.eq_of_toNat_eq h0)
      rw [if_neg hk, if_neg hk0]
      exact (if_neg hk).symm
  have hcaller : t.id.handle + b2n callat * 2 ^ 63 = t.id.handle + if callat then 2 ^ 63 else 0 := by cases callat <;> simp [b2n]
  have hlow := wbits_eq_toNat_extractLsb' (t.rd d.toNat) 46 0
  have hlines := wbits_eq_toNat_extractLsb' (t.rd d.toNat) 1 47
  have hcore := wbits_eq_toNat_extractLsb' (t.rd d.toNat) 10 50
  simp only [Nat.zero_add, Nat.reduceAdd] at hlow hlines hcore
  simp only [State.spawnInstr, h, Bool.not_true, Bool.false_eq_true, if_false, bit_eq_testBit, hargs, hcaller, hlow, hlines, hcore]
  rfl

section
variable {s : State} {t : Thread} {i : Instr} {d a : Reg} {k : BitVec 4} {callat : Bool}
  (hexec : exec i s = word i s fun s t => s.spawnInstr t (wordOf i) d a k callat)
include hexec

theorem yields_of_spawn (h : s.taskOk t (t.rd d.toNat) (t.rd a.toNat) = true) :
    Yields s t i (s.put { t with st := .blocked .empty, iword := wordOf i
                                 pend := some (.spawn (if (t.rd d.toNat).getLsbD 49 then t.core else ((t.rd d.toNat).extractLsb' 50 11).toNat)
                                   (taskEntry t d a k callat)) }) := fun hi =>
  yields_of_ok hexec (spawnInstr_of_ok h ..) (find_put_of_find rfl (issues_find hi) rfl) rfl hi

theorem parks_of_spawn (h : s.taskOk t (t.rd d.toNat) (t.rd a.toNat) = false) : Parks s t i (.plain .taskOperand (t.rd d.toNat)) :=
  parks_of_fault hexec (if_pos (by rw [h]; rfl))

end

/-! SEND (16 R356). -/

section
variable {s s1 : State} {t : Thread} {d a b : Reg} {h : Tid}

/-- The fields of SEND's operand. -/
theorem send_fields (w : Word) : wbits w 46 0 = (w.extractLsb' 0 47).toNat ∧ wbits w 63 48 = (w.extractLsb' 48 16).toNat ∧
    bit w.toNat 47 = w.getLsbD 47 :=
  ⟨wbits_eq_toNat_extractLsb' w 46 0, wbits_eq_toNat_extractLsb' w 15 48, bit_eq_testBit ..⟩

theorem toNat_eq_zero_iff {n : Nat} (w : BitVec n) : w.toNat = 0 ↔ w = 0 := ⟨fun h => BitVec.eq_of_toNat_eq h, fun h => by rw [h]; rfl⟩

theorem send_noThread (h : (t.rd a.toNat).extractLsb' 0 47 = 0) : Parks s t (.send d a b) (.plain .threadOperand (t.rd a.toNat)) := by
  obtain ⟨hlow, -, -⟩ := send_fields (t.rd a.toNat)
  exact parks_of_fault (execSend.eq_def d a b s) (if_pos (hlow.trans ((toNat_eq_zero_iff _).2 h)))

theorem send_noMessage (hthread : (t.rd a.toNat).extractLsb' 0 47 ≠ 0)
    (htag : (t.rd a.toNat).getLsbD 47 = true ∨ 0xFFF0 ≤ ((t.rd a.toNat).extractLsb' 48 16).toNat) :
    Parks s t (.send d a b) (.plain .messageOperand (t.rd a.toNat)) := by
  obtain ⟨hlow, hhigh, hbit⟩ := send_fields (t.rd a.toNat)
  have hnamed : ¬ wbits (t.rd a.toNat) 46 0 = 0 := fun h0 => hthread ((toNat_eq_zero_iff _).1 (hlow.symm.trans h0))
  have hbad : (bit (t.rd a.toNat).toNat 47 || decide (0xFFF0 ≤ wbits (t.rd a.toNat) 63 48)) = true := by
    rw [hhigh, hbit, Bool.or_eq_true]
    exact htag.imp_right decide_eq_true
  exact parks_of_fault (execSend.eq_def d a b s) ((if_neg hnamed).trans (if_pos hbad))

theorem send_holds (hthread : (t.rd a.toNat).extractLsb' 0 47 ≠ 0) (hclear : (t.rd a.toNat).getLsbD 47 = false)
    (htag : ((t.rd a.toNat).extractLsb' 48 16).toNat < 0xFFF0)
    (hframe : s.frameNamed t ((t.rd a.toNat).extractLsb' 0 47).toNat true = .ok (s1, h)) :
    Yields s t (.send d a b) (s1.put { s1.again t with
      st := .blocked .empty, iword := wordOf (.send d a b)
      pend := some (.send h ((t.rd a.toNat).extractLsb' 48 16).toNat (t.rd b.toNat) d.toNat) }) := by
  obtain ⟨hlow, hhigh, hbit⟩ := send_fields (t.rd a.toNat)
  have hnamed : ¬ wbits (t.rd a.toNat) 46 0 = 0 := fun h0 => hthread ((toNat_eq_zero_iff _).1 (hlow.symm.trans h0))
  have hgood : ¬ (bit (t.rd a.toNat).toNat 47 || decide (0xFFF0 ≤ wbits (t.rd a.toNat) 63 48)) = true := by
    rw [hhigh, hbit, hclear, Bool.false_or, decide_eq_true_eq]
    exact Nat.not_le.2 htag
  refine yields_of_hold (i := .send d a b) (execSend.eq_def d a b s) ?_ (frameNamed_keepsQueued hframe)
  rw [← hlow] at hframe
  rw [hhigh] at hgood
  simp only [if_neg hnamed, hhigh, if_neg hgood, hframe]

end

/-! RESUME and KILL (16 R367, R368). -/

section
variable {s s1 : State} {t u : Thread} {i : Instr} {a : Reg} {h : Tid} {p : Tid → Pend}
  (hexec : exec i s = word i s fun s t => s.controlInstr t (wordOf i) a p)
include hexec

theorem yields_of_control (hent : ∀ u, s.named { sdom := t.id.sdom, handle := (t.rd a.toNat).toNat } = some u → s.entitled t u = true)
    (hhandle : s.handleArg t a true = .ok (s1, h)) :
    Yields s t i (s1.put { s1.again t with st := .blocked .empty, pend := some (p h), iword := wordOf i }) := by
  refine yields_of_hold hexec ?_ (handleArg_keepsQueued hhandle)
  cases hnamed : s.named { sdom := t.id.sdom, handle := (t.rd a.toNat).toNat } with
  | none => simp only [State.controlInstr, hnamed, hhandle]
  | some u => simp only [State.controlInstr, hnamed, hent u hnamed, if_true, hhandle]

theorem control_privilege (hnamed : s.named { sdom := t.id.sdom, handle := (t.rd a.toNat).toNat } = some u)
    (hent : s.entitled t u = false) (hchain : s.chainWaits (dieOf t.core) u.home 9 u.region = false) :
    Parks s t i (.plain .privilege 0) := by
  refine parks_of_fault hexec ?_
  simp only [State.controlInstr, hnamed, hent, hchain, Bool.false_eq_true, if_false]
  rfl

theorem control_noThread (hbad : t.rd a.toNat = 0 ∨ (t.rd a.toNat).extractLsb' 47 17 ≠ 0)
    (hnone : s.find { sdom := t.id.sdom, handle := (t.rd a.toNat).toNat } = none) : Parks s t i (.plain .threadOperand (t.rd a.toNat)) := by
  have hnamed : s.named { sdom := t.id.sdom, handle := (t.rd a.toNat).toNat } = none := by
    simp only [State.named, hnone]
  refine parks_of_fault hexec ?_
  simp only [State.controlInstr, hnamed, handleArg_of_bad hbad]

end

/-- No live thread has a handle that is 0 or beyond its 47 bits. -/
theorem find_of_badHandle {s : State} (hs : ∀ u ∈ s.threads, u.id.handle ≠ 0 ∧ u.id.handle < 2 ^ 47) {w : Word}
    (hbad : w = 0 ∨ w.extractLsb' 47 17 ≠ 0) (sdom : Nat) : s.find { sdom := sdom, handle := w.toNat } = none := by
  cases hfind : s.find { sdom := sdom, handle := w.toNat } with
  | none => rfl
  | some u =>
    obtain ⟨hpos, hlt⟩ := hs u (mem_of_find hfind)
    have hid : u.id.handle = w.toNat := by rw [find_id hfind]
    rcases hbad with rfl | hhigh
    · exact absurd hid hpos
    · refine absurd (BitVec.eq_of_toNat_eq (x := w.extractLsb' 47 17) (y := 0) ?_) hhigh
      rw [BitVec.extractLsb'_toNat, Nat.shiftRight_eq_div_pow, ← hid, Nat.div_eq_of_lt hlt]
      rfl

/-! EXIT with a return message (16 R359). -/

theorem exit_holds {s s1 : State} {t : Thread} {h : Tid} (hgang : t.gang = none) (hback : (t.rd 1).getLsbD 63 = true)
    (hthread : (t.rd 1).extractLsb' 0 47 ≠ 0) (hframe : s.frameNamed t ((t.rd 1).extractLsb' 0 47).toNat true = .ok (s1, h)) :
    Yields s t .exit (s1.put { s1.again t with st := .blocked .empty, pend := some .exit, iword := wordOf .exit }) := by
  have hlow : wbits (t.rd 1) 46 0 = ((t.rd 1).extractLsb' 0 47).toNat := wbits_eq_toNat_extractLsb' (t.rd 1) 46 0
  have hsends : (bit (t.rd 1).toNat 63 && wbits (t.rd 1) 46 0 != 0) = true := by
    rw [hlow, Bool.and_eq_true]
    exact ⟨(bit_eq_testBit ..).trans hback, bne_iff_ne.2 fun h0 => hthread ((toNat_eq_zero_iff _).1 h0)⟩
  refine yields_of_hold (i := .exit) (execExit.eq_def s) ?_ (frameNamed_keepsQueued hframe)
  rw [← hlow] at hframe
  simp only [hgang, Option.isSome_none, Bool.false_eq_true, if_false, hsends, if_true, hframe]

/-- Settles O21: each instruction by its operands, and those with a target by who may act on it. -/
theorem requestsIssue : Obligations.RequestsIssue := by
  intro s s1 t u d a b k h h1 held held1 task entry core w back target
  refine ⟨fun hok => ⟨?_, ?_⟩, fun hbad => ⟨?_, ?_⟩, fun hthread hclear htag hframe => send_holds hthread hclear htag hframe, send_noThread,
    send_noMessage, fun hent hhandle => ⟨?_, ?_⟩, fun hnamed hent hchain => ⟨?_, ?_⟩, fun hbad hs => ⟨?_, ?_⟩, exit_holds⟩
  · exact yields_of_spawn (callat := false) (execSpawn.eq_def d a k s) hok
  · exact yields_of_spawn (callat := true) (execCallat.eq_def d a k s) hok
  · exact parks_of_spawn (execSpawn.eq_def d a k s) hbad
  · exact parks_of_spawn (execCallat.eq_def d a k s) hbad
  · exact yields_of_control (i := .resume d a) (execResume.eq_def d a s) hent hhandle
  · exact yields_of_control (i := .kill d a) (execKill.eq_def d a s) hent hhandle
  · exact control_privilege (i := .resume d a) (execResume.eq_def d a s) hnamed hent hchain
  · exact control_privilege (i := .kill d a) (execKill.eq_def d a s) hnamed hent hchain
  · exact control_noThread (i := .resume d a) (execResume.eq_def d a s) hbad (find_of_badHandle hs hbad _)
  · exact control_noThread (i := .kill d a) (execKill.eq_def d a s) hbad (find_of_badHandle hs hbad _)

end Sys2Proof.Proofs

/-! PROOF. WAKE, MIGR, PRIO and THR (16 R363 to R366). -/
namespace Sys2Proof.Proofs
open Sys2Proof.Machine Sys2Proof.Laws

section
variable {s s1 : State} {t u : Thread} {d a : Reg} {h : Tid} {c : Nat}

/-! WAKE (16 R363). -/

/-- A thread whose WAIT or SLEEP ends: a watched word is delivered as a load of the thread returns it (16 R360, R361). -/
def waitEnded (s : State) (u : Thread) : Thread := match u.cond with
  | some (.watch pa _ reg) => s.waitOver (u.wr reg (s.viewWord u pa)) [reg]
  | _ => s.waitOver u

theorem waitEnded_id (s : State) (u : Thread) : (waitEnded s u).id = u.id := by
  unfold waitEnded
  split
  · exact (noted_id ..).trans (wr_id ..)
  · exact noted_id ..

theorem endWaitKind_eq (s : State) (u : Thread) : s.endWaitKind u = s.put (waitEnded s u) := by
  by_cases hwatch : ∃ pa val reg, u.cond = some (.watch pa val reg)
  · obtain ⟨pa, val, reg, hcond⟩ := hwatch
    simp only [State.endWaitKind, waitEnded, hcond]
    exact completeWait_eq_waitOver ..
  · have hended : waitEnded s u = s.waitOver u := by
      unfold waitEnded
      split
      next hcond => exact absurd ⟨_, _, _, hcond⟩ hwatch
      next => rfl
    rw [hended, State.endWaitKind]
    split
    next hcond => exact absurd ⟨_, _, _, hcond⟩ hwatch
    next => exact completeWait_eq_waitOver ..

theorem wake_noThread (hbad : t.rd a.toNat = 0 ∨ (t.rd a.toNat).extractLsb' 47 17 ≠ 0) :
    Parks s t (.wake d a) (.plain .threadOperand (t.rd a.toNat)) :=
  parks_of_fault (execWake.eq_def d a s) (by simp only [handleArg_of_bad hbad])

theorem wake_ends (hhandle : s.handleArg t a true = .ok (s1, h)) (hfind : s1.find h = some u) (hst : u.st = .waiting .wait) (hne : h ≠ t.id) :
    Yields s t (.wake d a) ((s1.put (waitEnded s1 u)).put { (s1.again t).produce (oneFill d.toNat 1) with pc := (s1.again t).pc + 4 }) :=
  fun hi => by
  obtain ⟨v, hv, hvset⟩ := handleArg_keepsQueued hhandle t.id t (issues_find hi)
  have hagain : s1.again t = v := by rw [State.again, hv, Option.getD_some]
  have hother : t.id ≠ (waitEnded s1 u).id := by rw [waitEnded_id, find_id hfind]; exact hne.symm
  have hkept : (s1.put (waitEnded s1 u)).find t.id = some v := (find_put_ne hother).trans hv
  have hagain' : (s1.put (waitEnded s1 u)).again t = v := by rw [State.again, hkept, Option.getD_some]
  rw [hagain]
  refine yields_of_ok (execWake.eq_def d a s) ?_ (find_put_of_find rfl hkept ((produce_id ..).trans (find_id hv)))
    ((produce_settled ..).trans hvset) hi
  simp only [hhandle, hfind, hst, if_true, endWaitKind_eq, State.retire, produce_pc, hagain']
  rfl

/-! MIGR (16 R364). -/

theorem migr_stays (htarget : s.migrTarget (t.rd a.toNat) = some t.core) (hgang : t.gang = none) : Completes s t (.migr a) t :=
  completes_of_retire (execMigr.eq_def a s) (by simp only [htarget, hgang, Option.isSome_none, Bool.false_eq_true, if_false, if_true])
    rfl rfl rfl

/-- MIGR to another core gives up the slot, and the thread is READY on that core. -/
theorem migr_moves (htarget : s.migrTarget (t.rd a.toNat) = some c) (hgang : t.gang = none) (hcore : c ≠ t.core) (hd : s.drained t)
    (hstuck : s.stuck t = false) (hi : Issues s t (.migr a)) :
    ∃ s', exec (.migr a) s = .next s' ∧ OthersSame s s' t.id ∧
      s'.find t.id = some { leftSlot { t with pc := t.pc + 4 } s.tick with core := c } := by
  have ht := issues_find hi
  obtain ⟨u, hu⟩ : ∃ u : Thread, u = { t with pc := t.pc + 4 } := ⟨_, rfl⟩
  have huid : u.id = t.id := by rw [hu]
  have hretire : s.retire t = s.put u := by rw [hu]; rfl
  have hready : (s.put u).toReady u = (((s.put u).put u).releaseSlot u).1.put (leftSlot u s.tick) :=
    toReady_of_drained (by rw [huid]; exact find_put_of_find rfl ht huid) (by rw [hu]; exact hd)
  have hquiet := (Quiet.refl ((s.put u).put u)).releaseSlot u
  have hothers : ∀ j, j ≠ t.id → (((s.put u).put u).releaseSlot u).1.find j = s.find j := fun j hj => by
    rw [hquiet.find, put_put rfl, find_put_ne (t := u) (huid ▸ hj)]
  have hself : (((s.put u).put u).releaseSlot u).1.find t.id = some u := by
    rw [hquiet.find, put_put rfl]
    exact find_put_of_find rfl ht huid
  have hfound : ((s.put u).toReady u).find t.id = some (leftSlot u s.tick) := by
    rw [hready]
    exact find_put_of_find rfl hself huid
  have hagain : ((s.put u).toReady u).again t = leftSlot u s.tick := by rw [State.again, hfound, Option.getD_some]
  have hlast : (((s.put u).toReady u).put { leftSlot u s.tick with core := c }).find t.id = some { leftSlot u s.tick with core := c } :=
    find_put_of_find rfl hfound huid
  refine ⟨_, (execMigr.eq_def a s).trans (word_next hi (s' := ((s.put u).toReady u).put { leftSlot u s.tick with core := c })
    ?_ hlast (by rw [hu]; exact hi.2.2)), fun j hj => ?_, ?_⟩
  · have hmember : t.gang.isSome = false := by rw [hgang]; rfl
    simp only [htarget, hmember, Bool.false_eq_true, if_false, if_neg hcore, hstuck, hretire]
    rw [← hu, hagain]
  · rw [find_commitFresh, find_put_ne (t := { leftSlot u s.tick with core := c }) (by exact huid ▸ hj), hready,
      find_put_ne (t := leftSlot u s.tick) (by exact huid ▸ hj), hothers j hj]
  · rw [find_commitFresh, hlast, hu]

end

/-- Settles O24: WAKE, MIGR, PRIO and THR by their operands and the thread named. -/
theorem threadControlResults : Obligations.ThreadControlResults := by
  intro s s1 t u d a h c w fill filled x v rp
  refine ⟨wake_noThread, fun hhandle => ⟨fun hnone => ?_, fun hfind hst => ?_, fun hfind hst hne => wake_ends hhandle hfind hst hne⟩,
    fun htarget => ?_, fun htarget hgang => ?_, fun htarget hgang hcore => migr_stays (hcore ▸ htarget) hgang,
    fun htarget hgang hcore hd hstuck hi => migr_moves htarget hgang hcore hd hstuck hi, fun hv => ?_, fun hv => ?_, fun hlow hv => ?_,
    fun hx => ?_, fun hbad => ?_, fun hx hhandle => ⟨fun hclean => ?_, fun hpoison => ?_⟩⟩
  · refine yields_of_again (i := .wake d a) (v := fun u => u.produce (fill 0)) (execWake.eq_def d a s) ?_ (handleArg_keepsQueued hhandle)
      (fun _ => produce_id ..) (fun _ => produce_pc ..) (fun _ => produce_settled ..)
    simp only [hhandle, hnone]
    rfl
  · refine yields_of_again (i := .wake d a) (v := fun u => u.produce (fill 0)) (execWake.eq_def d a s) ?_ (handleArg_keepsQueued hhandle)
      (fun _ => produce_id ..) (fun _ => produce_pc ..) (fun _ => produce_settled ..)
    simp only [hhandle, hfind, if_neg hst]
    rfl
  · exact parks_of_fault (execMigr.eq_def a s) (by simp only [show s.migrTarget (t.rd a.toNat) = none from htarget]; rfl)
  · exact parks_of_fault (execMigr.eq_def a s) (by simp only [show s.migrTarget (t.rd a.toNat) = some c from htarget, hgang, if_true]; rfl)
  · exact completes_of_retire (execPrio.eq_def a s) (if_pos hv) rfl rfl rfl
  · have hother : ¬ v = 0xFF := by omega
    exact completes_of_retire (execPrio.eq_def a s) ((if_neg hother).trans (if_pos hv)) rfl rfl rfl
  · exact parks_of_fault (execPrio.eq_def a s) ((if_neg hv).trans (if_neg (Nat.not_le.2 hlow)))
  · exact fills_of_retire (execThr.eq_def d a s) (if_pos hx)
  · have hx : ¬ t.rd a.toNat = 0 := fun h0 => hbad (by show (t.rd a.toNat).extractLsb' 47 17 = 0; rw [h0]; rfl)
    exact parks_of_fault (execThr.eq_def d a s) ((if_neg hx).trans (by rw [handleArg_of_bad (.inr hbad)]))
  · refine yields_of_again (i := .thr d a) (v := fun y => y.produce (fill (match s1.find h with | some u => u.stateWord | none => 0)))
      (execThr.eq_def d a s) ((if_neg hx).trans ?_) (handleArg_keepsQueued hhandle)
      (fun _ => produce_id ..) (fun _ => produce_pc ..) (fun _ => produce_settled ..)
    simp only [hhandle, show s1.ctlPoison t (t.rd a.toNat).toNat = none from hclean]
    rfl
  · refine yields_of_again (i := .thr d a) (v := fun y => y.produce { fill 0 with bad := some (.poisonedData, .load, BitVec.ofNat 64 w) })
      (execThr.eq_def d a s) ((if_neg hx).trans ?_) (handleArg_keepsQueued hhandle)
      (fun _ => produce_id ..) (fun _ => produce_pc ..) (fun _ => produce_settled ..)
    simp only [hhandle, show s1.ctlPoison t (t.rd a.toNat).toNat = some w from hpoison]
    rfl

end Sys2Proof.Proofs

/-! PROOF. The replies to SPAWN, CALLAT, SEND, RESUME, KILL and EXIT (16 R351 to R359, R367; 15 R338 to R340). -/
namespace Sys2Proof.Proofs
open Sys2Proof.Machine Sys2Proof.Laws

/-! Deliveries, negative acknowledgements and events counted. -/

/-- A thread with a message more in its inbox (15 R340). -/
def withMsg (u : Thread) (m : Msg) : Thread :=
  { u with incnt := u.incnt + 1, msgs := u.msgs.setIfInBounds ((u.inhead + u.incnt) % 4) m }

theorem deliver_of_no_wait {s : State} {u : Thread} (hcond : u.cond = none) (m : Msg) : s.deliver u m = s.put (withMsg u m) := by
  unfold State.deliver
  split
  next hrecv => exact absurd (hcond.symm.trans hrecv) nofun
  next => rfl

theorem taskq_tally (s : State) (core : Nat) (dom : Option Nat) (code n c : Nat) :
    ((s.tally core dom code n).core c).taskq = (s.core c).taskq := by
  unfold State.tally
  dsimp only
  split
  · rw [core_setCore]
    split
    next hc => rw [hc]
    next => rfl
  · rfl

/-- A thread that a negative acknowledgement turns away (15 R339). -/
def turnedAway (s : State) (t : Thread) : Thread :=
  { t with pend := none, st := .blocked .feretry, retryAt := (s.core t.core).cycle + 256 }

theorem quiet_replyNack (s : State) (t : Thread) : Quiet (s.put (turnedAway s t)) (s.replyNack t) :=
  ((Quiet.refl _).tally ..).tally ..

theorem taskq_replyNack (s : State) (t : Thread) (c : Nat) : ((s.replyNack t).core c).taskq = (s.core c).taskq :=
  (taskq_tally ..).trans (taskq_tally ..)

theorem find_replyNack {s : State} {t : Thread} (h : s.find t.id = some t) : (s.replyNack t).find t.id = some (turnedAway s t) :=
  ((quiet_replyNack s t).find _).trans (find_put_of_find (u := turnedAway s t) rfl h rfl)

theorem find_replyNack_ne {s : State} {t : Thread} {j : Tid} (hj : j ≠ t.id) : (s.replyNack t).find j = s.find j :=
  ((quiet_replyNack s t).find _).trans (find_put_ne (t := turnedAway s t) hj)

/-- A thread whose KILL took effect, and that waits for the message alone (16 R367). -/
def killHolds (t : Thread) (reg : Nat) : Thread := { t with pend := some (.killHeld reg) }

theorem wr_killHolds (t : Thread) (reg n : Nat) (v : Word) : (killHolds t reg).wr n v = killHolds (t.wr n v) reg := by
  by_cases hn : n = 0 ∨ t.count ≤ n
  · have hheld : n = 0 ∨ (killHolds t reg).count ≤ n := hn
    rw [Thread.wr, if_pos hheld, Thread.wr, if_pos hn]
  · have hheld : ¬ (n = 0 ∨ (killHolds t reg).count ≤ n) := hn
    rw [Thread.wr, if_neg hheld, Thread.wr, if_neg hn]
    rfl

theorem answered_killHolds (t : Thread) (reg n : Nat) (v : Word) : answered (killHolds t reg) [(n, v)] = answered t [(n, v)] := by
  unfold answered
  rw [List.foldl_cons, List.foldl_nil, List.foldl_cons, List.foldl_nil, wr_killHolds]
  rfl

/-! The step. -/

section
variable {s : State} {i h : Tid} {t u : Thread} {core tag reg : Nat} {e : TaskEnt} {val : Word}
  (hfind : s.find i = some t) (hsettled : t.settled = true) (hgroup : s.groupFirst t = true)

section
include hfind hgroup

theorem instructionReply_of_find : exec (.instructionReply i) s = .next (match t.pend with
    | some (.spawn core e) => s.spawnReply t core e
    | some (.send h tag val reg) => s.sendReply t h tag val reg
    | some (.resume h reg) => s.resumeReply t h reg
    | some (.kill h reg) => s.killReply t h reg
    | some .exit => s.exitReply t
    | _ => s) := by
  show execInstructionReply i s = _
  simp only [execInstructionReply, event, hfind, hgroup, Bool.not_true, Bool.false_eq_true, if_false] <;> rfl

theorem reply_of_spawn (hpend : t.pend = some (.spawn core e)) : exec (.instructionReply i) s = .next (s.spawnReply t core e) := by
  rw [instructionReply_of_find hfind hgroup, hpend]

theorem reply_of_send (hpend : t.pend = some (.send h tag val reg)) :
    exec (.instructionReply i) s = .next (s.sendReply t h tag val reg) := by
  rw [instructionReply_of_find hfind hgroup, hpend]

theorem reply_of_resume (hpend : t.pend = some (.resume h reg)) : exec (.instructionReply i) s = .next (s.resumeReply t h reg) := by
  rw [instructionReply_of_find hfind hgroup, hpend]

theorem reply_of_kill (hpend : t.pend = some (.kill h reg)) : exec (.instructionReply i) s = .next (s.killReply t h reg) := by
  rw [instructionReply_of_find hfind hgroup, hpend]

theorem reply_of_exit (hpend : t.pend = some .exit) : exec (.instructionReply i) s = .next (s.exitReply t) := by
  rw [instructionReply_of_find hfind hgroup, hpend]

end

include hfind

/-! SPAWN and CALLAT (15 R338, R339). -/

include hsettled in
theorem spawnReply_of_room (hon : s.coreOn core = true)
    (horder : orderedArrival (s.core core).arrived (s.core core).cycle t.core = true)
    (hroom : (s.core core).taskRes.admits (s.core core).taskq.length 64 i = true) :
    s.spawnReply t core e = (s.setCore core { s.core core with
      arrived := some ((s.core core).cycle, t.core), taskq := (s.core core).taskq ++ [e]
      taskRes := (s.core core).taskRes.accepted i }).put (answered t []) := by
  obtain rfl := find_id hfind
  have hrefuge : s.refuge core = core := if_pos hon
  simp only [State.spawnReply, hrefuge, horder, hroom, Bool.not_true, Bool.false_eq_true, if_false, if_true]
  exact replyDone_of_settled (s := s.setCore core _) hfind hsettled []

theorem spawnReply_of_full (hon : s.coreOn core = true)
    (horder : orderedArrival (s.core core).arrived (s.core core).cycle t.core = true)
    (hfull : (s.core core).taskRes.admits (s.core core).taskq.length 64 i = false) :
    (s.spawnReply t core e).find i = some (turnedAway s t) ∧ ((s.spawnReply t core e).core core).taskq = (s.core core).taskq := by
  obtain rfl := find_id hfind
  have hrefuge : s.refuge core = core := if_pos hon
  obtain ⟨s1, hs1⟩ : ∃ s1, s1 = s.setCore core { s.core core with
      arrived := some ((s.core core).cycle, t.core)
      taskRes := (s.core core).taskRes.nacked (s.core core).taskq.length 64 t.id } := ⟨_, rfl⟩
  have hreply : s.spawnReply t core e = s1.replyNack t := by
    simp only [State.spawnReply, hrefuge, horder, hfull, Bool.not_true, Bool.false_eq_true, if_false, hs1]
  have hcycle : turnedAway s1 t = turnedAway s t := by
    have hq : Quiet s s1 := hs1 ▸ (Quiet.refl s).setCore rfl
    rw [turnedAway, turnedAway, hq.cycle]
  have hfind1 : s1.find t.id = some t := hs1 ▸ hfind
  rw [hreply, find_replyNack hfind1, hcycle, taskq_replyNack, hs1, core_setCore, if_pos rfl]
  exact ⟨rfl, rfl⟩

/-! SEND (16 R356). -/

section
include hsettled

theorem sendReply_of_none (hnone : s.find h = none) : s.sendReply t h tag val reg = s.put (answered t [(reg, 1)]) := by
  obtain rfl := find_id hfind
  simp only [State.sendReply, hnone]
  exact replyDone_of_settled hfind hsettled _

theorem sendReply_of_room (hne : h ≠ i) (hu : s.find h = some u) (hroom : u.incnt < 4) (hcond : u.cond = none) :
    s.sendReply t h tag val reg =
      (s.put (withMsg u { payload := val, src := t.id.handle, tag := tag })).put (answered t [(reg, 0)]) := by
  obtain rfl := find_id hfind
  obtain rfl := find_id hu
  simp only [State.sendReply, hu, if_pos hroom, deliver_of_no_wait hcond]
  exact replyDone_of_settled ((find_put_ne (t := withMsg u _) hne.symm).trans hfind) hsettled _

end

theorem sendReply_of_full (hne : h ≠ i) (hu : s.find h = some u) (hfull : 4 ≤ u.incnt) :
    (s.sendReply t h tag val reg).find i = some (turnedAway s t) ∧ (s.sendReply t h tag val reg).find h = some u := by
  obtain rfl := find_id hfind
  simp only [State.sendReply, hu, if_neg (Nat.not_lt.2 hfull)]
  exact ⟨find_replyNack hfind, (find_replyNack_ne hne).trans hu⟩

/-! RESUME (16 R367). -/

include hsettled

theorem resumeReply_of_faulted (hne : h ≠ i) (hu : s.find h = some u) (hst : u.st = .faulted) :
    (s.resumeReply t h reg).find i = some (answered t [(reg, 0)]) ∧
      (s.resumeReply t h reg).find h = some { u with st := .ready, fcause := 0, readySince := s.tick, aged := 0 } := by
  obtain rfl := find_id hfind
  obtain rfl := find_id hu
  obtain ⟨v, hv⟩ : ∃ v : Thread, v = { u with st := .ready, fcause := 0, readySince := s.tick, aged := 0 } := ⟨_, rfl⟩
  have hvid : v.id = u.id := by rw [hv]
  obtain ⟨c, hresumed⟩ : ∃ c, s.resumeThread u = (s.setCore u.core c).put v := ⟨_, by rw [hv]; rfl⟩
  have hself : ((s.setCore u.core c).put v).find t.id = some t := (find_put_ne (t := v) (hvid ▸ hne.symm)).trans hfind
  simp only [State.resumeReply, hu, if_pos hst, hresumed, replyDone_of_settled hself hsettled]
  have hid : (answered t [(reg, 0)]).id = t.id := wr_id ..
  exact ⟨find_put_of_find rfl hself hid, (find_put_ne (t := answered t [(reg, 0)]) (hid.symm ▸ hne)).trans
    ((find_put_of_find (s := s) rfl hu hvid).trans (congrArg some hv))⟩

theorem resumeReply_of_other (hother : ∀ u, s.find h = some u → u.st ≠ .faulted) :
    s.resumeReply t h reg = s.put (answered t [(reg, 1)]) := by
  obtain rfl := find_id hfind
  unfold State.resumeReply
  split
  next u hu =>
    rw [if_neg (hother u hu)]
    exact replyDone_of_settled hfind hsettled _
  next => exact replyDone_of_settled hfind hsettled _

/-! KILL (16 R367). -/

theorem killReply_of_none (hnone : s.find h = none) : s.killReply t h reg = s.put (answered t [(reg, 1)]) := by
  obtain rfl := find_id hfind
  simp only [State.killReply, hnone]
  exact replyDone_of_settled hfind hsettled _

omit hsettled in
theorem killReply_of_busy (hne : h ≠ i) (hu : s.find h = some u) (hbusy : s.mayLeave u = false) :
    s.killReply t h reg = s.put { u with killed := true } := by
  obtain rfl := find_id hfind
  have hother : ¬ u.id = t.id := by rw [find_id hu]; exact hne
  simp only [State.killReply, hu, if_neg hother, hbusy, Bool.not_false, if_true]

omit hsettled in
theorem killWaiting_of_kill (hpend : t.pend = some (.kill h reg)) : s.killWaiting (some i) = s.put (killHolds t reg) := by
  simp only [State.killWaiting, Option.bind_some, hfind, hpend] <;> rfl

omit hsettled in
/-- The KILL that holds no message completes with 0. -/
theorem killCompletes_of_held (hheld : t.pend = some (.killHeld reg)) (hslot : t.slot.isSome = true) :
    s.killCompletes (some i) = s.put (answered t [(reg, 0)]) := by
  simp only [State.killCompletes, Option.bind_some, hfind, hheld]
  exact if_pos ((congrArg Option.isSome (wr_slot ..)).trans hslot)

omit hsettled in
/-- A target at its boundary that names no thread for a message is DONE, and KILL completes. -/
theorem killReply_of_boundary (hpend : t.pend = some (.kill h reg)) (hne : h ≠ i) (hu : s.find h = some u) (hleave : s.mayLeave u = true)
    (hd : s.drained u) (hquiet : (u.rd 1).getLsbD 63 = false) (hslot : t.slot.isSome = true) (hs : s.unwatched) :
    (s.killReply t h reg).find h = none ∧ (s.killReply t h reg).find i = some (answered t [(reg, 0)]) := by
  obtain rfl := find_id hfind
  obtain rfl := find_id hu
  obtain ⟨s1, hs1⟩ : ∃ s1, s1 = ((s.put (killHolds t reg)).gangBreakReq u).dropRecords u.id := ⟨_, rfl⟩
  obtain ⟨u1, hu1⟩ : ∃ u1 : Thread, u1 = { u with asyncs := [], killed := false } := ⟨_, rfl⟩
  have hid1 : u1.id = u.id := by rw [hu1]
  have hthreads : s1.threads = (s.put (killHolds t reg)).threads := by rw [hs1]; rfl
  have hholds : s1.find t.id = some (killHolds t reg) :=
    (find_of_threads hthreads _).trans (find_put_of_find (u := killHolds t reg) rfl hfind rfl)
  have hwaits (v : Thread) (hv : s.find v.id = some v) : WatchesNothing v := unwatched_iff.1 hs v (mem_of_find hv)
  have hs1un : s1.unwatched := unwatched_of_threads
    (unwatched_put (w := killHolds t reg) hs (watchesNothing_of_cond (hwaits t hfind) rfl)) hthreads
  have hby : Bystanders u1.id s1 (s1.makeDone u1) :=
    bystanders_makeDone (by rw [hu1, hs1]; exact hd) hs1un (watchesNothing_of_cond (hwaits u hu) (by rw [hu1]))
  have hgone : (s1.makeDone u1).find u.id = none := hid1 ▸ find_makeDone s1 u1
  have hstays : (s1.makeDone u1).find t.id = some (killHolds t reg) := (hby.others t.id (hid1.symm ▸ hne.symm)).trans hholds
  have hbit : bit (u.rd 1).toNat 63 = false := (bit_eq_testBit ..).trans hquiet
  have hother : ¬ u.id = t.id := hne
  have hreply : s.killReply t u.id reg = (s1.makeDone u1).put (answered (killHolds t reg) [(reg, 0)]) := by
    simp only [State.killReply, hu, if_neg hother, hleave, Bool.not_true, Bool.false_eq_true, if_false,
      killWaiting_of_kill hfind hpend, State.killNow, hbit]
    rw [← hs1, ← hu1]
    exact killCompletes_of_held hstays rfl hslot
  have hid : (answered (killHolds t reg) [(reg, 0)]).id = t.id := wr_id ..
  rw [hreply, ← answered_killHolds t reg]
  exact ⟨(find_put_ne (t := answered (killHolds t reg) [(reg, 0)]) (hid.symm ▸ hne)).trans hgone, find_put_of_find rfl hstays hid⟩

/-! EXIT with a return message (16 R359). -/

omit hsettled in
theorem exitReply_of_room (hback : (t.rd 1).getLsbD 63 = true)
    (hh : h = { sdom := t.id.sdom, handle := ((t.rd 1).extractLsb' 0 47).toNat }) (hne : h ≠ i) (hu : s.named h = some u)
    (hroom : u.incnt < 4) (hcond : u.cond = none) (hd : s.drained t) (hstuck : s.stuck t = false) (hs : s.unwatched) :
    (s.exitReply t).find i = none ∧ (s.exitReply t).find h = some (withMsg u { payload := t.rd 8, src := t.id.handle, tag := 0xFFFE }) := by
  obtain rfl := find_id hfind
  have hlive := find_of_named hu
  have huid := find_id hlive
  obtain ⟨v, hv⟩ : ∃ v, v = withMsg u { payload := t.rd 8, src := t.id.handle, tag := 0xFFFE } := ⟨_, rfl⟩
  obtain ⟨t1, ht1⟩ : ∃ t1 : Thread, t1 = { t with pend := none, pc := t.pc + 4 } := ⟨_, rfl⟩
  have hvid : v.id = h := by rw [hv]; exact huid
  have hself : (s.put v).find t.id = some t := (find_put_ne (t := v) (hvid.symm ▸ hne.symm)).trans hfind
  have hagain : (s.put v).again t = t := again_of_find hself
  have hnone : WatchesNothing v := by
    have hvcond : v.cond = none := by rw [hv]; exact hcond
    exact ⟨fun _ _ _ h => absurd (hvcond.symm.trans h) nofun, fun _ _ _ h => absurd (hvcond.symm.trans h) nofun,
      fun _ _ _ _ h => absurd (hvcond.symm.trans h) nofun⟩
  have hby : Bystanders t1.id (s.put v) ((s.put v).makeDone t1) := bystanders_makeDone (by rw [ht1]; exact hd) (unwatched_put hs hnone)
    (watchesNothing_of_cond (unwatched_iff.1 hs t (mem_of_find hfind)) (by rw [ht1]))
  have hid1 : t1.id = t.id := by rw [ht1]
  have hbit : bit (t.rd 1).toNat 63 = true := (bit_eq_testBit ..).trans hback
  have hlow : wbits (t.rd 1) 46 0 = ((t.rd 1).extractLsb' 0 47).toNat := wbits_eq_toNat_extractLsb' (t.rd 1) 46 0
  rw [hh] at hu
  have hreply : s.exitReply t = (s.put v).makeDone t1 := by
    simp only [State.exitReply, hbit, if_true, hlow, hu, hstuck, Bool.false_eq_true, if_false, if_pos hroom, deliver_of_no_wait hcond]
    rw [← hv, hagain, ht1]
  rw [hreply]
  refine ⟨hid1 ▸ find_makeDone (s.put v) t1, (hby.others h (hid1.symm ▸ hne)).trans ?_⟩
  rw [← hv]
  exact find_put_of_find rfl hlive hvid

end

/-- Settles O22: each reply by the request that waits for it and what it finds. -/
theorem requestReplies : Obligations.RequestReplies := by
  intro s i h t u core tag reg e val hfind hsettled hgroup hne done turned q took
  refine ⟨fun hpend hon horder => ⟨fun hroom => ?_, fun hfull => ⟨_, reply_of_spawn hfind hgroup hpend, ?_⟩⟩, fun hpend hnone => ?_,
    fun hpend hu hroom hcond => ?_, fun hpend hu hfull => ⟨_, reply_of_send hfind hgroup hpend, ?_⟩,
    fun hpend hu hst => ⟨_, reply_of_resume hfind hgroup hpend, ?_⟩, fun hpend hother => ?_, fun hpend hnone => ?_,
    fun hpend hu hbusy => ?_, fun hpend hu hleave hd hquiet hslot hs => ⟨_, reply_of_kill hfind hgroup hpend, ?_⟩,
    fun hpend hback hh hu hroom hcond hd hstuck hs => ⟨_, reply_of_exit hfind hgroup hpend, ?_⟩⟩
  · rw [reply_of_spawn hfind hgroup hpend, spawnReply_of_room hfind hsettled hon horder hroom]
    rfl
  · exact spawnReply_of_full hfind hon horder hfull
  · rw [reply_of_send hfind hgroup hpend, sendReply_of_none hfind hsettled hnone]
    rfl
  · rw [reply_of_send hfind hgroup hpend, sendReply_of_room hfind hsettled hne hu hroom hcond]
    rfl
  · exact sendReply_of_full hfind hne hu hfull
  · exact resumeReply_of_faulted hfind hsettled hne hu hst
  · rw [reply_of_resume hfind hgroup hpend, resumeReply_of_other hfind hsettled hother]
    rfl
  · rw [reply_of_kill hfind hgroup hpend, killReply_of_none hfind hsettled hnone]
    rfl
  · rw [reply_of_kill hfind hgroup hpend, killReply_of_busy hfind hne hu hbusy]
  · exact killReply_of_boundary hfind hpend hne hu hleave hd hquiet hslot hs
  · exact exitReply_of_room hfind hback hh hne hu hroom hcond hd hstuck hs

end Sys2Proof.Proofs

/-! PROOF. Barrier networks (17 R385 to R391): arrivals, waits, the end of an episode and its delivery, and deadlines. -/
namespace Sys2Proof.Proofs
open Sys2Proof.Machine Sys2Proof.Laws

/-- A word that cannot go on now leaves its thread BLOCKED EMPTY (02 R32). -/
theorem word_of_block {s : State} {t : Thread} {i : Instr} {k : State → Thread → Except Stop State} (hexec : exec i s = word i s k)
    (h : Issues s t i) (hk : k s t = .error .block) : exec i s = .next (s.put { t with st := .blocked .empty }) := by
  obtain ⟨hcur, hgate, -⟩ := h
  rw [hexec]
  simp only [word, hcur, hgate, hk]
  rfl

/-! SBAR.ARRIVE (17 R385, R388). -/

section
variable {s : State} {t : Thread} {d a : Reg}

/-- The operand of SBAR.ARRIVE. -/
theorem arrive_fields (w : Word) : wbits w 11 2 = (w.extractLsb' 2 10).toNat ∧ wbits w 1 0 = (w.extractLsb' 0 2).toNat ∧
    wbits w 63 12 = (w.extractLsb' 12 52).toNat :=
  ⟨wbits_eq_toNat_extractLsb' w 9 2, wbits_eq_toNat_extractLsb' w 1 0, wbits_eq_toNat_extractLsb' w 51 12⟩

/-- The reserved bits of SBAR.ARRIVE's operand are 0 and its COUNT is within its limits. -/
def arriveOk (w : Word) : Prop := w.extractLsb' 12 52 = 0 ∧ 1 ≤ (w.extractLsb' 2 10).toNat ∧ (w.extractLsb' 2 10).toNat ≤ 512

theorem arriveOk_iff (w : Word) : arriveOk w ↔ ¬ (wbits w 63 12 ≠ 0 ∨ wbits w 11 2 = 0 ∨ 512 < wbits w 11 2) := by
  obtain ⟨hcount, -, hhigh⟩ := arrive_fields w
  rw [arriveOk, hcount, hhigh, ne_eq, toNat_eq_zero_iff, not_or, not_or, not_not, Nat.not_lt, Nat.one_le_iff_ne_zero]

theorem arrive_refused (h : ¬ arriveOk (t.rd a.toNat)) : Parks s t (.sbarArrive d a) (.plain .counterOperand (t.rd a.toNat)) :=
  parks_of_fault (execSbarArrive.eq_def d a s) (if_pos (not_not.1 fun hno => h ((arriveOk_iff _).2 hno)))

/-- The network of an operand for a core. -/
abbrev arriveNet (t : Thread) (w : Word) : Nat := netOf (w.extractLsb' 0 2).toNat t.core

variable (hok : arriveOk (t.rd a.toNat))
include hok

/-- The state in which a core's endpoint y has joined episode ep with one arrival more on its way. -/
abbrev joinState (s : State) (t : Thread) (w : Word) (y : EndPt) (ep : Nat) : State :=
  { s.setSol (arriveNet t w) { s.sol (arriveNet t w) with ends := Sparse.set EndPt.init (s.sol (arriveNet t w)).ends t.core y } with
    arrivals := s.arrivals ++ [(arriveNet t w, t.core, ep)] }

/-- What SBAR.ARRIVE does on a network of its own domain, by what its endpoint e has signalled. -/
def arriveEffect (s : State) (t : Thread) (d : Nat) (w : Word) (e : EndPt) (epi count : Nat) : Except Stop State :=
  if !e.full0 then
    if e.issued0 ≠ 0 ∧ e.count0 ≠ count then failWith .counterOperand w
    else .ok ((joinState s t w { e with issued0 := e.issued0 + 1, count0 := count } epi).retireReg t d (w64 epi))
  else if e.full1 then .error .block
  else if e.issued1 ≠ 0 ∧ e.count1 ≠ count then failWith .counterOperand w
  else .ok ((joinState s t w { e with issued1 := e.issued1 + 1, count1 := count } ((epi + 1) % 2 ^ 16)).retireReg t d
    (w64 ((epi + 1) % 2 ^ 16)))

theorem arrive_privilege (hdom : (s.sol (arriveNet t (t.rd a.toNat))).dom ≠ t.id.sdom) : Parks s t (.sbarArrive d a) (.plain .privilege 0) := by
  obtain ⟨-, hnet, -⟩ := arrive_fields (t.rd a.toNat)
  refine parks_of_fault (execSbarArrive.eq_def d a s) ((if_neg ((arriveOk_iff _).1 hok)).trans ?_)
  rw [hnet]
  exact if_pos hdom

variable (hdom : (s.sol (arriveNet t (t.rd a.toNat))).dom = t.id.sdom)
include hdom

theorem arrive_effect : ∃ k, exec (.sbarArrive d a) s = word (.sbarArrive d a) s k ∧ k s t = arriveEffect s t d.toNat (t.rd a.toNat)
    ((s.sol (arriveNet t (t.rd a.toNat))).endPt t.core) (s.sol (arriveNet t (t.rd a.toNat))).epi ((t.rd a.toNat).extractLsb' 2 10).toNat := by
  obtain ⟨hcount, hnet, -⟩ := arrive_fields (t.rd a.toNat)
  refine ⟨_, execSbarArrive.eq_def d a s, (if_neg ((arriveOk_iff _).1 hok)).trans ?_⟩
  rw [hnet, hcount]
  exact if_neg (not_not.2 hdom)

variable {e : EndPt} {epi count : Nat} (he : (s.sol (arriveNet t (t.rd a.toNat))).endPt t.core = e)
  (hepi : (s.sol (arriveNet t (t.rd a.toNat))).epi = epi) (hcount : ((t.rd a.toNat).extractLsb' 2 10).toNat = count)
include he hepi hcount

theorem arrive_joins {y : EndPt} {ep : Nat}
    (h : arriveEffect s t d.toNat (t.rd a.toNat) e epi count = .ok ((joinState s t (t.rd a.toNat) y ep).retireReg t d.toNat (w64 ep))) :
    Yields s t (.sbarArrive d a) ((joinState s t (t.rd a.toNat) y ep).put { t.wr d.toNat (BitVec.ofNat 64 ep) with pc := t.pc + 4 }) := by
  obtain ⟨k, hexec, hk⟩ := arrive_effect (d := d) hok hdom
  rw [he, hepi, hcount] at hk
  exact yields_of_retire (u := t.wr d.toNat (BitVec.ofNat 64 ep)) hexec (fun _ => hk.trans h) rfl (wr_id ..) (wr_pc ..) (wr_settled ..)

theorem arrive_faults (h : arriveEffect s t d.toNat (t.rd a.toNat) e epi count = failWith .counterOperand (t.rd a.toNat)) :
    Parks s t (.sbarArrive d a) (.plain .counterOperand (t.rd a.toNat)) := by
  obtain ⟨k, hexec, hk⟩ := arrive_effect (d := d) hok hdom
  rw [he, hepi, hcount] at hk
  exact parks_of_fault hexec (hk.trans h)

theorem arrive_blocks (h : arriveEffect s t d.toNat (t.rd a.toNat) e epi count = .error .block) (hi : Issues s t (.sbarArrive d a)) :
    exec (.sbarArrive d a) s = .next (s.put { t with st := .blocked .empty }) := by
  obtain ⟨k, hexec, hk⟩ := arrive_effect (d := d) hok hdom
  rw [he, hepi, hcount] at hk
  exact word_of_block hexec hi (hk.trans h)

end

/-! SBAR.WAIT (17 R389). -/

section
variable {s : State} {t : Thread} {p : Pred} {a b : Reg}

/-- The reserved bits of SBAR.WAIT's operands are 0. -/
def waitOk (w v : Word) : Prop := w.extractLsb' 2 62 = 0 ∧ v.extractLsb' 16 16 = 0

theorem waitOk_iff (w v : Word) : waitOk w v ↔ ¬ (wbits w 63 2 ≠ 0 ∨ wbits v 31 16 ≠ 0) := by
  have hw : wbits w 63 2 = (w.extractLsb' 2 62).toNat := wbits_eq_toNat_extractLsb' w 61 2
  have hv : wbits v 31 16 = (v.extractLsb' 16 16).toNat := wbits_eq_toNat_extractLsb' v 15 16
  rw [waitOk, hw, hv, ne_eq, toNat_eq_zero_iff, ne_eq, toNat_eq_zero_iff, not_or, not_not, not_not]

theorem sbarWait_refused (h : ¬ waitOk (t.rd a.toNat) (t.rd b.toNat)) :
    Parks s t (.sbarWait p a b) (.plain .counterOperand (t.rd a.toNat)) :=
  parks_of_fault (execSbarWait.eq_def p a b s) (if_pos (not_not.1 fun hno => h ((waitOk_iff _ _).2 hno)))

/-- What SBAR.WAIT does on a network of its own domain, by how far its episode lies back. -/
def sbarWaitEffect (s : State) (t : Thread) (p : Pred) (w : Word) (net e hist delta limit : Nat) : Except Stop State :=
  if 1 ≤ delta ∧ delta ≤ 32 then .ok (s.retire (t.wp p (bit hist (delta - 1))))
  else if delta ≠ 0 ∧ delta ≠ 0xFFFF then failWith .counterOperand w
  else if limit = 0 then .ok (s.retire (t.wp p true))
  else .ok (s.goWait t .sbar (.sbar net e p limit) w (s.deadlineOf (sbarLimit limit)))

variable (hok : waitOk (t.rd a.toNat) (t.rd b.toNat))
include hok

theorem sbarWait_privilege (hdom : (s.sol (arriveNet t (t.rd a.toNat))).dom ≠ t.id.sdom) :
    Parks s t (.sbarWait p a b) (.plain .privilege 0) := by
  obtain ⟨-, hnet, -⟩ := arrive_fields (t.rd a.toNat)
  refine parks_of_fault (execSbarWait.eq_def p a b s) ((if_neg ((waitOk_iff _ _).1 hok)).trans ?_)
  rw [hnet]
  exact if_pos hdom

theorem sbarWait_effect (hdom : (s.sol (arriveNet t (t.rd a.toNat))).dom = t.id.sdom) :
    ∃ k, exec (.sbarWait p a b) s = word (.sbarWait p a b) s k ∧ k s t = sbarWaitEffect s t p (t.rd a.toNat) (arriveNet t (t.rd a.toNat))
      ((t.rd b.toNat).extractLsb' 0 16).toNat (s.sol (arriveNet t (t.rd a.toNat))).hist
      (((s.sol (arriveNet t (t.rd a.toNat))).epi + 2 ^ 16 - ((t.rd b.toNat).extractLsb' 0 16).toNat) % 2 ^ 16)
      ((t.rd b.toNat).extractLsb' 32 32).toNat := by
  obtain ⟨-, hnet, -⟩ := arrive_fields (t.rd a.toNat)
  have hep : wbits (t.rd b.toNat) 15 0 = ((t.rd b.toNat).extractLsb' 0 16).toNat := wbits_eq_toNat_extractLsb' (t.rd b.toNat) 15 0
  have hlimit : wbits (t.rd b.toNat) 63 32 = ((t.rd b.toNat).extractLsb' 32 32).toNat := wbits_eq_toNat_extractLsb' (t.rd b.toNat) 31 32
  refine ⟨_, execSbarWait.eq_def p a b s, (if_neg ((waitOk_iff _ _).1 hok)).trans ?_⟩
  rw [hnet, hep, hlimit]
  exact if_neg (not_not.2 hdom)

end

/-- The time-out of SBAR.WAIT in ticks: all ones stands for none (17 R389). -/
theorem toNat_sbarLimit (limit : BitVec 32) :
    (sbarLimit limit.toNat).toNat = if limit = BitVec.allOnes 32 then 2 ^ 64 - 1 else limit.toNat := by
  have hones : limit.toNat = 0xFFFFFFFF ↔ limit = BitVec.allOnes 32 :=
    ⟨fun h => BitVec.eq_of_toNat_eq (h.trans rfl), fun h => by rw [h]; rfl⟩
  unfold sbarLimit
  split
  next h => rw [if_pos (hones.1 h)]; rfl
  next h =>
    rw [if_neg (mt hones.2 h), w64, BitVec.toNat_ofNat, Nat.mod_eq_of_lt (by omega)]

/-! The end of an episode (17 R387, R390). -/

/-- The episode after the open one has no COUNT at any endpoint. -/
structure Fresh1 (x : SolNet) : Prop where
  none : ∀ a ∈ x.ends, a.2.count1 = 0

theorem mem_sparse_drop {α : Type} {l : List (Nat × α)} {k : Nat} {a : Nat × α} (h : a ∈ Sparse.drop l k) : a ∈ l := by
  induction l with
  | nil => exact h
  | cons x l ih =>
    rw [Sparse.drop] at h
    split at h
    · exact List.mem_cons_of_mem _ (ih h)
    · exact (List.mem_cons.1 h).elim (fun h => h ▸ List.mem_cons_self) fun h => List.mem_cons_of_mem _ (ih h)

theorem mem_sparse_put {α : Type} {l : List (Nat × α)} {k : Nat} {v : α} {a : Nat × α} (h : a ∈ Sparse.put l k v) : a ∈ l ∨ a.2 = v := by
  induction l with
  | nil => exact .inr ((List.mem_singleton.1 h) ▸ rfl)
  | cons x l ih =>
    rw [Sparse.put] at h
    split at h
    · exact (List.mem_cons.1 h).elim (fun h => .inr (h ▸ rfl)) .inl
    · split at h
      · exact (List.mem_cons.1 h).elim (fun h => .inr (h ▸ rfl)) fun h => .inl (List.mem_cons_of_mem _ h)
      · exact (List.mem_cons.1 h).elim (fun h => .inl (h ▸ List.mem_cons_self)) fun h => (ih h).imp_left (List.mem_cons_of_mem _)

theorem mem_sparse_set {α : Type} [DecidableEq α] {d v : α} {l : List (Nat × α)} {k : Nat} {a : Nat × α} (h : a ∈ Sparse.set d l k v) :
    a ∈ l ∨ a.2 = v := by
  unfold Sparse.set at h
  split at h
  · exact .inl (mem_sparse_drop h)
  · exact mem_sparse_put h

/-- A listed value, or the default. -/
theorem get_mem {α : Type} (d : α) (l : List (Nat × α)) (k : Nat) : Sparse.get d l k = d ∨ ∃ a ∈ l, a.2 = Sparse.get d l k := by
  induction l with
  | nil => exact .inl rfl
  | cons x l ih =>
    rw [Sparse.get]
    split
    · exact .inr ⟨x, List.mem_cons_self, rfl⟩
    · exact ih.imp_right fun ⟨a, ha, hv⟩ => ⟨a, List.mem_cons_of_mem _ ha, hv⟩

theorem endPt_count1 {x : SolNet} (h : Fresh1 x) (c : Nat) : (x.endPt c).count1 = 0 := by
  obtain hinit | ⟨a, ha, hv⟩ := get_mem EndPt.init x.ends c
  · rw [SolNet.endPt, hinit]
    rfl
  · rw [SolNet.endPt, ← hv]
    exact h.none a ha

/-- A network with a core's endpoint set. -/
theorem Fresh1.set {x : SolNet} (h : Fresh1 x) (core : Nat) {y : EndPt} (hy : y.count1 = 0) :
    Fresh1 { x with ends := Sparse.set EndPt.init x.ends core y } :=
  ⟨fun a ha => (mem_sparse_set ha).elim (h.none a) fun hv => hv ▸ hy⟩

theorem sol_setSol (s : State) (net : Nat) (x : SolNet) : (s.setSol net x).sol net = x := by
  rw [State.sol, State.setSol, get_set, if_pos rfl]

/-- A network whose open episode has ended. -/
def advanced (x : SolNet) (abandoned : Bool) : SolNet :=
  { x with epi := (x.epi + 1) % 2 ^ 16, hist := (2 * x.hist + b2n abandoned) % 2 ^ 32
           ends := (x.ends.map (fun e => (e.1, e.2.advance))).filter (fun e => e.2 ≠ EndPt.init) }

/-- No endpoint has signalled the episode that is open next. -/
theorem advanced_unsignalled {x : SolNet} (h : Fresh1 x) (abandoned : Bool) (c : Nat) :
    ((advanced x abandoned).endPt c).signalled = false := by
  have hcount : ((advanced x abandoned).endPt c).count0 = 0 := by
    obtain hinit | ⟨a, ha, hv⟩ := get_mem EndPt.init (advanced x abandoned).ends c
    · rw [SolNet.endPt, hinit]
      rfl
    · obtain ⟨e, he, hadv⟩ := List.mem_map.1 (List.mem_of_mem_filter ha)
      rw [SolNet.endPt, ← hv, ← hadv]
      exact h.none e he
  rw [EndPt.signalled, hcount]
  rfl

theorem sol_endEpisode {s : State} {net : Nat} (h : s.span net ≠ []) (abandoned : Bool) :
    (s.endEpisode net abandoned).sol net = advanced (s.sol net) abandoned := by
  have hspan : ¬ (s.span net).isEmpty = true := fun hno => h (List.isEmpty_iff.1 hno)
  unfold State.endEpisode
  dsimp only
  rw [if_neg hspan]
  exact sol_setSol s net (advanced (s.sol net) abandoned)

/-- While an endpoint of the span has not signalled, or the span is empty, nothing ends. -/
theorem checkEpisode_of_short {s : State} {net : Nat} (h : s.span net = [] ∨ ∃ c ∈ s.span net, ((s.sol net).endPt c).signalled = false) (k : Nat) :
    s.checkEpisode net k = s := by
  cases k with
  | zero => rfl
  | succ k =>
    rw [State.checkEpisode]
    refine if_neg ?_
    rw [Bool.and_eq_true, Bool.not_eq_true', List.isEmpty_eq_false_iff, List.all_eq_true]
    rintro ⟨hne, hall⟩
    rcases h with hempty | ⟨c, hc, hno⟩
    · exact hne hempty
    · rw [hall c hc] at hno
      cases hno

theorem span_of_encores {s s' : State} (h : s'.encores = s.encores) (net : Nat) : s'.span net = s.span net := by
  simp only [State.span, State.coreOn, h]

theorem encores_endEpisode {s : State} {net : Nat} (h : s.span net ≠ []) (abandoned : Bool) :
    (s.endEpisode net abandoned).encores = s.encores := by
  have hspan : ¬ (s.span net).isEmpty = true := fun hno => h (List.isEmpty_iff.1 hno)
  unfold State.endEpisode
  dsimp only
  rw [if_neg hspan]
  rfl

/-- Once an episode has ended, the next one has not. -/
theorem checkEpisode_endEpisode {s s' : State} {net : Nat} (hspan : s.span net ≠ []) (hfresh : Fresh1 (s.sol net)) {abandoned : Bool}
    (hsol : s'.sol net = (s.endEpisode net abandoned).sol net) (hcores : s'.encores = (s.endEpisode net abandoned).encores) (k : Nat) :
    s'.checkEpisode net k = s' := by
  refine checkEpisode_of_short ?_ k
  have hsame : s'.span net = s.span net := span_of_encores (hcores.trans (encores_endEpisode hspan abandoned)) net
  obtain ⟨c, hc⟩ := List.exists_mem_of_ne_nil _ hspan
  exact .inr ⟨c, hsame ▸ hc, by rw [hsol, sol_endEpisode hspan]; exact advanced_unsignalled hfresh abandoned c⟩

/-- Once every endpoint of the span has signalled the open episode, it alone ends. -/
theorem checkEpisode_of_all {s : State} {net : Nat} (hspan : s.span net ≠ [])
    (hall : ∀ c ∈ s.span net, ((s.sol net).endPt c).signalled = true) (hfresh : Fresh1 (s.sol net)) :
    s.checkEpisode net 2 = s.endEpisode net false := by
  have hgo : (!(s.span net).isEmpty && (s.span net).all (fun c => ((s.sol net).endPt c).signalled)) = true := by
    rw [Bool.and_eq_true, Bool.not_eq_true', List.isEmpty_eq_false_iff, List.all_eq_true]
    exact ⟨hspan, hall⟩
  rw [State.checkEpisode]
  exact (if_pos hgo).trans (checkEpisode_endEpisode hspan hfresh rfl rfl 1)

/-! An arrival is counted (17 R388). -/

section
variable {s : State} {n net core ep : Nat}

/-- The state once the n-th arrival on its way has been counted and its core's endpoint is y. -/
abbrev countState (s : State) (n net core : Nat) (y : EndPt) : State :=
  { s.setSol net { s.sol net with ends := Sparse.set EndPt.init (s.sol net).ends core y } with arrivals := removeNth n s.arrivals }

theorem sol_countState (y : EndPt) : (countState s n net core y).sol net =
    { s.sol net with ends := Sparse.set EndPt.init (s.sol net).ends core y } := sol_setSol ..

theorem arrivalCount_of_get (h : s.arrivals[n]? = some (net, core, ep)) : exec (.sbarArrivalCount n) s =
    .next ((countState s n net core (if ep = (s.sol net).epi
        then { (s.sol net).endPt core with counted0 := ((s.sol net).endPt core).counted0 + 1 }
        else { (s.sol net).endPt core with counted1 := ((s.sol net).endPt core).counted1 + 1 })).checkEpisode net 2) := by
  show execSbarArrivalCount n s = _
  simp only [execSbarArrivalCount, event, h] <;> rfl

end

/-- The arrival with which every endpoint of the span has signalled the open episode ends it (17 R387). -/
theorem countState_ends {s : State} {n net core : Nat} {y : EndPt} (hy : y.count1 = 0) (hspan : s.span net ≠ [])
    (hall : ∀ c ∈ s.span net, (((countState s n net core y).sol net).endPt c).signalled = true) (hfresh : Fresh1 (s.sol net)) :
    (((countState s n net core y).checkEpisode net 2).sol net).epi = ((s.sol net).epi + 1) % 2 ^ 16 ∧
      (((countState s n net core y).checkEpisode net 2).sol net).hist = 2 * (s.sol net).hist % 2 ^ 32 := by
  have hsol := sol_countState (s := s) (n := n) (net := net) (core := core) y
  have hcount : Fresh1 ((countState s n net core y).sol net) := hsol ▸ hfresh.set core hy
  rw [checkEpisode_of_all (s := countState s n net core y) hspan hall hcount, sol_endEpisode (s := countState s n net core y) hspan, hsol]
  exact ⟨rfl, rfl⟩

theorem arrivalCount_ends {s : State} {n net core : Nat} (h : s.arrivals[n]? = some (net, core, (s.sol net).epi)) (hspan : s.span net ≠ [])
    (hall : ∀ c ∈ s.span net, (((countState s n net core { (s.sol net).endPt core with
      counted0 := ((s.sol net).endPt core).counted0 + 1 }).sol net).endPt c).signalled = true) (hfresh : Fresh1 (s.sol net)) :
    ∃ s', exec (.sbarArrivalCount n) s = .next s' ∧ (s'.sol net).epi = ((s.sol net).epi + 1) % 2 ^ 16 ∧
      (s'.sol net).hist = 2 * (s.sol net).hist % 2 ^ 32 := by
  have hexec := arrivalCount_of_get h
  rw [if_pos rfl] at hexec
  exact ⟨_, hexec, countState_ends (endPt_count1 hfresh core) hspan hall hfresh⟩

/-! The end of an episode reaches a core (17 R389, R391). -/

section
variable (s : State) (net ep : Nat) (ab : Bool) (on : Nat → Bool)

/-- A waiter once the end of an episode has reached it, where it waits for that episode. -/
def releasedBy (t : Thread) : Thread := match t.cond with
  | some (.sbar k e p _) => if k = net ∧ e = ep ∧ on t.core = true then s.waitOver (t.wp p ab) else t
  | _ => t

theorem releasedBy_id (t : Thread) : (releasedBy s net ep ab on t).id = t.id := by
  unfold releasedBy
  split
  · split
    · exact (noted_id ..).trans (wp_id ..)
    · rfl
  · rfl

/-- The release of one waiter. -/
def releaseOne (s : State) (t : Thread) : State := match t.cond with
  | some (.sbar k e p _) => if k = net ∧ e = ep ∧ on t.core = true then s.completeWait (t.wp p ab) [] else s
  | _ => s

theorem releaseOne_eq (t : Thread) : releaseOne net ep ab on s t = s ∧ releasedBy s net ep ab on t = t ∨
    releaseOne net ep ab on s t = s.put (releasedBy s net ep ab on t) := by
  unfold releaseOne releasedBy
  split
  · split
    · exact .inr (completeWait_eq_waitOver ..)
    · exact .inl ⟨rfl, rfl⟩
  · exact .inl ⟨rfl, rfl⟩

/-- What the release of a waiter leaves: its other threads, its ends and its clock. -/
theorem releaseOne_kept (t : Thread) : (releaseOne net ep ab on s t).ends = s.ends ∧ (releaseOne net ep ab on s t).tick = s.tick ∧
    ∀ j, j ≠ t.id → (releaseOne net ep ab on s t).find j = s.find j := by
  rcases releaseOne_eq s net ep ab on t with ⟨h, -⟩ | h <;> rw [h]
  · exact ⟨rfl, rfl, fun _ _ => rfl⟩
  · exact ⟨rfl, rfl, fun j hj => find_put_ne (t := releasedBy s net ep ab on t) (by rw [releasedBy_id]; exact hj)⟩

theorem releaseOne_find {t : Thread} (h : s.find t.id = some t) :
    (releaseOne net ep ab on s t).find t.id = some (releasedBy s net ep ab on t) := by
  rcases releaseOne_eq s net ep ab on t with ⟨hs, ht⟩ | hs <;> rw [hs]
  · rw [ht, h]
  · exact find_put_of_find rfl h (releasedBy_id ..)

theorem releasedBy_of_tick {s' : State} (h : s'.tick = s.tick) (t : Thread) :
    releasedBy s' net ep ab on t = releasedBy s net ep ab on t := by
  simp only [releasedBy, State.waitOver, h]

theorem releaseWaiters_eq : s.releaseWaiters net ep ab on = s.threads.foldl (releaseOne net ep ab on) s := rfl

theorem foldl_releaseOne_kept (l : List Thread) (s : State) : (l.foldl (releaseOne net ep ab on) s).ends = s.ends ∧
    (l.foldl (releaseOne net ep ab on) s).tick = s.tick ∧
    ∀ j, j ∉ l.map (·.id) → (l.foldl (releaseOne net ep ab on) s).find j = s.find j := by
  induction l generalizing s with
  | nil => exact ⟨rfl, rfl, fun _ _ => rfl⟩
  | cons x l ih =>
    obtain ⟨hends, htick, hfind⟩ := ih (releaseOne net ep ab on s x)
    obtain ⟨hends1, htick1, hfind1⟩ := releaseOne_kept s net ep ab on x
    refine ⟨hends.trans hends1, htick.trans htick1, fun j hj => ?_⟩
    rw [List.map_cons, List.mem_cons, not_or] at hj
    exact (hfind j hj.2).trans (hfind1 j hj.1)

/-- Each of a list of threads with different names is released once. -/
theorem foldl_releaseOne_find {l : List Thread} (hl : (l.map (·.id)).Nodup) {t : Thread} (ht : t ∈ l) (h : s.find t.id = some t) :
    (l.foldl (releaseOne net ep ab on) s).find t.id = some (releasedBy s net ep ab on t) := by
  induction l generalizing s with
  | nil => cases ht
  | cons x l ih =>
    rw [List.map_cons, List.nodup_cons] at hl
    obtain ⟨hx, hl⟩ := hl
    obtain ⟨-, htick1, hfind1⟩ := releaseOne_kept s net ep ab on x
    rcases List.mem_cons.1 ht with rfl | htl
    · obtain ⟨-, -, hfind⟩ := foldl_releaseOne_kept net ep ab on l (releaseOne net ep ab on s t)
      exact (hfind t.id hx).trans (releaseOne_find s net ep ab on h)
    · have hne : t.id ≠ x.id := fun he => hx (he ▸ List.mem_map_of_mem htl)
      rw [List.foldl_cons, ih _ hl htl ((hfind1 _ hne).trans h), releasedBy_of_tick s net ep ab on htick1]

theorem releaseWaiters_find (hids : (s.threads.map (·.id)).Nodup) {i : Tid} {t : Thread} (h : s.find i = some t) :
    (s.releaseWaiters net ep ab on).find i = some (releasedBy s net ep ab on t) := by
  obtain rfl := find_id h
  exact foldl_releaseOne_find s net ep ab on hids (mem_of_find h) h

end

section
variable {s : State} {n net core ep : Nat} {ab : Bool}

theorem delivery_of_get (h : s.ends[n]? = some (net, core, ep, ab)) : exec (.sbarEpisodeEndDelivery n core) s =
    .next (State.releaseWaiters { s with ends := removeNth n s.ends } net ep ab (fun k => k == core || !(s.span net).contains k)) := by
  show execSbarEpisodeEndDelivery n core s = _
  simp only [execSbarEpisodeEndDelivery, event, h, ne_eq, not_true_eq_false, if_false]

theorem releasedBy_of_waiter {on : Nat → Bool} {t : Thread} {p : Pred} {lim : Nat} (hcond : t.cond = some (.sbar net ep p lim))
    (hon : on t.core = true) : releasedBy s net ep ab on t = s.waitOver (t.wp p ab) := by
  unfold releasedBy
  rw [hcond]
  exact if_pos ⟨rfl, rfl, hon⟩

theorem releasedBy_of_other {on : Nat → Bool} {t : Thread} (h : ∀ q l, t.cond ≠ some (.sbar net ep q l)) :
    releasedBy s net ep ab on t = t := by
  unfold releasedBy
  split
  next k e q l hcond =>
    refine if_neg ?_
    rintro ⟨rfl, rfl, -⟩
    exact h q l hcond
  next => rfl

end

/-- The delivery of an end releases the waiters of its core, and no other thread. -/
theorem delivery_results {s : State} {n net core ep : Nat} {ab : Bool} (i : Tid) (t u : Thread) (p : Pred) (lim : Nat)
    (hend : s.ends[n]? = some (net, core, ep, ab)) (hids : (s.threads.map (·.id)).Nodup) :
    ∃ s', exec (.sbarEpisodeEndDelivery n core) s = .next s' ∧ s'.ends = removeNth n s.ends ∧
      (s.find i = some t → t.cond = some (.sbar net ep p lim) → t.core = core → s'.find i = some (s.waitOver (t.wp p ab))) ∧
      (s.find i = some u → (∀ q l, u.cond ≠ some (.sbar net ep q l)) → s'.find i = some u) := by
  obtain ⟨s1, hs1⟩ : ∃ s1 : State, s1 = { s with ends := removeNth n s.ends } := ⟨_, rfl⟩
  obtain ⟨on, hon⟩ : ∃ on : Nat → Bool, on = fun k => k == core || !(s.span net).contains k := ⟨_, rfl⟩
  have hfind {t : Thread} (h : s.find i = some t) : (s1.releaseWaiters net ep ab on).find i = some (releasedBy s net ep ab on t) := by
    rw [← releasedBy_of_tick s net ep ab on (s' := s1) (by rw [hs1])]
    exact releaseWaiters_find s1 net ep ab on (by rw [hs1]; exact hids) (by rw [hs1]; exact h)
  have hexec := delivery_of_get hend
  rw [← hs1, ← hon] at hexec
  refine ⟨_, hexec, ?_, fun h hcond hcore => ?_, fun h hother => ?_⟩
  · obtain ⟨hends, -, -⟩ := foldl_releaseOne_kept net ep ab on s1.threads s1
    rw [releaseWaiters_eq, hends, hs1]
  · rw [hfind h, releasedBy_of_waiter hcond (by rw [hon, hcore]; exact Bool.or_eq_true_iff.2 (.inl (beq_self_eq_true core)))]
  · rw [hfind h, releasedBy_of_other hother]

/-! The deadline of a waiter (17 R390). -/

section
variable {s : State} {i : Tid} {t : Thread} {net lim : Nat} {p : Pred} (h : s.find i = some t) (hst : t.st = .waiting .sbar)
  (hcond : t.cond = some (.sbar net (s.sol net).epi p lim))
include h hst hcond

theorem sbarDeadline_of_find : exec (.sbarDeadline i) s =
    .next (if !s.deadlinePassed t then s else s.expireBarrier t net (s.sol net).epi lim) := by
  have hopen : ((s.sol net).epi + 2 ^ 16 - (s.sol net).epi) % 2 ^ 16 = 0 := by omega
  show execSbarDeadline i s = _
  simp only [execSbarDeadline, event, h, hst, hcond, hopen]
  simp

omit hst hcond in
/-- The deadline is put off while every core that lags still has a thread that may arrive. -/
theorem expireBarrier_later (hall : ∀ c, c ∈ s.span net ∧ ((s.sol net).endPt c).full0 = false → s.participant (s.sol net).dom c = true) :
    s.expireBarrier t net (s.sol net).epi lim =
      s.put { t with deadline := BitVec.ofNat 64 (min (2 ^ 64 - 1) (t.deadline.toNat + lim)) } := by
  obtain rfl := find_id h
  have hpart : ((s.span net).filter (fun c => !((s.sol net).endPt c).full0)).all (s.participant (s.sol net).dom) = true := by
    rw [List.all_eq_true]
    intro c hc
    rw [List.mem_filter, Bool.not_eq_true'] at hc
    exact hall c hc
  unfold State.expireBarrier
  simp only [hpart, if_true, again_of_find h]
  rfl

omit h hst hcond in
/-- The episode is abandoned when a core that lags has no thread that may arrive. -/
theorem expireBarrier_abandons (hsome : ∃ c, (c ∈ s.span net ∧ ((s.sol net).endPt c).full0 = false) ∧ s.participant (s.sol net).dom c = false)
    (hfresh : Fresh1 (s.sol net)) : (s.expireBarrier t net (s.sol net).epi lim).sol net = advanced (s.sol net) true := by
  obtain ⟨c, ⟨hc, hlags⟩, hpart⟩ := hsome
  have hspan : s.span net ≠ [] := List.ne_nil_of_mem hc
  have hnone : ((s.span net).filter (fun c => !((s.sol net).endPt c).full0)).all (s.participant (s.sol net).dom) = false := by
    rw [List.all_eq_false]
    exact ⟨c, List.mem_filter.2 ⟨hc, by rw [hlags]; rfl⟩, by rw [hpart]; decide⟩
  have hcheck := checkEpisode_endEpisode (s' := (s.endEpisode net true).countErr (dieOf t.core) 10) hspan hfresh rfl rfl 1
  unfold State.expireBarrier
  simp only [hnone, Bool.false_eq_true, if_false, if_true, hcheck]
  exact sol_endEpisode hspan true

end

theorem passed_eq_false {s : State} {t : Thread} (h : s.tick < t.waitSince / 2 ^ 64 * 2 ^ 64 + t.deadline.toNat) :
    s.deadlinePassed t = false :=
  Bool.and_eq_false_iff.2 (.inr (decide_eq_false (Nat.not_le.2 h)))

theorem passed_eq_true {s : State} {t : Thread} (hset : t.deadline ≠ BitVec.allOnes 64)
    (h : t.waitSince / 2 ^ 64 * 2 ^ 64 + t.deadline.toNat ≤ s.tick) : s.deadlinePassed t = true :=
  and_of_both (bne_iff_ne.2 hset) (decide_eq_true h)

/-- SBAR.ARRIVE on a network of its own domain, by what its endpoint has signalled; SBAR.WAIT by how far its episode lies
back. -/
theorem sbarArrive_results (s : State) (t : Thread) (d a : Reg) :
    let w := t.rd a.toNat
    let count := (w.extractLsb' 2 10).toNat
    let net := netOf (w.extractLsb' 0 2).toNat t.core
    let x := s.sol net
    let e := x.endPt t.core
    let counts := w.extractLsb' 12 52 = 0 ∧ 1 ≤ count ∧ count ≤ 512
    let joined := fun (y : EndPt) (ep : Nat) => Yields s t (.sbarArrive d a) (State.put
      { s.setSol net { x with ends := Sparse.set EndPt.init x.ends t.core y } with arrivals := s.arrivals ++ [(net, t.core, ep)] }
      { t.wr d.toNat (BitVec.ofNat 64 ep) with pc := t.pc + 4 })
    let refused := Parks s t (.sbarArrive d a) (.plain .counterOperand w)
    counts → x.dom = t.id.sdom →
      (e.full0 = false → (e.issued0 = 0 ∨ e.count0 = count) → joined { e with issued0 := e.issued0 + 1, count0 := count } x.epi) ∧
      (e.full0 = false → e.issued0 ≠ 0 → e.count0 ≠ count → refused) ∧
      (e.full0 = true → e.full1 = true → Issues s t (.sbarArrive d a) →
        exec (.sbarArrive d a) s = .next (s.put { t with st := .blocked .empty })) ∧
      (e.full0 = true → e.full1 = false → (e.issued1 = 0 ∨ e.count1 = count) →
        joined { e with issued1 := e.issued1 + 1, count1 := count } ((x.epi + 1) % 2 ^ 16)) ∧
      (e.full0 = true → e.full1 = false → e.issued1 ≠ 0 → e.count1 ≠ count → refused) := by
  intro w count net x e counts joined refused hok hdom
  refine ⟨fun h0 hcount => ?_, fun h0 hissued hcount => ?_, fun h0 h1 hi => ?_, fun h0 h1 hcount => ?_, fun h0 h1 hissued hcount => ?_⟩
  · refine arrive_joins hok hdom (e := e) rfl rfl rfl ?_
    rw [arriveEffect, if_pos (by rw [h0]; rfl)]
    exact if_neg fun hno => hcount.elim hno.1 hno.2
  · refine arrive_faults hok hdom (e := e) rfl rfl rfl ?_
    rw [arriveEffect, if_pos (by rw [h0]; rfl)]
    exact if_pos ⟨hissued, hcount⟩
  · refine arrive_blocks hok hdom (e := e) rfl rfl rfl ?_ hi
    rw [arriveEffect, if_neg (by rw [h0]; decide)]
    exact if_pos h1
  · refine arrive_joins hok hdom (e := e) rfl rfl rfl ?_
    rw [arriveEffect, if_neg (by rw [h0]; decide), if_neg (by rw [h1]; decide)]
    exact if_neg fun hno => hcount.elim hno.1 hno.2
  · refine arrive_faults hok hdom (e := e) rfl rfl rfl ?_
    rw [arriveEffect, if_neg (by rw [h0]; decide), if_neg (by rw [h1]; decide)]
    exact if_pos ⟨hissued, hcount⟩

theorem sbarWait_results (s : State) (t : Thread) (p : Pred) (a b : Reg) :
    let w := t.rd a.toNat
    let v := t.rd b.toNat
    let net := netOf (w.extractLsb' 0 2).toNat t.core
    let x := s.sol net
    let delta := (x.epi + 2 ^ 16 - (v.extractLsb' 0 16).toNat) % 2 ^ 16
    let limit := v.extractLsb' 32 32
    let ticks := if limit = BitVec.allOnes 32 then 2 ^ 64 - 1 else limit.toNat
    w.extractLsb' 2 62 = 0 → v.extractLsb' 16 16 = 0 → x.dom = t.id.sdom →
      (1 ≤ delta → delta ≤ 32 → Completes s t (.sbarWait p a b) (t.wp p (x.hist.testBit (delta - 1)))) ∧
      (32 < delta → delta < 0xFFFF → Parks s t (.sbarWait p a b) (.plain .counterOperand w)) ∧
      (delta = 0 ∨ delta = 0xFFFF → limit = 0 → Completes s t (.sbarWait p a b) (t.wp p true)) ∧
      (delta = 0 ∨ delta = 0xFFFF → limit ≠ 0 → Yields s t (.sbarWait p a b) (s.put { s.bindLoads t with
        st := .waiting .sbar, cond := some (.sbar net (v.extractLsb' 0 16).toNat p limit.toNat), waitarg := w
        deadline := BitVec.ofNat 64 (min (2 ^ 64 - 1) (s.tick % 2 ^ 64 + ticks)), waitSince := s.tick })) := by
  intro w v net x delta limit ticks hw hv hdom
  obtain ⟨k, hexec, hk⟩ := sbarWait_effect (p := p) ⟨hw, hv⟩ hdom
  refine ⟨fun hlow hhigh => ?_, fun hlow hhigh => ?_, fun hopen hlimit => ?_, fun hopen hlimit => ?_⟩
  · rw [← bit_eq_testBit]
    exact completes_of_retire hexec (hk.trans (if_pos ⟨hlow, hhigh⟩)) (wp_id ..) (wp_pc ..) (wp_settled ..)
  · refine parks_of_fault hexec (hk.trans ((if_neg fun hno => absurd hno.2 (Nat.not_le.2 hlow)).trans (if_pos ⟨?_, ?_⟩)))
    · exact fun h0 => absurd (h0 ▸ hlow : 32 < 0) (by decide)
    · exact Nat.ne_of_lt hhigh
  · have hpast : ¬ (1 ≤ delta ∧ delta ≤ 32) := by omega
    have hfar : ¬ (delta ≠ 0 ∧ delta ≠ 0xFFFF) := by omega
    exact completes_of_retire hexec (hk.trans ((if_neg hpast).trans ((if_neg hfar).trans (if_pos ((toNat_eq_zero_iff _).2 hlimit)))))
      (wp_id ..) (wp_pc ..) (wp_settled ..)
  · have hpast : ¬ (1 ≤ delta ∧ delta ≤ 32) := by omega
    have hfar : ¬ (delta ≠ 0 ∧ delta ≠ 0xFFFF) := by omega
    have hgoes := yields_of_goWait hexec fun _ => hk.trans
      ((if_neg hpast).trans ((if_neg hfar).trans (if_neg (mt (toNat_eq_zero_iff _).1 hlimit))))
    rw [toNat_sbarLimit] at hgoes
    exact hgoes

/-- Settles O28: arrivals and waits by their operands and the network's state; an episode's end by who has signalled; its delivery waiter
by waiter; a deadline by the cores that lag. -/
theorem barrierResults : Obligations.BarrierResults := by
  refine ⟨?_, ?_⟩
  · intro s t p d a b w v count net x e delta limit ticks counts joined refused
    refine ⟨fun hno => arrive_refused hno, fun hok hdom => arrive_privilege hok hdom, sbarArrive_results s t d a, fun hno => ?_,
      fun hw hv hdom => sbarWait_privilege ⟨hw, hv⟩ hdom, sbarWait_results s t p a b⟩
    exact sbarWait_refused fun hok => hno.elim (fun h => h hok.1) fun h => h hok.2
  · intro s n net core ep lim i t u p ab x e counted now next ready lags due
    refine ⟨fun harr => ⟨fun hshort => ?_, fun hspan hall hnone => ?_⟩, fun harr hep hshort => ?_, fun hend hids => ?_,
      fun h hst hcond hset => ⟨fun hearly => ?_, fun hdue hall => ?_, fun hdue hsome hnone => ?_⟩⟩
    · have hexec := arrivalCount_of_get harr
      rw [if_pos rfl] at hexec
      rw [hexec]
      exact congrArg _ (checkEpisode_of_short (s := now) hshort 2)
    · exact arrivalCount_ends harr hspan hall ⟨hnone⟩
    · have hexec := arrivalCount_of_get harr
      rw [if_neg hep] at hexec
      rw [hexec]
      exact congrArg _ (checkEpisode_of_short (s := next) (.inr hshort) 2)
    · exact delivery_results i t u p lim hend hids
    · rw [sbarDeadline_of_find h hst hcond, if_pos (by rw [passed_eq_false hearly]; rfl)]
    · rw [sbarDeadline_of_find h hst hcond, if_neg (by rw [passed_eq_true hset hdue]; decide), expireBarrier_later h hall]
    · refine ⟨_, (sbarDeadline_of_find h hst hcond).trans (congrArg _ (if_neg (by rw [passed_eq_true hset hdue]; decide))), ?_⟩
      rw [expireBarrier_abandons hsome ⟨hnone⟩]
      exact ⟨rfl, rfl⟩

end Sys2Proof.Proofs

/-! PROOF. Engine instructions up to the queue's reply (16 R369, R370), ESYNC (16 R375) and PREF (11 R255). -/
namespace Sys2Proof.Proofs
open Sys2Proof.Machine Sys2Proof.Laws

section
variable {s : State} {t : Thread} {i : Instr} {kind : EngKind} {a b : Reg} {q : Scope} {x y f : Bool} {bs : List Byte}
  (hexec : exec i s = word i s fun s t => s.engineInstr t (wordOf i) kind a b q x y f)
  (h1 : check1 { ea := (t.rd a.toNat).toNat, n := 64, kind := .engine, write := false } = true)
  (h2 : check2 s t.core { ea := (t.rd a.toNat).toNat, n := 64, kind := .engine, write := false } = true)
include hexec h1 h2

theorem engine_misaligned (halign : (t.rd a.toNat).toNat % 64 ≠ 0) : Parks s t i (.plain .engineOperand (t.rd a.toNat)) := by
  refine parks_of_fault hexec ?_
  simp only [State.engineInstr, h1, h2, Bool.not_true, Bool.false_eq_true, if_false, if_pos halign]
  rfl

/-- The command of a descriptor's bytes (16 R369). -/
abbrev descCmd (t : Thread) (kind : EngKind) (bs : List Byte) (q : Scope) (x y : Bool) (fill : Option Nat) : EngCmd :=
  cmdOf t kind (fun k => ofBytes ((bs.drop (8 * k)).take 8)) q x y fill

variable (halign : (t.rd a.toNat).toNat % 64 = 0) (hdesc : s.descLoads (s.bindLoads t) (t.rd a.toNat).toNat 4 = .ok bs)
include halign hdesc

theorem engine_beyond (hbad : (descCmd t kind bs q x y (if f then some (t.rd b.toNat).toNat else none)).operandsOk
    (ofBytes ((bs.drop (8 * 7)).take 8)) = false) : Parks s t i (.plain .engineOperand (t.rd a.toNat)) := by
  refine parks_of_fault hexec ?_
  simp only [State.engineInstr, h1, h2, Bool.not_true, Bool.false_eq_true, if_false, if_neg (not_not.2 halign), hdesc]
  exact if_pos (by rw [hbad]; rfl)

variable (hgood : (descCmd t kind bs q x y (if f then some (t.rd b.toNat).toNat else none)).operandsOk
    (ofBytes ((bs.drop (8 * 7)).take 8)) = true)
include hgood

theorem engine_range {e : Flt}
    (hrange : s.rangesOk t (descCmd t kind bs q x y (if f then some (t.rd b.toNat).toNat else none)).ranges = .error (.fault e)) :
    Parks s t i e := by
  refine parks_of_fault hexec ?_
  simp only [State.engineInstr, h1, h2, Bool.not_true, Bool.false_eq_true, if_false, if_neg (not_not.2 halign), hdesc]
  refine (if_neg (by rw [hgood]; decide)).trans ?_
  rw [hrange]

theorem engine_holds (hrange : s.rangesOk t (descCmd t kind bs q x y (if f then some (t.rd b.toNat).toNat else none)).ranges = .ok ()) :
    Yields s t i (s.put { s.bindLoads t with
      st := .blocked .empty, iword := wordOf i
      pend := some (.engine (descCmd t kind bs q x y (if f then some (t.rd b.toNat).toNat else none))) }) := fun hi => by
  refine yields_of_ok hexec ?_ (find_put_of_find rfl (issues_find hi) rfl) rfl hi
  simp only [State.engineInstr, h1, h2, Bool.not_true, Bool.false_eq_true, if_false, if_neg (not_not.2 halign), hdesc]
  refine (if_neg (by rw [hgood]; decide)).trans ?_
  rw [hrange]
  rfl

end

/-! PREF (11 R255; 13 R301, R307). -/

theorem threads_pageRequest (s : State) (t : Thread) (va : Nat) : (s.pageRequest t va).threads = s.threads := by
  unfold State.pageRequest
  dsimp only
  split
  · rfl
  · exact pushRec_threads ..

section
variable {s : State} {t : Thread} {a : Reg} {l : PrefLevel} {w : Walked} {e : Flt}

/-- A page that PREF's thread may use: it grants R, and its byte lies in range and in a carve that admits the domain. -/
def prefUsable (s : State) (t : Thread) (va : Nat) (w : Walked) : Prop :=
  Leaf.r w.leaf = true ∧ ∃ p, s.locOf (dieOf t.core) t.id.sdom va w.leaf false = .ok p ∧ p.spot.inRange = true ∧
    s.carveAdmits t.id.sdom p.spot = true

theorem prefUsable_iff (s : State) (t : Thread) (va : Nat) (w : Walked) : (Leaf.r w.leaf &&
    (match s.locOf (dieOf t.core) t.id.sdom va w.leaf false with
      | .ok l => l.spot.inRange && s.carveAdmits t.id.sdom l.spot
      | .error _ => false)) = true ↔ prefUsable s t va w := by
  unfold prefUsable
  cases s.locOf (dieOf t.core) t.id.sdom va w.leaf false with
  | error f => simp
  | ok l => simp

theorem pref_nothing (h : canonical (t.rd a.toNat).toNat = false ∨ inWindow (t.rd a.toNat).toNat = true ∨
    (s.tlbFind t.core t.id.sdom (t.rd a.toNat).toNat).isSome = true ∨
    s.walkWaits (dieOf t.core) t.id.sdom (t.rd a.toNat).toNat = true) : Completes s t (.pref a l) t := by
  refine completes_of_retire (execPref.eq_def a l s) (if_pos ?_) rfl rfl rfl
  rw [Bool.or_eq_true, Bool.or_eq_true, Bool.or_eq_true, Bool.not_eq_true', or_assoc, or_assoc]
  exact h

variable (hcanon : canonical (t.rd a.toNat).toNat = true) (hwin : inWindow (t.rd a.toNat).toNat = false)
  (htlb : s.tlbFind t.core t.id.sdom (t.rd a.toNat).toNat = none) (hgoes : s.walkWaits (dieOf t.core) t.id.sdom (t.rd a.toNat).toNat = false)
include hcanon hwin htlb hgoes

theorem pref_fault (hwalk : s.walk (dieOf t.core) t.id.sdom (t.rd a.toNat).toNat .load false = .error e)
    (hcause : e.cause ≠ .pageNotPresent) : Completes s t (.pref a l) t := by
  refine completes_of_retire (execPref.eq_def a l s) ?_ rfl rfl rfl
  simp only [hcanon, hwin, htlb, hgoes, hwalk, if_neg hcause]
  rfl

theorem pref_requests (hwalk : s.walk (dieOf t.core) t.id.sdom (t.rd a.toNat).toNat .load false = .error e)
    (hcause : e.cause = .pageNotPresent) :
    Yields s t (.pref a l) ((s.pageRequest t (t.rd a.toNat).toNat).put { t with pc := t.pc + 4 }) := by
  refine yields_of_retire (execPref.eq_def a l s) (fun _ => ?_) (threads_pageRequest ..) rfl rfl rfl
  simp only [hcanon, hwin, htlb, hgoes, hwalk, if_pos hcause]
  rfl

variable (hwalk : s.walk (dieOf t.core) t.id.sdom (t.rd a.toNat).toNat .load false = .ok w)
include hwalk

theorem pref_unusable (hno : ¬ prefUsable s t (t.rd a.toNat).toNat w) : Completes s t (.pref a l) t := by
  refine completes_of_retire (execPref.eq_def a l s) ?_ rfl rfl rfl
  simp only [hcanon, hwin, htlb, hgoes, hwalk]
  exact if_neg (mt (prefUsable_iff ..).1 hno)

theorem pref_fills (hyes : prefUsable s t (t.rd a.toNat).toNat w) :
    Yields s t (.pref a l) (((s.walkKeep (dieOf t.core) w.path).tlbAdd t.core
      (tlbEntOf t.id.sdom (t.rd a.toNat).toNat w.leaf)).put { t with pc := t.pc + 4 }) := by
  refine yields_of_retire (execPref.eq_def a l s) (fun _ => ?_) rfl rfl rfl rfl
  simp only [hcanon, hwin, htlb, hgoes, hwalk]
  exact if_pos ((prefUsable_iff ..).2 hyes)

end

/-- What holds of every instruction that issues a command of its kind holds of CPY, CPY2D, DEAL, RSTR and MRED (16 R369). -/
theorem engine_forms {s : State} {a b : Reg} {q : Scope} {x y f : Bool} {P : Instr → EngKind → Prop}
    (h : ∀ i kind, (exec i s = word i s fun s t => s.engineInstr t (wordOf i) kind a b q x y f) → P i kind) :
    P (.cpy a b q x y f) .cpy ∧ P (.cpy2d a b q x y f) .cpy2d ∧ P (.deal a b q x y f) .deal ∧ P (.rstr a b q x y f) .rstr ∧
      P (.mred a b q x y f) .mred :=
  ⟨h _ _ (execCpy.eq_def a b q x y f s), h _ _ (execCpy2d.eq_def a b q x y f s), h _ _ (execDeal.eq_def a b q x y f s),
    h _ _ (execRstr.eq_def a b q x y f s), h _ _ (execMred.eq_def a b q x y f s)⟩

/-- Settles O44: an engine instruction by the checks it passes; PREF by where its walk ends. -/
theorem engineRequests : Obligations.EngineRequests := by
  intro s t a b q x y f bs l w e va n cmd acc forms
  refine ⟨fun h1 h2 => ⟨fun halign => engine_forms fun i kind hexec => engine_misaligned hexec h1 h2 halign, fun halign hdesc =>
      ⟨engine_forms fun i kind hexec => engine_beyond hexec h1 h2 halign hdesc,
        engine_forms (P := fun i k => (cmd k).operandsOk (n 7) = true → s.rangesOk t (cmd k).ranges = .error (.fault e) → Parks s t i e)
          fun i kind hexec hgood hrange => engine_range hexec h1 h2 halign hdesc hgood hrange,
        engine_forms fun i kind hexec hgood hrange => engine_holds hexec h1 h2 halign hdesc hgood hrange⟩⟩,
    completes_of_retire (execEsync.eq_def q s) rfl rfl rfl rfl, pref_nothing, fun hcanon hwin htlb hgoes => ⟨fun hwalk hcause => ?_,
      fun hwalk hcause => ?_, fun hwalk hno => ?_, fun hwalk hyes => ?_⟩⟩
  · exact pref_fault hcanon hwin htlb hgoes hwalk hcause
  · exact pref_requests hcanon hwin htlb hgoes hwalk hcause
  · exact pref_unusable hcanon hwin htlb hgoes hwalk hno
  · exact pref_fills hcanon hwin htlb hgoes hwalk hyes

end Sys2Proof.Proofs

/-! PROOF. STORE_BUFFER_DRAIN (15 R341; 12 R266, R273): the oldest buffered store is performed, or waits. -/
namespace Sys2Proof.Proofs
open Sys2Proof.Machine Sys2Proof.Laws

/-- Binding a load's value leaves the store that it keeps (11 R243). -/
theorem bindFill_bar (s : State) (t : Thread) (f : Fill) : (s.bindFill t f).bar = f.bar := by
  unfold State.bindFill
  split
  · rfl
  · dsimp only
    split
    · rfl
    · split <;> rfl

theorem barred_bindBefore (s : State) (t : Thread) : (s.bindBefore t).barred = t.barred := by
  unfold Thread.barred State.bindBefore
  rw [List.any_map]
  congr 1
  funext f
  rw [Function.comp_apply]
  split
  · rw [bindFill_bar]
  · rfl

/-- What a store waits for, besides the loads that keep it, is the same once the loads before it are bound. -/
theorem storeLost_bindBefore (s : State) (t : Thread) : s.storeLost (s.bindBefore t) = s.storeLost t := by
  unfold State.storeLost State.storeReq
  rw [barred_bindBefore]
  rfl

section
variable {s : State} {t : Thread} {e : StoreEnt} {l : List StoreEnt} (h : s.find t.id = some t) (hstores : t.stores = e :: l)
  (hland : s.noLanding) (hearly : s.noEarly (dieOf t.core) e.pa e.bytes.length)
include h hstores hland hearly

/-- The oldest store of a thread with nothing before it to land leaves the buffer, or waits. -/
theorem drainWith_of_settled (later : Bool) : s.drainWith t later =
    if t.barred || !s.relDone t || s.storeLost t then s
    else match s.storePlace t.core t.id.sdom e with
    | none => s
    | some (pa, m) =>
      if e.hostPair then
        let k := 8 * (Config.free 82 s.draws % 2)
        (s.put { s.bindBefore t with stores := e.half (8 - k) :: l }).perform t.id.sdom (pa + k) (m.map (· + k)) (e.half k).bytes
      else if later && s.maybeEarly (s.bindBefore t) e m then
        State.checkWatches { s.put ((s.bindBefore t).popStore s.tick) with
          early := s.early ++ [{ tid := t.id, core := t.core, ent := e }] }
      else (s.put ((s.bindBefore t).popStore s.tick)).perform t.id.sdom pa m e.bytes := by
  have hown : s.landStore t = s := by
    unfold State.landStore
    rw [hstores]
    dsimp only
    split
    · rfl
    · exact landOwn_of_noLanding hland ..
  have hbefore : (s.bindBefore t).stores = e :: l := hstores
  have hdone : s.relDone (s.bindBefore t) = s.relDone t := rfl
  unfold State.drainWith
  simp only [hown, hstores, landWords_of_noEarly hearly, h, Option.getD_some, hbefore, barred_bindBefore, hdone, storeLost_bindBefore]
  rfl

theorem drainWith_waits (hwait : t.barred = true ∨ s.relDone t = false) (later : Bool) : s.drainWith t later = s := by
  rw [drainWith_of_settled h hstores hland hearly]
  refine if_pos ?_
  rcases hwait with hbar | hrel
  · rw [hbar]
    rfl
  · rw [hrel, Bool.not_false, Bool.or_true, Bool.true_or]

/-- The oldest store whose place is known leaves the buffer: it is performed, or it is seen by its die alone (12 R266, R273). -/
theorem drainWith_of_place {pa : Nat} (hbar : t.barred = false) (hrel : s.relDone t = true) (hlost : s.storeLost t = false)
    (hpair : e.hostPair = false) (hplace : s.storePlace t.core t.id.sdom e = some (pa, none)) (later : Bool) :
    s.drainWith t later = if later && s.maybeEarly (s.bindBefore t) e none then
      State.checkWatches { s.put ((s.bindBefore t).popStore s.tick) with early := s.early ++ [{ tid := t.id, core := t.core, ent := e }] }
    else (s.put ((s.bindBefore t).popStore s.tick)).perform t.id.sdom pa none e.bytes := by
  rw [drainWith_of_settled h hstores hland hearly, hbar, hrel, hlost, hplace]
  simp only [hpair]
  rfl

end

/-- A store that only its die may see at once is a whole word, with a page, and of no scratchpad (12 R266). -/
theorem maybeEarly_elim {s : State} {t : Thread} {e : StoreEnt} {m : Option Nat} (h : s.maybeEarly t e m = true) :
    e.bytes.length = 8 ∧ e.leaf.isSome = true ∧ physUnit e.pa < 32 := by
  unfold State.maybeEarly at h
  simp only [Bool.and_eq_true, decide_eq_true_eq, beq_iff_eq] at h
  obtain ⟨⟨⟨⟨⟨hlength, hleaf⟩, -⟩, hunit⟩, -⟩, -⟩ := h
  refine ⟨hlength, ?_, Nat.lt_of_le_of_lt hunit (by decide)⟩
  cases hl : e.leaf with
  | none => rw [hl] at hleaf; cases hleaf
  | some x => rfl

/-- What is performed in memory, once a thread's value is replaced, is stored there, and nothing else changes but that a matrix operation
may have read it (10 R230; 08 R183). -/
theorem performed_of_put {s : State} {u : Thread} {pa d : Nat} {bs : List Byte} (hs : (s.put u).unwatched)
    (hline : (s.put u).lineAt pa = none) (hfits : pa % 128 + bs.length ≤ 128) :
    Stored s ((s.put u).perform d pa none bs) d pa bs ∧ ((s.put u).perform d pa none bs).threads = (s.put u).threads ∧
    (physUnit pa < 32 → ((s.put u).perform d pa none bs).gangs = s.gangs) ∧
    (s.put u).perform d pa none bs =
      { s with mem := ((s.put u).perform d pa none bs).mem, lineKey := ((s.put u).perform d pa none bs).lineKey
               poison := ((s.put u).perform d pa none bs).poison, threads := ((s.put u).perform d pa none bs).threads
               gangs := ((s.put u).perform d pa none bs).gangs } := by
  have hperformed := perform_of_memory hs hline d bs
  have hmemory : MemoryOnly (s.put u) ((s.put u).writeAs d pa bs) := memoryOnly_writeAs (s.put u) d hfits
  obtain ⟨hbytes, hothers, hlines⟩ := stored_writeAs (s.put u) d hfits
  generalize hs' : (s.put u).perform d pa none bs = s' at *
  have hread (e x : Nat) : s'.byteAs e x = ((s.put u).writeAs d pa bs).byteAs e x := by rw [hperformed, byteAs_noteOperand]
  have heq : s' = { s.put u with mem := s'.mem, lineKey := s'.lineKey, poison := s'.poison, gangs := s'.gangs } :=
    eq_of_memoryOnly hmemory (by rw [hperformed]; exact noteOperand_eq ..)
  refine ⟨⟨fun k hk => (hread ..).trans (hbytes k hk), fun x hx => (hread ..).trans (hothers x hx),
    fun x e hx => (hread ..).trans (hlines x e hx)⟩, ?_, fun hunit => ?_, ?_⟩
  · rw [heq]
  · rw [hperformed, noteOperand_of_lt hunit, hmemory]
    rfl
  · rw [heq]
    rfl

/-- Settles O15: the oldest store waits, is performed at its place, or leaves the buffer for its die alone. -/
theorem drainPerforms : Obligations.DrainPerforms := by
  intro s i t e l pa left h hstores hasyncs hkilled hland hown hearly
  obtain rfl := find_id h
  have hnone : s.early.any (·.tid == t.id) = false := List.any_eq_false.2 fun x hx => by simpa using hown x hx
  have hexec : exec (.storeBufferDrain t.id) s = .next (s.drainOne t) := by
    show execStoreBufferDrain t.id s = _
    simp only [execStoreBufferDrain, event, h, hnone, hasyncs, hkilled, Bool.false_and, Bool.false_eq_true, if_false, List.isEmpty_nil,
      Bool.not_false, Bool.and_true, if_true]
  rw [State.drainOne] at hexec
  refine ⟨fun hwait => hexec.trans (congrArg _ (drainWith_waits h hstores hland hearly hwait _)),
    fun hbar hrel hlost hpair hplace hline hfits hs => ?_⟩
  have hquiet : (s.put left).unwatched := unwatched_put hs (watchesNothing_of_cond (unwatched_iff.1 hs t (mem_of_find h)) rfl)
  rw [drainWith_of_place h hstores hland hearly hbar hrel hlost hpair hplace] at hexec
  split at hexec
  next hwaits =>
    rw [Bool.and_eq_true] at hwaits
    obtain ⟨hlength, hleaf, hunit⟩ := maybeEarly_elim hwaits.2
    have hkept : ({ s.put left with early := s.early ++ [{ tid := t.id, core := t.core, ent := e }] } : State).unwatched := hquiet
    exact .inr ⟨hlength, hleaf, hunit, hexec.trans (congrArg _ (checkWatches_of_unwatched hkept))⟩
  next =>
    exact .inl ⟨_, hexec, performed_of_put hquiet (lineAt_put hline (mem_of_find h) rfl rfl) hfits⟩

end Sys2Proof.Proofs

/-! PROOF. What the accesses of agents and the ends of waits (12 R258; 13 R291; 16 R361; 09 R197, R198) leave as it was: all but threads, gangs,
cores, bytes with their marks, what is held or under way, and upcall queues. -/
namespace Sys2Proof.Proofs
open Sys2Proof.Machine Sys2Proof.Laws

/-- The state but for its threads, gangs, cores and dies, its bytes with their marks, and what is held or under way. -/
def aside (s : State) : State :=
  { standing s with threads := [], gangs := [], cores := [], dies := [], lateRecs := [], early := [], feEmpty := [] }

/-- What surrounds the threads and their memory: the rest of the state, and the task queue of every core. -/
def around (s : State) : State × (Nat → List TaskEnt) := (aside s, fun c => (s.core c).taskq)

theorem around_of_cores {s s' : State} (haside : aside s' = aside s) (hcores : s'.cores = s.cores) : around s' = around s := by
  rw [around, around, haside]
  simp only [State.core, hcores]

theorem around_of_standing {s s' : State} (h : standing s' = standing s) : around s' = around s :=
  around_of_cores (eq_of_standing aside (fun _ => rfl) h) (cores_of_standing h)

section
variable {s s' : State} (h : around s' = around s)
include h

theorem endpoints_of_around : s'.endpoints = s.endpoints := congrArg (fun x => State.endpoints x.1) h
theorem launches_of_around : s'.launches = s.launches := congrArg (fun x => State.launches x.1) h
theorem taskq_of_around (c : Nat) : (s'.core c).taskq = (s.core c).taskq := congrArg (fun x => x.2 c) h

end

theorem around_foldl {α : Type} {f : State → α → State} (hf : ∀ s a, around (f s a) = around s) (l : List α) (s : State) :
    around (l.foldl f s) = around s := foldl_keeps hf l s

/-! Updates of one thread, gang or core, events counted and records. -/

@[simp] theorem around_put (s : State) (t : Thread) : around (s.put t) = around s := around_of_cores rfl rfl
theorem around_setCore {s : State} {c : Nat} {x : Core} (h : x.taskq = (s.core c).taskq) : around (s.setCore c x) = around s := by
  refine Prod.ext rfl (funext fun j => ?_)
  show ((s.setCore c x).core j).taskq = (s.core j).taskq
  rw [core_setCore]
  split
  next hj => rw [h, hj]
  next => rfl

@[simp] theorem around_setGang (s : State) (g : Gang) : around (s.setGang g) = around s := around_of_cores rfl rfl
@[simp] theorem around_setFull (s : State) (a : Nat) (b : Bool) : around (s.setFull a b) = around s := around_of_cores rfl rfl

@[simp] theorem around_tally (s : State) (core : Nat) (dom : Option Nat) (code n : Nat) : around (s.tally core dom code n) = around s := by
  unfold State.tally
  dsimp only
  split
  · exact around_setCore rfl
  · rfl

@[simp] theorem around_pushRec (s : State) (d : Nat) (r : Rec) : around (s.pushRec d r) = around s := by
  unfold State.pushRec
  split
  · exact around_of_cores rfl rfl
  · exact around_of_cores rfl rfl

@[simp] theorem around_charge (s : State) (die home : Nat) (c : Charge) (d : Int) (l : List Nat) :
    around (s.charge die home c d l) = around s := around_of_standing (standing_charge ..)

@[simp] theorem around_dropFresh (s : State) (core : Nat) (i : Tid) : around (s.dropFresh core i) = around s := by
  unfold State.dropFresh
  dsimp only
  split
  · exact around_setCore rfl
  · rfl

@[simp] theorem around_dropCredit (s : State) (i : Tid) : around (s.dropCredit i) = around s := around_of_cores rfl rfl

@[simp] theorem around_releaseSlot (s : State) (t : Thread) : around (s.releaseSlot t).1 = around s := by
  unfold State.releaseSlot
  dsimp only
  split <;> simp

/-! Bytes (10 R230; 08 R183). -/

@[simp] theorem around_writeAs (s : State) (d a : Nat) (bs : List Byte) : around (s.writeAs d a bs) = around s :=
  around_of_standing (standing_writeAs ..)

@[simp] theorem around_touch (s : State) (die d a : Nat) (w : Bool) : around (s.touch die d a w) = around s :=
  around_of_standing (standing_touch ..)

@[simp] theorem around_noteOperand (s : State) (pa n : Nat) : around (s.noteOperand pa n) = around s := by
  rw [noteOperand_eq]
  exact around_of_cores rfl rfl

@[simp] theorem around_unpoison (s : State) (a n : Nat) : around (s.unpoison a n) = around s := around_of_standing (standing_unpoison ..)

@[simp] theorem around_writeRaw (s : State) (d pa : Nat) (bs : List Byte) : around (s.writeRaw d pa bs) = around s := by
  unfold State.writeRaw
  split
  · split
    · rfl
    · exact (around_put ..).trans (around_unpoison ..)
  · exact (around_noteOperand ..).trans (around_writeAs ..)

/-! Waits that end (16 R360, R361). -/

@[simp] theorem around_completeWait (s : State) (t : Thread) (regs : List (Nat × Word)) : around (s.completeWait t regs) = around s := by
  rw [completeWait_eq_waitOver]
  exact around_put ..

/-! Gangs (09 R173, R190, R197, R198). -/

@[simp] theorem around_gangWrite (s : State) (g : Gang) (k off : Nat) (bs : List Byte) : around (s.gangWrite g k off bs).1 = around s := by
  unfold State.gangWrite
  split
  · dsimp only
    split
    · simp
    · rfl
  · split
    · rfl
    · split
      · rfl
      · dsimp only
        split <;> simp

theorem around_gangWrites (s : State) (g : Gang) (k : Nat) (l : List (Nat × List Byte)) : around (s.gangWrites g k l).1 = around s := by
  refine foldl_keeps (p := fun x : State × Bool => around x.1) (fun x p => ?_) l (s, false)
  exact around_gangWrite x.1 g k p.1 p.2

@[simp] theorem around_recPut (s : State) (g : Gang) (ks : List Nat) : around (s.recPut g ks) = around s := around_gangWrites ..

@[simp] theorem around_releaseMember (s : State) (t : Thread) : around (s.releaseMember t) = around s := by
  unfold State.releaseMember
  split
  · exact (around_put ..).trans ((around_releaseSlot ..).trans (around_tally ..))
  · rfl

@[simp] theorem around_seatGang (s : State) (g : Gang) : around (s.seatGang g) = around s := by
  unfold State.seatGang
  split
  · refine (around_recPut ..).trans ((around_foldl (fun _ _ => around_touch ..) _ _).trans ((around_setGang ..).trans ?_))
    exact around_foldl (f := fun s c => s.modUnit c _) (fun _ _ => around_setCore rfl) _ s
  · exact (around_setGang ..).trans (around_foldl around_releaseMember _ s)

@[simp] theorem around_convene (s : State) (g : Gang) : around (s.convene g) = around s := by
  have hforming (s : State) (g : Gang) : around (s.completeForming g) = around s := around_foldl (fun s t => by
    split
    · exact around_completeWait ..
    · exact around_put ..) _ s
  exact (around_seatGang ..).trans ((hforming ..).trans ((around_recPut ..).trans (around_setGang ..)))

@[simp] theorem around_joinGang (s : State) (t : Thread) (g : Gang) (pa : Nat) (leaf : Option Word) (k reg : Nat) :
    around (s.joinGang t g pa leaf k reg) = around s := by
  unfold State.joinGang
  dsimp only
  split
  · exact (around_convene ..).trans ((around_recPut ..).trans ((around_setGang ..).trans (around_put ..)))
  · exact (around_recPut ..).trans ((around_setGang ..).trans (around_put ..))

theorem around_joinTest {s s' : State} {t : Thread} {id : GangId} {pa : Nat} {leaf : Option Word} {reg : Nat}
    (e : s.joinTest t id pa leaf reg = .ok s') : around s' = around s := by
  have hsame (e : (.ok s : Except Flt State) = .ok s') : around s' = around s := by rw [Except.ok.inj e]
  have hite {c : Prop} [Decidable c] {x y : Except Flt State} (hx : x = .ok s' → around s' = around s) (hy : y = .ok s' → around s' = around s)
      (e : (if c then x else y) = .ok s') : around s' = around s := by
    split at e
    · exact hx e
    · exact hy e
  have hflt {c : Cause} {n : Nat} (e : gangFlt c n = .ok s') : around s' = around s := by cases e
  unfold State.joinTest at e
  split at e
  · cases e
  · exact hsame e
  · refine hite hsame (fun e => ?_) e
    split at e
    · exact Except.ok.inj e ▸ around_completeWait ..
    · split at e
      · exact hsame e
      · dsimp only at e
        split at e
        · exact hflt e
        · refine hite hflt (hite hflt fun e => ?_) e
          split at e
          · exact hflt e
          · exact Except.ok.inj e ▸ around_joinGang ..
      · exact hflt e

@[simp] theorem around_parkJoiner (s : State) (t : Thread) (f : Flt) : around (s.parkJoiner t f) = around s :=
  (around_pushRec ..).trans ((around_put ..).trans (around_releaseSlot ..))

@[simp] theorem around_checkJoiners (s : State) : around s.checkJoiners = around s := by
  refine around_foldl (fun s u => ?_) _ s
  split
  · rfl
  · split
    · split
      · exact around_joinTest ‹_›
      · exact around_parkJoiner ..
    · rfl

theorem around_withEnded (s : State) (l : List (Tid × Word)) : around { s with ended := l } = around s := around_of_cores rfl rfl

/-- The ends of waits leave what surrounds the threads (16 R361). -/
@[simp] theorem around_checkWatches (s : State) : around s.checkWatches = around s := by
  refine (around_foldl (fun s u => ?_) _ s.checkJoiners).trans (around_checkJoiners s)
  dsimp only
  split
  · split
    · exact (around_completeWait ..).trans (around_withEnded ..)
    · split
      · exact around_completeWait ..
      · rfl
  · split
    · exact around_completeWait ..
    · rfl
  · rfl

/-! Accesses at once (11 R245; 12 R258). -/

@[simp] theorem around_perform (s : State) (d pa : Nat) (m : Option Nat) (bs : List Byte) : around (s.perform d pa m bs) = around s := by
  unfold State.perform
  refine (around_checkWatches ..).trans ?_
  split <;> simp

@[simp] theorem around_performAt (s : State) (d : Nat) (g : Target) (bs : List Byte) : around (s.performAt d g bs) = around s := by
  unfold State.performAt
  split <;> exact around_perform ..

@[simp] theorem around_loadFrame (s : State) (t : Thread) (l : List Nat) : around (s.loadFrame t l) = around s :=
  (around_put ..).trans ((around_touch ..).trans (around_of_standing (standing_unpoisonNoted ..)))

theorem around_ensureFrame {s s' : State} {t : Thread} (e : s.ensureFrame t = .ok s') : around s' = around s := by
  unfold State.ensureFrame at e
  split at e
  · rw [Except.ok.inj e]
  · split at e
    · cases e
    · exact Except.ok.inj e ▸ (around_loadFrame ..).trans (around_of_standing (standing_settleHeld ..))

@[simp] theorem around_syncFrame (s : State) (sdom va : Nat) (g : Target) : around (s.syncFrame sdom va g) = around s := by
  unfold State.syncFrame
  split
  · rfl
  · split
    · split
      · split
        · exact around_ensureFrame ‹_›
        · rfl
      · exact around_of_standing (standing_settleHeld ..)
    · rfl

theorem around_agentAt {s s' : State} {g : Agent} {va : Nat} {w : Bool} {p : Target} (e : s.agentAt g va w = .ok (s', p)) :
    around s' = around s := by
  have hite {α : Type} {c : Prop} [Decidable c] {a : Except AgentStop α} {x : AgentStop} {y : α} (e : (if c then .error x else a) = .ok y) :
      a = .ok y := by
    split at e
    · cases e
    · exact e
  unfold State.agentAt at e
  split at e
  · split at e
    · cases e
    · split at e
      · rw [(Prod.mk.inj (Except.ok.inj e)).1]
      · cases e
  · have hwalk := hite (hite e)
    split at hwalk
    · cases hwalk
    · have hloc := hite hwalk
      split at hloc
      · cases hloc
      · have hdone := hite (hite hloc)
        rw [← (Prod.mk.inj (Except.ok.inj hdone)).1]
        exact (around_syncFrame ..).trans (around_of_standing (standing_markLeaf ..))

theorem around_agentWrite {s s' : State} {g : Agent} {va : Nat} {bs : List Byte} (e : s.agentWrite g va bs = .ok s') :
    around s' = around s := by
  unfold State.agentWrite at e
  split at e
  · cases e
  next hat =>
    split at e
    · cases e
    · exact Except.ok.inj e ▸ (around_performAt ..).trans (around_agentAt hat)

theorem around_agentWrites {s s' : State} {g : Agent} {va : Nat} {bs : List Byte} (e : s.agentWrites g va bs = .ok s') :
    around s' = around s := by
  have hfold (l : List (Nat × Nat)) : ∀ r : Except AgentStop State, (∀ s1, r = .ok s1 → around s1 = around s) → ∀ s1,
      l.foldl (fun r p => match r with
        | .error e => .error e
        | .ok s1 => s1.agentWrite g p.1 ((bs.drop (p.1 - va)).take p.2)) r = .ok s1 → around s1 = around s := by
    induction l with
    | nil => exact fun r hr s1 e => hr s1 e
    | cons p l ih =>
      refine fun r hr s1 e => ih _ (fun s2 e2 => ?_) s1 e
      dsimp only at e2
      split at e2
      · cases e2
      next s3 => exact (around_agentWrite e2).trans (hr s3 rfl)
  exact hfold _ (.ok s) (fun s1 e => by rw [Except.ok.inj e]) s' e

end Sys2Proof.Proofs

/-! PROOF. The host's apertures (19 R437, R438), the management window's writes (19 R435), and Ethernet endpoints (19 R441, R442). -/
namespace Sys2Proof.Proofs
open Sys2Proof.Machine Sys2Proof.Laws

/-! The host agent's accesses leave the endpoints. -/

theorem around_hostWrite {s s' : State} {sdom va : Nat} {bs l : List Byte} (e : s.hostWrite sdom va bs = .done s' l) : around s' = around s := by
  unfold State.hostWrite at e
  split at e
  next hwrites =>
    rw [← (Served.done.inj e).1]
    exact (around_checkWatches ..).trans (around_agentWrites hwrites)
  · cases e
  · cases e

theorem around_hostLater (s : State) (sdom va : Nat) (act : DevAct) : around (s.hostLater sdom va act) = around s := around_of_cores rfl rfl

@[simp] theorem around_epdPut (s : State) (sdom epd k v : Nat) : around (s.epdPut sdom epd k v) = around s := by
  unfold State.epdPut
  split
  next h => exact around_hostWrite h
  · exact around_hostLater ..
  · rfl

@[simp] theorem around_countFail (s : State) (w : EthWork) (status : Nat) : around (s.countFail w status) = around s := by
  unfold State.countFail
  split
  · rfl
  · split
    · exact around_epdPut ..
    · exact around_hostLater ..
    · rfl

theorem endpoint_of_around {s s' : State} (h : around s' = around s) (k : Nat) : s'.endpoint k = s.endpoint k := by
  rw [State.endpoint, endpoints_of_around h, State.endpoint]

theorem endpoint_setEndpoint (s : State) (k : Nat) (e : Endpoint) : (s.setEndpoint k e).endpoint k = e :=
  (get_set _).trans (if_pos rfl)

/-! Apertures (19 R437, R438). -/

section
variable {s s1 : State} {n off len : Nat} {bs : List Byte} (hrun : s.stage = .running)
include hrun

section
variable (halign : hostAligned off len = true)
include halign

theorem hostRead_goes : exec (.hostApertureRead n off len) s = .next (
    if s.hostCut then s.retryInput
    else if !s.aperAdmits n off false then { s.refuseHost with hostData := List.replicate len 0xFF }
    else match s.hostRead (s.aperDom n) ((s.aper n 0).toNat + off) len with
      | .done s1 bs => { s1 with hostData := bs }
      | .refused _ => { s.refuseHost with hostData := List.replicate len 0xFF }
      | .waits => s.retryInput) := by
  have hgo : ¬ (s.stage ≠ .running ∨ hostAligned off len = false) := by simp [hrun, halign]
  exact congrArg Host.Outcome.next (if_neg hgo)

end

section
variable (halign : hostAligned off bs.length = true)
include halign

theorem hostWrite_goes : exec (.hostApertureWrite n off bs) s = .next (
    if s.hostCut then s.retryInput
    else if !s.aperAdmits n off true || s.hostPoisoned (s.aperDom n) ((s.aper n 0).toNat + off) bs.length then s.refuseHost
    else match s.hostWrite (s.aperDom n) ((s.aper n 0).toNat + off) bs with
      | .done s1 _ => s1
      | .refused _ => s.refuseHost
      | .waits => s.retryInput) := by
  have hgo : ¬ (s.stage ≠ .running ∨ hostAligned off bs.length = false) := by simp [hrun, halign]
  exact congrArg Host.Outcome.next (if_neg hgo)

end

/-- What the host reads of the ranges below the apertures, once the package runs (19 R437). -/
theorem hostSees_running : s.hostSees off = if 0x8000 ≤ off ∧ off < 0x10000 then s.mailboxByte (off - 0x8000)
    else if 0x10300 ≤ off ∧ off < 0x10340 then (toBytes 8 (s.pkgRead (off - 0x10000 - off % 8)).toNat).getD (off % 8) 0 else 0 := by
  unfold State.hostSees
  rw [if_neg (not_not.2 hrun)]
  split
  next h => rw [if_pos ⟨h.1, by omega⟩]
  next =>
    split
    · rfl
    · split
      next h =>
        have hword : alignDown (off - 0x10000) 8 = off - 0x10000 - off % 8 := by
          rw [alignDown]
          omega
        rw [hword, wordBytes]
      next => rfl

end

/-! The management window (19 R435). -/

/-- REQTO and HOSTTO take no write of the window (20 R449). -/
theorem windowWrite_of_timeOut {s : State} {o : Nat} (h : o ∈ [0x208, 0x210]) (v : Word) : s.windowWrite o v = s := by
  rw [List.mem_cons, List.mem_singleton] at h
  rcases h with rfl | rfl <;> exact State.windowWrite.eq_1 s _ v

/-! The notice of a TAIL (19 R442). -/

section
variable {s : State} {k : Nat} {d : Epd}

theorem noticeRing_of_tail (hv : (s.endpoint k).v = true) (hgoes : s.epdWaits (s.endpoint k) = false)
    (hread : s.readEpd (s.endpoint k) = .ok d) (herr : d.err = 0) :
    s.noticeRing k = s.setEndpoint k { s.endpoint k with noticed := d.tail } := by
  simp only [State.noticeRing, hv, hgoes, hread, herr]
  rfl

theorem noticeRing_of_waits (h : (s.endpoint k).v = false ∨ s.epdWaits (s.endpoint k) = true) : s.noticeRing k = s := by
  refine if_pos ?_
  rcases h with h | h <;> rw [h]
  · rfl
  · exact Bool.or_true _

end

/-! Work entries (19 R441, R442). -/

theorem work_takeWork (s : State) (k : Nat) (d : Epd) (ws : List Word) : ((s.takeWork k d ws).endpoint k).work =
    (s.endpoint k).work ++ [{ index := d.head, words := ws, sdom := (s.endpoint k).sdom, epd := (s.endpoint k).epd.toNat }] := by
  rw [State.takeWork, endpoint_of_around (around_epdPut ..), endpoint_setEndpoint]

section
variable {s s1 : State} {k : Nat} {e : EthWork} {got : List Byte} (hwork : (s.endpoint k).work = [e]) (hok : e.ok = true)
include hwork

theorem endWork_of_one (status : Nat) : s.endWork k status = match s.localWork e status with
    | none => s.retryInput
    | some (s1, st) => ((s1.setEndpoint k { s1.endpoint k with work := [] }).writeCompletion e st).countFail e st := by
  unfold State.endWork
  simp only [hwork, List.length_singleton, Nat.mod_one]
  rfl

include hok

omit hwork in
/-- The local side of a put (19 R441). -/
theorem localWork_of_put (hput : e.word 0 = 1) : s.localWork e 1 = match s.hostRead e.sdom (e.word 1) (e.word 2) with
    | .done s1 _ => some (s1, 1)
    | .refused c => some (s, if 16 ≤ c ∧ c ≤ 20 then c else 18)
    | .waits => none := by
  have hget : isGet e.words = false := by
    refine beq_eq_false_iff_ne.2 fun h => ?_
    rw [EthWork.word, h] at hput
    cases hput
  unfold State.localWork
  rw [hok, hget]
  rfl

theorem endWork_of_put (hput : e.word 0 = 1) (hword : e.word 6 = 0) (hread : s.hostRead e.sdom (e.word 1) (e.word 2) = .done s1 got) :
    s.endWork k 1 = s1.setEndpoint k { s1.endpoint k with work := [] } := by
  rw [endWork_of_one hwork, localWork_of_put hok hput, hread]
  show State.countFail (State.writeCompletion _ e 1) e 1 = _
  rw [State.writeCompletion, if_pos hword]
  rfl

theorem endWork_of_wait (hput : e.word 0 = 1) (hread : s.hostRead e.sdom (e.word 1) (e.word 2) = .waits) : s.endWork k 1 = s.retryInput := by
  rw [endWork_of_one hwork, localWork_of_put hok hput, hread]

/-- A work entry whose remote side ends with a failure leaves its endpoint. -/
theorem work_of_timeout (hword : e.word 6 = 0) : ((s.endWork k 35).endpoint k).work = [] := by
  have hlocal : s.localWork e 35 = some (s, 35) := by
    unfold State.localWork
    rw [hok]
    rfl
  rw [endWork_of_one hwork, hlocal]
  show ((State.countFail (State.writeCompletion _ e 35) e 35).endpoint k).work = []
  rw [endpoint_of_around (around_countFail ..), State.writeCompletion, if_pos hword, endpoint_setEndpoint]

end

/-! Inbound accesses (19 R442). -/

section
variable {s s1 : State} {x : Inbound} {bs : List Byte} (hrun : s.stage = .running)
include hrun

theorem inbound_goes (hv : (s.endpoint x.ep).v = true) : exec (.ethernetInboundAccess x) s = .next (
    if s.epdWaits (s.endpoint x.ep) then s.retryInput
    else if s.admitted = false ∧ s.inboundOk (s.endpoint x.ep) x = false then s
    else match x.data with
      | some bs => match s.hostWrite (s.endpoint x.ep).sdom x.addr bs with
        | .done s1 _ => { s1 with admitted := false }
        | .refused _ => { s with admitted := false }
        | .waits => s.admitLater
      | none => match s.hostRead (s.endpoint x.ep).sdom x.addr x.len with
        | .done s1 bs => { s1 with hostData := bs, admitted := false }
        | .refused _ => { s with admitted := false }
        | .waits => s.admitLater) := by
  have hgo : ¬ (s.stage ≠ .running ∨ (s.endpoint x.ep).v = false) := by simp [hrun, hv]
  exact congrArg Host.Outcome.next (if_neg hgo)

variable (hok : s.admitted = true ∨ s.inboundOk (s.endpoint x.ep) x = true) (hv : (s.endpoint x.ep).v = true)
  (hgoes : s.epdWaits (s.endpoint x.ep) = false) {r : Served}
include hok hv hgoes

/-- An admitted inbound access does what it comes to (19 R442). -/
theorem inbound_writes (hdata : x.data = some bs) (hserved : s.hostWrite (s.endpoint x.ep).sdom x.addr bs = r) :
    exec (.ethernetInboundAccess x) s = .next (match (generalizing := false) r with
      | .done s1 _ => { s1 with admitted := false }
      | .refused _ => { s with admitted := false }
      | .waits => s.admitLater) := by
  have hwaits : ¬ s.epdWaits (s.endpoint x.ep) = true := by simp [hgoes]
  have hadmitted : ¬ (s.admitted = false ∧ s.inboundOk (s.endpoint x.ep) x = false) := by
    rcases hok with h | h <;> simp [h]
  rw [inbound_goes hrun hv, if_neg hwaits, if_neg hadmitted, hdata]
  simp only [hserved]

theorem inbound_reads (hdata : x.data = none) (hserved : s.hostRead (s.endpoint x.ep).sdom x.addr x.len = r) :
    exec (.ethernetInboundAccess x) s = .next (match (generalizing := false) r with
      | .done s1 bs => { s1 with hostData := bs, admitted := false }
      | .refused _ => { s with admitted := false }
      | .waits => s.admitLater) := by
  have hwaits : ¬ s.epdWaits (s.endpoint x.ep) = true := by simp [hgoes]
  have hadmitted : ¬ (s.admitted = false ∧ s.inboundOk (s.endpoint x.ep) x = false) := by
    rcases hok with h | h <;> simp [h]
  rw [inbound_goes hrun hv, if_neg hwaits, if_neg hadmitted, hdata]
  simp only [hserved]

end

/-- Settles O59: an access of the host or of the network by what admits it and what it comes to; an endpoint by its descriptor and its
work. -/
theorem hostSteps : Obligations.HostSteps := by
  intro s s1 n off len k bs got v d ws e x host hrun va ep taken refused again inb
  refine ⟨fun halign => ⟨fun hcut => ?_, fun hlink => ⟨fun hno => ?_, fun hyes hserved => ?_, fun hyes hserved => ?_⟩⟩,
    fun halign => ⟨fun hcut => ?_, fun hlink => ⟨fun hno => ?_, fun hyes hpoison => ?_, fun hyes hclean => ⟨fun hserved => ?_, fun hserved => ?_⟩⟩⟩,
    fun hhost => ?_, fun o ho => ?_, hostSees_running hrun, fun hv hgoes hread herr i hi => ?_, fun hno i hi => ?_,
    fun hnext => ⟨fun hput => ⟨s.takeWork k d ws, ?_, work_takeWork .., ?_⟩, fun hget => ⟨s.takeWork k d ws, ?_, work_takeWork .., ?_⟩⟩,
    fun hwork hok hword => ⟨fun hput hread => ?_, fun hput hread => ?_, ⟨s.endWork k 35, ?_, work_of_timeout hwork hok hword⟩⟩,
    fun hno => ?_, fun hv hwaits => ?_, fun hok hv hgoes => ⟨fun hdata hserved => ?_, fun hdata hserved => ?_, fun hdata hserved => ?_,
      fun hdata hserved => ?_⟩⟩
  · rw [hostRead_goes hrun halign, if_pos hcut]
    rfl
  · rw [hostRead_goes hrun halign, if_neg (by rw [hlink]; decide), if_pos (by rw [hno]; rfl)]
    rfl
  · rw [hostRead_goes hrun halign, if_neg (by rw [hlink]; decide), if_neg (by rw [hyes]; decide), hserved]
    rfl
  · rw [hostRead_goes hrun halign, if_neg (by rw [hlink]; decide), if_neg (by rw [hyes]; decide), hserved]
  · rw [hostWrite_goes hrun halign, if_pos hcut]
    rfl
  · rw [hostWrite_goes hrun halign, if_neg (by rw [hlink]; decide), if_pos (by rw [hno]; rfl)]
    rfl
  · rw [hostWrite_goes hrun halign, if_neg (by rw [hlink]; decide), if_pos (by rw [hpoison]; exact Bool.or_true _)]
    rfl
  · rw [hostWrite_goes hrun halign, if_neg (by rw [hlink]; decide), if_neg (by rw [hyes, hclean]; decide), hserved]
  · rw [hostWrite_goes hrun halign, if_neg (by rw [hlink]; decide), if_neg (by rw [hyes, hclean]; decide), hserved]
    rfl
  · exact congrArg Host.Outcome.next (if_neg (by simp [hhost]))
  · refine congrArg Host.Outcome.next ?_
    rw [windowWrite_of_timeOut ho]
    exact ite_self _
  · have hstep : s.noticeRing k = s.setEndpoint k { ep with noticed := d.tail } := noticeRing_of_tail hv hgoes hread herr
    simp only [List.mem_cons, List.not_mem_nil, or_false] at hi
    rcases hi with rfl | rfl <;> exact congrArg Host.Outcome.next ((if_pos hrun).trans hstep)
  · have hstep : s.noticeRing k = s := noticeRing_of_waits hno
    simp only [List.mem_cons, List.not_mem_nil, or_false] at hi
    rcases hi with rfl | rfl <;> exact congrArg Host.Outcome.next ((if_pos hrun).trans hstep)
  · refine congrArg Host.Outcome.next ((if_neg (not_not.2 hrun)).trans ?_)
    rw [hnext]
    exact if_neg fun h => hput (beq_iff_eq.1 h)
  · refine congrArg Host.Outcome.next ((if_neg (not_not.2 hrun)).trans ?_)
    rw [hnext]
    exact if_neg fun h => hput (beq_iff_eq.1 h)
  · refine congrArg Host.Outcome.next ((if_neg (not_not.2 hrun)).trans ?_)
    rw [hnext]
    exact if_pos (beq_iff_eq.2 hget)
  · refine congrArg Host.Outcome.next ((if_neg (not_not.2 hrun)).trans ?_)
    rw [hnext]
    exact if_pos (beq_iff_eq.2 hget)
  · exact congrArg Host.Outcome.next ((if_pos ⟨hrun, .inl rfl⟩).trans (endWork_of_put hwork hok hput hword hread))
  · exact congrArg Host.Outcome.next ((if_pos ⟨hrun, .inl rfl⟩).trans (endWork_of_wait hwork hok hput hread))
  · exact congrArg Host.Outcome.next (if_pos hrun)
  · rcases hno with hv | ⟨hgoes, hadmitted, hinbound⟩
    · exact congrArg Host.Outcome.next (if_pos (.inr hv))
    · refine congrArg Host.Outcome.next ?_
      split
      · rfl
      · exact (if_neg (by rw [hgoes]; decide)).trans (if_pos ⟨hadmitted, hinbound⟩)
  · rw [inbound_goes hrun hv, if_pos hwaits]
    rfl
  · exact inbound_writes hrun hok hv hgoes hdata hserved
  · exact inbound_writes hrun hok hv hgoes hdata hserved
  · exact inbound_reads hrun hok hv hgoes hdata hserved
  · exact inbound_reads hrun hok hv hgoes hdata hserved

end Sys2Proof.Proofs

/-! PROOF. Launch queues (15 R329, R331 to R334): what a notice records, and what the take of a record leaves. -/
namespace Sys2Proof.Proofs
open Sys2Proof.Machine Sys2Proof.Laws

/-! Notices (15 R331). -/

theorem queue_setQueue (s : State) (k : Nat) (e : QueueEnt) : (s.setQueue k e).queue k = e := by
  show Sparse.get QueueEnt.init (Sparse.set QueueEnt.init s.queues k e) k = e
  rw [get_set, if_pos rfl]

theorem walkFrom_setQueue (s : State) (q : Nat) (e : QueueEnt) (die sdom va : Nat) (k : AccKind) (l : List Nat) (w : Word) :
    (s.setQueue q e).walkFrom die sdom va k l w = s.walkFrom die sdom va k l w := by
  induction l generalizing w with
  | nil => rfl
  | cons lvl rest ih =>
    rw [State.walkFrom, State.walkFrom]
    simp only [ih]
    rfl

theorem lqdWord_setQueue (s : State) (k n : Nat) (e : QueueEnt) (f : QueueEnt) : (s.setQueue k e).lqdWord f n = s.lqdWord f n := by
  have hwalk : (s.setQueue k e).walkTable 0 f.sdom (f.lqd + 8 * n) .walk = s.walkTable 0 f.sdom (f.lqd + 8 * n) .walk := by
    simp only [State.walkTable, walkFrom_setQueue]
    rfl
  simp only [State.lqdWord, State.devRead, State.devLoc, hwalk]
  rfl

section
variable {s : State} {q : Nat} {l : Lqd} {err : Nat} (hv : (s.queue q).v = true) (hwaits : s.lqdWaits (s.queue q) = false)
include hv hwaits

theorem noticeTail_of_ok (hread : (s.touch 0 (s.queue q).sdom (s.queue q).lqd false).readLqd (s.queue q) = .ok l)
    (hclear : (s.touch 0 (s.queue q).sdom (s.queue q).lqd false).lqdWord (s.queue q) 7 = .ok 0) :
    s.noticeTail q = (s.touch 0 (s.queue q).sdom (s.queue q).lqd false).setQueue q { s.queue q with noticed := l.tail } := by
  simp only [State.noticeTail, hv, hwaits, hread, hclear, Bool.not_true, Bool.or_self, Bool.false_eq_true, if_false]

theorem noticeTail_of_error (hread : (s.touch 0 (s.queue q).sdom (s.queue q).lqd false).readLqd (s.queue q) = .error err) :
    s.noticeTail q = (s.touch 0 (s.queue q).sdom (s.queue q).lqd false).lqdPut (s.queue q) 7 err := by
  simp only [State.noticeTail, hv, hwaits, hread, Bool.not_true, Bool.or_self, Bool.false_eq_true, if_false]

end

theorem actCancel_of_zero {s : State} {q : Nat} (hzero : s.lqdWord (s.queue q) 4 = .ok 0) : s.actCancel q = s := by
  simp only [State.actCancel, hzero]
  split
  next hc _ =>
    cases hc
    simp
  next => rfl

/-! The take (15 R332 to R334). -/

@[simp] theorem around_lqdPut (s : State) (q : QueueEnt) (k v : Nat) : around (s.lqdPut q k v) = around s := by
  unfold State.lqdPut
  split
  next hwrite => exact (around_checkWatches _).trans (around_of_standing (standing_devDo hwrite))
  next => rfl

@[simp] theorem around_lqdAdd (s : State) (q : QueueEnt) (off n : Nat) (d : Int) : around (s.lqdAdd q off n d) = around s := by
  unfold State.lqdAdd
  split
  next hwrite => exact (around_checkWatches _).trans (around_of_standing (standing_devDo hwrite))
  next => rfl

theorem tookLaunch_of_around {s s' : State} (h : around s' = around s) : s'.tookLaunch = s.tookLaunch :=
  congrArg (fun x => State.tookLaunch x.1) h

theorem storeStatus_of_nowhere (s : State) (die home idx status : Nat) : s.storeStatus die home 0 idx status = s := if_pos rfl

/-- A state whose device has moved HEAD of a queue past a record, and goes on with the next queue (R333). -/
def headMoved (s : State) (k x : Nat) : State :=
  { (s.lqdPut (s.queue k) 3 ((x + 1) % 2 ^ 64)).setQueue k { s.queue k with cancels := SSet.del (s.queue k).cancels x } with
    tookLaunch := true, takeTurn := k + 1 }

theorem headMoved_launches (s : State) (k x : Nat) : (headMoved s k x).launches = s.launches :=
  (rfl : _ = (s.lqdPut (s.queue k) 3 ((x + 1) % 2 ^ 64)).launches).trans (launches_of_around (around_lqdPut ..))

section
variable {s : State} {k x n : Nat}

/-- A rejected record whose DONEADDR is 0 is counted (R333). -/
theorem takeRecord_of_rejected {status : Nat} (hdone : recWord n 7 = 0) (hstatus : status ≠ 0) :
    s.takeRecord k x n status = (headMoved s k x).lqdAdd (s.queue k) 0x30 8 1 := by
  unfold State.takeRecord
  simp only [if_pos hstatus, hdone, storeStatus_of_nowhere]
  rfl

/-- A record that passes its checks opens its launch (R334). -/
theorem takeRecord_of_opened (hcount : lrCount n ≠ 0) (hlive : x ∉ (s.queue k).cancels) : s.takeRecord k x n 0 =
    { (headMoved s k x).lqdAdd (s.queue k) 0x28 1 1 with
      launches := (headMoved s k x).launches ++ [s.launchOf k (s.queue k) x n], nextLaunch := s.nextLaunch + 1 } := by
  have hno : ¬((s.launchOf k (s.queue k) x n).count = 0 ∨ (s.launchOf k (s.queue k) x n).cancelled = true) := by
    rintro (h | h)
    · exact hcount h
    · exact hlive (List.contains_iff_mem.1 h)
  unfold State.takeRecord
  simp only [if_neg hno, ne_eq, not_true_eq_false, if_false]
  rfl

end

section
variable {s s1 : State} {q : Nat} {l : Lqd} {g : Target} (hat : s.agentAt { die := 0, core := none, sdom := (s.queue q).sdom }
  (l.ring + 128 * (l.head % l.size)) false = .ok (s1, g))
include hat

/-- The take of a record that can be read, and whose region's chain can (R333). -/
theorem takeAt_of_read (hclean : s1.poisonedIn g.pa 128 = none) (hplace : s1.poisonedIn (g.pa + 0x38) 8 = none)
    (hchain : s1.chainWaits 0 (s.queue q).sdom 9 (recWord (s1.numAt (s.queue q).sdom g.pa 128) 2) = false)
    (hdone : recWord (s1.numAt (s.queue q).sdom g.pa 128) 7 = 0) :
    s.takeAt q l = s1.takeRecord q l.head (s1.numAt (s.queue q).sdom g.pa 128)
      (s1.checkRecord (s.queue q) (s1.numAt (s.queue q).sdom g.pa 128)) := by
  simp only [State.takeAt, hat, hclean, hplace, hchain, hdone, Option.isSome_none, Bool.false_or, bne_self_eq_false, Bool.false_and,
    Bool.false_eq_true, if_false]

end

section
variable {s s1 : State} {q : Nat} {l : Lqd} {g : Target} (hnext : s.nextQueue = some q) (htake : s.canTake q = some l)
  (hat : s.agentAt { die := 0, core := none, sdom := (s.queue q).sdom } (l.ring + 128 * (l.head % l.size)) false = .ok (s1, g))
  (hclean : s1.poisonedIn g.pa 128 = none) (hplace : s1.poisonedIn (g.pa + 0x38) 8 = none) (hqueues : s1.queues = s.queues)
  (hchain : s1.chainWaits 0 (s.queue q).sdom 9 (recWord (s1.numAt (s.queue q).sdom g.pa 128) 2) = false)
  (hdone : recWord (s1.numAt (s.queue q).sdom g.pa 128) 7 = 0)
include hnext htake hat hclean hplace hchain hdone

theorem launchTake_of_read : exec (.launchTake q) s = .next (s1.takeRecord q l.head (s1.numAt (s.queue q).sdom g.pa 128)
    (s1.checkRecord (s.queue q) (s1.numAt (s.queue q).sdom g.pa 128))) := by
  show execLaunchTake q s = _
  simp only [execLaunchTake, event, if_pos hnext, htake, takeAt_of_read hat hclean hplace hchain hdone]

theorem launchTake_rejects (hbad : s1.checkRecord (s.queue q) (s1.numAt (s.queue q).sdom g.pa 128) ≠ 0) :
    ∃ s', exec (.launchTake q) s = .next s' ∧ s'.launches = s1.launches ∧ s'.tookLaunch = true := by
  refine ⟨_, launchTake_of_read hnext htake hat hclean hplace hchain hdone, ?_⟩
  rw [takeRecord_of_rejected hdone hbad]
  exact ⟨(launches_of_around (around_lqdAdd ..)).trans (headMoved_launches ..), tookLaunch_of_around (around_lqdAdd ..)⟩

include hqueues in
theorem launchTake_opens (hgood : s1.checkRecord (s.queue q) (s1.numAt (s.queue q).sdom g.pa 128) = 0)
    (hcount : lrCount (s1.numAt (s.queue q).sdom g.pa 128) ≠ 0) (hlive : l.head ∉ (s.queue q).cancels) :
    ∃ s', exec (.launchTake q) s = .next s' ∧
      s'.launches = s1.launches ++ [s1.launchOf q (s.queue q) l.head (s1.numAt (s.queue q).sdom g.pa 128)] ∧ s'.tookLaunch = true := by
  have hsame : s1.queue q = s.queue q := congrArg (fun l => Sparse.get QueueEnt.init l q) hqueues
  refine ⟨_, launchTake_of_read hnext htake hat hclean hplace hchain hdone, ?_⟩
  rw [hgood, takeRecord_of_opened hcount (hsame ▸ hlive), hsame]
  exact ⟨congrArg (· ++ _) (headMoved_launches ..), tookLaunch_of_around (around_lqdAdd ..)⟩

end

theorem lrCount_eq (n : Nat) : lrCount n = n / 2 ^ 64 % 2 ^ 41 := by
  simp only [lrCount, recWord, entWord, bits]
  omega

theorem lrLines_eq (n : Nat) : lrLines n = n / 2 ^ 105 % 4 + 1 := by
  simp only [lrLines, recWord, entWord, bits]
  omega

theorem w64_mod (n : Nat) : w64 (n % 2 ^ 64) = BitVec.ofNat 64 n := by
  apply BitVec.eq_of_toNat_eq
  simp [w64]

end Sys2Proof.Proofs

/-! PROOF. The birth of a thread (02 R39; 15 R335; 16 R355): READY with its frame's placement, or parked at once. -/
namespace Sys2Proof.Proofs
open Sys2Proof.Machine Sys2Proof.Laws

/-! What starts with a thread (02 R39). -/

section
variable (s : State) (i : Tid) (home core lines region : Nat) (pc : Word) (regs : List (Nat × Word)) (prio : Nat)

theorem rd_freshThread {m : Nat} (hlow : 1 ≤ m) (hhigh : m < 16 * lines) (hlines : lines ≤ 4) :
    (s.freshThread i home core lines region pc regs prio).rd m = Sparse.get 0 regs m := by
  have h64 : m < 64 := by omega
  rw [Thread.rd, if_neg (by omega)]
  simp [State.freshThread, h64, hlow, hhigh]

end

/-- The thread v is t as it stands after its birth: with its frame's placement, or parked with a fault (15 R335). -/
def BornAs (t v : Thread) : Prop := (∃ l, v = { t with placed := some l }) ∨ ∃ n, v = parkedThread t n

namespace BornAs
variable {t v : Thread} (h : BornAs t v)
include h

theorem pc : v.pc = t.pc := by obtain ⟨_, rfl⟩ | ⟨_, rfl⟩ := h <;> rfl
theorem rd (n : Nat) : v.rd n = t.rd n := by obtain ⟨_, rfl⟩ | ⟨_, rfl⟩ := h <;> rfl
theorem core : v.core = t.core := by obtain ⟨_, rfl⟩ | ⟨_, rfl⟩ := h <;> rfl
theorem region : v.region = t.region := by obtain ⟨_, rfl⟩ | ⟨_, rfl⟩ := h <;> rfl
theorem id : v.id = t.id := by obtain ⟨_, rfl⟩ | ⟨_, rfl⟩ := h <;> rfl

theorem st (ht : t.st = .ready) : v.st = .ready ∨ v.st = .faulted := by
  obtain ⟨_, rfl⟩ | ⟨_, rfl⟩ := h
  · exact .inl ht
  · exact .inr rfl

end BornAs

/-- A thread that parks with no store to drain leaves its slot, is FAULTED, and its record is queued (18 R402). -/
theorem park_eq_of_drained {s : State} {t : Thread} (h : (s.find t.id).isSome = true) (hd : s.drained t) (f : Flt) (async ctx : Bool) (w : Nat)
    (own : Bool) : ∃ r, s.park t f async ctx w own =
      (((((s.put t).releaseSlot t).1.unstep t.id).put (parkedThread t f.cause.code)).pushRec (dieOf t.core) r).gangParked t := by
  unfold State.park
  simp only [vacate_of_drained_live h hd, releaseSlot_thread]
  exact ⟨_, rfl⟩

theorem gangParked_of_none (s : State) {t : Thread} (h : t.gang = none) : s.gangParked t = s := by
  simp only [State.gangParked, h]

/-! The gangs that are left as they are. -/

theorem gangs_of_standing {s s' : State} (h : standing s' = standing s) : s'.gangs = s.gangs := eq_of_standing State.gangs (fun _ => rfl) h

theorem gangs_tally (s : State) (core : Nat) (dom : Option Nat) (code n : Nat) : (s.tally core dom code n).gangs = s.gangs := by
  unfold State.tally
  dsimp only
  split <;> rfl

theorem gangs_releaseSlot (s : State) (t : Thread) : (s.releaseSlot t).1.gangs = s.gangs := by
  have hfresh : ((s.dropFresh t.core t.id).dropCredit t.id).gangs = s.gangs := by
    unfold State.dropFresh
    dsimp only
    split <;> rfl
  unfold State.releaseSlot
  dsimp only
  split
  · exact (gangs_of_standing (standing_charge ..)).trans hfresh
  · exact hfresh

theorem gangs_unstep (s : State) (i : Tid) : (s.unstep i).gangs = s.gangs := by
  unfold State.unstep
  split <;> rfl

theorem gangs_pushRec (s : State) (d : Nat) (r : Rec) : (s.pushRec d r).gangs = s.gangs := by
  unfold State.pushRec
  split <;> rfl

/-! The birth. -/

section
variable {s : State} {t : Thread} (hfree : s.find t.id = none) (hstores : t.stores = []) (hgang : t.gang = none) (hearly : s.early = [])
include hfree hstores hgang hearly

/-- A birth adds the thread and leaves the others, the gangs, and the stores before their global point as they are (16 R355). -/
theorem birth_spec : ∃ v, BornAs t v ∧ (s.birth t).threads = s.threads ++ [v] ∧ (s.birth t).early = [] ∧ (s.birth t).gangs = s.gangs := by
  obtain ⟨s1, hs1⟩ : ∃ s1 : State, s1 = { s.settleHeld t.id with threads := (s.settleHeld t.id).threads ++ [t] } := ⟨_, rfl⟩
  obtain ⟨s2, hs2⟩ : ∃ s2 : State, s2 = s1.charge (dieOf t.core) t.home .ctx 1 (s1.path (dieOf t.core) t.home t.region) := ⟨_, rfl⟩
  have hbirth : s.birth t = match s2.framePlaces (dieOf t.core) t.id t.lineList with
      | .ok l => ((s2.freshFrame t.lineList l).touch (dieOf t.core) t.id.sdom (frameAddr t.id.handle) true).put { t with placed := some l }
      | .error f => s2.park t f false true 0 := by
    rw [hs2, hs1] <;> rfl
  have hquiet : Quiet s (s.settleHeld t.id) := (Quiet.refl s).settleHeld t.id
  have hthreads : s2.threads = s.threads ++ [t] := by
    rw [hs2, threads_of_standing (standing_charge ..), hs1, ← hquiet.threads]
  have hearly2 : s2.early = [] := by
    rw [hs2, early_of_standing (standing_charge ..), hs1]
    exact hquiet.early.trans hearly
  have hgangs2 : s2.gangs = s.gangs := by
    rw [hs2, gangs_of_standing (standing_charge ..), hs1]
    have hheld : (s.settleHeld t.id).gangs = s.gangs := gangs_of_standing (standing_settleHeld ..)
    exact hheld
  have hput {u : Thread} {s3 : State} (hu : u.id = t.id) (h3 : s3.threads = s2.threads) : (s3.put u).threads = s.threads ++ [u] := by
    have hold : s.threads.map (fun x => if x.id = u.id then u else x) = s.threads :=
      (List.map_congr_left fun x hx => if_neg fun he => find_eq_none_iff.1 hfree (List.mem_map.2 ⟨x, hx, he.trans hu⟩)).trans
        (List.map_id _)
    show s3.threads.map (fun x => if x.id = u.id then u else x) = _
    rw [h3, hthreads, List.map_append, hold, List.map_singleton, if_pos hu.symm]
  rw [hbirth]
  cases s2.framePlaces (dieOf t.core) t.id t.lineList with
  | ok l =>
    have hframe : standing ((s2.freshFrame t.lineList l).touch (dieOf t.core) t.id.sdom (frameAddr t.id.handle) true) = standing s2 :=
      (standing_touch ..).trans (standing_freshFrame ..)
    refine ⟨_, .inl ⟨l, rfl⟩, hput rfl (threads_of_standing hframe), ?_, ?_⟩
    · exact (early_of_standing hframe).trans hearly2
    · exact (gangs_of_standing hframe).trans hgangs2
  | error f =>
    have hlive : (s2.find t.id).isSome = true := by rw [(find_append hthreads hfree).1]; rfl
    have hd : s2.drained t := ⟨hstores, by simp [hearly2]⟩
    obtain ⟨r, hpark⟩ := park_eq_of_drained hlive hd f false true 0 true
    have hleft : Quiet (s2.put t) ((s2.put t).releaseSlot t).1 := (Quiet.refl _).releaseSlot t
    have hrec (s : State) : Quiet s (s.pushRec (dieOf t.core) r) := (Quiet.refl s).pushRec ..
    refine ⟨_, .inr ⟨f.cause.code, rfl⟩, ?_, ?_, ?_⟩
    · exact (park_threads hlive hd ..).trans (hput rfl rfl)
    · show (s2.park t f false true 0).early = []
      rw [hpark, gangParked_of_none _ hgang, (hrec _).early]
      show (((s2.put t).releaseSlot t).1.unstep t.id).early = []
      rw [unstep_early, hleft.early]
      exact hearly2
    · show (s2.park t f false true 0).gangs = s.gangs
      rw [hpark, gangParked_of_none _ hgang, gangs_pushRec]
      show (((s2.put t).releaseSlot t).1.unstep t.id).gangs = s.gangs
      rw [gangs_unstep, gangs_releaseSlot]
      exact hgangs2

end

end Sys2Proof.Proofs

/-! PROOF. Materialisation (02 R36 to R39; 15 R334, R335; 20 R460): one thread, or a gang that is convened. -/
namespace Sys2Proof.Proofs
open Sys2Proof.Machine Sys2Proof.Laws

/-! What may materialise (02 R38). -/

theorem mem_of_leastBy {α : Type} {key : α → Nat} {l : List α} {a : α} (h : leastBy key l = some a) : a ∈ l := by
  induction l generalizing a with
  | nil => cases h
  | cons b l ih =>
    rw [leastBy] at h
    split at h
    next => exact Option.some.inj h ▸ List.mem_cons_self
    next c hc =>
      split at h
      · exact Option.some.inj h ▸ List.mem_cons_of_mem b (ih hc)
      · exact Option.some.inj h ▸ List.mem_cons_self

theorem mem_of_leastBy2 {α : Type} {f g : α → Nat} {l : List α} {a : α} (h : leastBy2 f g l = some a) : a ∈ l := by
  rw [leastBy2] at h
  split at h
  · cases h
  · exact List.mem_of_mem_filter (mem_of_leastBy h)

theorem mayMaterialise_of_next {s : State} {die : Nat} {x : Launch} (h : s.nextLaunchOn die = some x) : s.mayMaterialise x = true := by
  have hcand := List.mem_of_mem_filter (mem_of_leastBy2 h)
  exact (Bool.and_eq_true_iff.1 (List.mem_filter.1 hcand).2).2

theorem domainGone_of_may {s : State} {x : Launch} (h : s.mayMaterialise x = true) : s.domainGone x = false := by
  unfold State.mayMaterialise at h
  simp only [Bool.and_eq_true, Bool.not_eq_true'] at h
  exact h.1.2

/-- The names of the next group are free (02 R38). -/
theorem free_of_may {s : State} {x : Launch} {path : List (Nat × Rcb)} (h : s.mayMaterialise x = true)
    (hchain : s.chain 0 x.home x.region = .ok path) {n : Nat} (hn : n ∈ upto x.next x.unit) : s.find (x.tid (effSdom path) n) = none := by
  obtain ⟨p, hview, hall⟩ : ∃ p, s.regionView 0 x.home x.region = .ok p ∧ ∀ i ∈ upto x.next x.unit, s.find (x.tid (effSdom p) i) = none := by
    unfold State.mayMaterialise at h
    obtain ⟨-, hlast⟩ := Bool.and_eq_true_iff.1 h
    split at hlast
    next p hp =>
      refine ⟨p, hp, fun i hi => ?_⟩
      obtain ⟨hfree, -⟩ := Bool.and_eq_true_iff.1 hlast
      have hi' := List.all_eq_true.1 (Bool.and_eq_true_iff.1 hfree).2 i hi
      exact Option.isNone_iff_eq_none.1 (Bool.and_eq_true_iff.1 hi').1
    next => cases hlast
  have hp : p = path := by
    have hite {c : Prop} [Decidable c] {v : RegionView} (h : (if c then .held else v) = RegionView.ok p) : v = .ok p := by
      split at h
      · cases h
      · exact h
    unfold State.regionView at hview
    rw [hchain] at hview
    exact (RegionView.ok.inj (hite (hite hview))).symm
  exact hp ▸ hall n hn

theorem materialisation_of_next {s : State} {k : Nat} {x : Launch} (hfind : s.launches.find? (fun z => z.id == k) = some x)
    (hnext : s.nextLaunchOn (dieOf (s.memberCore x x.next)) = some x) : exec (.materialisation k) s = .next (s.materialise x) := by
  have hid : x.id = k := by simpa using List.find?_some hfind
  have hgone : (!x.cancelled && decide (x.next < x.count) && s.domainGone x) = false := by
    rw [domainGone_of_may (mayMaterialise_of_next hnext), Bool.and_false]
  show execMaterialisation k s = _
  simp only [execMaterialisation, event, hfind, hgone, hnext, if_pos hid, Bool.false_eq_true, if_false]

/-! A launch without groups makes one thread (02 R39). -/

theorem materialise_of_single {s : State} {x : Launch} {path : List (Nat × Rcb)} (hchain : s.chain 0 x.home x.region = .ok path)
    (hshape : x.gshape = 0) :
    (s.materialise x).threads = (s.birth (s.launchThread x (effSdom path) (effPrio path) x.next)).threads := by
  have hunit : x.unit = 1 := if_pos hshape
  simp only [State.materialise, hchain, hunit, if_pos hshape]
  rfl

/-- What a launched thread starts with (02 R39). -/
theorem rd_launchThread {s : State} {x : Launch} (sdom prio i : Nat) {m : Nat} (hlow : 1 ≤ m) (hhigh : m < 16) (hmin : 1 ≤ x.lines)
    (hmax : x.lines ≤ 4) : (s.launchThread x sdom prio i).rd m =
      Sparse.get 0 [(1, w64 i), (2, x.args), (3, w64 x.count), (4, w64 (if x.gshape = 0 then 0 else i % x.gm))] m :=
  rd_freshThread s (x.tid sdom i) x.home (s.memberCore x i) x.lines x.region x.pc _ prio hlow (by omega) hmax

theorem materialisation_single {s : State} {k : Nat} {x : Launch} {path : List (Nat × Rcb)}
    (hfind : s.launches.find? (fun z => z.id == k) = some x) (hnext : s.nextLaunchOn (dieOf (s.memberCore x x.next)) = some x)
    (hearly : s.early = []) (hmin : 1 ≤ x.lines) (hmax : x.lines ≤ 4) (hchain : s.chain 0 x.home x.region = .ok path) (hshape : x.gshape = 0) :
    ∃ s' v, exec (.materialisation k) s = .next s' ∧ s'.find (x.tid (effSdom path) (x.next + 0)) = some v ∧ v.pc = x.pc ∧
      v.rd 1 = BitVec.ofNat 64 x.next ∧ v.rd 2 = x.args ∧ v.rd 3 = BitVec.ofNat 64 x.count ∧ v.rd 4 = 0 ∧ v.core = s.memberCore x x.next ∧
      v.region = x.region ∧ (v.st = .ready ∨ v.st = .faulted) ∧ OthersSame s s' (x.tid (effSdom path) (x.next + 0)) := by
  have hunit : x.unit = 1 := if_pos hshape
  have hfree : s.find (x.tid (effSdom path) x.next) = none :=
    free_of_may (mayMaterialise_of_next hnext) hchain (by rw [hunit]; exact List.mem_singleton_self _)
  obtain ⟨v, hborn, hthreads, -, -⟩ := birth_spec (s := s) (t := s.launchThread x (effSdom path) (effPrio path) x.next) hfree rfl rfl hearly
  have hrd {m : Nat} (hlow : 1 ≤ m) (hhigh : m < 16) := (hborn.rd m).trans (rd_launchThread (s := s) _ _ _ hlow hhigh hmin hmax)
  have hfound := find_append (t := v) ((materialise_of_single hchain hshape).trans hthreads) (hborn.id ▸ hfree)
  rw [hborn.id] at hfound
  refine ⟨_, v, materialisation_of_next hfind hnext, hfound.1, hborn.pc, hrd (by decide) (by decide), hrd (by decide) (by decide),
    hrd (by decide) (by decide), ?_, hborn.core, hborn.region, hborn.st rfl, hfound.2⟩
  rw [hrd (by decide) (by decide), hshape]
  rfl

/-! Groups that materialise together (02 R38, R39). -/

/-- Where a thread comes from: its launch and index in it, its lines and home; and its buffered stores. -/
def origin (t : Thread) : Option (Nat × Nat) × Nat × Nat × List StoreEnt := (t.launch, t.lines, t.home, t.stores)

/-- Where the thread of each name comes from. -/
def origins (s : State) (i : Tid) : Option (Option (Nat × Nat) × Nat × Nat × List StoreEnt) := (s.find i).map origin

theorem origins_of_threads {s s' : State} (h : s'.threads = s.threads) : origins s' = origins s :=
  funext fun i => congrArg (Option.map origin) (find_of_threads h i)

theorem origins_put {s : State} {t : Thread} (h : origins s t.id = some (origin t)) : origins (s.put t) = origins s := by
  funext i
  by_cases hi : i = t.id
  · have hlive : (s.find t.id).isSome = true := by
      rw [← Option.isSome_map (f := origin), show (s.find t.id).map origin = _ from h]
      rfl
    rw [hi, h, origins, find_put hlive, Option.map_some]
  · rw [origins, origins, find_put_ne hi]

theorem origins_of_member {s : State} {g : Gang} {t : Thread} (h : t ∈ s.gangThreads g) : origins s t.id = some (origin t) := by
  obtain ⟨x, -, hx⟩ := List.mem_filterMap.1 h
  rw [origins, find_id hx, hx, Option.map_some]

/-- A convening changes neither where threads come from nor the stores before their global point. -/
structure SameOrigins (s s' : State) : Prop where
  origins : origins s' = origins s
  early : s'.early = s.early

namespace SameOrigins
variable {s s1 : State}

theorem refl (s : State) : SameOrigins s s := ⟨rfl, rfl⟩

theorem quiet {s2 : State} (h : SameOrigins s s1) (hq : Quiet s1 s2) : SameOrigins s s2 :=
  ⟨(origins_of_threads hq.threads).trans h.origins, hq.early.trans h.early⟩

theorem put (h : SameOrigins s s1) {t u : Thread} (ht : Proofs.origins s t.id = some (origin t)) (hid : u.id = t.id)
    (ho : origin u = origin t) : SameOrigins s (s1.put u) := by
  have hu : Proofs.origins s1 u.id = some (origin u) := by rw [h.origins, hid, ht, ho]
  exact ⟨(origins_put hu).trans h.origins, h.early⟩

theorem members {f : State → Thread → State} {g : Gang}
    (hf : ∀ s1 t, SameOrigins s s1 → Proofs.origins s t.id = some (origin t) → SameOrigins s (f s1 t)) :
    SameOrigins s ((s.gangThreads g).foldl f s) :=
  List.foldlRecOn (motive := SameOrigins s) _ f (.refl s) fun s1 h t ht => hf s1 t h (origins_of_member ht)

theorem trans {s2 : State} (h : SameOrigins s s1) (h' : SameOrigins s1 s2) : SameOrigins s s2 :=
  ⟨h'.origins.trans h.origins, h'.early.trans h.early⟩

theorem recPut (h : SameOrigins s s1) (g : Gang) (ks : List Nat) : SameOrigins s (s1.recPut g ks) :=
  h.quiet ((Quiet.refl _).gangWrites ..)

end SameOrigins

theorem origin_waitOver (s : State) (t : Thread) (regs : List (Nat × Word)) :
    origin (s.waitOver (regs.foldl (fun t x => t.wr x.1 x.2) t) (regs.map (·.1))) = origin t := by
  have hwr : ∀ t : Thread, origin (regs.foldl (fun t x => t.wr x.1 x.2) t) = origin t := by
    induction regs with
    | nil => exact fun _ => rfl
    | cons x l ih =>
      intro t
      rw [List.foldl_cons, ih]
      simp only [origin, wr_launch, wr_lines, wr_home, wr_stores]
  obtain ⟨snap, hsnap⟩ := noted_eq (regs.foldl (fun t x => t.wr x.1 x.2) t) ([0, 6, 7] ++ (regs.map (·.1)).map (16 + ·))
  rw [← hwr t, State.waitOver, hsnap]
  rfl

theorem sameOrigins_completeForming (s : State) (g : Gang) : SameOrigins s (s.completeForming g) := by
  refine SameOrigins.members fun s1 t h ht => ?_
  split
  · rw [completeWait_eq_waitOver]
    exact h.put ht ((noted_id ..).trans (foldl_wr_id ..)) (origin_waitOver ..)
  · exact h.put ht rfl rfl

theorem sameOrigins_releaseMember {s s1 : State} {t : Thread} (h : SameOrigins s s1) (ht : origins s t.id = some (origin t)) :
    SameOrigins s (s1.releaseMember t) := by
  unfold State.releaseMember
  split
  · have hslot : ((s1.tally t.core (some t.id.sdom) 0x09 1).releaseSlot t).2.id = t.id ∧
        origin ((s1.tally t.core (some t.id.sdom) 0x09 1).releaseSlot t).2 = origin t := by
      rw [releaseSlot_thread]
      exact ⟨rfl, rfl⟩
    refine (h.quiet (((Quiet.refl s1).tally t.core (some t.id.sdom) 0x09 1).releaseSlot t)).put ht ?_ ?_
    · split
      · exact hslot.1
      · exact hslot.1
      · exact hslot.1
    · split
      · exact hslot.2
      · exact hslot.2
      · exact hslot.2
  · exact h

theorem sameOrigins_seatGang (s : State) (g : Gang) : SameOrigins s (s.seatGang g) := by
  unfold State.seatGang
  split
  · have htake : SameOrigins s (s.takeUnits { g with resident := true }) := 
      ⟨origins_of_threads (foldl_threads (f := fun s c => s.modUnit c _) (fun _ _ => rfl) _ s),
        foldl_keeps (p := State.early) (f := fun s c => s.modUnit c _) (fun _ _ => rfl) _ s⟩
    have hset : SameOrigins s ((s.takeUnits { g with resident := true }).setGang { g with resident := true }) := htake.trans ⟨rfl, rfl⟩
    exact (hset.quiet ((Quiet.refl _).foldl (fun _ _ h => h.touch ..) _)).recPut ..
  · have hout : SameOrigins s ((s.gangThreads g).foldl (fun s t => s.releaseMember t) s) := .members fun _ _ => sameOrigins_releaseMember
    exact hout.trans ⟨rfl, rfl⟩

theorem sameOrigins_convene (s : State) (g : Gang) : SameOrigins s (s.convene g) := by
  have hset (g1 : Gang) : SameOrigins s (s.setGang g1) := ⟨rfl, rfl⟩
  exact (((hset _).recPut ..).trans (sameOrigins_completeForming ..)).trans (sameOrigins_seatGang ..)

end Sys2Proof.Proofs

/-! PROOF. A convened gang keeps its name, its shape and its members as stores are performed, waits end and other threads join their gangs
(09 R197, R198; 12 R266). -/
namespace Sys2Proof.Proofs
open Sys2Proof.Machine Sys2Proof.Laws

/-! What leaves the gangs as they are. -/

theorem standing_gangWrite (s : State) (g : Gang) (k off : Nat) (bs : List Byte) : standing (s.gangWrite g k off bs).1 = standing s := by
  unfold State.gangWrite
  split
  · dsimp only
    split
    · exact standing_writeAs ..
    · rfl
  · split
    · rfl
    · split
      · rfl
      · dsimp only
        split
        · exact (standing_writeAs ..).trans (standing_writeAs ..)
        · exact standing_writeAs ..

theorem gangs_recPut (s : State) (g : Gang) (ks : List Nat) : (s.recPut g ks).gangs = s.gangs := by
  refine gangs_of_standing (foldl_keeps (p := fun x : State × Bool => standing x.1) (fun x p => ?_) _ (s, false))
  exact standing_gangWrite x.1 g 0 p.1 p.2

theorem gangs_completeWait (s : State) (t : Thread) (regs : List (Nat × Word)) : (s.completeWait t regs).gangs = s.gangs := by
  rw [completeWait_eq_waitOver]
  rfl

theorem gangs_completeForming (s : State) (g : Gang) : (s.completeForming g).gangs = s.gangs := by
  refine foldl_keeps (p := State.gangs) (fun s t => ?_) _ s
  split
  · exact gangs_completeWait ..
  · rfl

theorem gangs_releaseMember (s : State) (t : Thread) : (s.releaseMember t).gangs = s.gangs := by
  unfold State.releaseMember
  split
  · exact (gangs_releaseSlot ..).trans (gangs_tally ..)
  · rfl

theorem gangs_takeUnits (s : State) (g : Gang) : (s.takeUnits g).gangs = s.gangs :=
  foldl_keeps (p := State.gangs) (f := fun s c => s.modUnit c _) (fun _ _ => rfl) _ s

theorem gangs_touchPieces (s : State) (g : Gang) : (s.touchPieces g).gangs = s.gangs :=
  gangs_of_standing (standing_foldl (fun _ _ => standing_touch ..) _ s)

/-! A gang that stands convened. -/

/-- A gang of this name is there, and every gang of the name is convened with this shape and these members. -/
structure Convened (G : Gang) (s : State) : Prop where
  each : ∀ g ∈ s.gangs, g.id = G.id → g.gstate = 2 ∧ g.m = G.m ∧ g.members = G.members
  one : ∃ g ∈ s.gangs, g.id = G.id

/-- A gang that may be entered: of another name, or convened with this shape and these members. -/
def Suits (G g : Gang) : Prop := g.id = G.id → g.gstate = 2 ∧ g.m = G.m ∧ g.members = G.members

namespace Convened
variable {G : Gang} {s : State}

theorem of_gangs {s' : State} (h : Convened G s) (hs : s'.gangs = s.gangs) : Convened G s' := ⟨hs ▸ h.each, hs ▸ h.one⟩

theorem map {s' : State} {f : Gang → Gang} (h : Convened G s) (hs : s'.gangs = s.gangs.map f)
    (hf : ∀ x, (f x).id = x.id ∧ (f x).gstate = x.gstate ∧ (f x).m = x.m ∧ (f x).members = x.members) : Convened G s' where
  each g hg hid := by
    obtain ⟨x, hx, rfl⟩ := List.mem_map.1 (hs ▸ hg)
    obtain ⟨fid, fstate, fm, fmembers⟩ := hf x
    rw [fstate, fm, fmembers]
    exact h.each x hx (fid.symm.trans hid)
  one := by
    obtain ⟨x, hx, hid⟩ := h.one
    exact ⟨f x, hs ▸ List.mem_map_of_mem hx, (hf x).1.trans hid⟩

theorem setGang {g : Gang} (h : Convened G s) (hg : Suits G g) : Convened G (s.setGang g) where
  each x hx hid := by
    obtain ⟨y, hy, rfl⟩ := List.mem_map.1 hx
    by_cases hy' : y.id = g.id
    · rw [if_pos hy'] at hid ⊢
      exact hg hid
    · rw [if_neg hy'] at hid ⊢
      exact h.each y hy hid
  one := by
    obtain ⟨x, hx, hid⟩ := h.one
    refine ⟨if x.id = g.id then g else x, List.mem_map_of_mem hx, ?_⟩
    split
    next he => exact he.symm.trans hid
    next => exact hid

/-- A gang entered under the name, convened with this shape and these members. -/
theorem of_setGang {g : Gang} (hone : ∃ x ∈ s.gangs, x.id = G.id) (hid : g.id = G.id) (hg : Suits G g) : Convened G (s.setGang g) where
  each x hx hx' := by
    obtain ⟨y, hy, rfl⟩ := List.mem_map.1 hx
    by_cases hy' : y.id = g.id
    · rw [if_pos hy']
      exact hg hid
    · rw [if_neg hy'] at hx'
      exact absurd (hx'.trans hid.symm) hy'
  one := by
    obtain ⟨x, hx, hxid⟩ := hone
    exact ⟨g, List.mem_map.2 ⟨x, hx, if_pos (hxid.trans hid.symm)⟩, hid⟩

theorem foldl {α : Type} {f : State → α → State} (hf : ∀ s a, Convened G s → Convened G (f s a)) (l : List α) (h : Convened G s) :
    Convened G (l.foldl f s) :=
  List.foldlRecOn (motive := Convened G) l f h fun s hs a _ => hf s a hs

/-! Gangs that are seated, convened and joined. -/

theorem seatGang {g : Gang} (h : Convened G s) (hg : Suits G g) : Convened G (s.seatGang g) := by
  unfold State.seatGang
  split
  · have htake := (h.of_gangs (gangs_takeUnits s { g with resident := true })).setGang (g := { g with resident := true }) hg
    exact htake.of_gangs ((gangs_recPut ..).trans (gangs_touchPieces ..))
  · have hout : Convened G ((s.gangThreads g).foldl (fun s t => s.releaseMember t) s) :=
      h.of_gangs (foldl_keeps (p := State.gangs) gangs_releaseMember _ s)
    exact hout.setGang hg

/-- A gang of the name, or of another one, is convened (09 R198). -/
theorem convene {g : Gang} (hset : ∀ g1 : Gang, g1.id = g.id → g1.gstate = 2 → g1.m = g.m → g1.members = g.members →
    Convened G (s.setGang g1) ∧ Suits G g1) : Convened G (s.convene g) := by
  unfold State.convene
  extract_lets g1 s1
  obtain ⟨hentered, hsuits⟩ := hset g1 rfl rfl rfl rfl
  exact (hentered.of_gangs ((gangs_completeForming ..).trans (gangs_recPut ..))).seatGang hsuits

theorem convene_self (hone : ∃ x ∈ s.gangs, x.id = G.id) : Convened G (s.convene G) :=
  convene fun _ hid hstate hm hmembers => ⟨of_setGang hone hid fun _ => ⟨hstate, hm, hmembers⟩, fun _ => ⟨hstate, hm, hmembers⟩⟩

theorem convene_ne {g : Gang} (h : Convened G s) (hne : g.id ≠ G.id) : Convened G (s.convene g) :=
  convene fun g1 hid _ _ _ => by
    have hsuits : Suits G g1 := fun hid' => absurd (hid.symm.trans hid') hne
    exact ⟨h.setGang hsuits, hsuits⟩

theorem joinGang {g : Gang} (h : Convened G s) (hne : g.id ≠ G.id) (t : Thread) (pa : Nat) (leaf : Option Word) (k reg : Nat) :
    Convened G (s.joinGang t g pa leaf k reg) := by
  unfold State.joinGang
  extract_lets added g1 s1
  have hne1 : g1.id ≠ G.id := hne
  have hput : Convened G (s.put { t with cond := some (.gang g.id reg k) }) := h.of_gangs rfl
  have hrec : Convened G s1 := (hput.setGang fun hid => absurd hid hne1).of_gangs (gangs_recPut ..)
  clear_value g1 s1
  split
  · exact hrec.convene_ne hne1
  · exact hrec

theorem joinTest {s' : State} {t : Thread} {id : GangId} {pa : Nat} {leaf : Option Word} {reg : Nat} (h : Convened G s)
    (e : s.joinTest t id pa leaf reg = .ok s') : Convened G s' := by
  have hsame {s' : State} (e : (.ok s : Except Flt State) = .ok s') : Convened G s' := Except.ok.inj e ▸ h
  have hite {c : Prop} [Decidable c] {x y : Except Flt State} (hx : x = .ok s' → Convened G s') (hy : ¬c → y = .ok s' → Convened G s')
      (e : (if c then x else y) = .ok s') : Convened G s' := by
    split at e
    · exact hx e
    · exact hy ‹_› e
  have hflt {c : Cause} {n : Nat} (e : gangFlt c n = .ok s') : Convened G s' := by cases e
  have hfound {c : Prop} [Decidable c] {g : Gang} (e : (if c then s.gang id else none) = some g) :
      s.gangs.find? (fun x => x.id == id) = some g := by
    split at e
    · exact e
    · cases e
  unfold State.joinTest at e
  split at e
  · cases e
  · exact hsame e
  · refine hite hsame (fun _ e => ?_) e
    split at e
    · exact Except.ok.inj e ▸ h.of_gangs (gangs_completeWait ..)
    · split at e
      · exact hsame e
      · dsimp only at e
        split at e
        · exact hflt e
        next g hg =>
          refine hite hflt (fun hstate => hite hflt fun _ e => ?_) e
          split at e
          · exact hflt e
          · have hne : g.id ≠ G.id := fun hid => by
              have htwo := (h.each g (List.mem_of_find?_eq_some (hfound hg)) hid).1
              simp [htwo] at hstate
            exact Except.ok.inj e ▸ h.joinGang hne ..
      · exact hflt e

theorem checkJoiners (h : Convened G s) : Convened G s.checkJoiners := by
  refine foldl (fun s u hs => ?_) _ h
  split
  · exact hs
  · split
    · split
      · exact hs.joinTest ‹_›
      · exact hs.of_gangs ((gangs_pushRec ..).trans (gangs_releaseSlot ..))
    · exact hs

theorem checkWatches (h : Convened G s) : Convened G s.checkWatches := by
  refine foldl (s := s.checkJoiners) (fun s u hs => ?_) _ h.checkJoiners
  dsimp only
  split
  · split
    · exact hs.of_gangs (gangs_completeWait ..)
    · split
      · exact hs.of_gangs (gangs_completeWait ..)
      · exact hs
  · split
    · exact hs.of_gangs (gangs_completeWait ..)
    · exact hs
  · exact hs

/-! Stores that are performed (12 R266, R269). -/

theorem noteOperand (h : Convened G s) (pa n : Nat) : Convened G (s.noteOperand pa n) := by
  unfold State.noteOperand
  split
  · exact h
  · refine h.map rfl fun x => ?_
    split
    · split <;> exact ⟨rfl, rfl, rfl, rfl⟩
    · exact ⟨rfl, rfl, rfl, rfl⟩

theorem writeRaw (h : Convened G s) (d pa : Nat) (bs : List Byte) : Convened G (s.writeRaw d pa bs) := by
  unfold State.writeRaw
  split
  · split
    · exact h
    · exact h.of_gangs rfl
  · exact (h.of_gangs (gangs_of_standing (standing_writeAs ..))).noteOperand ..

theorem perform (h : Convened G s) (d pa : Nat) (m : Option Nat) (bs : List Byte) : Convened G (s.perform d pa m bs) := by
  unfold State.perform
  refine checkWatches ?_
  split
  · exact (h.writeRaw ..).of_gangs (gangs_of_standing (standing_writeAs ..))
  · exact h.writeRaw ..

theorem landWhere (h : Convened G s) (p : Landing → Bool) : Convened G (s.landWhere p) := by
  unfold State.landWhere
  dsimp only
  split
  · exact h
  · exact foldl (fun _ _ hs => hs.perform ..) _ (h.of_gangs rfl)

theorem landEarlyWhere (h : Convened G s) (p : Early → Bool) : Convened G (s.landEarlyWhere p) := by
  unfold State.landEarlyWhere
  dsimp only
  split
  · exact h
  · refine of_gangs (foldl (fun s x hs => ?_) _ h) rfl
    unfold State.landEarly
    split
    · exact hs
    · exact (hs.of_gangs (s' := { s with early := s.early.erase x }) rfl).perform ..

theorem landStore (h : Convened G s) (u : Thread) : Convened G (s.landStore u) := by
  unfold State.landStore
  split
  · exact h
  · split
    · exact h
    · exact h.landWhere ..

theorem drainWith (h : Convened G s) (u : Thread) (later : Bool) : Convened G (s.drainWith u later) := by
  unfold State.drainWith
  extract_lets s1 s2 v
  have hland : Convened G s2 := by
    unfold s2
    split
    · exact (h.landStore u).landEarlyWhere _
    · exact h.landStore u
  have hput (w : Thread) : Convened G (s2.put w) := hland.of_gangs rfl
  clear_value v s2
  split
  · exact hland
  · split
    · exact hland
    · split
      · exact hland
      · split
        · exact (hput _).perform ..
        · split
          · exact checkWatches ((hput (v.popStore s2.tick)).of_gangs rfl)
          · exact (hput _).perform ..

theorem drainAll (h : Convened G s) (u : Thread) : Convened G (s.drainAll u) := by
  refine foldl (fun s _ hs => ?_) _ ((h.of_gangs (s' := s.put u) rfl).landEarlyWhere _)
  split
  · exact hs.drainWith ..
  · exact hs

theorem gangParked (h : Convened G s) (t : Thread) : Convened G (s.gangParked t) := by
  have hif (x : Gang) (c : Prop) [Decidable c] (l : List (Nat × Nat)) : (if c then { x with arrived := l } else x).id = x.id ∧
      (if c then { x with arrived := l } else x).gstate = x.gstate ∧ (if c then { x with arrived := l } else x).m = x.m ∧
      (if c then { x with arrived := l } else x).members = x.members := by
    split <;> exact ⟨rfl, rfl, rfl, rfl⟩
  have hsave (x : Gang) (c : Prop) [Decidable c] : (if c then { x with saving := x.resident } else x).id = x.id ∧
      (if c then { x with saving := x.resident } else x).gstate = x.gstate ∧ (if c then { x with saving := x.resident } else x).m = x.m ∧
      (if c then { x with saving := x.resident } else x).members = x.members := by
    split <;> exact ⟨rfl, rfl, rfl, rfl⟩
  unfold State.gangParked
  split
  · exact h
  next i _ =>
    have hcount := h.map (f := fun x => if x.id = i then { x with arrived := x.arrived.filter (fun a => some a.1 ≠ x.indexOf t.id) } else x)
      (s' := { s with gangs := s.gangs.map _ }) rfl fun x => hif x _ _
    exact hcount.map rfl fun x => hsave x _

theorem park (h : Convened G s) (t : Thread) (f : Flt) (async ctx : Bool) (w : Nat) (own : Bool) :
    Convened G (s.park t f async ctx w own) := by
  have hvacate : Convened G (s.vacate t).1 := (h.drainAll t).of_gangs (gangs_releaseSlot ..)
  unfold State.park
  dsimp only
  refine gangParked (of_gangs ?_ (gangs_pushRec ..)) t
  exact (hvacate.of_gangs (gangs_unstep _ t.id)).of_gangs rfl

end Convened

end Sys2Proof.Proofs

/-! PROOF. A launch's gang (02 R39; 15 R334; 09 R198): its members are born, and it is convened. -/
namespace Sys2Proof.Proofs
open Sys2Proof.Machine Sys2Proof.Laws

/-! The members are born one after the other. -/

theorem tid_ne (x : Launch) (sdom : Nat) {m n : Nat} (h : m ≠ n) : x.tid sdom m ≠ x.tid sdom n := fun he =>
  h (Nat.add_left_cancel (congrArg Tid.handle he))

/-- Where a thread of a launch comes from. -/
def launched (x : Launch) (i : Nat) : Option (Nat × Nat) × Nat × Nat × List StoreEnt := (some (x.id, i), x.lines, x.home, [])

section
variable {x : Launch} {sdom prio : Nat}

theorem birth_launched {s : State} {n : Nat} (hfree : s.find (x.tid sdom n) = none) (hearly : s.early = []) :
    (s.birth (s.launchThread x sdom prio n)).early = [] ∧ (s.birth (s.launchThread x sdom prio n)).gangs = s.gangs ∧
    origins (s.birth (s.launchThread x sdom prio n)) (x.tid sdom n) = some (launched x n) ∧
    OthersSame s (s.birth (s.launchThread x sdom prio n)) (x.tid sdom n) := by
  obtain ⟨v, hborn, hthreads, hearly', hgangs⟩ := birth_spec (s := s) (t := s.launchThread x sdom prio n) hfree rfl rfl hearly
  obtain ⟨hfind, hothers⟩ := find_append hthreads (hborn.id ▸ hfree)
  rw [hborn.id] at hfind hothers
  refine ⟨hearly', hgangs, ?_, hothers⟩
  rw [origins, show State.find _ (x.tid sdom n) = some v from hfind, Option.map_some]
  obtain ⟨_, rfl⟩ | ⟨_, rfl⟩ := hborn <;> rfl

theorem births_launched {l : List Nat} (hnodup : l.Nodup) {s : State} (hfree : ∀ n ∈ l, s.find (x.tid sdom n) = none)
    (hearly : s.early = []) :
    let s' := l.foldl (fun s n => s.birth (s.launchThread x sdom prio n)) s
    s'.early = [] ∧ s'.gangs = s.gangs ∧ (∀ n ∈ l, origins s' (x.tid sdom n) = some (launched x n)) ∧
      ∀ j, (∀ n ∈ l, j ≠ x.tid sdom n) → s'.find j = s.find j := by
  induction l generalizing s with
  | nil => exact ⟨hearly, rfl, fun _ h => absurd h List.not_mem_nil, fun _ _ => rfl⟩
  | cons n l ih =>
    obtain ⟨hn, hl⟩ := List.nodup_cons.1 hnodup
    obtain ⟨hearly1, hgangs1, horigin, hothers⟩ := birth_launched (prio := prio) (hfree n List.mem_cons_self) hearly
    have hfree1 : ∀ m ∈ l, (s.birth (s.launchThread x sdom prio n)).find (x.tid sdom m) = none := fun m hm =>
      (hothers _ (tid_ne x sdom fun he => hn (he ▸ hm))).trans (hfree m (List.mem_cons_of_mem n hm))
    obtain ⟨hearly2, hgangs2, horigins, hsame⟩ := ih hl hfree1 hearly1
    refine ⟨hearly2, hgangs2.trans hgangs1, fun m hm => ?_, fun j hj => ?_⟩
    · obtain rfl | hm := List.mem_cons.1 hm
      · exact (congrArg (Option.map origin) (hsame _ fun k hk => tid_ne x sdom fun he => hn (by rw [he]; exact hk))).trans horigin
      · exact horigins m hm
    · exact (hsame j fun m hm => hj m (List.mem_cons_of_mem n hm)).trans (hothers j (hj n List.mem_cons_self))

end

/-! The gang of the group. -/

/-- The gang that is to be convened of a launch's group (15 R334). -/
def groupGang (s : State) (x : Launch) (sdom first : Nat) : Gang :=
  let j := first / x.gm
  let core := s.memberCore x first
  { id := { sdom := sdom, record := x.grecb + 2048 * j }, quad := x.gshape == 2, m := x.gm
    members := (upto 0 x.gm).map (fun k => (k, x.tid sdom (first + k))), gstate := 1
    home := if x.gshape = 2 then quadOf core else core
    frameb := x.gframeb + j * (if x.gshape = 2 then 0x40000 else 0x10000), ops := 0, arrived := []
    shadow := resetShadow (x.gshape == 2), active := resetShadow (x.gshape == 2), op := none, resident := false, first := true
    marked := false
    places := [match s.devLoc (dieOf core) sdom (x.grecb + 2048 * j) true with | .ok x => some x.leaf | .error _ => none], pad := none
    saving := false, breaking := false, since := s.tick }

/-- The state once a launch's gang is convened. -/
def groupConvened (s : State) (x : Launch) (sdom first : Nat) : State :=
  (State.recPut { s with gangs := s.gangs ++ [groupGang s x sdom first] } (groupGang s x sdom first) ([0, 1, 2] ++ upto 128 x.gm)).convene
    (groupGang s x sdom first)

/-- Beside the convening, a launch's gang parks its leader at most (15 R334). -/
theorem launchGang_cases (s : State) (x : Launch) (sdom first : Nat) :
    s.launchGang x sdom first = groupConvened s x sdom first ∨
    ∃ f t, (groupConvened s x sdom first).find (x.tid sdom first) = some t ∧
      s.launchGang x sdom first = (groupConvened s x sdom first).park t f false true 0 := by
  have hdef : s.launchGang x sdom first =
      match s.devLoc (dieOf (s.memberCore x first)) sdom (x.grecb + 2048 * (first / x.gm)) true with
      | .ok _ => groupConvened s x sdom first
      | .error f => match (groupConvened s x sdom first).find (x.tid sdom first) with
        | some t => if t.st = .faulted then groupConvened s x sdom first else (groupConvened s x sdom first).park t f false true 0
        | none => groupConvened s x sdom first := rfl
  rw [hdef]
  split
  · exact .inl rfl
  next f _ =>
    split
    next t ht =>
      split
      · exact .inl rfl
      · exact .inr ⟨f, t, ht, rfl⟩
    next => exact .inl rfl

section
variable {s : State} {x : Launch} {sdom first : Nat}

theorem convened_groupConvened : Convened (groupGang s x sdom first) (groupConvened s x sdom first) := by
  refine Convened.convene_self ?_
  rw [gangs_recPut]
  exact ⟨_, List.mem_append_right _ (List.mem_singleton_self _), rfl⟩

/-- The gang of a group stands convened (15 R334). -/
theorem convened_launchGang : Convened (groupGang s x sdom first) (s.launchGang x sdom first) := by
  obtain heq | ⟨f, t, -, heq⟩ := launchGang_cases s x sdom first
  · rw [heq]
    exact convened_groupConvened
  · rw [heq]
    exact convened_groupConvened.park ..

/-- The members of a group come from where they came from (15 R334). -/
theorem origins_launchGang (hearly : s.early = []) (hleader : ∃ i, origins s (x.tid sdom first) = some (launched x i)) :
    origins (s.launchGang x sdom first) = origins s := by
  have hsame : SameOrigins s (groupConvened s x sdom first) := by
    have hnew : SameOrigins s { s with gangs := s.gangs ++ [groupGang s x sdom first] } := ⟨rfl, rfl⟩
    exact (hnew.recPut ..).trans (sameOrigins_convene ..)
  obtain heq | ⟨f, t, hfind, heq⟩ := launchGang_cases s x sdom first
  · rw [heq]
    exact hsame.origins
  · have hid : t.id = x.tid sdom first := find_id hfind
    have hlive : ((groupConvened s x sdom first).find t.id).isSome = true := by rw [hid, hfind]; rfl
    have horigin : origins (groupConvened s x sdom first) t.id = some (origin t) := by rw [origins, hid, hfind, Option.map_some]
    have hstores : t.stores = [] := by
      obtain ⟨i, hi⟩ := hleader
      rw [← hsame.origins, ← hid, horigin] at hi
      exact congrArg (fun o => o.2.2.2) (Option.some.inj hi)
    have hd : (groupConvened s x sdom first).drained t := ⟨hstores, by simp [hsame.early, hearly]⟩
    rw [heq]
    refine (origins_of_threads (park_threads hlive hd ..)).trans ((origins_put ?_).trans hsame.origins)
    exact horigin

end

theorem materialisation_group {s : State} {k : Nat} {x : Launch} {path : List (Nat × Rcb)}
    (hfind : s.launches.find? (fun z => z.id == k) = some x) (hnext : s.nextLaunchOn (dieOf (s.memberCore x x.next)) = some x)
    (hearly : s.early = []) (hchain : s.chain 0 x.home x.region = .ok path) (hshape : x.gshape ≠ 0) :
    ∃ s', exec (.materialisation k) s = .next s' ∧
      (∀ n, n < x.gm → ∃ v, s'.find (x.tid (effSdom path) (x.next + n)) = some v ∧ v.launch = some (x.id, x.next + n) ∧
        v.lines = x.lines ∧ v.home = x.home) ∧
      ∃ h ∈ s'.gangs, h.id = { sdom := effSdom path, record := x.grecb + 2048 * (x.next / x.gm) } ∧ h.m = x.gm ∧
        h.members = (List.range x.gm).map (fun n => (n, x.tid (effSdom path) (x.next + n))) := by
  have hunit : x.unit = x.gm := if_neg hshape
  obtain ⟨s1, hs1⟩ : ∃ s1, s1 = (upto x.next x.unit).foldl (fun s i => s.birth (s.launchThread x (effSdom path) (effPrio path) i)) s := ⟨_, rfl⟩
  obtain ⟨s2, hs2⟩ : ∃ s2 : State, s2 = { s1 with launches := s1.launches.map (fun (z : Launch) =>
    if z.id = x.id then { z with next := z.next + x.unit, live := z.live + x.unit } else z) } := ⟨_, rfl⟩
  have hmaterialise : s.materialise x = s2.launchGang x (effSdom path) x.next := by
    rw [hs2, hs1]
    simp only [State.materialise, hchain, if_neg hshape]
  have hnodup : (upto x.next x.unit).Nodup := by
    rw [upto_eq_range']
    exact List.nodup_range'
  obtain ⟨hearly1, -, horigins, -⟩ := births_launched (x := x) (sdom := effSdom path) (prio := effPrio path) hnodup
    (fun n hn => free_of_may (mayMaterialise_of_next hnext) hchain hn) hearly
  have hborn {n : Nat} (hn : n < x.gm) : origins s2 (x.tid (effSdom path) (x.next + n)) = some (launched x (x.next + n)) := by
    have hmem : x.next + n ∈ upto x.next x.unit := by
      rw [upto_eq_range', hunit]
      exact List.mem_range'_1.2 ⟨by omega, by omega⟩
    rw [hs2, hs1]
    exact horigins _ hmem
  have hearly2 : s2.early = [] := by
    rw [hs2, hs1]
    exact hearly1
  refine ⟨_, materialisation_of_next hfind hnext, fun n hn => ?_, ?_⟩
  · have hsame := origins_launchGang (first := x.next) hearly2 ⟨_, hborn (Nat.zero_lt_of_lt hn)⟩
    have hmember := hborn hn
    rw [← hsame, ← hmaterialise] at hmember
    obtain ⟨v, hv, horigin⟩ := Option.map_eq_some_iff.1 hmember
    exact ⟨v, hv, congrArg (·.1) horigin, congrArg (·.2.1) horigin, congrArg (·.2.2.1) horigin⟩
  · have hconvened := convened_launchGang (s := s2) (x := x) (sdom := effSdom path) (first := x.next)
    rw [← hmaterialise] at hconvened
    obtain ⟨g, hg, hid⟩ := hconvened.one
    obtain ⟨-, hm, hmembers⟩ := hconvened.each g hg hid
    refine ⟨g, hg, hid, hm, hmembers.trans ?_⟩
    show (upto 0 x.gm).map (fun k => (k, x.tid (effSdom path) (x.next + k))) = _
    rw [upto_zero_eq_range]

/-! A launch whose domain is gone (20 R460). -/

theorem storeStatus_launches (s : State) (die home addr idx status : Nat) :
    (s.storeStatus die home addr idx status).launches = s.launches := by
  unfold State.storeStatus
  split
  · rfl
  · split
    next hwrite => exact (launches_of_around (around_checkWatches _)).trans (launches_of_around (around_of_standing (standing_devDo hwrite)))
    next => rfl

section
variable {s : State} {k : Nat} {x : Launch} (hfind : s.launches.find? (fun z => z.id == k) = some x) (hlive : x.cancelled = false)
  (hmore : x.next < x.count) (hgone : s.domainGone x = true)
include hfind hlive hmore hgone

theorem materialisation_of_gone : exec (.materialisation k) s = .next (if x.live = 0 then s.rejectLaunch x else s) := by
  have hyes : (!x.cancelled && decide (x.next < x.count) && s.domainGone x) = true := by
    rw [hlive, hgone, decide_eq_true hmore]
    rfl
  show execMaterialisation k s = _
  simp only [execMaterialisation, event, hfind, hyes, if_true]

theorem materialisation_rejects (hnone : x.live = 0) : ∃ s', exec (.materialisation k) s = .next s' ∧ ∀ z ∈ s'.launches, z.id ≠ k := by
  have hid : x.id = k := by simpa using List.find?_some hfind
  refine ⟨_, (materialisation_of_gone hfind hlive hmore hgone).trans (by rw [if_pos hnone]), fun z hz => ?_⟩
  have hlaunches : (s.rejectLaunch x).launches = s.launches.filter (fun z => z.id ≠ x.id) := by
    rw [State.rejectLaunch, launches_of_around (around_lqdAdd ..), launches_of_around (around_lqdAdd ..), storeStatus_launches]
  rw [hlaunches] at hz
  simpa [hid] using (List.mem_filter.1 hz).2

end

end Sys2Proof.Proofs

/-! PROOF. A thread that has just been entered stands, whatever waits end and whatever stores of its die are performed before its frame's
fault parks it (12 R269; 16 R355). -/
namespace Sys2Proof.Proofs
open Sys2Proof.Machine Sys2Proof.Laws

/-- A thread that waits for nothing, and has no slot, no placed line and no store. -/
structure Fresh (t : Thread) : Prop where
  st : t.st = .ready
  cond : t.cond = none
  slot : t.slot = none
  placed : t.placed = none
  stores : t.stores = []

/-- The thread u bears another name than t, or is t but for its gang. -/
def SameAs (t u : Thread) : Prop := u.id = t.id → u = { t with gang := u.gang }

theorem sameAs_of_ne {t u : Thread} (h : u.id ≠ t.id) : SameAs t u := fun he => absurd he h

theorem SameAs.withGang {t u : Thread} (h : SameAs t u) (g : Option GangId) : SameAs t { u with gang := g } := fun he => by
  have hu : { u with gang := g } = { ({ t with gang := u.gang } : Thread) with gang := g } := congrArg (fun v : Thread => { v with gang := g }) (h he)
  exact hu

section
variable {t u : Thread} (ht : Fresh t) (h : SameAs t u)
include ht h

theorem ne_of_waiting {k : WaitKind} (hst : u.st = .waiting k) : u.id ≠ t.id := fun he => by
  have hready : u.st = .ready := (congrArg Thread.st (h he)).trans ht.st
  simp [hready] at hst

theorem ne_of_slot (hslot : u.holdsSlot = true) : u.id ≠ t.id := fun he => by
  have hnone : u.slot = none := (congrArg Thread.slot (h he)).trans ht.slot
  simp [Thread.holdsSlot, hnone] at hslot

theorem ne_of_placed (hplaced : u.placed.isSome = true) : u.id ≠ t.id := fun he => by
  have hnone : u.placed = none := (congrArg Thread.placed (h he)).trans ht.placed
  simp [hnone] at hplaced

end

/-- The fresh thread t is found under its name, as it is but for its gang. -/
structure Stays (t : Thread) (s : State) : Prop where
  fresh : Fresh t
  same : ∀ u ∈ s.threads, SameAs t u
  live : t.id ∈ names s

namespace Stays
variable {t : Thread} {s : State}

theorem of_threads {s' : State} (h : Stays t s) (hs : s'.threads = s.threads) : Stays t s' :=
  ⟨h.fresh, fun u hu => h.same u (hs ▸ hu), names_of_threads hs ▸ h.live⟩

theorem put {w : Thread} (h : Stays t s) (hw : SameAs t w) : Stays t (s.put w) where
  fresh := h.fresh
  same u hu := by
    obtain rfl | ⟨hu, -⟩ := mem_put_threads hu
    · exact hw
    · exact h.same u hu
  live := (names_put s w).symm ▸ h.live

theorem of_find (h : Stays t s) {i : Tid} {u : Thread} (hu : s.find i = some u) : SameAs t u := h.same u (mem_of_find hu)

theorem find (h : Stays t s) : ∃ g, s.find t.id = some { t with gang := g } := by
  cases hu : s.find t.id with
  | none => exact absurd h.live (find_eq_none_iff.1 hu)
  | some u => exact ⟨u.gang, congrArg some (h.of_find hu (find_id hu))⟩

theorem foldl {f : State → Thread → State} (hf : ∀ s u, Stays t s → SameAs t u → Stays t (f s u)) {l : List Thread}
    (hl : ∀ u ∈ l, SameAs t u) (h : Stays t s) : Stays t (l.foldl f s) :=
  List.foldlRecOn (motive := Stays t) l f h fun s hs u hu => hf s u hs (hl u hu)

theorem completeWait (h : Stays t s) {u : Thread} (hne : u.id ≠ t.id) (regs : List (Nat × Word)) : Stays t (s.completeWait u regs) := by
  rw [completeWait_eq_waitOver]
  refine h.put (sameAs_of_ne ?_)
  rw [State.waitOver]
  exact fun he => hne (((noted_id ..).trans (foldl_wr_id ..)).symm.trans he)

theorem gangThreads (h : Stays t s) (g : Gang) : ∀ u ∈ s.gangThreads g, SameAs t u := fun u hu => by
  obtain ⟨x, -, hx⟩ := List.mem_filterMap.1 hu
  exact h.of_find hx

theorem releaseMember {u : Thread} (h : Stays t s) (hu : SameAs t u) : Stays t (s.releaseMember u) := by
  unfold State.releaseMember
  split
  next hslot =>
    have hout : u.id ≠ t.id := ne_of_slot h.fresh hu hslot
    have hne : ((s.tally u.core (some u.id.sdom) 0x09 1).releaseSlot u).2.id ≠ t.id := by
      rw [releaseSlot_thread]
      exact hout
    refine (h.of_threads (((Quiet.refl s).tally ..).releaseSlot u).threads).put (sameAs_of_ne ?_)
    split
    · exact hne
    · exact hne
    · exact hne
  next => exact h

theorem seatGang (h : Stays t s) (g : Gang) : Stays t (s.seatGang g) := by
  unfold State.seatGang
  split
  · refine h.of_threads ((recPut_threads ..).trans ((foldl_threads (fun s k => ((Quiet.refl s).touch ..).threads) ..).trans ?_))
    exact foldl_threads (f := fun s c => s.modUnit c _) (fun _ _ => rfl) _ s
  · have hleft : Stays t ((s.gangThreads g).foldl (fun s t => s.releaseMember t) s) :=
      foldl (fun _ _ hs hu => hs.releaseMember hu) (h.gangThreads g) h
    exact hleft.of_threads rfl

theorem completeForming (h : Stays t s) (g : Gang) : Stays t (s.completeForming g) := by
  refine foldl (fun s u hs hu => ?_) (h.gangThreads g) h
  split
  next hst _ =>
    have hne : u.id ≠ t.id := ne_of_waiting h.fresh hu hst
    exact hs.completeWait (u := { u with gang := some g.id }) hne _
  next => exact hs.put (hu.withGang _)

theorem convene (h : Stays t s) (g : Gang) : Stays t (s.convene g) := by
  have hrec (g : Gang) (ks : List Nat) : Stays t ((s.setGang g).recPut g ks) := h.of_threads (recPut_threads ..)
  exact ((hrec _ _).completeForming _).seatGang _

theorem joinGang {u : Thread} (h : Stays t s) (hne : u.id ≠ t.id) (g : Gang) (pa : Nat) (leaf : Option Word) (k reg : Nat) :
    Stays t (s.joinGang u g pa leaf k reg) := by
  have hrec (v : Thread) (hv : v.id = u.id) (g : Gang) (ks : List Nat) : Stays t (((s.put v).setGang g).recPut g ks) :=
    (h.put (sameAs_of_ne (hv ▸ hne))).of_threads (recPut_threads ..)
  unfold State.joinGang
  dsimp only
  split
  · refine (hrec _ ?_ _ _).convene _
    rfl
  · refine hrec _ ?_ _ _
    rfl

theorem joinTest {u : Thread} (h : Stays t s) (hne : u.id ≠ t.id) {id : GangId} {pa : Nat} {leaf : Option Word} {reg : Nat} {s' : State}
    (e : s.joinTest u id pa leaf reg = .ok s') : Stays t s' := by
  have hsame {s' : State} (e : (.ok s : Except Flt State) = .ok s') : Stays t s' := Except.ok.inj e ▸ h
  have hite {c : Prop} [Decidable c] {x y : Except Flt State} (hx : x = .ok s' → Stays t s') (hy : y = .ok s' → Stays t s')
      (e : (if c then x else y) = .ok s') : Stays t s' := by
    split at e
    · exact hx e
    · exact hy e
  have hflt {c : Cause} {n : Nat} (e : gangFlt c n = .ok s') : Stays t s' := by cases e
  unfold State.joinTest at e
  split at e
  · cases e
  · exact hsame e
  · refine hite hsame (fun e => ?_) e
    split at e
    · refine Except.ok.inj e ▸ h.completeWait ?_ []
      exact fun he => hne ((clr_id u reg).symm.trans he)
    · split at e
      · exact hsame e
      · dsimp only at e
        split at e
        · exact hflt e
        · refine hite hflt (hite hflt fun e => ?_) e
          split at e
          · exact hflt e
          · exact Except.ok.inj e ▸ h.joinGang hne ..
      · exact hflt e

theorem parkJoiner {u : Thread} (h : Stays t s) (hne : u.id ≠ t.id) (f : Flt) : Stays t (s.parkJoiner u f) := by
  have hslot : (s.releaseSlot u).2.id ≠ t.id := by
    rw [releaseSlot_thread]
    exact hne
  refine Stays.of_threads ?_ ((Quiet.refl _).pushRec ..).threads
  exact (h.of_threads ((Quiet.refl s).releaseSlot u).threads).put (sameAs_of_ne hslot)

theorem checkJoiners (h : Stays t s) : Stays t s.checkJoiners := by
  refine List.foldlRecOn (motive := Stays t) _ _ h fun s hs u _ => ?_
  split
  · exact hs
  next v hv =>
    split
    next hst _ =>
      have hne : v.id ≠ t.id := ne_of_waiting h.fresh (hs.of_find hv) hst
      split
      · exact hs.joinTest hne ‹_›
      · exact hs.parkJoiner hne _
    next => exact hs

/-- Waits that end leave a thread that waits for nothing (16 R361). -/
theorem checkWatches (h : Stays t s) : Stays t s.checkWatches := by
  refine foldl (s := s.checkJoiners) (fun s u hs hu => ?_) h.checkJoiners.same h.checkJoiners
  dsimp only
  split
  next hst _ =>
    have hne : u.id ≠ t.id := ne_of_waiting h.fresh hu hst
    split
    · refine completeWait ?_ hne _
      exact hs.of_threads rfl
    · split
      · exact hs.completeWait hne _
      · exact hs
  next hst _ =>
    split
    · exact hs.completeWait (ne_of_waiting h.fresh hu hst) _
    · exact hs
  next => exact hs

theorem writeRaw (h : Stays t s) (d pa : Nat) (bs : List Byte) : Stays t (s.writeRaw d pa bs) := by
  unfold State.writeRaw
  split
  next u k hline =>
    split
    · exact h
    · have hplaced : u.placed.isSome = true := by
        obtain ⟨v, -, hv⟩ := List.exists_of_findSome?_eq_some hline
        split at hv
        next => cases hv
        next hl =>
          obtain ⟨j, -, hj⟩ := Option.map_eq_some_iff.1 hv
          cases hj
          rw [hl]
          rfl
      have hne := ne_of_placed h.fresh (h.same u (Left.mem_of_lineAt hline)) hplaced
      refine Stays.put (h.of_threads ?_) (sameAs_of_ne fun he => hne ((storeRegs_id u k (pa % 128) bs).symm.trans he))
      exact ((Quiet.refl s).unpoison ..).threads
  · exact h.of_threads ((noteOperand_threads ..).trans (writeAs_threads ..))

theorem perform (h : Stays t s) (d pa : Nat) (m : Option Nat) (bs : List Byte) : Stays t (s.perform d pa m bs) := by
  unfold State.perform
  refine checkWatches ?_
  split
  · exact (h.writeRaw ..).of_threads (writeAs_threads ..)
  · exact h.writeRaw ..

theorem landEarlyWhere (h : Stays t s) (p : Early → Bool) : Stays t (s.landEarlyWhere p) := by
  unfold State.landEarlyWhere
  dsimp only
  split
  · exact h
  · have hlanded : Stays t ((s.early.filter p).foldl State.landEarly s) := by
      refine List.foldlRecOn (motive := Stays t) _ _ h fun s hs x _ => ?_
      unfold State.landEarly
      split
      · exact hs
      · exact (hs.of_threads (s' := { s with early := s.early.erase x }) rfl).perform ..
    refine ⟨h.fresh, fun v hv => ?_, ?_⟩
    · obtain ⟨u, hu, rfl⟩ := List.mem_map.1 hv
      have hsame := hlanded.same u hu
      split
      · refine fun he => ?_
        have hu : u = { t with gang := u.gang } := hsame he
        have hstores : u.stores = [] := (congrArg Thread.stores hu).trans h.fresh.stores
        have hleaves : u.leaves s.tick = { u with stores := [] } := by
          rw [Thread.leaves, hstores]
        rw [hleaves, ← hstores]
        exact hu
      · exact hsame
    · rw [names, List.map_map]
      refine Eq.subst (motive := fun l => t.id ∈ l) (List.map_congr_left fun u _ => ?_) hlanded.live
      show u.id = Thread.id (if _ then _ else _)
      split <;> rfl

end Stays

end Sys2Proof.Proofs

/-! PROOF. Task queues, reservations and held kill messages (15 R338, R339; 16 R355, R367), and the steps from launch record to thread. -/
namespace Sys2Proof.Proofs
open Sys2Proof.Machine Sys2Proof.Laws

/-! What a birth leaves around the threads (16 R355). -/

theorem around_landEarlyWhere (s : State) (p : Early → Bool) : around (s.landEarlyWhere p) = around s := by
  unfold State.landEarlyWhere
  dsimp only
  split
  · rfl
  · refine (around_of_cores rfl rfl).trans (around_foldl (fun s x => ?_) _ s)
    unfold State.landEarly
    split
    · rfl
    · exact (around_perform ..).trans (around_of_cores rfl rfl)

theorem around_unstep (s : State) (i : Tid) : around (s.unstep i) = around s := by
  unfold State.unstep
  split
  · refine Prod.ext rfl (funext fun c => ?_)
    have hcores := get_mapValues (d := Core.init) (f := fun c : Core => { c with steps := c.steps.filter (· ≠ i) }) rfl s.cores c
    show (Sparse.get Core.init (s.cores.map _) c).taskq = _
    rw [hcores]
    rfl
  · rfl

theorem around_gangParked (s : State) (t : Thread) : around (s.gangParked t) = around s := by
  unfold State.gangParked
  split
  · rfl
  · exact around_of_cores rfl rfl

theorem drainAll_of_noStores {s : State} {t : Thread} (h : t.stores = []) : s.drainAll t = (s.put t).landDie (dieOf t.core) := by
  rw [State.drainAll, h]
  rfl

theorem around_park {s : State} {t : Thread} (h : t.stores = []) (f : Flt) (async ctx : Bool) (w : Nat) (own : Bool) :
    around (s.park t f async ctx w own) = around s := by
  have hvacate : around (s.vacate t).1 = around s := by
    rw [State.vacate, drainAll_of_noStores h]
    exact (around_releaseSlot ..).trans ((around_landEarlyWhere ..).trans (around_put ..))
  unfold State.park
  dsimp only
  exact (around_gangParked ..).trans ((around_pushRec ..).trans ((around_put ..).trans ((around_unstep ..).trans hvacate)))

/-- The state with a new thread entered and charged, before its frame is placed (02 R43; 16 R355). -/
def entered (s : State) (t : Thread) : State :=
  let s1 : State := { s.settleHeld t.id with threads := (s.settleHeld t.id).threads ++ [t] }
  s1.charge (dieOf t.core) t.home .ctx 1 (s1.path (dieOf t.core) t.home t.region)

theorem entered_threads (s : State) (t : Thread) : (entered s t).threads = s.threads ++ [t] := by
  rw [entered, threads_of_standing (standing_charge ..)]
  exact congrArg (· ++ [t]) ((Quiet.refl s).settleHeld t.id).threads

theorem around_entered (s : State) (t : Thread) : around (entered s t) = around s := by
  have hheld : around (s.settleHeld t.id) = around s := around_of_standing (standing_settleHeld ..)
  exact (around_charge ..).trans ((around_of_cores rfl rfl).trans hheld)

theorem birth_cases (s : State) (t : Thread) :
    (∃ l, s.birth t = (((entered s t).freshFrame t.lineList l).touch (dieOf t.core) t.id.sdom (frameAddr t.id.handle) true).put
      { t with placed := some l }) ∨ ∃ f, s.birth t = (entered s t).park t f false true 0 := by
  unfold State.birth
  dsimp only
  split
  · exact .inl ⟨_, rfl⟩
  · exact .inr ⟨_, rfl⟩

theorem around_birth {s : State} {t : Thread} (h : t.stores = []) : around (s.birth t) = around s := by
  obtain ⟨l, heq⟩ | ⟨f, heq⟩ := birth_cases s t
  · rw [heq]
    exact (around_put ..).trans ((around_touch ..).trans ((around_of_standing (standing_freshFrame ..)).trans (around_entered ..)))
  · rw [heq]
    exact (around_park h ..).trans (around_entered ..)

/-! The thread that is born, whatever its die still has to perform (12 R269; 16 R355). -/

theorem park_of_stays {s : State} {t : Thread} (h : Stays t s) (f : Flt) (async ctx : Bool) (w : Nat) (own : Bool) :
    ∃ g, (s.park t f async ctx w own).find t.id = some (parkedThread { t with gang := g } f.cause.code) := by
  have hput : Stays t (s.put t) := h.put fun _ => rfl
  obtain ⟨g, hfind⟩ := (hput.landEarlyWhere (fun x => dieOf x.core == dieOf t.core)).find
  have hvacate : s.vacate t = ((s.put t).landDie (dieOf t.core)).releaseSlot { t with gang := g } := by
    rw [State.vacate, drainAll_of_noStores h.fresh.stores]
    exact congrArg (fun o => State.releaseSlot _ (Option.getD o _)) hfind
  have hlive : ((((s.put t).landDie (dieOf t.core)).releaseSlot { t with gang := g }).1.find t.id).isSome = true := by
    rw [((Quiet.refl _).releaseSlot _).find, State.landDie, hfind]
    rfl
  refine ⟨g, ?_⟩
  unfold State.park
  simp only [hvacate, releaseSlot_thread]
  rw [find_of_threads (Left.gangParked_threads ..), find_of_threads ((Quiet.refl _).pushRec ..).threads]
  refine find_put (t := parkedThread { t with gang := g } f.cause.code) ?_
  rw [find_of_threads (Left.unstep_threads ..)]
  exact hlive

/-- A thread that is born is found as it was made, but for its gang, its frame's placement and the fault that parks it. -/
theorem birth_found {s : State} {t : Thread} (hfresh : Fresh t) (hfree : s.find t.id = none) :
    ∃ g v, BornAs { t with gang := g } v ∧ (s.birth t).find t.id = some v := by
  have hfind := (find_append (entered_threads s t) hfree).1
  obtain ⟨l, heq⟩ | ⟨f, heq⟩ := birth_cases s t
  · refine ⟨t.gang, _, .inl ⟨l, rfl⟩, ?_⟩
    rw [heq]
    refine find_put (t := { t with placed := some l }) ?_
    rw [find_of_standing (standing_touch ..), find_of_standing (standing_freshFrame ..), hfind]
    rfl
  · have hstays : Stays t (entered s t) := by
      refine ⟨hfresh, fun u hu => ?_, ?_⟩
      · rw [entered_threads] at hu
        obtain hu | hu := List.mem_append.1 hu
        · exact sameAs_of_ne fun he => find_eq_none_iff.1 hfree (List.mem_map.2 ⟨u, hu, he⟩)
        · rw [List.mem_singleton.1 hu]
          exact fun _ => rfl
      · rw [names, entered_threads]
        exact List.mem_map_of_mem (List.mem_append_right _ (List.mem_singleton_self t))
    obtain ⟨g, hparked⟩ := park_of_stays hstays f false true 0 true
    refine ⟨g, _, .inr ⟨f.cause.code, rfl⟩, ?_⟩
    rw [heq]
    exact hparked

/-! Task creation (15 R338; 16 R355; 20 R460). -/

theorem dropTask_taskq (s : State) (core k : Nat) : ((s.dropTask core k).core core).taskq = removeNth k (s.core core).taskq := by
  rw [State.dropTask, core_setCore, if_pos rfl]

theorem taskDom_home (s : State) (core : Nat) (e : TaskEnt) : (s.taskDom core e).home = e.home ∧ (s.taskDom core e).handle = e.handle ∧
    (s.taskDom core e).pc = e.pc ∧ (s.taskDom core e).region = e.region ∧ (s.taskDom core e).lines = e.lines ∧
    (s.taskDom core e).caller = e.caller ∧ (s.taskDom core e).args = e.args := by
  unfold State.taskDom
  split <;> exact ⟨rfl, rfl, rfl, rfl, rfl, rfl, rfl⟩

section
variable {s : State} {core k : Nat} {e : TaskEnt}

/-- The first task a core may make into a thread, where it may make one now (15 R338). -/
theorem taskCreation_of_due (hon : s.coreOn core = true) (hroom : s.readyCount core < 1024)
    (hdue : ∀ n, (s.core core).lastTask = some n → n + 4 ≤ (s.core core).cycle) (hfrom : s.taskFrom core (s.core core).taskq [] 0 = some (k, e)) :
    exec (.taskCreation core) s = .next (s.createTask core k e) := by
  show execTaskCreation core s = _
  cases hlast : (s.core core).lastTask with
  | none => simp only [execTaskCreation, event, hon, hroom, hlast, hfrom, and_self, if_true]
  | some n => simp only [execTaskCreation, event, hon, hroom, hlast, decide_eq_true (hdue n hlast), hfrom, and_self, if_true]

theorem taskCreation_early {n : Nat} (hlast : (s.core core).lastTask = some n) (hearly : (s.core core).cycle < n + 4) :
    exec (.taskCreation core) s = .next s := by
  have hno : decide (n + 4 ≤ (s.core core).cycle) = false := decide_eq_false (by omega)
  show execTaskCreation core s = _
  simp only [execTaskCreation, event, hlast, hno, Bool.false_eq_true, and_false, if_false]

variable (hheld : s.held = [])
include hheld

theorem createTask_waits (hwaits : s.frameWaits (dieOf core) { sdom := (s.taskDom core e).sdom, handle := e.handle } = true) :
    s.createTask core k e = s := by
  rw [← (taskDom_home s core e).2.1] at hwaits
  simp only [State.createTask, settleHeld_of_none hheld, hwaits, if_true]

variable (hwaits : s.frameWaits (dieOf core) { sdom := (s.taskDom core e).sdom, handle := e.handle } = false)
include hwaits

/-- A task whose domain is gone, or whose name a live thread bears, is dropped (20 R460). -/
theorem createTask_drops (hgone : ¬ ((s.domain (s.taskDom core e).sdom).v = true ∧ (s.domain e.home).v = true) ∨
    (s.find { sdom := (s.taskDom core e).sdom, handle := e.handle }).isSome = true) :
    s.createTask core k e = (s.dropTask core k).countErr (dieOf core) 8 := by
  obtain ⟨hhome, hhandle, -⟩ := taskDom_home s core e
  rw [← hhandle] at hwaits hgone
  rw [← hhome] at hgone
  have hdrop : ((s.find { sdom := (s.taskDom core e).sdom, handle := (s.taskDom core e).handle }).isSome ||
      !(s.domain (s.taskDom core e).sdom).v || !(s.domain (s.taskDom core e).home).v) = true := by
    obtain hgone | hlive := hgone
    · cases hdom : (s.domain (s.taskDom core e).sdom).v with
      | false => simp
      | true => simp [Bool.eq_false_iff.2 fun h => hgone ⟨hdom, h⟩]
    · simp [hlive]
  simp only [State.createTask, settleHeld_of_none hheld, hwaits, hdrop, Bool.false_eq_true, if_false, if_true]

/-- A task whose frame is free becomes a thread (16 R355). -/
theorem createTask_births (hdom : (s.domain (s.taskDom core e).sdom).v = true) (hhome : (s.domain e.home).v = true)
    (hfree : s.find { sdom := (s.taskDom core e).sdom, handle := e.handle } = none)
    (hframe : s.frameState core { sdom := (s.taskDom core e).sdom, handle := e.handle } = .ok 0) :
    s.createTask core k e = (s.dropTask core k).birth (s.taskThread core (s.taskDom core e)) := by
  obtain ⟨hhomes, hhandle, -⟩ := taskDom_home s core e
  rw [← hhandle] at hwaits hfree hframe
  rw [← hhomes] at hhome
  simp only [State.createTask, settleHeld_of_none hheld, hwaits, hdom, hhome, hfree, hframe, Option.isSome_none, Bool.not_true, Bool.or_self,
    Bool.false_eq_true, if_false]

end

/-- What a task's thread starts with (16 R355). -/
theorem rd_taskThread (s : State) (core : Nat) (e : TaskEnt) (hmin : 1 ≤ e.lines) (hmax : e.lines ≤ 4) {m : Nat} (hlow : 1 ≤ m) (hhigh : m < 16) :
    (s.taskThread core e).rd m = Sparse.get 0 ([(1, e.caller)] ++ (upto 0 4).map (fun k => (8 + k, e.args.getD k 0))) m :=
  rd_freshThread s { sdom := e.sdom, handle := e.handle } e.home core e.lines e.region e.pc _ _ hlow (by omega) hmax

theorem task_becomes_thread {s : State} {core k : Nat} {e : TaskEnt} {i : Tid} (hi : i = { sdom := (s.taskDom core e).sdom, handle := e.handle })
    (hmin : 1 ≤ e.lines) (hmax : e.lines ≤ 4) (hfree : s.find i = none) :
    ∃ v, ((s.dropTask core k).birth (s.taskThread core (s.taskDom core e))).find i = some v ∧ v.pc = e.pc ∧ v.rd 1 = e.caller ∧
      (∀ n, n < 4 → v.rd (8 + n) = e.args.getD n 0) ∧ v.core = core ∧ v.region = e.region ∧ (v.st = .ready ∨ v.st = .faulted) ∧
      (((s.dropTask core k).birth (s.taskThread core (s.taskDom core e))).core core).taskq = removeNth k (s.core core).taskq := by
  obtain ⟨-, hhandle, hpc, hregion, hlines, hcaller, hargs⟩ := taskDom_home s core e
  rw [← hlines] at hmin hmax
  have hname : (s.taskThread core (s.taskDom core e)).id = i := by
    rw [hi, ← hhandle]
    rfl
  have hfree' : (s.dropTask core k).find (s.taskThread core (s.taskDom core e)).id = none := hname ▸ hfree
  obtain ⟨g, v, hborn, hv⟩ := birth_found (t := s.taskThread core (s.taskDom core e)) ⟨rfl, rfl, rfl, rfl, rfl⟩ hfree'
  rw [hname] at hv
  have hrd {m : Nat} (hlow : 1 ≤ m) (hhigh : m < 16) := (hborn.rd m).trans (rd_taskThread s core (s.taskDom core e) hmin hmax hlow hhigh)
  refine ⟨v, hv, hborn.pc.trans hpc, (hrd (by decide) (by decide)).trans hcaller, fun n hn => ?_, hborn.core, hborn.region.trans hregion,
    hborn.st rfl, ?_⟩
  · rw [← hargs, hrd (by omega) (by omega)]
    match n, hn with
    | 0, _ => rfl
    | 1, _ => rfl
    | 2, _ => rfl
    | 3, _ => rfl
  · exact (taskq_of_around (around_birth rfl) core).trans (dropTask_taskq s core k)

/-! Reservations (15 R339). -/

theorem expire_of_early {r : Reserve} {tick : Nat} (h : ∀ n ∈ r.since, tick < n + 1000) : r.expire tick = r := by
  have hnone : r.since.findIdx? (fun k => decide (k + 1000 ≤ tick)) = none :=
    List.findIdx?_eq_none_iff.2 fun n hn => decide_eq_false (Nat.not_le.2 (h n hn))
  simp only [Reserve.expire, hnone]

theorem expire_of_due {r : Reserve} {tick since : Nat} (h : r.since = since :: r.since.tail) (hdue : since + 1000 ≤ tick) : r.expire tick =
    { list := r.list.tail
      since := r.since.tail ++ (if r.since.tail.length < r.list.tail.length then [tick] else []) } := by
  have hfirst : r.since.findIdx? (fun k => decide (k + 1000 ≤ tick)) = some 0 := by
    rw [h, List.findIdx?_cons, if_pos (decide_eq_true hdue)]
  have hdrop : r.drop 0 = { list := r.list.tail, since := r.since.tail } := by
    cases hlist : r.list <;> cases hsince : r.since <;> simp [Reserve.drop, removeNth, hlist, hsince]
  simp only [Reserve.expire, hfirst, Reserve.lapse, hdrop, Reserve.freed]
  split
  · rfl
  · rw [List.append_nil]

/-! Kill messages (16 R367). -/

section
variable {s : State} {k : Nat} {m : KillMsg} (hm : s.killMsgs[k]? = some m)
include hm

theorem killMessageRetry_of_found : exec (.killMessageRetry k) s = .next (if (s.offerKill m).2 then
    State.killCompletes { (s.offerKill m).1 with killMsgs := removeNth k (s.offerKill m).1.killMsgs } m.issuer else (s.offerKill m).1) := by
  show execKillMessageRetry k s = _
  simp only [execKillMessageRetry, event, hm]

theorem killMessageRetry_of_nobody (hnone : s.named m.target = none) :
    exec (.killMessageRetry k) s = .next (State.killCompletes { s with killMsgs := removeNth k s.killMsgs } m.issuer) := by
  have hoffer : s.offerKill m = (s, true) := by simp only [State.offerKill, hnone]
  rw [killMessageRetry_of_found hm, hoffer]
  rfl

end

/-! The obligation, part by part. -/

theorem reservation_lapses {s : State} {core since : Nat} {r : Reserve} (hr : (s.core core).taskRes = r) :
    ((∀ n ∈ r.since, s.tick < n + 1000) → ∃ s', exec (.reservationLapse (.task core)) s = .next s' ∧ s' = { s with cores := s'.cores } ∧
      ∀ n, s'.core n = s.core n) ∧
    (r.since = since :: r.since.tail → since + 1000 ≤ s.tick → exec (.reservationLapse (.task core)) s = .next (s.setCore core { s.core core with
      taskRes := { list := r.list.tail
                   since := r.since.tail ++ (if r.since.tail.length < r.list.tail.length then [s.tick] else []) } })) := by
  have hexec : exec (.reservationLapse (.task core)) s = .next (s.setCore core { s.core core with taskRes := r.expire s.tick }) := by
    rw [← hr]
    rfl
  rw [hexec]
  refine ⟨fun hearly => ⟨_, rfl, rfl, fun n => ?_⟩, fun hsince hdue => ?_⟩
  · rw [core_setCore, expire_of_early hearly, ← hr]
    split
    next h => rw [h]
    next => rfl
  · rw [expire_of_due hsince hdue]

theorem killMessage_retries {s : State} {k reg : Nat} {m : KillMsg} {u v : Thread} (hm : s.killMsgs[k]? = some m) :
    (s.named m.target = none → m.issuer = none → exec (.killMessageRetry k) s = .next { s with killMsgs := removeNth k s.killMsgs }) ∧
    (s.named m.target = none → m.issuer = some v.id → s.find v.id = some v → v.pend = some (.killHeld reg) →
      exec (.killMessageRetry k) s = .next (State.endWaitMove { s with killMsgs := removeNth k s.killMsgs }
        { v.wr reg 0 with pc := v.pc + 4, pend := none })) ∧
    (s.named m.target = some u → u.incnt < 4 → u.cond = none → m.issuer = none → exec (.killMessageRetry k) s = .next { s.put { u with
      incnt := u.incnt + 1, msgs := u.msgs.setIfInBounds ((u.inhead + u.incnt) % 4) { payload := 0, src := m.src, tag := 0xFFFD } } with
        killMsgs := removeNth k s.killMsgs }) ∧
    (s.named m.target = some u → 4 ≤ u.incnt → exec (.killMessageRetry k) s = .next s) := by
  have hnobody (s : State) : s.killCompletes none = s := rfl
  refine ⟨fun hnone hissuer => ?_, fun hnone hissuer hfind hpend => ?_, fun hnamed hroom hcond hissuer => ?_, fun hnamed hfull => ?_⟩
  · rw [killMessageRetry_of_nobody hm hnone, hissuer, hnobody]
  · have hlive : ({ s with killMsgs := removeNth k s.killMsgs } : State).find v.id = some v := hfind
    rw [killMessageRetry_of_nobody hm hnone, hissuer, State.killCompletes, Option.bind_some, hlive]
    simp only [hpend]
  · have hoffer : s.offerKill m = (s.put (withMsg u { payload := 0, src := m.src, tag := 0xFFFD }), true) := by
      simp only [State.offerKill, hnamed, if_pos hroom, deliver_of_no_wait hcond]
    rw [killMessageRetry_of_found hm, hoffer, if_pos rfl, hissuer, hnobody]
    rfl
  · have hoffer : s.offerKill m = (s, false) := by simp only [State.offerKill, hnamed, if_neg (Nat.not_lt.2 hfull)]
    rw [killMessageRetry_of_found hm, hoffer, if_neg Bool.false_ne_true]

theorem notices {s : State} {q err : Nat} {l : Lqd} (hv : (s.queue q).v = true) (hwaits : s.lqdWaits (s.queue q) = false) :
    let ent := s.queue q
    let st := s.touch 0 ent.sdom ent.lqd false
    let noticed := st.setQueue q { ent with noticed := l.tail }
    (st.readLqd ent = .ok l → st.lqdWord ent 7 = .ok 0 →
      (s.stage = .running → ent.device = false → exec (.launchDoorbell q) s = .next noticed) ∧
      (ent.device = true → exec (.launchTailNotice q) s = .next noticed ∧ exec (.launchDoorbell q) s = .next s) ∧
      (st.lqdWord ent 4 = .ok 0 → exec (.launchQueuePoll q) s = .next noticed)) ∧
    (st.readLqd ent = .error err → s.stage = .running → ent.device = false → exec (.launchDoorbell q) s = .next (st.lqdPut ent 7 err)) := by
  intro ent st noticed
  have hdoorbell : exec (.launchDoorbell q) s = .next (if s.stage = .running ∧ ent.v = true ∧ ent.device = false then s.noticeTail q else s) := rfl
  have htail : exec (.launchTailNotice q) s = .next (if ent.v = true ∧ ent.device = true then s.noticeTail q else s) := rfl
  refine ⟨fun hread hclear => ?_, fun hread hstage hdev => ?_⟩
  · have hnotice : s.noticeTail q = noticed := noticeTail_of_ok hv hwaits hread hclear
    refine ⟨fun hstage hdev => ?_, fun hdev => ⟨?_, ?_⟩, fun hcancel => ?_⟩
    · rw [hdoorbell, if_pos ⟨hstage, hv, hdev⟩, hnotice]
    · rw [htail, if_pos ⟨hv, hdev⟩, hnotice]
    · rw [hdoorbell, if_neg (by simp [hdev])]
    · have hzero : noticed.lqdWord (noticed.queue q) 4 = .ok 0 := by
        rw [queue_setQueue, lqdWord_setQueue]
        exact hcancel
      show Host.Outcome.next ((s.noticeTail q).actCancel q) = _
      rw [hnotice, actCancel_of_zero hzero]
  · rw [hdoorbell, if_pos ⟨hstage, hv, hdev⟩]
    exact congrArg Host.Outcome.next (noticeTail_of_error hv hwaits hread)

theorem task_creations {s : State} {core k : Nat} {e : TaskEnt} {u : Thread} (hon : s.coreOn core = true) (hroom : s.readyCount core < 1024) :
    let c := s.core core
    let j : Tid := { sdom := (s.taskDom core e).sdom, handle := e.handle }
    let lives := (s.domain j.sdom).v = true ∧ (s.domain e.home).v = true
    ((∃ n, c.lastTask = some n ∧ c.cycle < n + 4) → exec (.taskCreation core) s = .next s) ∧
    ((∀ n, c.lastTask = some n → n + 4 ≤ c.cycle) → s.taskFrom core c.taskq [] 0 = some (k, e) → s.held = [] →
      (s.frameWaits (dieOf core) j = true → exec (.taskCreation core) s = .next s) ∧
      (s.frameWaits (dieOf core) j = false →
        (lives → s.find j = none → s.frameState core j = .ok 0 → 1 ≤ e.lines → e.lines ≤ 4 →
          ∃ s' v, exec (.taskCreation core) s = .next s' ∧ s'.find j = some v ∧ v.pc = e.pc ∧ v.rd 1 = e.caller ∧
            (∀ n, n < 4 → v.rd (8 + n) = e.args.getD n 0) ∧ v.core = core ∧ v.region = e.region ∧ (v.st = .ready ∨ v.st = .faulted) ∧
            (s'.core core).taskq = removeNth k c.taskq) ∧
        (¬ lives ∨ s.find j = some u →
          ∃ s', exec (.taskCreation core) s = .next s' ∧ s'.threads = s.threads ∧ (s'.core core).taskq = removeNth k c.taskq))) := by
  intro c j lives
  refine ⟨fun ⟨n, hlast, hearly⟩ => taskCreation_early hlast hearly, fun hdue hfrom hheld => ?_⟩
  rw [taskCreation_of_due hon hroom hdue hfrom]
  refine ⟨fun hwaits => by rw [createTask_waits hheld hwaits], fun hwaits => ⟨?_, fun hgone => ?_⟩⟩
  · rintro ⟨hdom, hhome⟩ hfree hframe hmin hmax
    obtain ⟨v, hv⟩ := task_becomes_thread (k := k) (e := e) rfl hmin hmax hfree
    exact ⟨_, v, congrArg Host.Outcome.next (createTask_births hheld hwaits hdom hhome hfree hframe), hv⟩
  · have hdrops := createTask_drops (k := k) hheld hwaits (hgone.imp_right fun h => Option.isSome_of_eq_some h)
    exact ⟨_, congrArg Host.Outcome.next hdrops, rfl, dropTask_taskq s core k⟩

/-- Settles O47, family of steps by family of steps. -/
theorem launchAndTaskSteps : Obligations.LaunchAndTaskSteps := by
  unfold Obligations.LaunchAndTaskSteps
  intro s s1 q k core l g x e path m since err r u v reg ent st noticed c i j lives
  refine ⟨fun hv hwaits => notices hv hwaits, ?_, fun hfind => ⟨?_, ?_⟩, fun hon hroom => task_creations hon hroom,
    fun hr => reservation_lapses hr, fun hm => killMessage_retries hm⟩
  · intro hnext htake hat hclean hplace hqueues n hchain hdone
    refine ⟨launchTake_rejects hnext htake hat hclean hplace hchain hdone, fun hgood hcount hlive => ?_⟩
    obtain ⟨s', hexec, hlaunches, htook⟩ := launchTake_opens hnext htake hat hclean hplace hqueues hchain hdone hgood
      (by rw [lrCount_eq]; exact hcount) hlive
    refine ⟨s', _, hexec, hlaunches, htook, rfl, rfl, ?_, lrCount_eq _, lrLines_eq _, ?_, rfl, rfl, rfl⟩
    · show w64 (n / 2 ^ (64 * 0) % 2 ^ 64) = _
      rw [w64_mod, Nat.mul_zero, Nat.pow_zero, Nat.div_one]
    · exact w64_mod _
  · intro hnext hheld hearly hmin hmax hchain
    exact ⟨materialisation_single hfind hnext hearly hmin hmax hchain, materialisation_group hfind hnext hearly hchain⟩
  · intro hlive hmore hgone
    refine ⟨materialisation_rejects hfind hlive hmore hgone, fun hsome => ?_⟩
    rw [materialisation_of_gone hfind hlive hmore hgone, if_neg hsome]

end Sys2Proof.Proofs

/-! PROOF. The acceptance of a command that is no re-stripe and bears the number of a re-stripe record (16 R370; 13 R302). -/
namespace Sys2Proof.Proofs
open Sys2Proof.Machine Sys2Proof.Laws

/-- A copy that says it is the re-stripe of record 0, from the pages that hold its thread's frame. -/
def staleCopy : EngCmd :=
  { id := 0, kind := .cpy, tid := probeThread.id, home := 0, region := 0x20000, core := 0, src := 0, dst := 0x32000, len := 16384, p1 := 0
    p2 := 0, p3 := 0, status := 0, scope := .pkg, acq := false, rel := false, fill := none, started := false, record := some 0, result := 0 }

/-- The thread that waits for the queue's reply. -/
def staleIssuer : Thread := { probeThread with region := 0x20000, st := .blocked .empty, pend := some (.engine staleCopy) }

/-- Three levels of tables map the first 1 GiB to itself; a root region at 0x20000 has room for commands. -/
def staleWords : List (Nat × Nat) :=
  [(0, 0x4000001), (0x4000, 0x8000001), (0x8000, 0x407F), (0x20008, 10), (0x20010, 100), (0x20018, 100),
   (0x20038, 100), (0x20040, 0x11000), (0x20048, 0x13000), (0x20050, 4)]

/-- One die with its stack, domain 0, and the thread whose command is offered. -/
def staleState : State :=
  staleWords.foldl (fun s x => s.writeAs 0 (physAddr 0 x.1) (toBytes 8 x.2)) { State.reset with
    stage := .running, endies := 1, enstacks := 1, encores := 1, threads := [staleIssuer]
    domains := [(0, { Domain.init with v := true, rootptr := 1 })], dies := [(0, { Die.init with gcache := [(0, probeGeo)] })] }

/-- Whether a region's chain is read, and admits a command more. -/
def admitsCommand (x : Except Nat (List (Nat × Rcb))) : Bool := match x with | .ok l => admits .eq 1 l | .error _ => false

theorem staleState_chain : ∃ path,
    (staleState.setDie 0 { staleState.die 0 with arrived := some (staleState.tick, 0) }).chain 0 0 0x20000 = .ok path ∧
      admits .eq 1 path = true := by
  have hadmits : admitsCommand
    ((staleState.setDie 0 { staleState.die 0 with arrived := some (staleState.tick, 0) }).chain 0 0 0x20000) = true := by decide +kernel
  unfold admitsCommand at hadmits
  split at hadmits
  next l hl => exact ⟨l, hl, hadmits⟩
  next => cases hadmits

/-- The record is begun, and the invalidation tells the thread whose frame lies in its range to leave its slot. -/
theorem staleState_accepts : ∃ s', exec (.engineAcceptanceReply probeThread.id) staleState = .next s' ∧
    (s'.find probeThread.id).map (·.preempt) = some true := by
  refine ⟨_, rfl, ?_⟩
  decide +kernel

/-- Refutes O45: its clause for the acceptance of a command that is no RSTR does not suppose that the command bears no record. A copy with
a record is accepted as such, and the record it bears begins all the same: the invalidation tells the issuer, whose frame lies in the
range, to leave its slot. -/
theorem not_engineSteps : ¬ Obligations.EngineSteps := by
  unfold Obligations.EngineSteps
  intro h
  obtain ⟨path, hchain, hadmits⟩ := staleState_chain
  obtain ⟨hreplies, -⟩ := h staleState probeThread.id staleIssuer staleCopy path 0 0 0
    { vbase := 0, nchunk := 0, sdom := 0, st := 0, newgidx := 0, newframe := 0, prog := 0, start := 0, cmd := 0 } [] []
    { cause := .engineOperand, addr := 0, kind := .walk, detail := 0, fetch := false } staleState staleCopy
  obtain ⟨-, hranges⟩ := hreplies (by decide +kernel) (by decide +kernel) rfl rfl (by decide +kernel) (by decide +kernel) (by decide +kernel)
    (by decide +kernel) (fun e he => absurd he List.not_mem_nil) (fun h => absurd h (by decide))
  obtain ⟨-, hroom⟩ := hranges (by decide +kernel)
  obtain ⟨-, haccept, -⟩ := hroom (by decide +kernel) hchain
  obtain ⟨s', hs', -, hfind, -⟩ := haccept hadmits (by decide)
  obtain ⟨s1, hs1, hpreempt⟩ := staleState_accepts
  obtain rfl := Host.Outcome.next.inj (hs1.symm.trans hs')
  rw [hfind] at hpreempt
  exact absurd hpreempt (by decide)

end Sys2Proof.Proofs

/-! PROOF. Equinox (14 R310, R319 to R321, R479): evaluations, decisions, and the copies of replications. -/
namespace Sys2Proof.Proofs
open Sys2Proof.Machine Sys2Proof.Laws

/-! Accesses of a domain that go on, wait or stop the evaluation (14 R479). -/

section
variable {α : Type} {c : EqCtx} {reps : List (Nat × Nat × Nat)} {s : State} {f : State → α → Except Unit State}

theorem after_ok (a : α) : c.after reps (.ok (s, a)) f = f s a := rfl

theorem after_stop {stop : AgentStop} (h : stop ≠ .held) : c.after reps (.error (stop, s)) f = s.eqStop c reps := by
  cases stop with
  | held => exact absurd rfl h
  | code => rfl

end

/-! Evaluations (14 R310, R319; 15 R344). -/

section
variable {s : State} {die k : Nat} {x : Edt}

theorem evaluation_of_due (hidle : (s.die die).eqRun = none) (hdue : s.dueDomain die = some (k, x)) :
    exec (.equinoxEvaluation die) s = .next (match s.evaluate die k x with | .ok s1 => s1 | .error _ => s) := by
  show execEquinoxEvaluation die s = _
  simp only [execEquinoxEvaluation, event, hidle, hdue, Option.isSome_none, Bool.false_eq_true, if_false] <;> rfl

theorem evaluation_none (hidle : (s.die die).eqRun = none) (hdue : s.dueDomain die = none) :
    exec (.equinoxEvaluation die) s = .next s := by
  show execEquinoxEvaluation die s = _
  simp only [execEquinoxEvaluation, event, hidle, hdue, Option.isSome_none, Bool.false_eq_true, if_false]

theorem evaluation_ok (hidle : (s.die die).eqRun = none) (hdue : s.dueDomain die = some (k, x)) {s1 : State}
    (h : s.evaluate die k x = .ok s1) : exec (.equinoxEvaluation die) s = .next s1 := by
  rw [evaluation_of_due hidle hdue, h]

/-- The agent of an evaluation of a domain on a die (14 R479). -/
def evalAgent (die : Nat) (x : Edt) : Agent := { die := die, core := none, sdom := x.sdom }

/-- The INTERVAL an evaluation counts with while no word of the descriptor has been read: 0 where it cannot be read (14 R479). -/
def intervalWord (s : State) (die : Nat) (x : Edt) : Nat :=
  match eqRead (evalAgent die x) (x.dva.toNat + 0x30) 8 s with | .ok (_, v) => dWord6 v | .error _ => 0

theorem intervalWord_of_ok {s1 : State} {v : Nat} (h : eqRead (evalAgent die x) (x.dva.toNat + 0x30) 8 s = .ok (s1, v)) :
    intervalWord s die x = dWord6 v := by
  rw [intervalWord, h]

theorem intervalWord_of_error (h : ∀ y, eqRead (evalAgent die x) (x.dva.toNat + 0x30) 8 s ≠ .ok y) : intervalWord s die x = 0 := by
  unfold intervalWord
  split
  next hy => exact absurd hy (h _)
  next => rfl

theorem evaluate_held {s0 : State} (h : eqWords (evalAgent die x) x.dva.toNat [0] 0 s = .error (.held, s0)) :
    s.evaluate die k x = .error () := by
  rw [State.evaluate]
  exact congrArg (fun r => EqCtx.after _ [] r _) h

theorem evaluate_stop {s0 : State} {stop : AgentStop} (hstop : stop ≠ .held)
    (h : eqWords (evalAgent die x) x.dva.toNat [0] 0 s = .error (stop, s0)) :
    s.evaluate die k x = s0.eqStop { g := evalAgent die x, dom := k, dva := x.dva.toNat, n := intervalWord s die x } [] := by
  rw [State.evaluate]
  exact (congrArg (fun r => EqCtx.after _ [] r _) h).trans (after_stop hstop)

/-- What an evaluation does with a descriptor whose words could be read (14 R310, R319). -/
theorem evaluate_read {s0 s1 s2 : State} {n0 n1 n : Nat} (h0 : eqWords (evalAgent die x) x.dva.toNat [0] 0 s = .ok (s0, n0))
    (h6 : eqWords (evalAgent die x) x.dva.toNat [6] n0 s0 = .ok (s1, n1))
    (hrest : eqWords (evalAgent die x) x.dva.toNat [4, 5, 8, 9, 11] n1 s1 = .ok (s2, n)) :
    s.evaluate die k x =
      if !descValid n then (s2.eqLog (evalAgent die x) x.dva.toNat 6 0 0 (dGen n)).map (fun s3 => s3.eqMerge k (intervalOf n))
      else if !dAuto n then s2.eqClose { g := evalAgent die x, dom := k, dva := x.dva.toNat, n := n }
      else s2.eqAuto { g := evalAgent die x, dom := k, dva := x.dva.toNat, n := n } := by
  unfold evalAgent at h0 h6 hrest
  simp only [State.evaluate, h0, after_ok, h6, hrest]
  rfl

end

/-- An evaluation of a domain on HOLD decays the counters, and ends (14 R319). -/
theorem eqAuto_of_hold {s s1 s2 s3 : State} {c : EqCtx} {m : Nat} {loads : List Nat} (hhold : dHold c.n = true)
    (hwords : eqWords c.g c.dva [7] c.n s = .ok (s1, m)) (hdecay : eqDecay c.g m s1 = .ok (s2, loads)) (hclose : s2.eqClose c = .ok s3) :
    s.eqAuto c = .ok s3 := by
  simp only [State.eqAuto, hwords, hdecay, after_ok, hhold, if_true]
  exact hclose

theorem eqDecay_of_one {s s1 s2 : State} {g : Agent} {n v : Nat} (hone : dNexp n = 1) (hread : eqRead g (dLcbase n) 4 s = .ok (s1, v))
    (hwrite : eqWrite g (dLcbase n) 4 (v / 2) s1 = .ok (s2, ())) : eqDecay g n s = .ok (s2, [v]) := by
  have hupto : upto 0 1 = [0] := rfl
  simp only [eqDecay, hone, hupto, List.foldlM_cons, List.foldlM_nil, Nat.mul_zero, Nat.add_zero, hread, bind, Except.bind, hwrite]
  rfl

/-! Decisions (14 R320). -/

/-- A replication that an evaluation may choose: on an eligible enabled die, in a free pool slot. -/
def Choosable (s : State) (n : Nat) (a : Nat × Nat × Nat) : Prop :=
  bit (dElig n) a.2.1 = true ∧ s.dieOn a.2.1 = true ∧ a.2.2 < dPoolslots n ∧ bit (dPoolmap n) (8 * a.2.1 + a.2.2) = false

/-- At most 16 replications, each choosable, no pool slot twice. -/
structure Chosen (s : State) (n : Nat) (l : List (Nat × Nat × Nat)) : Prop where
  few : l.length ≤ 16
  slots : (l.map (·.2)).Nodup
  each : ∀ a ∈ l, Choosable s n a

theorem freePool_spec {n d p : Nat} {taken : List (Nat × Nat × Nat)} (h : freePool n d taken = some p) :
    p < dPoolslots n ∧ bit (dPoolmap n) (8 * d + p) = false ∧ (d, p) ∉ taken.map (·.2) := by
  have hp := List.find?_some h
  rw [Bool.and_eq_true, Bool.not_eq_true', Bool.not_eq_true'] at hp
  obtain ⟨hclear, huntaken⟩ := hp
  refine ⟨?_, hclear, fun hmem => ?_⟩
  · have hmem := List.mem_of_find?_eq_some h
    rw [upto_zero_eq_range] at hmem
    exact List.mem_range.1 hmem
  · obtain ⟨a, ha, hslot⟩ := List.mem_map.1 hmem
    have hno := List.any_eq_false.1 huntaken a ha
    rw [hslot] at hno
    simp at hno

theorem Chosen.append {s : State} {n e d p : Nat} {l : List (Nat × Nat × Nat)} (h : Chosen s n l) (hfew : l.length < 16)
    (hdie : bit (dElig n) d = true ∧ s.dieOn d = true) (hpool : freePool n d l = some p) : Chosen s n (l ++ [(e, d, p)]) := by
  obtain ⟨hslot, hclear, hnew⟩ := freePool_spec hpool
  refine ⟨?_, ?_, fun a ha => ?_⟩
  · rw [List.length_append]
    exact hfew
  · rw [List.map_append]
    refine List.nodup_append.2 ⟨h.slots, List.nodup_singleton _, fun a ha b hb hab => hnew ?_⟩
    have hslot : a = (d, p) := hab.trans (List.mem_singleton.1 hb)
    exact hslot ▸ ha
  · obtain ha | ha := List.mem_append.1 ha
    · exact h.each a ha
    · rw [List.mem_singleton.1 ha]
      exact ⟨hdie.1, hdie.2, hslot, hclear⟩

theorem replications_chosen (s : State) (n : Nat) (all : List Active) : ∀ (cand : List Active) (taken : List (Nat × Nat × Nat))
    (extra : List (Nat × Nat)), Chosen s n taken → Chosen s n (s.replications n all cand taken extra)
  | [], _, _, h => h
  | x :: cand, taken, extra, h => by
    rw [State.replications]
    split
    · exact h
    next hfew =>
      dsimp only
      split
      · exact replications_chosen s n all cand _ _ h
      next d hd =>
        split
        · exact replications_chosen s n all cand _ _ h
        next p hp =>
          have hfit := (List.mem_filter.1 (mem_of_leastBy hd)).2
          simp only [Bool.and_eq_true] at hfit
          exact replications_chosen s n all cand _ _ (h.append (Nat.not_le.1 hfew) hfit.1.1 hp)

theorem actions_chosen (s : State) (n : Nat) (all : List Active) : Chosen s n (s.actions n all).1 :=
  replications_chosen s n all _ [] [] ⟨Nat.zero_le _, List.nodup_nil, fun _ h => absurd h List.not_mem_nil⟩

theorem actions_few (s : State) (n : Nat) (all : List Active) : (s.actions n all).1.length + (s.actions n all).2.length ≤ 16 := by
  have hfew := (actions_chosen s n all).few
  have hretire : (s.actions n all).2.length ≤ 16 - (s.actions n all).1.length := List.length_take_le _ _
  omega

/-! Copies (14 R319, R321; 15 R343). -/

section
variable {s : State} {die k d p : Nat} {r : EqRun} {l : List (Nat × Nat × Nat)} (hrun : (s.die die).eqRun = some r)
  (htodo : r.todo = (k, d, p) :: l)
include hrun htodo

theorem copyCompletion_of_other {e : Nat} (h : e ≠ k) (ok : Bool) : exec (.equinoxCopyCompletion die e ok) s = .next s := by
  show execEquinoxCopyCompletion die e ok s = _
  cases hcmd : (s.die die).engq.find? (fun c => c.eq == some e && c.started) with
  | none => simp only [execEquinoxCopyCompletion, event, hrun, hcmd]
  | some cmd => simp only [execEquinoxCopyCompletion, event, hrun, hcmd, htodo, ne_eq, h.symm, not_false_eq_true, if_true]

theorem copyCompletion_of_found {cmd : EngCmd} (hcmd : (s.die die).engq.find? (fun y => y.eq == some k && y.started) = some cmd)
    {ok : Bool} {res : CopyRes} {s1 : State} (hres : (if ok then s.eqCopy { die := die, core := none, sdom := r.sdom } cmd
      (slotVa r.desc d p + dGradoff r.desc) (dWsize r.desc - dGradoff r.desc) else .failed s) = res)
    (hcopied : EqCtx.copied { g := { die := die, core := none, sdom := r.sdom }, dom := r.dom, dva := r.dva, n := r.desc } r (k, d, p) l
      cmd.id res = .ok s1) : exec (.equinoxCopyCompletion die k ok) s = .next s1 := by
  show execEquinoxCopyCompletion die k ok s = _
  simp only [execEquinoxCopyCompletion, event, hrun, hcmd, htodo, hres, hcopied, ne_eq, not_true_eq_false, if_false]

end

/-- The state once the next copy is queued behind the die's commands (14 R319; 15 R343). -/
def copyQueued (s : State) (c : EqCtx) (r : EqRun) (e d p : Nat) (l : List (Nat × Nat × Nat)) (w : Nat) : State :=
  let x := s.die c.g.die
  let cmd := r.copyCmd s.nextCmd c.g.die (slotBase w) (slotVa c.n d p) e
  { s.setDie c.g.die { x with eqRun := some { r with todo := (e, d, p) :: l }, engq := x.engq ++ [cmd] } with nextCmd := s.nextCmd + 1 }

/-- The next copy is queued once its pool bit is set, unless the slot is taken (14 R319, R321). -/
theorem eqNext_cons (s : State) (c : EqCtx) (r : EqRun) (e d p : Nat) (l : List (Nat × Nat × Nat)) :
    ∃ taken : State → Except Unit State, s.eqNext c r ((e, d, p) :: l) = c.after r.done (eqRead c.g (c.dva + 0x60) 8 s) (fun s1 v =>
      if bit v (8 * d + p) then taken s1
      else c.after r.done (eqPool c.g c.dva d p true s1) (fun s2 _ =>
        c.after (r.done ++ [(e, d, p)]) (eqRead c.g (Machine.entryVa c.dva (r.gen % 2) e + 8) 8 s2) (fun s3 w =>
          .ok (copyQueued s3 c r e d p l w)))) := ⟨_, rfl⟩

theorem eqNext_queues {s s1 s2 s3 : State} {c : EqCtx} {r : EqRun} {e d p v w : Nat} {l : List (Nat × Nat × Nat)}
    (hmap : eqRead c.g (c.dva + 0x60) 8 s = .ok (s1, v)) (hclear : bit v (8 * d + p) = false)
    (hpool : eqPool c.g c.dva d p true s1 = .ok (s2, ())) (hentry : eqRead c.g (Machine.entryVa c.dva (r.gen % 2) e + 8) 8 s2 = .ok (s3, w)) :
    ∃ s', s.eqNext c r ((e, d, p) :: l) = .ok s' ∧ (s'.die c.g.die).eqRun = some { r with todo := (e, d, p) :: l } ∧
      (s'.die c.g.die).engq = (s3.die c.g.die).engq ++ [r.copyCmd s3.nextCmd c.g.die (slotBase w) (slotVa c.n d p) e] := by
  obtain ⟨taken, hcons⟩ := eqNext_cons s c r e d p l
  have hdie := (die_setDie s3 c.g.die c.g.die { s3.die c.g.die with
    eqRun := some { r with todo := (e, d, p) :: l }
    engq := (s3.die c.g.die).engq ++ [r.copyCmd s3.nextCmd c.g.die (slotBase w) (slotVa c.n d p) e] }).trans (if_pos rfl)
  refine ⟨copyQueued s3 c r e d p l w, ?_, congrArg Die.eqRun hdie, congrArg Die.engq hdie⟩
  rw [hcons, hmap, after_ok, hclear, if_neg Bool.false_ne_true, hpool, after_ok, hentry, after_ok]

/-- Settles O49: evaluations, the decay, decisions and copies, each by the lemma about it. -/
theorem equinoxSteps : Obligations.EquinoxSteps := by
  unfold Obligations.EquinoxSteps
  intro s s0 s1 s2 s3 s4 s5 die k n n0 n1 m v w e d p e2 d2 p2 x r cmd l rest all loads stop dva g run c rc acts goes next
  refine ⟨evaluation_none, fun hidle hdue => ⟨fun hheld => ?_, fun hstop herr => ⟨fun hread hs1 => ?_, fun hread hs1 => ?_⟩,
    fun h0 h6 hrest => ?_⟩, eqDecay_of_one, ⟨actions_few s n all, (actions_chosen s n all).slots, (actions_chosen s n all).each⟩,
    fun hrun htodo => ⟨fun he => copyCompletion_of_other hrun htodo he true, fun hcmd hl => ⟨fun hdone => ?_, fun hfail => ?_⟩⟩⟩
  · show exec (.equinoxEvaluation die) s = _
    rw [evaluation_of_due hidle hdue, evaluate_held hheld]
  · refine evaluation_ok hidle hdue ((evaluate_stop hstop herr).trans ?_)
    rw [intervalWord_of_ok hread]
    exact hs1
  · refine evaluation_ok hidle hdue ((evaluate_stop hstop herr).trans ?_)
    rw [intervalWord_of_error hread]
    exact hs1
  · have heval := evaluate_read (k := k) h0 h6 hrest
    refine ⟨fun hbad hlog => ?_, fun hgood hauto hclose => ?_, fun hgood hauto hhold hwords hdecay hclose => ?_⟩
    · refine evaluation_ok hidle hdue (heval.trans ?_)
      rw [hbad, Bool.not_false, if_pos rfl]
      exact congrArg (Except.map (fun s3 : State => s3.eqMerge k (intervalOf n))) hlog
    · refine evaluation_ok hidle hdue (heval.trans ?_)
      rw [hgood, hauto]
      exact hclose
    · refine evaluation_ok hidle hdue (heval.trans ?_)
      rw [hgood, hauto]
      exact eqAuto_of_hold hhold hwords hdecay hclose
  · intro hmap hclear hpool hentry
    obtain ⟨s', hnext, heqRun, hengq⟩ := eqNext_queues (c := rc) (r := { r with todo := l, done := r.done ++ [(k, d, p)] }) (l := rest)
      hmap hclear hpool hentry
    rw [← hl] at hnext
    refine ⟨s', copyCompletion_of_found hrun htodo hcmd hdone hnext, ?_, hengq⟩
    rw [hl]
    exact heqRun
  · intro hmap hclear hpool hentry
    obtain ⟨s', hnext, heqRun, hengq⟩ := eqNext_queues (c := rc) (r := { r with todo := l }) (l := rest) hmap hclear hpool hentry
    rw [← hl] at hnext
    refine ⟨s', copyCompletion_of_found (ok := false) hrun htodo hcmd rfl ?_, ?_, hengq⟩
    · have hbind (f : State → Except Unit State) : ((s.dropCmd die cmd.id).eqFail rc r (k, d, p)).bind f = f s2 := by
        rw [hfail]
        rfl
      exact (hbind _).trans hnext
    · rw [hl]
      exact heqRun

end Sys2Proof.Proofs

/-! PROOF. The arrival of an INVT whose invalidation performs a store of its sender's die (19 R428; 13 R299; 02 R43). -/
namespace Sys2Proof.Proofs
open Sys2Proof.Machine Sys2Proof.Laws

/-- A thread of die 1 with a slot, armed on a record in a scratchpad segment that is no longer its domain's. -/
def armedJoiner : Thread :=
  { probeThread with core := 256, region := 0x20000, st := .waiting .gang
                     cond := some (.gangTest { sdom := 0, record := 0 } (physAddr (padUnit 0) 8) none 0) }

/-- A store of die 1 that has not reached its global point. -/
def earlyStore : Early :=
  { tid := { sdom := 0, handle := 2 }, core := 256, ent := { va := 0x30000, pa := physAddr 0 0x30000, bytes := [0], leaf := none } }

/-- Two dies: the region's counters lie on die 0, its thread on die 1, whose next request to die 0 carries SEQ 5. -/
def pairState : State :=
  staleWords.foldl (fun s x => s.writeAs 0 (physAddr 0 x.1) (toBytes 8 x.2)) { State.reset with
    stage := .running, endies := 3, enstacks := 1, encores := 1 + 2 ^ 256, threads := [armedJoiner], early := [earlyStore]
    domains := [(0, { Domain.init with v := true, rootptr := 1 })], seqs := [(16, 5)]
    dies := [(0, { Die.init with gcache := [(0, probeGeo)] }), (1, { Die.init with gcache := [(0, probeGeo)] })] }

/-- TLBINV of every address of domain 0, from die 1 to die 0. -/
def pairPacket : Packet := { src := 1, dst := 0, op := 0x0D, sdom := 0, seq := 0, p := 0, payload := [0, 0, 0, 0] }

/-- The sequence numbers of the pair that are recorded as performed. -/
def recorded (s : State) : List Nat := Sparse.get [] s.performed 16

/-- What the statement says of the numbers recorded once such an INVT is answered: those of the pair before, and its own. -/
theorem invt_records (h : Obligations.PacketArrivals) {s : State} {p : Packet} (hkey : p.src * 16 + p.dst = 16) (hfresh : s.seenSeq p = false)
    (hnone : recorded s = []) (hctl : pktW p 0 = 0) (hall : pktW p 3 = 0)
    (hends : let l := (s.took p).tlbExtents (pktW p 1) allExtent
      ((s.took p).invalidateOn p.dst (pktW p 1) l).invalidatedOn p.dst (pktW p 1) l = true)
    (hstage : s.stage = .running) (hop : p.op = 0x0D) (hwords : wordsMatch p = true) (hlinked : s.linked p.src p.dst = true) :
    ∃ s', exec (.invt p) s = .next s' ∧ recorded s' = [p.seq] := by
  unfold Obligations.PacketArrivals at h
  obtain ⟨-, -, -, -, -, -, -, -, -, -, hinvt, -⟩ := h s p
  obtain ⟨hdone, -⟩ := hinvt hfresh hctl hall
  refine ⟨_, hdone hends hstage hop hwords hlinked, ?_⟩
  have hold : Sparse.get [] s.performed (p.src * 16 + p.dst) = [] := by
    rw [hkey]
    exact hnone
  rw [recorded, hkey]
  refine (get_set ..).trans ?_
  rw [if_pos rfl, ← hkey, hold]
  rfl

/-- The store that the invalidation performs has the joiner test its record and fault; its slot's charge is given back by a request of the
pair, which is recorded beside the packet. -/
theorem pairState_invt : ∃ s', exec (.invt pairPacket) pairState = .next s' ∧ recorded s' = [0, 5] := by
  refine ⟨_, rfl, ?_⟩
  decide +kernel

/-- Refutes O60: its clause for an INVT whose invalidation is over at once supposes that the invalidation records no request of the
packet's pair as performed. A store that the invalidation performs may end a wait by a fault; the update of a counter with which the slot's
charge is given back is then a request of the pair, where the counter's home is the die that the packet reaches. -/
theorem not_packetArrivals : ¬ Obligations.PacketArrivals := by
  intro h
  obtain ⟨s1, hs1, hstated⟩ := invt_records h (s := pairState) (p := pairPacket) rfl (by decide +kernel) (by decide +kernel) (by decide)
    (by decide) (by decide +kernel) (by decide +kernel) rfl (by decide) (by decide +kernel)
  obtain ⟨s2, hs2, hrecorded⟩ := pairState_invt
  obtain rfl := Host.Outcome.next.inj (hs1.symm.trans hs2)
  exact absurd (hstated.symm.trans hrecorded) (by decide)

end Sys2Proof.Proofs
